-- ==== Sys2Proof/Word.lean ====
section
/-!
DEFINITION. The word types of the die: bytes, and the 32-bit registers of its register pages.
-/

namespace Sys2Proof

/-- One byte. -/
abbrev Byte := BitVec 8

/-- One register of a register page (R8, R10). -/
abbrev Reg := BitVec 32

/-- A string of bytes in ascending address or offset order. -/
abbrev Bytes := List (BitVec 8)

end Sys2Proof
end

