-- ==== Sys2Proof/Syntax.lean ====
section
/-!
DEFINITION. The commands the block takes from outside: one constructor of `Instr` for each row of
the table of operations and events, with the operands that the outside gives it.

The table gives its rows no operands, so these are the model's own (notes/assumptions/1.md): a
message row names the mailbox whose inbound slot the Keeper reads, a port row carries the bytes
that arrived, and an event of a part carries what the part met (an upset, a measured value).
-/

namespace Sys2Proof

/-- What goes wrong in the parts of a worker while it runs one tile (R107, R108, R151, R195, R247, R459). -/
inductive Upset where
  /-- Nothing goes wrong. -/
  | none
  /-- A lane parity check fails (R151). -/
  | laneParity
  /-- A cell word is uncorrectable while the chain runs (R108). -/
  | cellUncorrectable
  /-- A cell word has one bit in error (R107). -/
  | cellCorrected
  /-- A cell word is uncorrectable during the copy-out, after `copied` bytes have reached the home (R459). -/
  | cellUncorrectableInCopyOut (copied : Nat)
  /-- A lane parity check fails during the copy-out of an earlier phase 2 after `copied` bytes (R459). -/
  | laneParityInCopyOut (copied : Nat)
  /-- The commit slot's tile CRC-32C does not verify at the last line (R459). -/
  | commitSlotCrc
  /-- A row-state word is uncorrectable (R195). -/
  | rowStateUncorrectable
  /-- A row-state word is corrected (R195). -/
  | rowStateCorrected
  /-- A root-store word of a slot is uncorrectable (R247). -/
  | rootStoreUncorrectable (slot : Fin 16)
  /-- A root-store word of a slot is corrected (R247). -/
  | rootStoreCorrected (slot : Fin 16)
  /-- A comb word the tile reads is uncorrectable (R107). -/
  | combUncorrectable (addr : BitVec 28)
  /-- A comb word the tile reads has one bit in error (R107). -/
  | combCorrected (addr : BitVec 28)
  /-- The tile CRC-32C of a ring slot does not verify at the last read (R36, R352, Table 1.7). -/
  | tileCrc
deriving DecidableEq, Repr, Inhabited

/-- What goes wrong in the parts of a forager while it runs one move unit. -/
inductive MoveUpset where
  /-- Nothing goes wrong. -/
  | none
  /-- A comb word the unit reads is uncorrectable (R107, R108). -/
  | combUncorrectable (addr : BitVec 28)
  /-- A comb word the unit reads has one bit in error (R107). -/
  | combCorrected (addr : BitVec 28)
  /-- The unit CRC-32C, the tile CRC-32C of a slot or the chunk CRC-32C fails (R354, R363, Table 12.10). -/
  | dataCheck
  /-- The forager's datapath parity fails (Table 14.1). -/
  | datapathParity
  /-- Every try of the transaction at this stack address meets an interface parity error (R362). -/
  | interfaceParity (addr : BitVec 39)
deriving DecidableEq, Repr, Inhabited

/-- What a memory port reports for the stack data a forager waits for (R362, R363). -/
inductive StackRead where
  /-- The data is good. -/
  | good
  /-- The stack corrected an error in it. -/
  | corrected
  /-- The data is uncorrectable at this stack address. -/
  | uncorrectable (addr : BitVec 39)
  /-- Every try of the transaction at this stack address met an interface parity error. -/
  | interfaceParity (addr : BitVec 39)
  /-- The unit CRC-32C fails at the unit's last line. -/
  | dataCheck
deriving DecidableEq, Repr, Inhabited

/-- What a patrol read of one line finds (R109). -/
inductive PatrolFinding where
  | clean
  /-- One bit of the 64-bit word `word` (0 to 15) of the line is in error. -/
  | corrected (word : Fin 16)
  /-- The 64-bit word `word` of the line is uncorrectable. -/
  | uncorrectable (word : Fin 16)
deriving DecidableEq, Repr, Inhabited

/-- A packet that a partner port's adapter acknowledges, with the flit retries it took (R344, R369). -/
structure PacketAck where
  port : Fin 8
  retries : BitVec 32
deriving DecidableEq, Repr, Inhabited

/-- What an image load meets after its claim (R298). -/
inductive LoadFailure where
  | none
  /-- A write of an archive copy fails, when `done` embedded tables have been archived. -/
  | archiveWrite (done : Nat)
  /-- The CRC-32C of a root-store bank mismatches twice, when `done` embedded tables stand in their banks. -/
  | bankCrc (done : Nat)
  /-- A region being written meets an uncorrectable error, when the Heirloom set stands in `done` frames. -/
  | combUncorrectable (done : Nat)
deriving DecidableEq, Repr, Inhabited

/-- What the link's FEC and the physical layer report with a frame (R380, R409). -/
structure FecReport where
  /-- Corrected symbols of the frame. -/
  corrected : Nat
  /-- Uncorrectable codewords of the frame; more than 0 makes the frame fail. -/
  uncorrected : Nat
deriving DecidableEq, Repr, Inhabited

/-- A discipline source of hive time (Table 13.1). -/
inductive TimeSource where
  | link (n : Fin 24)
  | ptp
  | pps
deriving DecidableEq, Repr, Inhabited

/-- What a PTP message tells the die's slave-only clock (R420); the coding of the messages is the
standard's, not the manual's. -/
inductive PtpMessage where
  /-- A Sync measurement on a domain: the grandmaster's identity, and the PTP time of this instant, in
  PTP seconds and ps. -/
  | sync (domain : BitVec 8) (grandmaster : BitVec 64) (ptpSeconds : Nat) (ps : Nat)
  /-- An Announce that makes the best master clock algorithm select another grandmaster. -/
  | announce (domain : BitVec 8) (grandmaster : BitVec 64)
deriving DecidableEq, Repr, Inhabited

/-- What the governor has measured in the period that ends (R428, R432, R442). -/
structure PowerSample where
  /-- Measured power of everything outside the frames, in mW. -/
  outsideMw : Nat
  /-- Mean power of the period, in mW. -/
  periodMw : Nat
  /-- Mean power of the last 20 µs, in mW. -/
  meanMw : Nat
  /-- Largest 1 µs power of the period, in mW. -/
  maxMw : Nat
  /-- Activity of frames 0 to 7 over the last 1 ms, in 2^−16. -/
  activity : List (BitVec 16)
  /-- Energy of frames 0 to 7 in the period, in µJ. -/
  energyUj : List Nat
deriving DecidableEq, Repr, Inhabited

/-- Who waits on a ring slot (R95). -/
inductive Waiter where
  | worker (w : Fin 68)
  | forager (g : Fin 32)
deriving DecidableEq, Repr, Inhabited

/-- An access through the telemetry and debug port (R80). -/
inductive DebugAccess where
  /-- The status words of one bank. -/
  | bankStatus (f : Fin 8) (bank : Fin 256)
  /-- A read of the aligned 64-bit comb word that holds an address. -/
  | readComb (addr : Nat)
  /-- A write of that word. -/
  | writeComb (addr : Nat) (data : BitVec 64)
deriving DecidableEq, Repr, Inhabited

/-- The commands of the block, one constructor for each row of the table of operations and events. -/
inductive Instr where
  /-- POWER_ON_RESET (R474). -/
  | powerOnReset (straps : BitVec 4)
  /-- COLD_RESET (R507). -/
  | coldReset
  /-- PORST_LOW (R502). -/
  | porstLow
  /-- FIRMWARE_START (R488). -/
  | firmwareStart
  /-- STACK_TRAINING_DONE (R357). -/
  | stackTrainingDone (m : Fin 4) (trained : Bool) (capacity : BitVec 8) (height : BitVec 5) (spareLanes : BitVec 8)
  /-- JOURNAL_SCAN (R340). -/
  | journalScan
  /-- PARTNER_TRAINING_DONE (R343). -/
  | partnerTrainingDone (p : Fin 8) (answered : Bool) (modules : BitVec 4) (rate32 : Bool)
  /-- LINK_TRAINING_DONE (R375). -/
  | linkTrainingDone (n : Fin 24) (signal : Bool) (lanes : BitVec 4)
  /-- FREE_RUNNING_JOIN (R417). -/
  | freeRunningJoin
  /-- KEEPER_WATCHDOG_EXPIRY (R477). -/
  | keeperWatchdogExpiry (both : Bool)
  /-- TRIAL_WATCHDOG_EXPIRY (R489). -/
  | trialWatchdogExpiry
  /-- TRIAL_BANK_GOOD (R489). -/
  | trialBankGood
  /-- THERMAL_TRIP (R509). -/
  | thermalTrip
  /-- TEMP_SENSOR_UPDATE (R505). -/
  | tempSensorUpdate (hottest : BitVec 8)
  /-- PMB_ALERT_ASSERT (R434). -/
  | pmbAlertAssert
  /-- PMB_ALERT_RELEASE (R434). -/
  | pmbAlertRelease
  /-- FLOW_STEP_EDGE (R440). -/
  | flowStepEdge (highNs : Nat)
  /-- SYNC_PPS_PULSE (R421). -/
  | syncPpsPulse (highNs : Nat)
  /-- SYNC_REF_LOSS (R500). -/
  | syncRefLoss
  /-- RAIL_CURRENT_SAMPLE (R505). -/
  | railCurrentSample (rail : Fin 6) (sample : BitVec 12)
  /-- MESSAGE_FRAGMENT (R313). -/
  | messageFragment (n : Fin 16)
  /-- STATUS (R302). -/
  | status (n : Fin 16)
  /-- FORWARD (R316). -/
  | forward (n : Fin 16)
  /-- IMAGE_WRITE (R319). -/
  | imageWrite (n : Fin 16)
  /-- IMAGE_LOAD (R320). -/
  | imageLoad (n : Fin 16)
  /-- IMAGE_LOAD_PROCEED (R296). -/
  | imageLoadProceed (failure : LoadFailure)
  /-- IMAGE_UNLOAD (R321). -/
  | imageUnload (n : Fin 16)
  /-- KILL (R321). -/
  | kill (n : Fin 16)
  /-- SUBMIT (R328). -/
  | submit (n : Fin 16)
  /-- ACCEPT_RECORD_WRITTEN (R329). -/
  | acceptRecordWritten
  /-- QUERY (R336). -/
  | query (n : Fin 16)
  /-- NOTICE_ACK (R511). -/
  | noticeAck (n : Fin 16)
  /-- TABLE_LOAD (R322). -/
  | tableLoad (n : Fin 16)
  /-- TABLE_SHADOW_WRITE (R237). -/
  | tableShadowWrite
  /-- TABLE_RETIRE (R323). -/
  | tableRetire (n : Fin 16)
  /-- ARCHIVE_RELEASE (R243). -/
  | archiveRelease (generation : BitVec 32)
  /-- REG_READ_PAGE (R324). -/
  | regReadPage (n : Fin 16)
  /-- REG_READ_WORKER (R324). -/
  | regReadWorker (n : Fin 16)
  /-- REG_WRITE_PAGE (R324). -/
  | regWritePage (n : Fin 16)
  /-- REG_WRITE_WORKER (R324). -/
  | regWriteWorker (n : Fin 16)
  /-- REG_WRITE_FRAME (R324). -/
  | regWriteFrame (n : Fin 16)
  /-- REG_WRITE_GROUP (R324). -/
  | regWriteGroup (n : Fin 16)
  /-- REG_WRITE_ALL (R324). -/
  | regWriteAll (n : Fin 16)
  /-- GROUP_SET (R324). -/
  | groupSet (n : Fin 16)
  /-- BIST (R325). -/
  | bist (n : Fin 16)
  /-- BIST_START (R325). -/
  | bistStart (w : Fin 68)
  /-- ROW_STATE_TEST_DONE (R196). -/
  | rowStateTestDone (w : Fin 68) (pass : Bool)
  /-- ROW_STATE_SCRUB_DONE (R196). -/
  | rowStateScrubDone (w : Fin 68)
  /-- PORT_STATUS (R373). -/
  | portStatus (n : Fin 16)
  /-- LINK_STATUS (R412). -/
  | linkStatus (n : Fin 16)
  /-- LINK_ROUTE (R382). -/
  | linkRoute (n : Fin 16)
  /-- LINK_CTL_RETRAIN (R412). -/
  | linkCtlRetrain (n : Fin 16)
  /-- LINK_CTL_END_QUARANTINE (R391). -/
  | linkCtlEndQuarantine (n : Fin 16)
  /-- LINK_CTL_DISABLE (R412). -/
  | linkCtlDisable (n : Fin 16)
  /-- LINK_CTL_ENABLE (R412). -/
  | linkCtlEnable (n : Fin 16)
  /-- TIME_STATUS (R448). -/
  | timeStatus (n : Fin 16)
  /-- TIME_CFG_SET_MODE (R419). -/
  | timeCfgSetMode (n : Fin 16)
  /-- TIME_CFG_SET_EPOCH (R420). -/
  | timeCfgSetEpoch (n : Fin 16)
  /-- TIME_CFG_SET_PPS_SECOND (R421). -/
  | timeCfgSetPpsSecond (n : Fin 16)
  /-- TIME_CFG_REJOIN (R424). -/
  | timeCfgRejoin (n : Fin 16)
  /-- FLOW_SET (R436). -/
  | flowSet (n : Fin 16)
  /-- FLOW_STATUS (R448). -/
  | flowStatus (n : Fin 16)
  /-- TELEM_STREAM_OPEN (R445). -/
  | telemStreamOpen (n : Fin 16)
  /-- TELEM_STREAM_CLOSE (R426). -/
  | telemStreamClose (n : Fin 16)
  /-- TELEM_READ (R448). -/
  | telemRead (n : Fin 16)
  /-- TIME_MARK (R426). -/
  | timeMark (n : Fin 16)
  /-- TIME_MARK_FIRE (R448). -/
  | timeMarkFire (c : Fin 16)
  /-- FAULT_STATUS (R473). -/
  | faultStatus (n : Fin 16)
  /-- PROGRESS_MAP (R472). -/
  | progressMap (n : Fin 16)
  /-- RESOLVE_RESUME (R457). -/
  | resolveResume (n : Fin 16)
  /-- RESOLVE_RESTART (R466). -/
  | resolveRestart (n : Fin 16)
  /-- RESOLVE_ABANDON (R457). -/
  | resolveAbandon (n : Fin 16)
  /-- RESET_COLD_REQUEST (R476). -/
  | resetColdRequest (n : Fin 16)
  /-- RESET_DOMAIN_REQUEST (R476). -/
  | resetDomainRequest (n : Fin 16)
  /-- RESET_WORKER_REQUEST (R476). -/
  | resetWorkerRequest (n : Fin 16)
  /-- LC_CHALLENGE (R482). -/
  | lcChallenge (n : Fin 16)
  /-- LC_NONCE_EXPIRY (R482). -/
  | lcNonceExpiry
  /-- LC_CHANGE (R482). -/
  | lcChange (n : Fin 16)
  /-- LC_WIPE_COMPLETE (R483). -/
  | lcWipeComplete (programmed : Bool)
  /-- KEY_REVOKE (R481). -/
  | keyRevoke (n : Fin 16)
  /-- DEBUG_UNLOCK (R485). -/
  | debugUnlock (n : Fin 16)
  /-- DEBUG_LOCK (R485). -/
  | debugLock (n : Fin 16)
  /-- FW_WRITE (R490). -/
  | fwWrite (n : Fin 16)
  /-- FW_COMMIT (R490). -/
  | fwCommit (n : Fin 16)
  /-- FW_ACTIVATE_NOW (R491). -/
  | fwActivateNow (n : Fin 16)
  /-- FW_ACTIVATE_HANDOVER (R491). -/
  | fwActivateHandover
  /-- FW_ACTIVATE_REJOIN (R491). -/
  | fwActivateRejoin
  /-- FW_ACTIVATE_AT_RESET (R491). -/
  | fwActivateAtReset (n : Fin 16)
  /-- SITE_WRITE_DATA (R490). -/
  | siteWriteData (n : Fin 16)
  /-- SITE_WRITE_COMMIT (R490). -/
  | siteWriteCommit (n : Fin 16)
  /-- SERVICE_SUBSTITUTE (R493). -/
  | serviceSubstitute (n : Fin 16)
  /-- SERVICE_RELEASE (R493). -/
  | serviceRelease (n : Fin 16)
  /-- SERVICE_RETRAIN (R493). -/
  | serviceRetrain (n : Fin 16)
  /-- SERVICE_REPAIR (R494). -/
  | serviceRepair (n : Fin 16)
  /-- SERVICE_WITHDRAW (R493). -/
  | serviceWithdraw (n : Fin 16)
  /-- SPARE_HANDOVER (R18). -/
  | spareHandover (k : Fin 4)
  /-- IDENTITY_RETURN (R465). -/
  | identityReturn (k : Fin 4)
  /-- MBX_INBOUND_WRITE (R306). -/
  | mbxInboundWrite (n : Fin 16) (offset : Nat) (data : List (BitVec 8))
  /-- MBX_POST (R306). -/
  | mbxPost (n : Fin 16)
  /-- MBX_OUT_ACK (R306). -/
  | mbxOutAck (n : Fin 16)
  /-- OUTBOUND_SLOT_FILL (R307). -/
  | outboundSlotFill (n : Fin 16)
  /-- COMPLETION_NOTICE_SEND (R333). -/
  | completionNoticeSend (source : BitVec 22)
  /-- NOTICE_RETRANSMIT (R333). -/
  | noticeRetransmit (source : BitVec 22)
  /-- MAILBOX_REMOTE_REPLY (R317). -/
  | mailboxRemoteReply (n : Fin 16)
  /-- I3C_PRIVATE_WRITE (R309). -/
  | i3cPrivateWrite (data : List (BitVec 8))
  /-- I3C_PRIVATE_READ (R309). -/
  | i3cPrivateRead (count : Nat)
  /-- SETDASA (R309). -/
  | setdasa (staticAddr : BitVec 7) (dynamicAddr : BitVec 7)
  /-- ENTDAA (R309). -/
  | entdaa (dynamicAddr : BitVec 7)
  /-- RSTDAA (R309). -/
  | rstdaa
  /-- ENEC (R309). -/
  | enec
  /-- DISEC (R309). -/
  | disec
  /-- GETPID (R309). -/
  | getpid
  /-- GETBCR (R309). -/
  | getbcr
  /-- GETDCR (R309). -/
  | getdcr
  /-- GETSTATUS (R309). -/
  | getstatus
  /-- MGMT_MESSAGE_FRAME (R310). -/
  | mgmtMessageFrame (addr : BitVec 128) (port : BitVec 16) (payload : List (BitVec 8))
  /-- MGMT_IMAGE_DATA (R319). -/
  | mgmtImageData (addr : BitVec 128) (port : BitVec 16) (payload : List (BitVec 8))
  /-- NEIGHBOUR_REQUEST (R309). -/
  | neighbourRequest (addr : BitVec 128) (fromAddr : BitVec 128)
  /-- PTP_MESSAGE (R420). -/
  | ptpMessage (addr : BitVec 128) (message : PtpMessage)
  /-- TSP_DATA (R350). -/
  | tspData (p : Fin 8) (packet : List (BitVec 8))
  /-- TSP_CREDIT (R348). -/
  | tspCredit (p : Fin 8) (packet : List (BitVec 8))
  /-- TSP_MAILBOX (R355). -/
  | tspMailbox (p : Fin 8) (packet : List (BitVec 8))
  /-- TSP_MBX_ACK (R355). -/
  | tspMbxAck (p : Fin 8) (packet : List (BitVec 8))
  /-- TSP_MBX_BUSY (R355). -/
  | tspMbxBusy (p : Fin 8) (packet : List (BitVec 8))
  /-- TSP_RING_OPEN (R353). -/
  | tspRingOpen (p : Fin 8) (packet : List (BitVec 8))
  /-- TSP_RING_CLOSE (R348). -/
  | tspRingClose (p : Fin 8) (packet : List (BitVec 8))
  /-- TSP_NOP (R349). -/
  | tspNop (p : Fin 8) (packet : List (BitVec 8))
  /-- TSP_NOP_SEND (R349). -/
  | tspNopSend (p : Fin 8)
  /-- PARTNER_LINK_LOSS (R344). -/
  | partnerLinkLoss (p : Fin 8)
  /-- WAGGLE_DATA (R400). -/
  | waggleData (n : Fin 24) (frame : List (BitVec 8)) (fec : FecReport)
  /-- WAGGLE_MAILBOX (R410). -/
  | waggleMailbox (n : Fin 24) (frame : List (BitVec 8)) (fec : FecReport)
  /-- LINK_MAILBOX_DELIVER (R410). -/
  | linkMailboxDeliver (n : Fin 24)
  /-- WAGGLE_RING_OPEN (R393). -/
  | waggleRingOpen (n : Fin 24) (frame : List (BitVec 8)) (fec : FecReport)
  /-- WAGGLE_RING_CLOSE (R393). -/
  | waggleRingClose (n : Fin 24) (frame : List (BitVec 8)) (fec : FecReport)
  /-- RCREDIT (R394). -/
  | rcredit (n : Fin 24) (frame : List (BitVec 8)) (fec : FecReport)
  /-- CHECK (R405). -/
  | check (n : Fin 24) (frame : List (BitVec 8)) (fec : FecReport)
  /-- TIME_REQ (R409). -/
  | timeReq (n : Fin 24) (frame : List (BitVec 8)) (fec : FecReport)
  /-- WAGGLE_TIME_RESP (R409). -/
  | waggleTimeResp (n : Fin 24) (frame : List (BitVec 8)) (fec : FecReport)
  /-- HELLO (R385). -/
  | hello (n : Fin 24) (frame : List (BitVec 8)) (fec : FecReport)
  /-- CERT (R386). -/
  | cert (n : Fin 24) (frame : List (BitVec 8)) (fec : FecReport)
  /-- PROVE (R386). -/
  | prove (n : Fin 24) (frame : List (BitVec 8)) (fec : FecReport)
  /-- FINISH (R387). -/
  | finish (n : Fin 24) (frame : List (BitVec 8)) (fec : FecReport)
  /-- RESUME (R407). -/
  | resume (n : Fin 24) (frame : List (BitVec 8)) (fec : FecReport)
  /-- QUARANTINE (R391). -/
  | quarantine (n : Fin 24) (frame : List (BitVec 8)) (fec : FecReport)
  /-- ACK (R380). -/
  | ack (n : Fin 24) (frame : List (BitVec 8)) (fec : FecReport)
  /-- NAK (R381). -/
  | nak (n : Fin 24) (frame : List (BitVec 8)) (fec : FecReport)
  /-- ACK_TIMER (R380). -/
  | ackTimer (n : Fin 24)
  /-- REPLAY_TIMEOUT (R381). -/
  | replayTimeout (n : Fin 24)
  /-- LINK_FAIL (R381). -/
  | linkFail (n : Fin 24)
  /-- HANDSHAKE_TIMEOUT (R386). -/
  | handshakeTimeout (n : Fin 24)
  /-- HANDSHAKE_RETRY (R389). -/
  | handshakeRetry (n : Fin 24)
  /-- QUARANTINE_EXPIRY (R391). -/
  | quarantineExpiry (n : Fin 24)
  /-- SESSION_RESUME_TIMEOUT (R408). -/
  | sessionResumeTimeout (n : Fin 24)
  /-- TIME_REQ_LAUNCH (R409). -/
  | timeReqLaunch
  /-- SOURCE_LOSS (R418). -/
  | sourceLoss (source : TimeSource)
  /-- SOURCE_CHANGE (R419). -/
  | sourceChange
  /-- TIME_FAULT_EXCLUSION_END (R424). -/
  | timeFaultExclusionEnd (source : TimeSource)
  /-- GOVERNOR_PERIOD (R428). -/
  | governorPeriod (sample : PowerSample)
  /-- FLOW_POINT_BEGIN (R437). -/
  | flowPointBegin
  /-- FLOW_LEAD (R431). -/
  | flowLead
  /-- FRAME_GATED (R26). -/
  | frameGated (f : Fin 8)
  /-- VCLK_SWITCH (R503). -/
  | vclkSwitch
  /-- TELEM_STREAM_PERIOD (R445). -/
  | telemStreamPeriod (c : Fin 16)
  /-- LOG_WRITE (R447). -/
  | logWrite
  /-- TIM_NOW_LO_READ (R415). -/
  | timNowLoRead
  /-- WRK_CYC_LO_READ (R177). -/
  | wrkCycLoRead (w : Fin 68) (k : Fin 5)
  /-- PWR_FRAME_ENERGY_LO_READ (R442). -/
  | pwrFrameEnergyLoRead (f : Fin 8)
  /-- REGISTER_WRITE (R10). -/
  | registerWrite (target : Option (Fin 68)) (offset : BitVec 32) (value : BitVec 32)
  /-- WORK_ORDER_START (R331). -/
  | workOrderStart (r : Fin 8)
  /-- MICRO_VECTOR_OP (R143). -/
  | microVectorOp (r : Fin 8)
  /-- CHAIN (R171). -/
  | chain (r : Fin 8)
  /-- CONVERT (R172). -/
  | convert (r : Fin 8)
  /-- ROW_GATHER (R173). -/
  | rowGather (r : Fin 8)
  /-- RSUM (R198). -/
  | rsum (r : Fin 8)
  /-- RSUMSQ (R198). -/
  | rsumsq (r : Fin 8)
  /-- RMEAN (R198). -/
  | rmean (r : Fin 8)
  /-- RSUM2 (R198). -/
  | rsum2 (r : Fin 8)
  /-- RMAX (R198). -/
  | rmax (r : Fin 8)
  /-- RMIN (R198). -/
  | rmin (r : Fin 8)
  /-- RAMAX (R198). -/
  | ramax (r : Fin 8)
  /-- RARGMAX (R198). -/
  | rargmax (r : Fin 8)
  /-- RARGMIN (R198). -/
  | rargmin (r : Fin 8)
  /-- NSTATS (R201). -/
  | nstats (r : Fin 8)
  /-- RMSSTATS (R201). -/
  | rmsstats (r : Fin 8)
  /-- NAPPLY (R203). -/
  | napply (r : Fin 8)
  /-- SMAX_STATS (R205). -/
  | smaxStats (r : Fin 8)
  /-- SMAX_APPLY (R207). -/
  | smaxApply (r : Fin 8)
  /-- SMAX_BLOCK (R208). -/
  | smaxBlock (r : Fin 8)
  /-- SMAX_RESCALE (R209). -/
  | smaxRescale (r : Fin 8)
  /-- SMAX_SEED (R211). -/
  | smaxSeed (r : Fin 8)
  /-- SMAX_SEED_APPLY (R211). -/
  | smaxSeedApply (r : Fin 8)
  /-- ADAMW (R257). -/
  | adamw (r : Fin 8)
  /-- ADAM_L2 (R257). -/
  | adamL2 (r : Fin 8)
  /-- MOMENTUM (R257). -/
  | momentum (r : Fin 8)
  /-- NWATCH (R263). -/
  | nwatch (r : Fin 8)
  /-- FCOPY (R367). -/
  | fcopy (r : Fin 8)
  /-- FLOAD (R367). -/
  | fload (r : Fin 8)
  /-- FSTORE (R367). -/
  | fstore (r : Fin 8)
  /-- FSEND (R369). -/
  | fsend (r : Fin 8)
  /-- FTRANS (R366). -/
  | ftrans (r : Fin 8)
  /-- FTRANS_STORE (R366). -/
  | ftransStore (r : Fin 8)
  /-- CSEND (R403). -/
  | csend (r : Fin 8)
  /-- CLAND (R402). -/
  | cland (r : Fin 8)
  /-- CCHECK (R405). -/
  | ccheck (r : Fin 8)
  /-- TFENCE (R240). -/
  | tfence (r : Fin 8)
  /-- UNIT_GRANT (R138). -/
  | unitGrant (w : Fin 68) (idleCycles : Nat)
  /-- UNIT_STEAL (R139). -/
  | unitSteal (w : Fin 68) (idleCycles : Nat)
  /-- TILE_ISSUE (R95). -/
  | tileIssue (w : Fin 68) (upset : Upset) (ringCycles : Nat) (conflictCycles : Nat)
  /-- CLOSE_UNIT (R261). -/
  | closeUnit (w : Fin 68)
  /-- SHADOW_SAMPLE_COMPUTE (R267). -/
  | shadowSampleCompute (w : Fin 68)
  /-- GUARD_LEVEL_ADVANCE (R273). -/
  | guardLevelAdvance (r : Fin 8)
  /-- STARVE_TIMEOUT (R97). -/
  | starveTimeout (waiter : Waiter)
  /-- BLOCK_TIMEOUT (R97). -/
  | blockTimeout (waiter : Waiter)
  /-- FORAGER_UNIT_TAKE (R368). -/
  | foragerUnitTake (g : Fin 32) (upset : MoveUpset)
  /-- STACK_WRITE_ACK (R368). -/
  | stackWriteAck (m : Fin 4) (g : Fin 32)
  /-- STACK_READ_RETURN (R362). -/
  | stackReadReturn (m : Fin 4) (g : Fin 32) (result : StackRead)
  /-- FSEND_CREDIT_TIMEOUT (R369). -/
  | fsendCreditTimeout (g : Fin 32)
  /-- CSEND_CREDIT_TIMEOUT (R403). -/
  | csendCreditTimeout (g : Fin 32)
  /-- LANDING_TIMEOUT (R402). -/
  | landingTimeout (n : Fin 24)
  /-- CHECKPOINT_TIMEOUT (R405). -/
  | checkpointTimeout (r : Fin 8)
  /-- NARROW_FORCED_GRANT (R78). -/
  | narrowForcedGrant (f : Fin 8) (bank : Fin 256) (waited : BitVec 7)
  /-- SCRUB_COMPLETE (R104). -/
  | scrubComplete (f : Fin 8)
  /-- PATROL_READ (R109). -/
  | patrolRead (f : Fin 8) (bank : Fin 256) (line : Fin 1024) (finding : PatrolFinding)
  /-- STACK_REFRESH (R475). -/
  | stackRefresh (m : Fin 4)
  /-- STACK_RFM_REQUEST (R356). -/
  | stackRfmRequest (m : Fin 4)
  /-- STACK_POWER_DOWN (R356). -/
  | stackPowerDown (m : Fin 4)
  /-- STACK_FAILURE (R362). -/
  | stackFailure (m : Fin 4)
  /-- JOURNAL_COPY_COMPLETE (R337). -/
  | journalCopyComplete
  /-- LANE_REPAIR_COMPLETE (R494). -/
  | laneRepairComplete (m : Fin 4)
  /-- LANE_REPAIR_TIMEOUT (R494). -/
  | laneRepairTimeout (m : Fin 4)
  /-- JOURNAL_CHECKPOINT (R339). -/
  | journalCheckpoint
  /-- DELIVERED_BATCH (R339). -/
  | deliveredBatch
  /-- PROGRESS_RECORD (R460). -/
  | progressRecord
  /-- SOURCE_TABLE_EXPIRY (R330). -/
  | sourceTableExpiry (source : BitVec 22)
  /-- RUN_FAULT_ABANDON (R455). -/
  | runFaultAbandon (r : Fin 8)
  /-- RUN_FAULT_STOP (R457). -/
  | runFaultStop (r : Fin 8)
  /-- COMMIT_SLOT_DRAIN (R459). -/
  | commitSlotDrain (w : Fin 68)
  /-- DRAIN_TIMEOUT (R459). -/
  | drainTimeout (w : Fin 68)
  /-- READMISSION_STEP_DONE (R465). -/
  | readmissionStepDone (w : Fin 68) (pass : Bool)
  /-- WORKER_ADMIT (R465). -/
  | workerAdmit (w : Fin 68)
  /-- FRAME_DOMAIN_RESET (R452). -/
  | frameDomainReset (f : Fin 8)
  /-- RING_REBUILD (R461). -/
  | ringRebuild (r : Fin 8) (ring : Nat)
  /-- FORAGER_RESET (R452). -/
  | foragerReset (g : Fin 32)
  /-- KEEPER_PAIR_SWITCH (R37). -/
  | keeperPairSwitch
  /-- KEEPER_PAIR_RESYNC (R452). -/
  | keeperPairResync
  /-- REPLAY_TABLE_INSTALL (R244). -/
  | replayTableInstall (r : Fin 8)
  /-- RST_N_RELEASE (R507). -/
  | rstNRelease
  /-- SYNC_REF_LOCK (R500). -/
  | syncRefLock
  /-- STACK_SUPPLY_LOSS (R475). -/
  | stackSupplyLoss
  /-- TELEMETRY_DEBUG_PORT_ACCESS (R80). -/
  | telemetryDebugPortAccess (access : DebugAccess)
  /-- ADAPTER_PACKET_ACK (R369). -/
  | adapterPacketAck (p : PacketAck)
deriving DecidableEq, Repr

end Sys2Proof
end

