-- ==== Sys2Proof/Decode.lean ====
section
/-!
DEFINITION. The command that a word of the table's bits spells. No row of the table of operations
and events has bits (the die takes its commands at its ports, pins and mailboxes; the words of its
messages, packets and frames are operands), so no word spells a command.
-/

namespace Sys2Proof

/-- The command spelled by the `nbits`-bit word `w`: none, since no row of the table gives bits. -/
def decodeTableWord (_nbits _w : Nat) : Option Instr := none

end Sys2Proof
end

