-- ==== Sys2Proof/Machine/State.lean ====
section
/-!
DEFINITION. Everything the manual gives the die to hold, as plain data, and the state after reset.

Names follow the manual's; each structure cites the rule or table that names it. Times are hive
times in units of 2^−16 ns (a `Nat`: 64-bit count of ns and 16-bit fraction, R413), wall times are
ns. Reset values are the manual's; where it gives none the field's docstring says so.
-/

namespace Sys2Proof.Machine

/-- Why a command stops the model. -/
inductive Fault where
  /-- The command names an address that the die does not have: a comb address is 28 bits wide (R71).
  Raised by TELEMETRY_DEBUG_PORT_ACCESS only. Safe: the model stops where nothing is defined. -/
  | addressOutside (addr : Nat)
deriving DecidableEq, Repr

/-- Why the model gives a command no meaning. -/
inductive Refusal where
  /-- Raised by an arm of `exec` for a command that is not modelled yet. Safe. -/
  | notModelled (mnemonic : String)
deriving DecidableEq, Repr

/-! ### Images (chapter 9) and instructions (chapter 4) as parsed -/

/-- Region record (Table 9.5). -/
structure Region where
  base : Nat
  size : Nat
  kind : Nat
  access : Nat
  lineage : Nat
deriving DecidableEq, Repr, Inhabited

/-- Ring declaration record (Table 3.2). Timeouts in µs as declared. -/
structure RingDecl where
  base : Nat
  slotSize : Nat
  slotCount : Nat
  producerKind : Nat
  consumerKind : Nat
  producerIndex : Nat
  tileMapped : Bool
  starveTimeout : Nat
  blockTimeout : Nat
deriving DecidableEq, Repr, Inhabited

/-- Table slot record (Table 9.8). -/
structure SlotRec where
  slot : Nat
  kind : Nat
  paths : Nat
  hlBf16 : Nat
  hlFp16 : Nat
  fileOffset : Nat
  fileLength : Nat
deriving DecidableEq, Repr, Inhabited

/-- Shadow record (Table 9.10). -/
structure ShadowRec where
  entry : Nat
  log2N : Nat
  fmt : Nat
  instr : Nat
deriving DecidableEq, Repr, Inhabited

/-- Guard record (Table 9.11). -/
structure GuardRec where
  entry : Nat
  topLevel : Nat
  layerTag : Nat
  firstInstr : Nat
  count : Nat
  promoRegion : Nat
  variants : List Nat
deriving DecidableEq, Repr, Inhabited

/-- Entry record (Table 9.12). -/
structure EntryRec where
  slotOffset : Nat
  slotCount : Nat
  paramLength : Nat
deriving DecidableEq, Repr, Inhabited

/-- The declarations of an image (Tables 9.1 to 9.12). -/
structure Image where
  imageId : Nat
  frameMask : BitVec 8
  partnerMask : BitVec 8
  linkMask : BitVec 24
  numericMode : Nat
  flushA : BitVec 32
  flushB : BitVec 32
  paramRegion : Nat
  regions : List Region
  rings : List RingDecl
  seedDeclared : BitVec 8
  seeds : List (BitVec 64)
  /-- Used bit and maximum of each shape entry (Table 9.7); empty without a shapes section. -/
  shapes : List (Bool × Nat)
  slots : List SlotRec
  /-- Function identifier and format of each Heirloom pair (Table 9.9). -/
  heirloom : List (BitVec 32 × Nat)
  shadows : List ShadowRec
  guards : List GuardRec
  entries : List EntryRec
  /-- Offset and size of the program section, and offset of the table data section, in the image. -/
  programOffset : Nat
  programSize : Nat
  tableOffset : Nat
  tableSize : Nat
deriving DecidableEq, Repr, Inhabited

/-- Tensor descriptor (Tables 4.4 and 4.5) with its role (Table 4.6). -/
structure Desc where
  role : Nat
  fmt : Nat
  base : Nat
  sizes : List Nat
  dyn : List Bool
  dynBase : Nat
  strides : List Int
  scaled : Bool
  separate : Bool
  scaleDesc : Nat
  bscaleReserved : Nat
  conv : BitVec 8
deriving DecidableEq, Repr, Inhabited

/-- A chain stage: its three bytes (Table 4.1). -/
structure Stage where
  b0 : BitVec 8
  b1 : BitVec 8
  b2 : BitVec 8
deriving DecidableEq, Repr, Inhabited

/-- One instruction: a macro-instruction (Table 4.1, Table 4.2) or a micro vector op (Table 4.9),
whose operands op0, op1, op2 stand as descriptors 0, 1 and 2. -/
structure PInstr where
  micro : Bool
  opcode : Nat
  chainLen : Nat
  flags : BitVec 16
  layerTag : Nat
  seedIndex : Nat
  shapeSrc : Nat
  roles : BitVec 16
  reduceMask : Nat
  n3 : BitVec 32
  n4 : BitVec 32
  imm0 : BitVec 32
  imm1 : BitVec 32
  /-- Micro op: bytes 2 to 3 and byte 7 (count and dyn_slot, Table 4.9); otherwise 0. -/
  count : BitVec 16
  dynSlot : BitVec 8
  descs : List Desc
  stages : List Stage
  /-- The instruction's own bytes, for the reserved-field checks. -/
  raw : List (BitVec 8)
deriving DecidableEq, Repr, Inhabited

/-! ### Units, orders and runs -/

/-- A unit of an issued instruction (R132, R367, R402). -/
structure UnitRef where
  instr : Nat
  unit : Nat
deriving DecidableEq, Repr, Inhabited

/-- The resolved iteration of an instruction (R123, R124, R128, R129). -/
structure Tiling where
  /-- E0, E1, E2, N3, N4. -/
  ext : List Nat
  /-- t0, t1, t2. -/
  shape : List Nat
  /-- n0, n1, n2, N3, N4. -/
  counts : List Nat
  /-- Elements per lane, q. -/
  q : Nat
deriving DecidableEq, Repr, Inhabited

/-- An instruction that has issued and not yet committed (R113, R220, R255). -/
structure Issued where
  instr : Nat
  level : Nat
  op : PInstr
  /-- Resolved sizes of each descriptor (R123). -/
  sizes : List (List Nat)
  tiling : Tiling
  /-- The generation bound for each of the 16 slots; 0 for a slot not named (R220). -/
  gens : List (BitVec 32)
  /-- The hyperparameter record read at issue (R256); empty otherwise. -/
  hyper : List (BitVec 8)
  /-- Unit indices, ascending; for a move, the unit numbers. -/
  units : List Nat
  /-- Units that have committed. -/
  committed : List Nat
  /-- Base sequence of each ring of the image for this instruction (R93). -/
  ringBase : List Nat
  /-- The stack base of a move (R365). -/
  stackBase : Nat
  /-- The close unit has entered its tally (R261). -/
  closing : Bool
  /-- Chunk elements of a collective (R399); 0 otherwise. -/
  chunk : Nat
deriving DecidableEq, Repr, Inhabited

/-- Work-order states (Table 10.14); state 0, unknown, is the absence of the order. -/
inductive OrderState where
  | accepted
  | running
  | partial_
  | complete
  | abandoned
deriving DecidableEq, Repr, Inhabited

/-- The progress of one instruction of an order (R458, R460, R472). -/
structure Progress where
  instr : Nat
  /-- Committed units while the Keeper state survives. -/
  live : List Nat
  /-- Units that a PROGRESS record holds. -/
  durable : List Nat
  /-- The whole instruction has committed. -/
  done : Bool
  /-- Number of units, once issued. -/
  units : Nat
  /-- When the last PROGRESS record of it was written (wall ns). -/
  recordedAt : Nat
deriving DecidableEq, Repr, Inhabited

/-- A work order (R326 to R333, R460). -/
structure Order where
  number : BitVec 64
  state : OrderState
  run : Nat
  imageId : Nat
  entry : Nat
  params : List (BitVec 8)
  shapes : List (BitVec 32)
  seedsPresent : Bool
  seeds : List (BitVec 64)
  acceptStamp : Nat
  endStamp : Nat
  /-- The fault or kill code behind state partial or abandoned. -/
  code : BitVec 16
  /-- 0 not sent; 1 sent, not acknowledged; 2 acknowledged; 3 acknowledged in a DELIVERED record. -/
  notice : Nat
  noticeSentAt : Nat
  /-- Index of the first instruction not issued. -/
  nextIssue : Nat
  progress : List Progress
  /-- Journaled level of each guarded layer, by layer tag (R273). -/
  levels : List (Nat × Nat)
  /-- Instruction and generations of the START record and of each FENCE record (R242). -/
  startGens : List (BitVec 32)
  fenceGens : List (Nat × List (BitVec 32))
  /-- Region records made invalid by a guarded overflow or a torn tile (R274, R459). -/
  invalid : List Nat
  /-- A partial order that waits for RESOLVE (R457). -/
  awaiting : Bool
  /-- A 0x0222 redo has been made at this comb word (R456). -/
  redoneAt : List Nat
  /-- The ACCEPT record is known to lie only in stacks that did not return (R469). -/
  acceptLost : Bool
  /-- The progress is what the journal held at the scan; the order has not executed since (R466, R472). -/
  fromJournal : Bool
  /-- Once the image has left its run: instr_next, written_map and valid_map as they were (R336, R449). -/
  ended : Option (Nat × Nat × Nat)
deriving DecidableEq, Repr, Inhabited

/-- Token of a ring slot (R92, R94), with the tile CRC-32C held beside it (R352). -/
structure Token where
  capped : Bool
  lap : BitVec 16
  crc : Option (BitVec 32)
deriving DecidableEq, Repr, Inhabited

/-- A tile or chunk that is partly landed (R350, R400). -/
structure Partial where
  seq : Nat
  /-- End of the last packet or frame within the slot or chunk. -/
  next : Nat
  crc : BitVec 32
deriving DecidableEq, Repr, Inhabited

/-- A sequence that a CLAND has armed (R394, R402). -/
structure Armed where
  seq : Nat
  instr : Nat
  chunk : Nat
  plan : Nat
deriving DecidableEq, Repr, Inhabited

/-- A ring of a run. -/
structure Ring where
  decl : RingDecl
  tokens : List Token
  /-- Slots passed by the producers and the consumers, in the order of their own writes and reads (R93). -/
  prodSeq : Nat
  consSeq : Nat
  /-- Slots passed on the producer and consumer side by earlier instructions (R93, tile-mapped base). -/
  prodBase : Nat
  consBase : Nat
  /-- Sequences at or above a rebuild's low whose consuming unit has committed (R461). -/
  passes : List Nat
  /-- Sequences whose consuming units have committed (R461, R462). -/
  consumed : List Nat
  /-- RING_OPEN has been sent and RING_CLOSE has not (R347, R393). -/
  opened : Bool
  /-- Sequences granted to the port and not yet used (R348, R394). -/
  credits : List Nat
  partials : List Partial
  armed : List Armed
  armedCount : Nat
deriving DecidableEq, Repr, Inhabited

/-- The first trip that the walkers saw in a guarded layer (R271, Table 8.6). -/
structure Trip where
  instr : Nat
  layerTag : Nat
  level : Nat
  tile : Nat
  cause : BitVec 16
  stamp : Nat
deriving DecidableEq, Repr, Inhabited

/-- A run fault whose stop is in progress: the walkers have stopped granting (R455, R457). -/
structure RunFault where
  code : BitVec 16
  instr : Nat
  unit : Nat
deriving DecidableEq, Repr, Inhabited

/-- One bank of a root-store slot (R218): generation tag and the table's bytes. -/
structure Bank where
  gen : BitVec 32
  file : List (BitVec 8)
deriving DecidableEq, Repr, Inhabited

/-- One slot of a root store. -/
structure RootSlot where
  a : Bank
  b : Bank
  activeB : Bool
  pending : Bool
deriving DecidableEq, Repr, Inhabited

/-- A resident image (R20, R284, R285). -/
structure Run where
  image : Image
  /-- Image store slot (R318). -/
  slot : Nat
  /-- The load reply has been sent (R299). -/
  ready : Bool
  /-- The generations and tables that both banks of every slot hold throughout the run, as the Keeper knows them
  (R236, R240, R245). -/
  root : List RootSlot
  rings : List Ring
  /-- Order number of the order in execution. -/
  order : Option (BitVec 64)
  /-- Seed slots 8 to 15 as loaded (R331). -/
  orderSeeds : List (BitVec 64)
  issued : List Issued
  trip : Option Trip
  fault : Option RunFault
  /-- Every frame of the run is gated (R26). -/
  paused : Bool
  /-- A frame, memory-stack or Keeper-pair recovery pauses the run (R456). -/
  recovering : Bool
  /-- Counter sums at the last kind-20 record (R446). -/
  counted : List Nat
  /-- Active and pending generations to put back after a replay (R244). -/
  savedGens : List (BitVec 32 × BitVec 32)
  replayReady : Bool
  /-- The CCHECK in issue that waits for its links (R405). -/
  checkWait : Option Nat
  /-- CCHECK instructions executed, by plan (R405). -/
  checkCounts : List (Nat × Nat)
deriving DecidableEq, Repr, Inhabited

/-- A request that the Keeper has taken and will answer later (R296, R322, R325, R329, R482). -/
structure Pending where
  mailbox : Nat
  type : BitVec 16
  tag : BitVec 32
  source : BitVec 22
  body : List (BitVec 8)
deriving DecidableEq, Repr, Inhabited

/-! ### Workers -/

/-- WRK_RS_STAT.state (Table 6.7). -/
inductive RsState where
  | untested
  | testing
  | passed
  | failed
  | scrubbing
deriving DecidableEq, Repr, Inhabited

/-- WRK_ADMIT.state (Table 14.9). -/
inductive AdmitState where
  | notAdmitted
  | scrubbing
  | reloading
  | resync
  | selfTest
  | waiting
  | admitted
  | fenced
  | outOfService
deriving DecidableEq, Repr, Inhabited

/-- Row-state entry (Table 6.4); v0 to v4 hold W40 encodings or 40-bit integers. -/
structure RowEntry where
  v0 : BitVec 40
  v1 : BitVec 40
  v2 : BitVec 40
  v3 : BitVec 40
  v4 : BitVec 40
  opc : BitVec 8
  flags : BitVec 8
  count : BitVec 40
deriving DecidableEq, Repr, Inhabited

/-- A wait on a ring slot or a credit (R95, R96, R403). Its timer is the sender's of the timeout rows:
notes/assumptions/5.md. -/
structure Wait where
  ring : Nat
  seq : Nat
  producer : Bool
deriving DecidableEq, Repr, Inhabited

/-- A unit that a worker has taken (R136, R458, R459). -/
structure Held where
  run : Nat
  ref : UnitRef
  level : Nat
  /-- Ordinal of the next tile of the strip. -/
  tile : Nat
  /-- Ring sequences that the unit's tiles have read: ring, sequence (R461, R462). -/
  seqs : List (Nat × Nat)
  /-- Phase 2 was interrupted: the commit slot holds what the home still lacks. -/
  copyOut : Bool
  /-- Bytes of the commit slot: offset within it and home address; and the CRC closed over them. -/
  homes : List (Nat × Nat)
  crc : BitVec 32
deriving DecidableEq, Repr, Inhabited

/-- A pending shadow sample (R267, R268). The copies of operands and outputs in cell 2 are held as what
their recomputation will find, since nothing else reads them: notes/assumptions/12.md. -/
structure Sample where
  run : Nat
  order : BitVec 64
  instr : Nat
  level : Nat
  layerTag : Nat
  tile : Nat
  fmt : Nat
  maxUlp : Nat
  compared : Nat
  differing : Nat
deriving DecidableEq, Repr, Inhabited

/-- A physical worker: 64 home workers 8f + w, then spares S0 to S3. -/
structure Worker where
  flushA : BitVec 32
  flushB : BitVec 32
  numFlush : BitVec 32
  numSat : BitVec 32
  numNanLost : BitVec 32
  /-- ISSUE, COMB, RING, TURN, IDLE (Table 5.14). -/
  cyc : List (BitVec 64)
  cycHi : List (BitVec 32)
  cycTag : BitVec 16
  rsCe : BitVec 16
  rsState : RsState
  numCancel : BitVec 32
  flagAllNeginf : Bool
  flagCancel : Bool
  sfnZero : BitVec 32
  sfnSkip : BitVec 32
  sfnUe : BitVec 16
  sfnCe : BitVec 16
  root : List RootSlot
  epoch : BitVec 16
  admission : AdmitState
  /-- The worker number 0 to 63 it serves as; none while it is replaced, or a free spare. -/
  serves : Option Nat
  run : Option Nat
  held : List Held
  wait : Option Wait
  rowState : List RowEntry
  /-- The four cells as one 128 KiB store, cell c from c × 32 KiB (R99). -/
  cells : List Host.Cell
  sample : Option Sample
  /-- A row-state test is asked for and waits (R325), with the request to answer. -/
  bist : Option Pending
  /-- Failed re-admission sequences in a row (R465). -/
  failures : Nat
  /-- The slot to be rewritten from the archive before the next unit (R247). -/
  rewrite : Option Nat
deriving DecidableEq, Repr, Inhabited

/-! ### Frames, foragers and the comb -/

/-- What a forager's move unit waits for. -/
inductive MoveStage where
  | waiting
  | reading
  | writing
  | done
deriving DecidableEq, Repr, Inhabited

/-- A move unit in flight (R368). -/
structure Move where
  run : Nat
  ref : UnitRef
  stage : MoveStage
  /-- 256-byte accesses of its stack that the unit has outstanding (R372). -/
  acks : Nat
  /-- Packets of an FSEND not yet acknowledged by the adapter. -/
  packets : Nat
  wait : Option Wait
  /-- Next packet or frame offset within the slot or chunk. -/
  sent : Nat
  /-- Ring sequences that the unit has read: ring, sequence. -/
  seqs : List (Nat × Nat)
deriving DecidableEq, Repr, Inhabited

/-- A forager, number 4f + i. -/
structure Forager where
  moves : List Move
  faulted : Bool
deriving DecidableEq, Repr, Inhabited

/-- A frame: tally, queues and comb registers (Table 3.4). -/
structure Frame where
  run : Option Nat
  ungated : Bool
  gateRequested : Bool
  /-- Untaken units of the issued instructions, in order (R137). -/
  tally : List UnitRef
  replay : List UnitRef
  moves : List UnitRef
  moveReplay : List UnitRef
  /-- Granted homed units by instruction (R460). -/
  granted : List (Nat × Nat)
  ceCount : BitVec 32
  ueCount : BitVec 16
  ueValid : Bool
  ueAddr : BitVec 28
  narrowMax : BitVec 7
  scrubBusy : Bool
  scrubLeft : BitVec 11
  patrolMs : BitVec 16
  /-- Bank status words: bank, corrected count, uncorrectable count, narrow-wait maximum (R80). -/
  bankStatus : List (Nat × Nat × Nat × Nat)
  /-- The Heirloom set that the heirloom region holds (R250). -/
  heirloom : List (BitVec 32 × Nat)
  /-- What the scrub in progress clears: base, size. -/
  scrubTodo : List (Nat × Nat)
  /-- Rings whose tokens wait for their rebuild after a reset of the frame (R461). -/
  rebuild : List Nat
  outOfService : Bool
  recovering : Bool
deriving DecidableEq, Repr, Inhabited

/-- Entry of the residency table (R102). -/
structure Resident where
  base : Nat
  size : Nat
  lineage : Nat
deriving DecidableEq, Repr, Inhabited

/-! ### Keeper, mailboxes, journal -/

/-- KPR_STATE.state (Table 10.2). -/
inductive KeeperState where
  | rom
  | boot
  | recover
  | ready
  | hold
  | failed
deriving DecidableEq, Repr, Inhabited

/-- A message as it stands in a slot: 256 bytes (Table 10.6). A notice of an order carries the
order it reports, so that clearing out_full can acknowledge it (R333). -/
structure OutMsg where
  bytes : List (BitVec 8)
  completion : Option (BitVec 64)
deriving DecidableEq, Repr, Inhabited

/-- The request being assembled on a mailbox (R313). -/
structure Assembly where
  type : BitVec 16
  tag : BitVec 32
  next : Nat
  body : List (BitVec 8)
  /-- A reserved header field of a fragment was not 0 (R315). -/
  reserved : Bool
  /-- Whose request it is: on mailboxes 14 and 15 fragments of several dies may arrive. -/
  source : BitVec 22
deriving DecidableEq, Repr, Inhabited

/-- A mailbox (R303, R306, R307, R314). -/
structure Mailbox where
  inbound : List (BitVec 8)
  outbound : List (BitVec 8)
  inFull : Bool
  outFull : Bool
  overrun : Bool
  queue : List OutMsg
  /-- What the Keeper has still to put into the full queue of 64 (R307): the rest of a long reply, or notices. -/
  unsent : List OutMsg
  /-- What the outbound slot's message acknowledges when it is cleared. -/
  outCompletion : Option (BitVec 64)
  assembly : Option Assembly
  lastTag : Option (BitVec 32)
  lastReply : List OutMsg
  /-- The queue of 64 of mailboxes 14 and 15 (R410): messages and the die at which each originated; and the
  origin of the message in the inbound slot. -/
  arrived : List (List (BitVec 8) × BitVec 16)
  origin : BitVec 16
deriving DecidableEq, Repr, Inhabited

/-- The image load that is being carried out (R296, R297). -/
structure LoadJob where
  req : Pending
  run : Nat
  slot : Nat
deriving DecidableEq, Repr, Inhabited

/-- A table load between its check and its reply (R236, R237). -/
structure TableJob where
  req : Pending
  run : Nat
  slot : Nat
  gen : BitVec 32
  file : List (BitVec 8)
deriving DecidableEq, Repr, Inhabited

/-- Source-table entry (R330). -/
structure SourceEntry where
  source : BitVec 22
  last : Nat
  /-- Wall time of the last acknowledgement. -/
  ackedAt : Nat
deriving DecidableEq, Repr, Inhabited

/-- A journal record (Tables 10.17 and 10.18), with the stacks that hold a copy that counts. -/
structure JRecord where
  kind : Nat
  run : Nat
  lsn : Nat
  order : BitVec 64
  stamp : Nat
  source : BitVec 22
  body : List (BitVec 8)
  /-- The stacks that hold a copy. -/
  copies : List Nat
  /-- Its place in each stack's journal area (R338). -/
  pos : Nat
deriving DecidableEq, Repr, Inhabited

/-- The journal (R337 to R341). -/
structure Journal where
  /-- 0: M0 and M2; 1: M1 and M3. -/
  activePair : Nat
  records : List JRecord
  nextLsn : Nat
  /-- Where the next record begins in the journal area. -/
  nextPos : Nat
  head : Nat
  sinceCheckpoint : Nat
  checkpointAt : Nat
  pendingAcks : List (BitVec 64)
  firstAckAt : Nat
  copying : Bool
  hold : Bool
  scanned : Bool
deriving DecidableEq, Repr, Inhabited

/-- An archive entry (R243). -/
structure ArchiveEntry where
  gen : BitVec 32
  file : List (BitVec 8)
  /-- The stacks of M0 and M2 that hold its copy. -/
  copies : List Nat
  /-- Which of the 4,096 entries of 8 KiB it takes (Table 11.5). -/
  place : Nat
deriving DecidableEq, Repr, Inhabited

/-- The SUBMIT whose ACCEPT record is being written (R328, R329). -/
structure AcceptJob where
  req : Pending
  order : Order
deriving DecidableEq, Repr, Inhabited

/-- A domain instance under recovery (R452, R468). -/
structure Recovery where
  domain : Nat
  inst : Nat
  since : Nat
  code : BitVec 16
  /-- The order that the run of the part executed, or 0 (Table 14.6). -/
  order : BitVec 64
deriving DecidableEq, Repr, Inhabited

/-- The Keeper: registers of Tables 10.4, 14.8 and 15.9, jobs and tables. -/
structure Keeper where
  state : KeeperState
  code : BitVec 16
  fwdDrop : BitVec 32
  i3cErr : BitVec 32
  mgmtDrop : BitVec 32
  sessAddr : List (List (BitVec 32))
  sessEnable : List Bool
  sessPort : List (BitVec 16)
  netAddr : List (BitVec 32)
  groups : List (BitVec 68)
  /-- Active pair, 0 or 1; standby in lockstep. -/
  activePair : Nat
  standbyOk : Bool
  loads : List LoadJob
  waitingLoads : List Pending
  tableJobs : List TableJob
  accept : List AcceptJob
  sources : List SourceEntry
  orders : List Order
  lastGen : BitVec 32
  archive : List ArchiveEntry
  residency : List Resident
  faultCount : BitVec 32
  recoveries : List Recovery
  oosWorker : List Nat
  lastFault : List (BitVec 8)
  /-- Recently reset parts: domain, instance, wall time (R468). -/
  resetParts : List (Nat × Nat × Nat)
  /-- Pending spare substitutions: spare, worker, withdraw flag, returns by itself. -/
  substitutions : List (Nat × Nat × Bool × Bool)
  /-- Pending releases of spares. -/
  releases : List Nat
  /-- Workers replaced by SERVICE action 1, which return only by action 2 (R465). -/
  serviced : List Nat
deriving DecidableEq, Repr, Inhabited

/-- The I3C target (R309). -/
structure I3c where
  offset : Nat
  /-- The last private write was refused: a read returns zeros. -/
  refused : Bool
  dynamic : Option (BitVec 7)
  ibiEnabled : Bool
  ibiRaised : Bool
  readData : List (BitVec 8)
deriving DecidableEq, Repr, Inhabited

/-! ### Ports -/

/-- A ring that the partner has opened (R353). -/
structure PartnerRing where
  id : Nat
  slotSize : Nat
  slotCount : Nat
  credits : List Nat
  nextSeq : Nat
  /-- The next slot sent carries the first sequence credited (after a RING_OPEN). -/
  fresh : Bool
deriving DecidableEq, Repr, Inhabited

/-- A TSP packet before it leaves: its header fields, its payload, and the forager of an FSEND's packet (R345). -/
structure TspOut where
  type : Nat
  ring : Nat
  flags : Nat
  seq : Nat
  offset : Nat
  tileCrc : BitVec 32
  payload : List (BitVec 8)
  fsend : Option Nat
deriving DecidableEq, Repr, Inhabited

/-- A partner port (Table 11.9, R349). -/
structure PartnerPort where
  modules : BitVec 4
  rate : BitVec 2
  state : BitVec 3
  run : Option Nat
  err : BitVec 6
  errCount : BitVec 32
  retries : BitVec 32
  rings : List PartnerRing
  /-- Units of the partner's transmit window that Aethesh's buffer has free (0 to 256). -/
  rxFree : Nat
  /-- Freed units to return: by packets other than NOPs, and by NOPs alone. -/
  owed : Nat
  owedNop : Nat
  /-- Units of the partner's buffer that Aethesh holds. -/
  txUnits : Nat
  /-- Packets awaiting adapter acknowledgement: the forager of an FSEND's packet, or none. -/
  unacked : List (Option Nat)
  /-- Packets that wait for units of the partner's buffer and for the port's share (R349, R372). -/
  waiting : List TspOut
  /-- Ids of partner rings that were open when the port last lost its link (R353). -/
  reopened : List Nat
  sent : List (List (BitVec 8))
deriving DecidableEq, Repr, Inhabited

/-- A memory port (Table 11.10). -/
structure MemPort where
  capacity : BitVec 8
  height : BitVec 5
  state : BitVec 3
  ueCount : BitVec 16
  ceCount : BitVec 16
  ueValid : Bool
  ueAddr : BitVec 39
  /-- Pseudo-channels marked for lane repair (R361, R362). -/
  marked : List Nat
  spareLeft : BitVec 8
  repaired : BitVec 8
  temp : BitVec 8
  rfm : BitVec 32
  powerDown : Bool
  outstanding : Nat
  /-- Capacity in GiB that the stack reported at its last training, which gives C; a reset of the port does not change it
  (R357). -/
  stackGiB : BitVec 8
  /-- The copy of the image store in M1 or M3 has missed a write (R319: the model's own field, notes/assumptions/86.md). -/
  imageStale : Bool
  refreshes : Nat
  /-- Wall time at which a lane repair began. -/
  repairSince : Nat
deriving DecidableEq, Repr, Inhabited

/-- A peer landing ring (R393, R403). -/
structure PeerRing where
  id : Nat
  slotSize : Nat
  slotCount : Nat
  nextSeq : Nat
  credits : List Nat
deriving DecidableEq, Repr, Inhabited

/-- A chunk that has been sent on a link within the span in progress (R407). -/
structure SentChunk where
  ring : Nat
  seq : Nat
  instr : Nat
  chunk : Nat
  plan : Nat
deriving DecidableEq, Repr, Inhabited

/-- A frame in the replay buffer (R379, R381). -/
structure TxFrame where
  seq : Nat
  bytes : List (BitVec 8)
  sends : Nat
deriving DecidableEq, Repr, Inhabited

/-- A frame that waits for its turn, buffer units and replay space (R377 to R379): its type, control byte,
route or land field and payload; the forager of a CSEND whose unit it ends; the FORWARD that it carries out. -/
structure TxReq where
  type : Nat
  ctl : Nat
  land : List (BitVec 8)
  payload : List (BitVec 8)
  last : Option (Nat × UnitRef)
  forward : Option Pending
deriving DecidableEq, Repr, Inhabited

/-- The progress of a session's handshake (R385, R386). -/
structure Handshake where
  draw : Nat
  ownHello : List (BitVec 8)
  peerHello : List (BitVec 8)
  peerChain : List (BitVec 8)
  sentCert : Bool
  chainOk : Bool
  sentProve : Bool
  proveOk : Bool
  sentFinish : Bool
  finishOk : Bool
  keys : List (BitVec 8)
  since : Nat
deriving DecidableEq, Repr, Inhabited

/-- A link port (Table 12.13) and its protocol state. -/
structure Link where
  cause : BitVec 16
  lanes : BitVec 4
  mode : BitVec 2
  state : BitVec 3
  cfg : BitVec 32
  /-- Settings in force since the last training (cfg writes take effect then). -/
  cfgInForce : BitVec 32
  peerCfg : BitVec 32
  epoch : BitVec 32
  peerId : BitVec 16
  err : BitVec 8
  malCount : BitVec 32
  fecCe : BitVec 32
  fecUe : BitVec 32
  replayed : BitVec 32
  drop : BitVec 32
  nonfinite : BitVec 16
  flushed : BitVec 16
  asym : BitVec 32
  delay : BitVec 32
  quarCount : BitVec 16
  run : Option Nat
  handshake : Option Handshake
  /-- Session in force: keys and salts (72 bytes), or none. -/
  session : Option (List (BitVec 8))
  /-- Next sequence to send and to receive; 64-bit sequence counts since the session began. -/
  txSeq : Nat
  rxSeq : Nat
  txCount : Nat
  rxCount : Nat
  replay : List TxFrame
  ackedAt : Nat
  lastNak : Option (Nat × Nat)
  ackDue : Bool
  /-- Frames waiting to be sent, and whether VC1 has the next turn between VC0 and VC1 (R377). -/
  txQueue : List TxReq
  turn1 : Bool
  /-- Per virtual channel: units held for sending, units granted to the peer and not used, freed units to
  grant (R378). -/
  txUnits : List Nat
  rxGranted : List Nat
  rxUsed : List Nat
  /-- Wall times of malformed frames in the window, and of quarantines in the last hour (R391). -/
  malTimes : List Nat
  quarTimes : List Nat
  quarUntil : Nat
  peerRings : List PeerRing
  sentChunks : List SentChunk
  /-- CHECK frames received and sent by plan (R405). -/
  checksIn : List (Nat × Nat)
  checksOut : List (Nat × Nat)
  /-- VC0 frames held for a full mailbox queue (R410). -/
  heldFrames : List (List (BitVec 8))
  /-- Handshake retry: wall time of the next try and the wait in s (R389). -/
  retryAt : Option Nat
  retryWait : Nat
  /-- Wall time of the loss of a session that a run holds (R408), and its peer. -/
  lostAt : Option Nat
  lastPeer : Option (BitVec 16)
  timeExchange : BitVec 32
  timeSentAt : Option Nat
  /-- Frames transmitted, in order: what the peer sees. -/
  wire : List (List (BitVec 8))
deriving DecidableEq, Repr, Inhabited

/-! ### Time, power, telemetry -/

/-- A discipline source's measurements (R418). -/
structure SourceState where
  source : TimeSource
  qualified : Bool
  /-- Wall time since which it is qualified, unbroken. -/
  since : Nat
  offsets : List Int
  /-- Last measured offset, source time minus hive time, in ps. -/
  offset : Int
  distance : Nat
  /-- Wall time until which it is excluded (R424). -/
  excludedUntil : Option Nat
  grandmaster : BitVec 64
  lastPulse : Option Nat
deriving DecidableEq, Repr, Inhabited

/-- What holds a comparator (Table 13.2). -/
inductive CompHolder where
  | free
  | flow
  | timeTransfer
  | stream (number kind : Nat) (periodUs : Nat)
  | mark (stamp : Nat) (tag : BitVec 32) (source : BitVec 22)
deriving DecidableEq, Repr, Inhabited

/-- The time part of the time and power unit (Table 13.8). -/
structure TimeUnit where
  /-- Hive time in 2^−16 ns. -/
  now : Nat
  lastStamp : Nat
  /-- Steering: units of 2^−16 ns added to each ns, −65 to 65 (R413). -/
  steer : Int
  /-- Offset still to be slewed, in 2^−16 ns. -/
  slew : Int
  hi : BitVec 32
  frac : BitVec 16
  distance : BitVec 8
  fault : Bool
  holdover : Bool
  holdoverSince : Nat
  joined : Bool
  inForce : Option TimeSource
  cfg : BitVec 32
  offsetPs : Int
  epoch : BitVec 48
  sources : List SourceState
  nextPpsSecond : Option Nat
  syncRefLocked : Bool
  comps : List CompHolder
  scanAt : Option Nat
deriving DecidableEq, Repr, Inhabited

/-- Flow point (Table 13.4): its time in ns, and the hive time of its edge once an edge point has had one. -/
structure FlowPoint where
  time : Nat
  cap : Nat
  slew : Nat
  edge : Bool
  notify : Bool
  edgeAt : Option Nat
deriving DecidableEq, Repr, Inhabited

/-- A point that has begun and has not yet been recorded (R439, R441). -/
structure BegunPoint where
  point : FlowPoint
  index : Nat
  dieInstant : Nat
  /-- ns that R439 allows after the die instant. -/
  allowed : Nat
  /-- A governor period has seen the point. -/
  seen : Bool
deriving DecidableEq, Repr, Inhabited

/-- The power part (Tables 13.9 and 16.5). -/
structure Power where
  vclk : Nat
  targetVclk : Nat
  vddCommanded : Bool
  flowIndex : BitVec 8
  alert : Bool
  alertPinLow : Bool
  floor : Bool
  sched : Nat
  /-- A ramp that moves: the cap it goes to and its rate; and the scheduled cap in 1/200 of 0.25 W. -/
  ramp : Option (Nat × Nat)
  rampAcc : Nat
  inForce : Nat
  alertCap : BitVec 16
  boardCap : BitVec 16
  stagSub : BitVec 6
  stepNs : BitVec 16
  leadUs : BitVec 16
  gateOrder : BitVec 24
  maxPower : BitVec 16
  meanPower : BitVec 16
  late : BitVec 16
  floorEvents : BitVec 16
  stray : BitVec 16
  energy : List (BitVec 64)
  energyHi : List (BitVec 32)
  activity : List (BitVec 16)
  isns : List (BitVec 16)
  railSample : List Nat
  tempWarn : Bool
  tempPeak : BitVec 8
  tempNow : BitVec 8
  points : List FlowPoint
  begun : Option BegunPoint
  writer : Option (BitVec 22)
  lastEdge : Option Nat
  /-- Wall time of the governor's last move down (R432). -/
  lastDown : Option Nat
  /-- Frames whose gates the target configuration waits for (R430), and frames ungated ahead of an increase (R431). -/
  targetGated : List Nat
  leadUngated : List Nat
  /-- Measured power of everything outside the frames, mW (R428). -/
  outsideMw : Nat
deriving DecidableEq, Repr, Inhabited

/-- The telemetry log (R443, R447). -/
structure Telemetry where
  next : Nat
  records : List (Nat × List (BitVec 8))
  buffer : List (List (BitVec 8))
  dropped : Nat
  /-- Sums at the last kind-16 to kind-19 record of each stream: comparator, values. -/
  last : List (Nat × List Nat)
deriving DecidableEq, Repr, Inhabited

/-! ### Life cycle, flash, pins -/

/-- One prov_bank of the fuses (Table 15.2). -/
structure ProvBank where
  dieId : BitVec 16
  owner : BitVec 384
  debug : BitVec 384
  anchor : BitVec 384
  images : List (BitVec 384)
  seed : BitVec 384
  revoke : BitVec 4
deriving DecidableEq, Repr, Inhabited

/-- The OTP fuses (Table 15.2) but for the digests of Malenvan's own keys, which are programmed at
manufacture and never change (`Config.fuseFw`, `Config.fuseRel`, `Config.fuseProv`). -/
structure Fuses where
  fwRevoke : BitVec 2
  fwRollback : Nat
  banks : List ProvBank
  commissions : Nat
  decommissions : Nat
  returned : Bool
  retired : Bool
deriving DecidableEq, Repr, Inhabited

/-- Life-cycle states (R479). -/
inductive Lcs where
  | blank
  | provisioned
  | inService
  | returned
  | retired
deriving DecidableEq, Repr, Inhabited

/-- Life cycle and firmware (Table 15.9, R482, R485, R491). -/
structure Life where
  fuses : Fuses
  /-- State and die identifier latched at power-on (R300). -/
  state : Lcs
  dieId : BitVec 16
  debug : Bool
  nonce : Option (List (BitVec 8) × Nat)
  draws : Nat
  change : Option (Pending × BitVec 8)
  fwRelease : BitVec 32
  bank : Nat
  trial : Bool
  fallback : Bool
  /-- FW_ACTIVATE in progress: its request, and whether the handover has taken place. -/
  activating : Option (Pending × Bool)
  activateAtReset : Bool
  stateFormat : BitVec 16
  /-- Wall time at which the firmware started, and at which the state became ready. -/
  startedAt : Nat
  readyAt : Option Nat
  /-- Site-record material applied at boot: device chain, image keys, anchor, release key. -/
  chain : List (BitVec 8)
  imageKeys : List (Nat × List (BitVec 8))
  anchor : List (BitVec 8)
  /-- The site-record copy that the firmware applied at boot (R488). -/
  site : Option Nat
deriving DecidableEq, Repr, Inhabited

/-- The pins and what they show (Table 16.1, R506 to R509). -/
structure Pins where
  straps : BitVec 4
  porstLow : Bool
  rstLow : Bool
  tripped : Bool
  /-- A cold reset that a RESET message or the watchdogs ordered and that has not started. -/
  coldOrdered : Bool
deriving DecidableEq, Repr, Inhabited

/-- Frames that the die has sent on the management Ethernet, and what I3C has returned. -/
structure Mgmt where
  sent : List (List (BitVec 8))
deriving DecidableEq, Repr, Inhabited

/-- The whole die. -/
structure State where
  /-- Wall time in ns since the model's start, for timers stated in time units (R5). -/
  wall : Nat
  pins : Pins
  life : Life
  flash : List Host.Cell
  keeper : Keeper
  mailboxes : List Mailbox
  i3c : I3c
  mgmt : Mgmt
  journal : Journal
  runs : List (Option Run)
  frames : List Frame
  workers : List Worker
  foragers : List Forager
  comb : List Host.Cell
  /-- Poisoned 64-bit words, by address / 8, ascending (R107). -/
  poison : List Nat
  partners : List PartnerPort
  mems : List MemPort
  /-- The four memory stacks by 39-bit stack address (R358). -/
  stackMem : List Host.Cell
  links : List Link
  routes : List (Nat × BitVec 8)
  time : TimeUnit
  power : Power
  telem : Telemetry
  /-- The model's own: draws made from free values. -/
  draws : Nat
  /-- What the last register or debug read delivered. -/
  readBack : List (BitVec 32)
  /-- Commands waiting, first in, first out. -/
  pending : List Sys2Proof.Instr
deriving DecidableEq, Repr, Inhabited

/-! ### After reset

Every register at the Reset column of its table; every store empty or scrubbed. What the manual
states no value for is zero or empty and is named in notes/assumptions/4.md. -/

/-- An empty root-store slot: bank A active, both banks empty (Table 15.1, R235). -/
def RootSlot.reset : RootSlot :=
  { a := { gen := 0, file := [] }, b := { gen := 0, file := [] }, activeB := false, pending := false }

/-- Worker `i` after a power-on reset: a home worker serves as itself, a spare serves nobody. -/
def Worker.reset (i : Nat) : Worker :=
  { flushA := 0, flushB := 0, numFlush := 0, numSat := 0, numNanLost := 0
    cyc := List.replicate 5 0, cycHi := List.replicate 5 0, cycTag := 0
    rsCe := 0, rsState := .untested, numCancel := 0, flagAllNeginf := false, flagCancel := false
    sfnZero := 0, sfnSkip := 0, sfnUe := 0, sfnCe := 0
    root := List.replicate 16 RootSlot.reset
    epoch := 0, admission := .notAdmitted, serves := if i < 64 then some i else none
    run := none, held := [], wait := none, rowState := [], cells := [], sample := none
    bist := none, failures := 0, rewrite := none }

/-- A frame after a power-on reset (Table 3.4, Table 13.9: every frame ungated). -/
def Frame.reset : Frame :=
  { run := none, ungated := true, gateRequested := false, tally := [], replay := [], moves := []
    moveReplay := [], granted := [], ceCount := 0, ueCount := 0, ueValid := false, ueAddr := 0
    narrowMax := 0, scrubBusy := false, scrubLeft := 0, patrolMs := 10, bankStatus := []
    heirloom := [], scrubTodo := [], rebuild := [], outOfService := false, recovering := false }

/-- A mailbox after a power-on or cold reset (Table 15.1). -/
def Mailbox.reset : Mailbox :=
  { inbound := List.replicate 256 0, outbound := List.replicate 256 0, inFull := false, outFull := false
    overrun := false, queue := [], unsent := [], outCompletion := none, assembly := none, lastTag := none
    lastReply := [], arrived := [], origin := 0 }

/-- A partner port before training (Table 11.9). -/
def PartnerPort.reset : PartnerPort :=
  { modules := 0, rate := 0, state := 0, run := none, err := 0, errCount := 0, retries := 0, rings := []
    rxFree := 256, owed := 0, owedNop := 0, txUnits := 0, unacked := [], waiting := [], reopened := [], sent := [] }

/-- A memory port before training (Table 11.10). -/
def MemPort.reset : MemPort :=
  { capacity := 0, height := 0, state := 0, ueCount := 0, ceCount := 0, ueValid := false, ueAddr := 0
    marked := [], spareLeft := 0, repaired := 0, temp := 0, rfm := 0, powerDown := false
    outstanding := 0, stackGiB := 0, imageStale := false, refreshes := 0, repairSince := 0 }

/-- A link port before training; LNK_CFG holds q_limit 0x40 and enabled 1 (Table 12.13). -/
def Link.reset : Link :=
  { cause := 0, lanes := 0, mode := 0, state := 0, cfg := 0x00400400#32, cfgInForce := 0x00400400#32
    peerCfg := 0, epoch := 0, peerId := 0, err := 0, malCount := 0, fecCe := 0, fecUe := 0, replayed := 0
    drop := 0, nonfinite := 0, flushed := 0, asym := 0, delay := 0, quarCount := 0
    run := none, handshake := none, session := none, txSeq := 1, rxSeq := 1, txCount := 0, rxCount := 0
    replay := [], ackedAt := 0, lastNak := none, ackDue := false, txQueue := [], turn1 := false
    txUnits := List.replicate 4 0, rxGranted := List.replicate 4 0, rxUsed := List.replicate 4 0, malTimes := [], quarTimes := []
    quarUntil := 0, peerRings := [], sentChunks := [], checksIn := [], checksOut := [], heldFrames := []
    retryAt := none, retryWait := 1, lostAt := none, lastPeer := none, timeExchange := 0
    timeSentAt := none, wire := [] }

/-- The Keeper as its reset leaves it: state rom, pair 0 active (R300), every table empty. -/
def Keeper.reset : Keeper :=
  { state := .rom, code := 0, fwdDrop := 0, i3cErr := 0, mgmtDrop := 0
    sessAddr := List.replicate 5 (List.replicate 4 0), sessEnable := List.replicate 5 false
    sessPort := List.replicate 5 0, netAddr := List.replicate 4 0, groups := List.replicate 8 0
    activePair := 0, standbyOk := true, loads := [], waitingLoads := [], tableJobs := [], accept := []
    sources := [], orders := [], lastGen := 0, archive := [], residency := [], faultCount := 0
    recoveries := [], oosWorker := [], lastFault := List.replicate 64 0, resetParts := []
    substitutions := [], releases := [], serviced := [] }

/-- The journal of a die that has never written one (R337: the active pair is M0 and M2). -/
def Journal.reset : Journal :=
  { activePair := 0, records := [], nextLsn := 0, nextPos := 0, head := 0, sinceCheckpoint := 0, checkpointAt := 0
    pendingAcks := [], firstAckAt := 0, copying := false, hold := false, scanned := false }

/-- The time part after reset (Table 13.8, R416, Table 13.2). -/
def TimeUnit.reset : TimeUnit :=
  { now := 0, lastStamp := 0, steer := 0, slew := 0, hi := 0, frac := 0
    distance := 0xFF, fault := false, holdover := false, holdoverSince := 0, joined := false
    inForce := none, cfg := 0x8#32, offsetPs := 0, epoch := 0, sources := [], nextPpsSecond := none
    syncRefLocked := false
    comps := [.flow, .flow, .timeTransfer] ++ List.replicate 13 .free, scanAt := none }

/-- The power part after reset (Tables 13.9 and 16.5): VCLK point 3, caps of 1,440 units. -/
def Power.reset : Power :=
  { vclk := 3, targetVclk := 3, vddCommanded := false, flowIndex := 0, alert := false
    alertPinLow := false, floor := false, sched := 1440, ramp := none, rampAcc := 0, inForce := 1440
    alertCap := 0x02D0, boardCap := 0x05A0, stagSub := 0, stepNs := 0x03E8, leadUs := 0x01F4
    gateOrder := 0x053977, maxPower := 0, meanPower := 0, late := 0, floorEvents := 0, stray := 0
    energy := List.replicate 8 0, energyHi := List.replicate 8 0, activity := List.replicate 8 0
    isns := List.replicate 6 0, railSample := List.replicate 6 0, tempWarn := false, tempPeak := 0
    tempNow := 0, points := [], begun := none, writer := none, lastEdge := none
    lastDown := none, targetGated := [], leadUngated := [], outsideMw := 0 }

/-- The fuses of a die as manufactured: no bit of Table 15.2 that is programmed later (R478). -/
def Fuses.reset : Fuses :=
  { fwRevoke := 0, fwRollback := 0, banks := [], commissions := 0, decommissions := 0
    returned := false, retired := false }

/-- The life cycle of such a die: Blank (R479). -/
def Life.reset : Life :=
  { fuses := Fuses.reset, state := .blank, dieId := 0, debug := false, nonce := none, draws := 0
    change := none, fwRelease := 0, bank := 0, trial := false, fallback := false, activating := none
    activateAtReset := false, stateFormat := 0, startedAt := 0, readyAt := none, chain := []
    imageKeys := [], anchor := [], site := none }

/-- The machine right after a power-on reset: both Keeper pairs in the boot ROM (R300), nothing
trained, nothing loaded, no command waiting. -/
def State.reset : State :=
  { wall := 0
    pins := { straps := 0, porstLow := false, rstLow := false, tripped := false, coldOrdered := false }
    life := Life.reset, flash := [], keeper := Keeper.reset
    mailboxes := List.replicate 16 Mailbox.reset
    i3c := { offset := 0, refused := false, dynamic := none, ibiEnabled := true, ibiRaised := false, readData := [] }
    mgmt := { sent := [] }, journal := Journal.reset, runs := List.replicate 8 none
    frames := List.replicate 8 Frame.reset
    workers := (List.range 68).map Worker.reset
    foragers := List.replicate 32 { moves := [], faulted := false }
    comb := [], poison := [], partners := List.replicate 8 PartnerPort.reset
    mems := List.replicate 4 MemPort.reset, stackMem := [], links := List.replicate 24 Link.reset
    routes := [], time := TimeUnit.reset, power := Power.reset
    telem := { next := 0, records := [], buffer := [], dropped := 0, last := [] }
    draws := 0, readBack := [], pending := [] }

end Sys2Proof.Machine
end

