-- ==== Sys2Proof/Machine/Bits.lean ====
section
/-!
DEFINITION. Bytes, little-endian fields (R8, R9), bit fields (R7), CRC-32C, saturating counters and
the list helpers that every other file uses.
-/

namespace Sys2Proof.Machine

/-- Little-endian value of a byte string (R8). -/
def leNat : Bytes → Nat
  | [] => 0
  | b :: bs => b.toNat + 256 * leNat bs

/-- The `n` low bytes of a value, little-endian (R8). -/
def natLe : (n v : Nat) → Bytes
  | 0, _ => []
  | n + 1, v => BitVec.ofNat 8 v :: natLe n (v / 256)

/-- The `n` low bytes of a value in the byte order of the published network standards, high byte first (R8). -/
def natBe (n v : Nat) : Bytes := (natLe n v).reverse

/-- `size` bytes of a structure from a byte offset (R9); bytes past the end read as 0. -/
def fieldBytes (b : Bytes) (off size : Nat) : Bytes :=
  let s := (b.drop off).take size
  s ++ List.replicate (size - s.length) 0

/-- The little-endian field of `size` bytes at an offset. -/
def field (b : Bytes) (off size : Nat) : Nat := leNat (fieldBytes b off size)

/-- Bits [hi:lo] of a value (R7). -/
def bits (v hi lo : Nat) : Nat := (v >>> lo) % 2 ^ (hi + 1 - lo)

/-- Bit `i` of a value. -/
def bit (v i : Nat) : Bool := (v >>> i) % 2 == 1

/-- A bit as a number. -/
def b2n (b : Bool) : Nat := if b then 1 else 0

/-- Set bits of a mask below a width, ascending. -/
def maskList (w v : Nat) : List Nat := (List.range w).filter (fun i => bit v i)

/-- `a / b` rounded up. -/
def ceilDiv (a b : Nat) : Nat := (a + b - 1) / b

/-- A value rounded up to a multiple. -/
def roundUp (a m : Nat) : Nat := ceilDiv a m * m

/-- Smallest `k` with 2^k at least `n`. -/
def clog2 (n : Nat) : Nat := if n ≤ 1 then 0 else (n - 1).log2 + 1

/-- Two's complement reading of a `w`-bit value. -/
def toSigned (w v : Nat) : Int := if v < 2 ^ (w - 1) then v else (v : Int) - (2 : Int) ^ w

/-- The low `w` bits of an integer. -/
def ofSigned (w : Nat) (i : Int) : Nat := (i % (2 : Int) ^ w).toNat

/-- One bit of the CRC-32C register (reflected polynomial 0x82F63B78). -/
def crcBit (c : Nat) : Nat := if c % 2 == 1 then (c / 2) ^^^ 0x82F63B78 else c / 2

/-- One byte of the CRC-32C register. -/
def crcByte (c : Nat) (b : Byte) : Nat :=
  crcBit (crcBit (crcBit (crcBit (crcBit (crcBit (crcBit (crcBit (c ^^^ b.toNat))))))))

/-- CRC-32C continued over more bytes, on the inverted register. -/
def crcUpdate (c : Nat) (bs : Bytes) : Nat := bs.foldl crcByte c

/-- CRC-32C of a byte string (Castagnoli; initial and final inversion). PRESUMED: the manual names
the code and leaves its parameters to its standard, notes/assumptions/3.md. -/
def crc32c (bs : Bytes) : BitVec 32 := BitVec.ofNat 32 (crcUpdate 0xFFFFFFFF bs ^^^ 0xFFFFFFFF)

/-- The CRC register of a partly received tile, as its running CRC-32C. -/
def crcMore (sofar : BitVec 32) (bs : Bytes) : BitVec 32 :=
  BitVec.ofNat 32 (crcUpdate (sofar.toNat ^^^ 0xFFFFFFFF) bs ^^^ 0xFFFFFFFF)

/-- A byte string with `size` bytes at an offset replaced by zeros: "with this field taken as 0". -/
def zeroField (b : Bytes) (off size : Nat) : Bytes :=
  b.take off ++ (b.drop off |>.take size).map (fun _ => (0 : Byte)) ++ b.drop (off + size)

/-- Bytes with `src` laid over them at an offset. -/
def overlay (b : Bytes) (off : Nat) (src : Bytes) : Bytes :=
  b.take off ++ (src.take (b.length - off)) ++ b.drop (off + src.length)

/-- A byte string cut or padded with zeros to a length. -/
def padTo (n : Nat) (b : Bytes) : Bytes := b.take n ++ List.replicate (n - b.length) 0

/-- A counter that saturates at its width (R69, Table 3.4 and others). -/
def satAdd {w : Nat} (c : BitVec w) (n : Nat) : BitVec w :=
  BitVec.ofNat w (min (2 ^ w - 1) (c.toNat + n))

/-- A 64-bit cycle counter's increment. -/
def wrapAdd {w : Nat} (c : BitVec w) (n : Nat) : BitVec w := BitVec.ofNat w (c.toNat + n)

/-- Element `i` of a list, or the default. -/
def nth {α : Type} [Inhabited α] (l : List α) (i : Nat) : α := (l[i]?).getD default

/-- Element `i` replaced by its image under `f`; other elements and a missing one are unchanged. -/
def updAt {α : Type} (l : List α) (i : Nat) (f : α → α) : List α := l.modify i f

/-- The value that an association list gives a key, or a default. -/
def assocD {α β : Type} [BEq α] (l : List (α × β)) (k : α) (d : β) : β :=
  match l.find? (fun p => p.1 == k) with
  | some p => p.2
  | none => d

/-- An association list with one key's value replaced. -/
def assocSet {α β : Type} [BEq α] (l : List (α × β)) (k : α) (v : β) : List (α × β) :=
  (k, v) :: l.filter (fun p => !(p.1 == k))

/-- Left rotation of a 32-bit value (R59). -/
def rotl32 (v n : Nat) : Nat := ((v <<< n) ||| (v >>> (32 - n))) % 2 ^ 32

/-- First index at which a predicate holds. -/
def indexWhere {α : Type} (l : List α) (p : α → Bool) : Option Nat :=
  (List.range l.length).find? (fun i => match l[i]? with | some a => p a | none => false)

/-- A list cut into consecutive pieces of `n` elements (`fuel` bounds the pieces). -/
def chunksOf {α : Type} (n : Nat) : (fuel : Nat) → List α → List (List α)
  | 0, _ => []
  | _ + 1, [] => []
  | fuel + 1, l => l.take n :: chunksOf n fuel (l.drop n)

/-- A register value assembled from its fields: value, shift. -/
def regOf (fields : List (Nat × Nat)) : Reg :=
  BitVec.ofNat 32 (fields.foldl (fun acc p => acc ||| (p.1 <<< p.2)) 0)

end Sys2Proof.Machine
end

