-- ==== Sys2Proof/Machine/Ops.lean ====
section
/-!
DEFINITION. Named operations over the state: memories in canonical form, the comb and the stacks,
register files of the die's parts, time stamps, records and messages.
-/

namespace Sys2Proof.Machine

/-! ### Memory in canonical form -/

/-- What an address of a memory holds; an unlisted address reads as `d`. -/
def memGet (d : Byte) : List Host.Cell → Nat → Byte
  | [], _ => d
  | (k, v) :: t, a => if k == a then v else if a < k then d else memGet d t a

/-- A memory with one byte written: addresses stay strictly rising, and no entry equals `d`. -/
def memSet (d : Byte) (a : Nat) (v : Byte) : List Host.Cell → List Host.Cell
  | [] => if v = d then [] else [(a, v)]
  | (k, w) :: t =>
    if k < a then (k, w) :: memSet d a v t
    else if k = a then (if v = d then t else (a, v) :: t)
    else (if v = d then (k, w) :: t else (a, v) :: (k, w) :: t)

/-- Every address of a memory lies at or above a bound, addresses rise strictly, no byte is `d`. -/
def memWfFrom (d : Byte) : Nat → List Host.Cell → Bool
  | _, [] => true
  | lo, (k, v) :: t => decide (lo ≤ k) && decide (v ≠ d) && memWfFrom d (k + 1) t

/-- The canonical form. -/
def memWf (d : Byte) (m : List Host.Cell) : Bool := memWfFrom d 0 m

/-- Several bytes written, in order. -/
def memSetMany (d : Byte) (ws : List (Nat × Byte)) (m : List Host.Cell) : List Host.Cell :=
  ws.foldl (fun m w => memSet d w.1 w.2 m) m

/-- `n` bytes from an address. -/
def memBytes (d : Byte) (m : List Host.Cell) (a n : Nat) : Bytes := (List.range n).map (fun i => memGet d m (a + i))

/-- A byte string laid at an address, as byte writes. -/
def bytesAt (a : Nat) (bs : Bytes) : List (Nat × Byte) := bs.mapIdx (fun i b => (a + i, b))

/-- The entries of a memory outside a range, for a range that is set to the default byte. -/
def memClear (m : List Host.Cell) (a n : Nat) : List Host.Cell := m.filter (fun c => c.1 < a || a + n ≤ c.1)

/-- A byte string laid over a memory at an address. -/
def memLay (d : Byte) (a : Nat) (bs : Bytes) (m : List Host.Cell) : List Host.Cell :=
  m.filter (fun c => c.1 < a) ++ (bytesAt a bs).filter (fun c => c.2 != d) ++ m.filter (fun c => a + bs.length ≤ c.1)

/-- What an unlisted comb byte reads as: a scrub writes zeros (R104). -/
def combDefault : Byte := 0
/-- What an unlisted stack byte reads as. DESIGN CHOICE: no power-on content is stated, notes/assumptions/6.md. -/
def stackDefault : Byte := 0
/-- What an unlisted flash byte reads as: erased flash is all ones (R487). -/
def flashDefault : Byte := 0xFF

def readComb (s : State) (a : Nat) : Byte := memGet combDefault s.comb a
def combBytes (s : State) (a n : Nat) : Bytes := memBytes combDefault s.comb a n

/-- The words of 8 aligned bytes that a list of byte writes covers whole (R84, R107). -/
def wholeWords (ws : List (Nat × Byte)) : List Nat :=
  let as := ws.map Prod.fst
  ((as.map (· / 8)).eraseDups).filter (fun w => (List.range 8).all (fun i => as.contains (8 * w + i)))

/-- Comb bytes written; a word written whole loses its poison mark (R107). -/
def writeComb (s : State) (ws : List (Nat × Byte)) : State :=
  { s with
    comb := memSetMany combDefault ws s.comb
    poison := if s.poison.isEmpty then [] else s.poison.filter (fun w => !((wholeWords ws).contains w)) }

/-- Is the 64-bit word of a comb address poisoned (R107)? -/
def poisoned (s : State) (a : Nat) : Bool := s.poison.contains (a / 8)

/-- A scrub of a comb range: zeros, and no poison marks (R104). -/
def scrubComb (s : State) (a n : Nat) : State :=
  { s with comb := memClear s.comb a n, poison := s.poison.filter (fun w => 8 * w + 8 ≤ a || a + n ≤ 8 * w) }

/-- A block of whole words written into the comb, as the Keeper fills a region (R75, R107). -/
def layComb (s : State) (a : Nat) (bs : Bytes) : State :=
  { s with comb := memLay combDefault a bs s.comb, poison := s.poison.filter (fun w => 8 * w + 8 ≤ a || a + bs.length ≤ 8 * w) }

def readStack (s : State) (a : Nat) : Byte := memGet stackDefault s.stackMem a
def stackBytes (s : State) (a n : Nat) : Bytes := memBytes stackDefault s.stackMem a n
def writeStack (s : State) (ws : List (Nat × Byte)) : State :=
  { s with stackMem := memSetMany stackDefault ws s.stackMem }
def flashBytes (s : State) (a n : Nat) : Bytes := memBytes flashDefault s.flash a n

/-! ### Parts -/

def getWorker (s : State) (i : Nat) : Worker := nth s.workers i
def setWorker (s : State) (i : Nat) (f : Worker → Worker) : State := { s with workers := updAt s.workers i f }
def getFrame (s : State) (i : Nat) : Frame := nth s.frames i
def setFrame (s : State) (i : Nat) (f : Frame → Frame) : State := { s with frames := updAt s.frames i f }
def getForager (s : State) (i : Nat) : Forager := nth s.foragers i
def setForager (s : State) (i : Nat) (f : Forager → Forager) : State := { s with foragers := updAt s.foragers i f }
def getRun (s : State) (r : Nat) : Option Run := (s.runs[r]?).getD none
def setRun (s : State) (r : Nat) (f : Run → Run) : State := { s with runs := updAt s.runs r (Option.map f) }
def getPartner (s : State) (p : Nat) : PartnerPort := nth s.partners p
def setPartner (s : State) (p : Nat) (f : PartnerPort → PartnerPort) : State := { s with partners := updAt s.partners p f }
def getMemPort (s : State) (m : Nat) : MemPort := nth s.mems m
def setMemPort (s : State) (m : Nat) (f : MemPort → MemPort) : State := { s with mems := updAt s.mems m f }
def getLink (s : State) (n : Nat) : Link := nth s.links n
def setLink (s : State) (n : Nat) (f : Link → Link) : State := { s with links := updAt s.links n f }
def getMailbox (s : State) (n : Nat) : Mailbox := nth s.mailboxes n
def setMailbox (s : State) (n : Nat) (f : Mailbox → Mailbox) : State := { s with mailboxes := updAt s.mailboxes n f }
def setKeeper (s : State) (f : Keeper → Keeper) : State := { s with keeper := f s.keeper }
def setTime (s : State) (f : TimeUnit → TimeUnit) : State := { s with time := f s.time }
def setPower (s : State) (f : Power → Power) : State := { s with power := f s.power }
def setLife (s : State) (f : Life → Life) : State := { s with life := f s.life }
def setJournal (s : State) (f : Journal → Journal) : State := { s with journal := f s.journal }

/-- The physical workers that serve a frame (R16, R18): those whose number is 8f to 8f + 7. -/
def frameWorkers (s : State) (f : Nat) : List Nat :=
  (List.range 68).filter (fun i => match (getWorker s i).serves with | some n => n / 8 == f | none => false)

/-- The frame in whose pair a physical worker stands: its own, or the served frame of a spare. -/
def workerFrame (s : State) (i : Nat) : Nat :=
  match (getWorker s i).serves with
  | some n => n / 8
  | none => if i < 64 then i / 8 else 2 * (i - 64)

/-- Step 1 of Table 14.3 begins: the cells are scrubbed and the row-state memory tested (R196, R465). -/
def startAdmission (w : Worker) : Worker := { w with admission := .scrubbing, rsState := .testing }

/-- The physical worker that serves a worker number. -/
def servingOf (s : State) (n : Nat) : Option Nat := (List.range 68).find? (fun i => (getWorker s i).serves == some n)

/-- The workers of a run: those that serve its frames. -/
def runWorkers (s : State) (r : Nat) : List Nat := (List.range 68).filter (fun i => (getWorker s i).run == some r)

/-- The frames of a run. -/
def runFrames (s : State) (r : Nat) : List Nat := (List.range 8).filter (fun f => (getFrame s f).run == some r)

/-- Does any run stand resident? -/
def anyResident (s : State) : Bool := s.runs.any Option.isSome

/-- The clocks stand still after a thermal trip (R509), and a reset input that is low holds the die (R507). -/
def standing (s : State) : Bool := s.pins.tripped || s.pins.porstLow || s.pins.rstLow

/-- What a command does while the die is clocked; nothing happens while it stands still. -/
def clocked (s t : State) : Host.Outcome State Fault Refusal := .next (if standing s then s else t)

/-! ### Orders -/

def findOrder (s : State) (n : BitVec 64) : Option Order := s.keeper.orders.find? (fun o => o.number == n)

/-- Change one order. -/
def setOrder (s : State) (n : BitVec 64) (f : Order → Order) : State :=
  setKeeper s (fun k => { k with orders := k.orders.map (fun o => if o.number == n then f o else o) })

/-- The source number of an order (R326). -/
def orderSource (n : BitVec 64) : BitVec 22 := BitVec.ofNat 22 (n.toNat >>> 42)
/-- The sequence number of an order. -/
def orderSeq (n : BitVec 64) : Nat := n.toNat % 2 ^ 42
/-- The order number of a source's sequence. -/
def orderNumber (src : BitVec 22) (seq : Nat) : BitVec 64 := BitVec.ofNat 64 (src.toNat * 2 ^ 42 + seq % 2 ^ 42)

/-- The die's own source number: its identifier with source 0 (R304). -/
def dieSource (s : State) : BitVec 22 := BitVec.ofNat 22 (s.life.dieId.toNat * 64)

/-! ### Time stamps, the telemetry log and the journal -/

/-- A stamp: hive time, or one unit of 2^−16 ns above the previous stamp when that is not below it (R414). -/
def stamp (s : State) : State × Nat :=
  let t := if s.time.lastStamp < s.time.now ∨ (s.time.lastStamp = 0 ∧ s.time.now = 0) then s.time.now else s.time.lastStamp + 1
  ({ s with time := { s.time with lastStamp := t } }, t)

/-- The ns part and the fraction of a stamp, as message fields. -/
def stampNs (t : Nat) : Bytes := natLe 8 (t / 65536)
def stampFrac (t : Nat) : Bytes := natLe 2 (t % 65536)

/-- Bytes 0 to 15 of a log record (Table 8.4, R444): time, fraction, kind, source. -/
def logHeader (t : Nat) (kind : Nat) (src : BitVec 22) : Bytes :=
  stampNs t ++ stampFrac t ++ natLe 1 kind ++ natLe 1 0 ++ natLe 4 src.toNat

/-- Is a log record of a kind that a full buffer drops (R447)? -/
def dropKind (rec : Bytes) : Bool := let k := field rec 10 1; 16 ≤ k && k ≤ 20

/-- A record handed to the log writer (R447): a full buffer of 4,096 records drops kinds 16 to 20, and
another kind displaces the newest of those. -/
def pushLog (s : State) (rec : Bytes) : State :=
  let t := s.telem
  if t.buffer.length < 4096 then { s with telem := { t with buffer := t.buffer ++ [rec] } }
  else if dropKind rec then { s with telem := { t with dropped := t.dropped + 1 } }
  else
    match indexWhere t.buffer.reverse dropKind with
    | some i =>
      let j := t.buffer.length - 1 - i
      { s with telem := { t with buffer := t.buffer.take j ++ t.buffer.drop (j + 1) ++ [rec], dropped := t.dropped + 1 } }
    | none => { s with telem := { t with dropped := t.dropped + 1 } }

/-- A record of a kind with its body from offset 16, stamped now and padded to 64 bytes (R444). -/
def logRecord (s : State) (kind : Nat) (src : BitVec 22) (body : Bytes) : State :=
  let (s, t) := stamp s
  pushLog s (padTo 64 (logHeader t kind src ++ body))

/-- The stacks of a journal pair (R337). -/
def pairStacks (p : Nat) : List Nat := if p == 0 then [0, 2] else [1, 3]

/-- Is a stack available to the journal: trained, not failed, not under repair (R337, R494)? -/
def stackUp (s : State) (m : Nat) : Bool := (getMemPort s m).state == 2#3

/-- The stacks that a new journal record is written to: those of the active pair that are available,
and both of the other pair while the active pair is not whole (R337, R469, R494). -/
def journalTargets (s : State) : List Nat :=
  let act := (pairStacks s.journal.activePair).filter (stackUp s)
  if act.length == 2 && !s.journal.copying && !s.journal.hold then act
  else act ++ (pairStacks (1 - s.journal.activePair)).filter (stackUp s)

/-- Bytes a record takes in the journal area: header and body, padded to 64 (R338). -/
def recordLength (bodyLen : Nat) : Nat := roundUp (64 + bodyLen) 64

/-- A record as it stands in a stack (Table 10.17): its header with its CRC-32C, its body, and zeros up to a multiple of
64 bytes. -/
def recordBytes (r : JRecord) : Bytes :=
  let n := recordLength r.body.length
  let b := padTo n (natLe 2 r.kind ++ natLe 1 r.run ++ natLe 1 0 ++ natLe 4 n ++ natLe 8 r.lsn ++ natLe 8 r.order.toNat
    ++ stampNs r.stamp ++ stampFrac r.stamp ++ natLe 2 0 ++ natLe 4 r.source.toNat ++ natLe 4 0 ++ natLe 20 0 ++ r.body)
  overlay b 40 (natLe 4 (crc32c b).toNat)

/-- A journal record appended with the next lsn, begun at the given stamp; records fill the area of 1 GiB as a ring
(R338, R339). -/
def appendRecord (s : State) (t : Nat) (kind : Nat) (run : Nat) (order : BitVec 64) (src : BitVec 22) (body : Bytes) : State :=
  setJournal s (fun j =>
    { j with
      records := j.records ++ [{ kind := kind, run := run, lsn := j.nextLsn, order := order, stamp := t,
                                 source := src, body := body, copies := journalTargets s, pos := j.nextPos }]
      nextLsn := j.nextLsn + 1
      nextPos := (j.nextPos + recordLength body.length) % 2 ^ 30
      sinceCheckpoint := j.sinceCheckpoint + 1 })

/-- The acknowledgements that wait, in one DELIVERED record (R339). -/
def deliverAcks (s : State) : State :=
  let acks := s.journal.pendingAcks
  if acks.isEmpty then s
  else
    let (s, t) := stamp s
    let s := appendRecord s t 8 0xFF 0 (dieSource s) (natLe 4 acks.length ++ natLe 4 0 ++ acks.flatMap (fun a => natLe 8 a.toNat))
    let s := setJournal s (fun j => { j with pendingAcks := [] })
    acks.foldl (fun s a => setOrder s a (fun o => { o with notice := 3 })) s

/-- Has an order ended? -/
def ended (o : Order) : Bool := o.state == .complete || o.state == .abandoned

/-- Is a record still needed (R339)? For a resident image it is the last IMAGE record of its run. -/
def recordNeeded (s : State) (r : JRecord) : Bool :=
  (match findOrder s r.order with | some o => !ended o || o.notice < 3 | none => false)
    || (r.kind == 10 && field r.body 0 1 == 1
        && (match getRun s r.run with | some rn => rn.ready && rn.image.imageId == field r.body 8 8 | none => false)
        && !s.journal.records.any (fun x => x.kind == 10 && x.run == r.run && r.lsn < x.lsn))

/-- A CHECKPOINT (R339): acknowledgements first; then the head and the source table. Records below the head go,
and with its ACCEPT record the Keeper forgets an order. -/
def checkpoint (s : State) : State :=
  let s := deliverAcks s
  let head := match s.journal.records.find? (recordNeeded s) with | some r => r.lsn | none => s.journal.nextLsn
  let srcs := s.keeper.sources
  let (s, t) := stamp s
  let s := appendRecord s t 9 0xFF 0 (dieSource s)
    (natLe 8 head ++ natLe 4 srcs.length ++ natLe 4 0
      ++ srcs.flatMap (fun e => natLe 4 e.source.toNat ++ natLe 4 0 ++ natLe 8 e.last))
  let s := setJournal s (fun j =>
    { j with head := head, records := j.records.filter (fun r => head ≤ r.lsn), sinceCheckpoint := 0, checkpointAt := s.wall })
  setKeeper s (fun k => { k with orders := k.orders.filter (fun o =>
    !ended o || o.notice < 3 || s.journal.records.any (fun r => r.kind == 1 && r.order == o.number)) })

/-- A CHECKPOINT follows every 4,096 records (R339). -/
def checkpointDue (s : State) : State := if s.journal.sinceCheckpoint < 4096 then s else checkpoint s

/-- A journal record written, begun at the given stamp. -/
def journalAt (s : State) (t : Nat) (kind : Nat) (run : Nat) (order : BitVec 64) (src : BitVec 22) (body : Bytes) : State :=
  checkpointDue (appendRecord s t kind run order src body)

/-- The acknowledgements that wait are written into one DELIVERED record (R339). -/
def writeDelivered (s : State) : State := if s.journal.pendingAcks.isEmpty then s else checkpointDue (deliverAcks s)

/-- A journal record stamped now. -/
def journal (s : State) (kind : Nat) (run : Nat) (order : BitVec 64) (src : BitVec 22) (body : Bytes) : State :=
  let (s, t) := stamp s
  journalAt s t kind run order src body

/-- Bytes of the journal area in use from the head on (R339). -/
def journalUsed (s : State) : Nat :=
  (s.journal.records.filter (fun r => s.journal.head ≤ r.lsn)).foldl (fun n r => n + recordLength r.body.length) 0

/-- Free journal space in bytes: 1 GiB less what is in use (R337, R339). -/
def journalFree (s : State) : Nat := 2 ^ 30 - journalUsed s

/-! ### Messages out -/

/-- The 32-byte header and body of one message as 256 bytes with its crc (Table 10.6). -/
def messageBytes (type : BitVec 16) (tag : BitVec 32) (src : BitVec 22) (status : BitVec 16) (frag : Nat) (last : Bool)
    (timeNs : Nat) (body : Bytes) : Bytes :=
  let h := natLe 2 type.toNat ++ natLe 2 body.length ++ natLe 4 tag.toNat ++ natLe 4 src.toNat ++ natLe 2 status.toNat
    ++ natLe 2 (frag + b2n last * 2 ^ 15) ++ natLe 8 timeNs
  let m := padTo 256 (h ++ natLe 4 0 ++ natLe 4 0 ++ body)
  overlay m 24 (natLe 4 (crc32c m).toNat)

/-- A body cut into messages of at most 224 body bytes (R313). -/
def fragments (type : BitVec 16) (tag : BitVec 32) (src : BitVec 22) (status : BitVec 16) (timeNs : Nat) (body : Bytes) :
    List Bytes :=
  let parts := if body.isEmpty then [[]] else chunksOf 224 (body.length + 1) body
  parts.mapIdx (fun i p => messageBytes type tag src status i (i + 1 == parts.length) timeNs p)

/-- What a mailbox has still to send, in order of generation. -/
def outgoing (b : Mailbox) : List OutMsg := b.queue ++ b.unsent

/-- A mailbox that has these messages to send: up to 64 stand in its queue (R307). -/
def putOut (b : Mailbox) (ms : List OutMsg) : Mailbox := { b with queue := ms.take 64, unsent := ms.drop 64 }

/-- Messages to go out of a mailbox, in order of generation (R307). -/
def enqueue (s : State) (n : Nat) (ms : List OutMsg) : State := setMailbox s n (fun b => putOut b (outgoing b ++ ms))

/-- The mailbox of a source within the die (Table 10.3, R317): source 9 is mailbox 0, 1 to 8 are
themselves, 10 to 14 are mailboxes 9 to 13. -/
def sourceMailbox (src6 : Nat) : Option Nat :=
  if src6 == 9 then some 0 else if 1 ≤ src6 && src6 ≤ 8 then some src6
  else if 10 ≤ src6 && src6 ≤ 14 then some (src6 - 1) else none

/-- The source within the die of mailboxes 0 to 13 (Table 10.3). -/
def mailboxSource (n : Nat) : Nat := if n == 0 then 9 else if n ≤ 8 then n else n + 1

/-- The mailbox on which a source hears of its work: its transport's, or for a source of another die
the Waggle mailbox by which its messages leave (R333, R410). -/
def replyMailbox (s : State) (src : BitVec 22) : Nat :=
  if src.toNat / 64 == s.life.dieId.toNat then (sourceMailbox (src.toNat % 64)).getD 0
  else
    match s.routes.find? (fun p => p.1 == src.toNat / 64) with
    | some p => if bits p.2.toNat 4 0 % 2 == 0 then 14 else 15
    | none => 14

/-- A notice to a source (type 0x4000 + t); a COMPLETION notice names the order it reports. -/
def sendNotice (s : State) (type : BitVec 16) (src : BitVec 22) (body : Bytes) (completion : Option (BitVec 64) := none) : State :=
  let ms := fragments type 0 src 0 (s.time.now / 65536) body
  enqueue s (replyMailbox s src) (ms.map (fun b => { bytes := b, completion := completion }))

/-- A notice to one mailbox. -/
def sendNoticeTo (s : State) (n : Nat) (type : BitVec 16) (src : BitVec 22) (body : Bytes) : State :=
  enqueue s n ((fragments type 0 src 0 (s.time.now / 65536) body).map (fun b => { bytes := b, completion := none }))

/-- The reply to a request (R312, R314): type plus 0x8000, tag echoed, queued on its mailbox and stored
for a repeated tag. -/
def reply (s : State) (p : Pending) (status : BitVec 16) (body : Bytes) : State :=
  let ms := (fragments (p.type ||| 0x8000) p.tag p.source status (s.time.now / 65536) body).map
    (fun b => ({ bytes := b, completion := none } : OutMsg))
  let s := enqueue s p.mailbox ms
  setMailbox s p.mailbox (fun b => { b with lastTag := some p.tag, lastReply := ms })

/-! ### Fault records -/

/-- Class of a run-fault code (Table 14.2): 1 A, 2 B, 3 C. -/
def faultClass (code : BitVec 16) : Nat :=
  let c := code.toNat
  if c == 0x0210 || c == 0x0211 || (0x0230 ≤ c && c ≤ 0x0233) || c == 0x0240 || c == 0x0250 || c == 0x0251 || c == 0x0260
    || c == 0x0261 || (0x0270 ≤ c && c ≤ 0x0272) || c == 0x0280 || c == 0x0313 || c == 0x0413 then 1
  else if c == 0x0220 || c == 0x0221 || c == 0x0290 || c == 0x0292 || c == 0x0293 || c == 0x0294 || (0x0301 ≤ c && c ≤ 0x0303)
    || c == 0x0310 || c == 0x0312 || (0x0314 ≤ c && c ≤ 0x0316) || c == 0x0401 || c == 0x0403 || c == 0x0410 || c == 0x0411
    || c == 0x0414 then 3
  else 2

/-- What a fault record tells (Table 14.6). -/
structure FaultInfo where
  code : BitVec 16
  domain : Nat
  inst : Nat
  phase : Nat
  run : Nat
  order : BitVec 64
  instr : Nat
  redone : Nat
  unit : Nat
  duration : Nat
deriving DecidableEq, Repr, Inhabited

/-- The 64 bytes of a fault record stamped at `t` (Table 14.6). -/
def faultBytes (s : State) (t : Nat) (i : FaultInfo) : Bytes :=
  padTo 64 (logHeader t 48 (dieSource s) ++ natLe 2 i.code.toNat ++ natLe 1 i.domain ++ natLe 1 i.inst ++ natLe 1 i.phase
    ++ natLe 1 (faultClass i.code) ++ natLe 2 0 ++ natLe 1 i.run ++ natLe 7 0 ++ natLe 8 i.order.toNat ++ natLe 4 i.instr
    ++ natLe 4 i.redone ++ natLe 8 (i.unit % 2 ^ 40) ++ natLe 8 i.duration)

/-- A fault record (R453): written to the log, sent as a FAULT notice to mailbox 0, and to the source
of an order that the fault leaves partial; a detection is counted in KPR_FAULT_COUNT. -/
def faultRecord (s : State) (i : FaultInfo) (leavesPartial : Option (BitVec 64)) : State :=
  let (s, t) := stamp s
  let rec_ := faultBytes s t i
  let s := pushLog s rec_
  let s := sendNoticeTo s 0 0x4400 (dieSource s) rec_
  let s := match leavesPartial with
    | some o => if replyMailbox s (orderSource o) == 0 then s else sendNotice s 0x4400 (orderSource o) rec_
    | none => s
  setKeeper s (fun k =>
    { k with lastFault := rec_, faultCount := if i.phase == 1 then satAdd k.faultCount 1 else k.faultCount })

/-- The order that a run executes, or 0. -/
def runOrder (s : State) (r : Nat) : BitVec 64 := match getRun s r with | some rn => rn.order.getD 0 | none => 0

/-- A run fault (R453): the record of its detection (phase 4: of its escalation into the code), with domain 0
and instance 0xFF when no domain detects it. A fault of class A or C begins the stop of the run's order: the walkers stop granting its units (R455,
R457), and the first such fault of an order decides. A fault of class B leaves the order running (R456). -/
def runFault (s : State) (r : Nat) (code : BitVec 16) (instr unit : Nat) (domain : Nat := 0) (inst : Nat := 0xFF)
    (redone : Nat := 0) (phase : Nat := 1) : State :=
  match getRun s r with
  | none => s
  | some rn =>
    let cls := faultClass code
    let s := faultRecord s { code := code, domain := domain, inst := inst, phase := phase, run := r, order := rn.order.getD 0,
                             instr := instr, redone := redone, unit := unit, duration := 0 }
               (if cls == 3 && rn.fault.isNone then rn.order else none)
    if cls == 2 || rn.fault.isSome || rn.order.isNone then s
    else setRun s r (fun rn => { rn with fault := some { code := code, instr := instr, unit := unit } })

/-- The run that a domain instance belongs to, or 0xFF (Table 14.6: the run concerned). -/
def partRun (s : State) (domain inst : Nat) : Nat :=
  let r := match domain with
    | 1 | 2 | 3 => (getWorker s inst).run
    | 4 => (getFrame s (inst / 4)).run
    | 5 => (getFrame s inst).run
    | 7 => (getPartner s inst).run
    | 8 => (getLink s inst).run
    | _ => none
  r.getD 0xFF

/-- The recovery of a domain instance in progress (R452, R468). -/
def findRecovery (s : State) (domain inst : Nat) : Option Recovery :=
  s.keeper.recoveries.find? (fun r => r.domain == domain && r.inst == inst)

/-- A domain instance under recovery from now on; one already under recovery stays as it is. -/
def beginRecovery (s : State) (domain inst : Nat) (code : BitVec 16) : State :=
  if (findRecovery s domain inst).isSome then s
  else setKeeper s (fun k => { k with recoveries := k.recoveries ++ [
    { domain := domain, inst := inst, since := s.wall, code := code,
      order := runOrder s (partRun s domain inst) }] })

/-- A further record about a domain instance: contained, recovered, escalated or out of service (R453). It
names the run that the instance belongs to and the order that the run executed at the detection. -/
def phaseRecord (s : State) (domain inst phase : Nat) (code : BitVec 16) (redone : Nat := 0)
    (instr : Nat := 0xFFFFFFFF) (unit : Nat := 0) : State :=
  let d := match findRecovery s domain inst with | some r => if 3 ≤ phase then s.wall - r.since else 0 | none => 0
  let run := partRun s domain inst
  faultRecord s { code := code, domain := domain, inst := inst, phase := phase, run := run
                  order := (match findRecovery s domain inst with | some x => x.order | none => runOrder s run)
                  instr := instr, redone := redone, unit := unit, duration := d } none

/-- The recovery of a domain instance ends: its record, and the instance leaves the list. -/
def endRecovery (s : State) (domain inst : Nat) : State :=
  match findRecovery s domain inst with
  | none => s
  | some r =>
    let s := phaseRecord s domain inst 3 r.code
    setKeeper s (fun k => { k with recoveries := k.recoveries.filter (fun x => !(x.domain == domain && x.inst == inst)) })

/-- A fault of every run that holds a port (R344, R391, R408). -/
def faultRunOpt (s : State) (r : Option Nat) (code : BitVec 16) (domain inst : Nat) : State :=
  match r with
  | some r => runFault s r code 0xFFFFFFFF 0 domain inst
  | none => s

/-- The stack capacity C in bytes: the smallest capacity among the stacks, as each reported it when it trained (R357). -/
def stackC (s : State) : Nat :=
  let cs := (s.mems.map (fun m => m.stackGiB.toNat)).filter (· != 0)
  (cs.foldl min (cs.headD 0)) * 2 ^ 30

/-- The pseudo-channel of a stack offset, and the pseudo-channel's channel (R361). -/
def pseudoChannel (a : Nat) : Nat := (a / 2 ^ 8 % 64) ^^^ (a / 2 ^ 20 % 64)
def stackChannel (a : Nat) : Nat := pseudoChannel a / 2

/-- The pseudo-channel of a stack address is marked for lane repair (R362). -/
def markChannel (s : State) (m a : Nat) : State :=
  setMemPort s m (fun p => if p.marked.contains (pseudoChannel (a % 2 ^ 37)) then p else { p with marked := p.marked ++ [pseudoChannel (a % 2 ^ 37)] })

/-- End of the user area of every stack (Table 11.5). -/
def userEnd (s : State) (_stack : Nat) : Nat := stackC s - 17 * 2 ^ 30

/-- Stack address of a byte of an image store slot in stack `m`, M1 or M3 (R318, Table 11.5). -/
def imageAddr (s : State) (m slot off : Nat) : Nat := m * 2 ^ 37 + (stackC s - 17 * 2 ^ 30) + slot * 2 ^ 31 + off

/-- The stack from which the image store is read: M1, or M3 while M1 is not available; a copy that has missed a write only
without the other. -/
def imageStack (s : State) : Nat :=
  if stackUp s 1 && !(getMemPort s 1).imageStale then 1
  else if stackUp s 3 && !(getMemPort s 3).imageStale then 3
  else if stackUp s 1 then 1 else 3

/-- The bytes of an image store slot. -/
def imageByte (s : State) (slot off : Nat) : Byte := readStack s (imageAddr s (imageStack s) slot off)

/-- A byte of the system area of stack `m` at an offset (Table 11.5, R359, R360): table archive, telemetry log ring and
journal stand in the state as their entries and records; `none` where the Keeper has written nothing. -/
def systemByte (s : State) (m off : Nat) : Option Byte :=
  let u := userEnd s m
  let inArea (base n : Nat) : Bool := u + base ≤ off && off < u + base + n
  if inArea (2 ^ 34) (2 ^ 30) then
    let at_ (r : JRecord) : Nat := (off - (u + 2 ^ 34) + 2 ^ 30 - r.pos) % 2 ^ 30
    (s.journal.records.find? (fun r => r.copies.contains m && at_ r < recordLength r.body.length)).map (fun r => nth (recordBytes r) (at_ r))
  else if m % 2 == 1 then
    (if inArea 0 (2 ^ 34) then some (readStack s (m * 2 ^ 37 + off)) else none)
  else if inArea 0 (2 ^ 25) then
    (s.keeper.archive.find? (fun e => e.copies.contains m && e.place == (off - u) / 8192)).bind (fun e => e.file[(off - u) % 8192]?)
  else if inArea (2 ^ 30) (2 ^ 32) then
    (s.telem.records.find? (fun r => r.1 % 2 ^ 26 == (off - (u + 2 ^ 30)) / 64)).map (fun r => nth (padTo 64 r.2) (off % 64))
  else none


end Sys2Proof.Machine
end

