-- ==== Sys2Proof/Machine/Mailbox.lean ====
section
/-!
DEFINITION. The mailbox slots (R303 to R307) and the acknowledgement of COMPLETION notices (R333, R511).
-/

namespace Sys2Proof.Machine

/-- A write of the inbound slot by its transport; while in_full is 1 it is ignored and sets overrun (R306). -/
def slotWrite (s : State) (n off : Nat) (data : Bytes) : State :=
  setMailbox s n (fun b =>
    if b.inFull then { b with overrun := true } else { b with inbound := padTo 256 (overlay b.inbound off data) })

/-- KPR_MBX_POST_n: sets in_full, or overrun when it is set already (R306). -/
def slotPost (s : State) (n : Nat) : State :=
  setMailbox s n (fun b => if b.inFull then { b with overrun := true } else { b with inFull := true })

/-- An acknowledgement of a COMPLETION notice that has been sent and not yet acknowledged (R333, R511): it
waits for the next DELIVERED batch, which 256 of them begin (R339), and the source's table entry dates from now (R330). -/
def ackNotice (s : State) (order : BitVec 64) : State :=
  match findOrder s order with
  | none => s
  | some o =>
    if o.notice != 1 then s
    else
      let s := setOrder s order (fun o => { o with notice := 2 })
      let s := setJournal s (fun j =>
        { j with firstAckAt := if j.pendingAcks.isEmpty then s.wall else j.firstAckAt
                 pendingAcks := j.pendingAcks ++ [order] })
      let s := setKeeper s (fun k =>
        { k with sources := k.sources.map (fun e => if e.source == orderSource order then { e with ackedAt := s.wall } else e) })
      if s.journal.pendingAcks.length < 256 then s else writeDelivered s

/-- Clearing out_full of mailbox `n`: the message is acknowledged; on mailboxes 0 to 8 that acknowledges a
COMPLETION notice of this die as well (R306, R333). -/
def clearOut (s : State) (n : Nat) : State :=
  let b := getMailbox s n
  if !b.outFull then s
  else
    let s := setMailbox s n (fun b => { b with outFull := false, outCompletion := none })
    let s := if n == 0 then { s with i3c := { s.i3c with ibiRaised := false } } else s
    match b.outCompletion with
    | some o => if n ≤ 8 then ackNotice s o else s
    | none => s

/-- The transport logic of mailbox 14 or 15 hands the oldest message of its queue to the empty inbound slot
(R306, R410). -/
def pullArrived (s : State) (m : Nat) : State :=
  match (getMailbox s m).arrived with
  | [] => s
  | (msg, src) :: rest =>
    if (getMailbox s m).inFull then s
    else slotPost (slotWrite (setMailbox s m (fun b => { b with arrived := rest, origin := src })) m 0 msg) m

end Sys2Proof.Machine
end

