-- ==== Sys2Proof/Config.lean ====
section
/-!
DEFINITION. What one die or one release fixes and the manual does not publish, and the values the
manual leaves open. Each is a constant without a body, so that nothing can be proved about its
value: a statement that mentions one holds whatever it is (notes/assumptions/2.md and the rows each
docstring names).
-/

namespace Sys2Proof.Config

/-- SHA-384 of a string of bytes (R283, R387, R488): the published standard's function, its 48 bytes as the
little-endian value that they spell. UNVERIFIED:
left abstract, notes/assumptions/2.md. -/
opaque sha384 : Bytes → BitVec 384

/-- ECDSA P-384 verification: public key, digest, signature (R283, R386, R480). UNVERIFIED. -/
opaque ecdsaValid : Bytes → BitVec 384 → Bytes → Bool

/-- The public key with which the ROM or the firmware answers for the Malenvan release key when the
site record holds none (Table 15.3, "or the ROM copy"). -/
opaque romReleaseKey : Bytes

/-- The public key of Malenvan firmware key `k`, as the bank `b` carries it ("firmware bank",
Table 15.3; its place in the bank is not given). -/
opaque firmwareKey : (k b : Nat) → Bytes

/-- Fuse digests programmed at manufacture (Table 15.2): Malenvan firmware keys 0 and 1, the release
key and the provisioning key. -/
opaque fuseFw : (k : Nat) → BitVec 384
opaque fuseRel : BitVec 384
opaque fuseProv : BitVec 384

/-- The newest Pellis release that the firmware of a release supports (phase 1, 0x0106). -/
opaque pellisSupported : BitVec 32 → BitVec 32

/-- Random bytes: nonces of the life cycle and of the link handshake, by draw number (R385, R482). -/
opaque randomBytes : (draw count : Nat) → Bytes

/-- A device key seed generated on the die at provisioning (Table 15.4). -/
opaque deviceSeed : (draw : Nat) → BitVec 384

/-- The device public key that belongs to a seed, 97 bytes (R483). -/
opaque devicePublic : BitVec 384 → Bytes

/-- The device key's ECDSA signature over a digest (PROVE, R385). -/
opaque deviceSign : BitVec 384 → BitVec 384 → Bytes

/-- Does a certificate chain end at a trust anchor, with R386's algorithms and lengths? -/
opaque chainValid : (anchor chain : Bytes) → Bool

/-- The die identifier in the device certificate's subject serialNumber, where it is four uppercase
hexadecimal digits (R386). -/
opaque chainDieId : (chain : Bytes) → Option (BitVec 16)

/-- The device public key of a certificate chain. -/
opaque chainKey : (chain : Bytes) → Bytes

/-- The ephemeral ECDH point of a handshake, 97 bytes, by draw number (Table 12.7). -/
opaque ephemeralPublic : (draw : Nat) → Bytes

/-- The 48-byte x-coordinate of the ECDH P-384 shared point (R387): own draw, the peer's point. -/
opaque ecdhShared : (draw : Nat) → (peerPoint : Bytes) → Bytes

/-- AES-256-GCM (R387, R388): key, nonce, additional data, plaintext; ciphertext and 16-byte tag. -/
opaque gcmSeal : (key nonce aad plain : Bytes) → Bytes × Bytes

/-- AES-256-GCM opening: key, nonce, additional data, ciphertext, tag; none when the tag fails. -/
opaque gcmOpen : (key nonce aad cipher tag : Bytes) → Option Bytes

/-- Coefficients c0, c1, c2 of segment `i` of the FP32 path of the first canonical EXP file, the
built-in exponential (R230, R232: issued with the table release, not printed in the manual). -/
opaque expCoef : (i : Nat) → BitVec 32 × BitVec 32 × BitVec 32

/-- The same of the heirloom-flagged EXP table in read-only storage (Table 8.9). -/
opaque heirloomExpCoef : (i : Nat) → BitVec 32 × BitVec 32 × BitVec 32

/-- The canonical Heirloom page of a function and format: the output encoding of each input encoding
(R248: the Ohmine tables are not printed). -/
opaque heirloomEntry : (functionId : BitVec 32) → (fmt : Nat) → (input : Nat) → BitVec 16

/-- Element encodings of a block-scaled store whose block holds an infinity and no NaN under ovf
standard: R63 gives the scale 0xFF and states no element bytes (notes/assumptions/9.md). -/
opaque infBlockElement : (fmt position : Nat) → BitVec 8

/-- What a conversion that would fault with 0x0210 or 0x0211 delivers in a guarded layer, where R67 raises
no fault and states no value: by format, position and stage (notes/assumptions/9.md). -/
opaque guardedValue : (fmt position stage : Nat) → BitVec 64

/-- I3C provisional identifier, bus and device characteristics (R309 names them, states no value). -/
opaque i3cPid : BitVec 48
opaque i3cBcr : BitVec 8
opaque i3cDcr : BitVec 8

/-- The I3C target status word; R309 states no value, so it is a fresh value at each read. -/
opaque i3cStatus : (draw : Nat) → BitVec 16

/-- The FW_WRITE offset at which the bytes of the boot record begin (R490: the message has one offset for the bank and
its boot record, and the manual gives the record none). -/
opaque fwRecordOffset : Nat

/-- The length of the entries and the sequence of a site-record copy whose magic, version and CRC-32C are right
(R488: the header's fields are named without their places); none otherwise. -/
opaque siteHeader : (copy : Bytes) → Option (Nat × Nat)

/-- The first destination and the entries of a site record's range of routes (R488, type 2: no layout is given);
none where the data is malformed. -/
opaque siteRoutes : (data : Bytes) → Option (Nat × Bytes)

/-- Which bits a free-running part holds where the manual states no value; fresh by draw number. -/
opaque freeBits : (draw : Nat) → BitVec 64

/-- The rate that the discipline steers to, in units of 2^−16 ns per ns, from the offsets measured last
(R423 speaks of filtering and states no filter); R413 bounds it. -/
opaque steerRate : List Int → Int

/-- The copies that a scan of the journal finds incomplete or with a failing CRC-32C, each by its record's LSN and its stack
(R340); fresh by draw number. -/
opaque failedCopies : (draw : Nat) → List (Nat × Nat)

/-- How often in a row a bank that a table load writes mismatches the archive copy (R236); fresh by draw number. -/
opaque bankMismatches : (draw : Nat) → Nat

/-- A measured stack temperature, °C (MEM_TEMP, as last read). -/
opaque stackTemp : (draw : Nat) → BitVec 8

end Sys2Proof.Config
end

