-- ==== Sys2Proof/Machine/Flags.lean ====
section
/-!
DEFINITION. The status words of the die: the value that each register of the external page and of a
worker shows, put together from the state (Tables 2.5, 2.6, 2.10, 3.4, 5.14, 6.7, 7.9, 10.4, 11.9,
11.10, 12.13, 13.8, 13.9, 14.8, 14.9, 15.9 and 16.5), and the alarm pins (R508).
-/

namespace Sys2Proof.Machine

/-! ### Codes of states -/

/-- Table 10.2. -/
def keeperCode : KeeperState → Nat
  | .rom => 0 | .boot => 1 | .recover => 2 | .ready => 3 | .hold => 4 | .failed => 5

/-- Table 6.7. -/
def rsCode : RsState → Nat
  | .untested => 0 | .testing => 1 | .passed => 2 | .failed => 3 | .scrubbing => 4

/-- Table 14.9. -/
def admitCode : AdmitState → Nat
  | .notAdmitted => 0 | .scrubbing => 1 | .reloading => 2 | .resync => 3 | .selfTest => 4 | .waiting => 5
  | .admitted => 6 | .fenced => 7 | .outOfService => 8

/-- Table 15.9. -/
def lcsCode : Lcs → Nat
  | .blank => 0 | .provisioned => 1 | .inService => 2 | .returned => 3 | .retired => 4

/-- Kind of a discipline source (Table 13.7), and its link port, 0xFF for the others. -/
def sourceKind : Option TimeSource → Nat
  | none => 0 | some (.link _) => 1 | some .ptp => 2 | some .pps => 3
def sourcePort : Option TimeSource → Nat
  | some (.link n) => n.val | _ => 0xFF

/-- Holder code of a comparator (Table 13.2). -/
def holderCode : CompHolder → Nat
  | .free => 0 | .flow => 1 | .timeTransfer => 2 | .stream _ _ _ => 3 | .mark _ _ _ => 4

/-- The sixteen holder codes as one 64-bit field (R427). -/
def holderCodes (s : State) : Nat := s.time.comps.foldr (fun h acc => holderCode h + 16 * acc) 0

/-! ### Pins -/

/-- FAULT_N is asserted (R508). -/
def faultAlarm (s : State) : Bool :=
  s.keeper.state == .failed || s.keeper.state == .hold || s.pins.tripped || bit s.pins.straps.toNat 3

/-- Firmware runs and may train ports (R301, R484). -/
def portsOpen (s : State) : Bool := s.keeper.state != .rom && s.keeper.state != .failed && s.life.state != .retired

/-- May link ports train (Table 15.3)? -/
def linksOpen (s : State) : Bool := portsOpen s && (s.life.state == .provisioned || s.life.state == .inService)

/-- STRAP[0] selects FLOW_STEP (Table 16.2). -/
def pinIsStep (s : State) : Bool := bit s.pins.straps.toNat 0

/-! ### Keeper and fault registers (Tables 10.4 and 14.8) -/

def mailboxStat (b : Mailbox) : Reg := regOf [(b2n b.overrun, 2), (b2n b.outFull, 1), (b2n b.inFull, 0)]

/-- KPR_FAULT_STAT. -/
def faultStat (s : State) : Reg :=
  regOf [(min 65535 s.keeper.recoveries.length, 16), (min 255 (s.keeper.orders.countP Order.awaiting), 8),
         (b2n (s.keeper.state == .hold || s.journal.hold), 7)]

/-- KPR_OOS_FRAME. -/
def oosFrames (s : State) : Reg := BitVec.ofNat 32 (s.frames.foldr (fun f acc => b2n f.outOfService + 2 * acc) 0)

/-- KPR_OOS_WORKER_0 to _2 as one number: bit i for physical worker i. -/
def oosWorkers (s : State) : Nat := s.workers.foldr (fun w acc => b2n (w.admission == .outOfService) + 2 * acc) 0

/-- KPR_SPARE. -/
def spareWord (s : State) : Reg :=
  regOf ((List.range 4).map (fun k => match (getWorker s (64 + k)).serves with | some n => (128 + n, 8 * k) | none => (0, 0)))

/-- The seven registers of Table 14.8. -/
def faultWords (s : State) : List Reg :=
  [faultStat s, s.keeper.faultCount, oosFrames s, BitVec.ofNat 32 (oosWorkers s), BitVec.ofNat 32 (oosWorkers s >>> 32),
   BitVec.ofNat 32 (oosWorkers s >>> 64), spareWord s]

/-! ### Comb and port registers (Tables 3.4, 11.9, 11.10, 12.13) -/

def combWords (f : Frame) : List Reg :=
  [f.ceCount, regOf [(f.ueCount.toNat, 0)], regOf [(b2n f.ueValid, 31), (f.ueAddr.toNat, 0)], regOf [(f.narrowMax.toNat, 0)],
   regOf [(b2n f.scrubBusy, 31), (f.scrubLeft.toNat, 0)], regOf [(f.patrolMs.toNat, 0)]]

def partnerWords (p : PartnerPort) : List Reg :=
  [regOf [(p.modules.toNat, 16), (p.rate.toNat, 8), (p.state.toNat, 0)],
   (match p.run with | some r => regOf [(1, 7), (r, 0)] | none => 0), regOf [(p.err.toNat, 0)], p.errCount, p.retries]

def memWords (m : MemPort) : List Reg :=
  [regOf [(m.capacity.toNat, 16), (m.height.toNat, 11), (m.state.toNat, 0)], regOf [(m.ueCount.toNat, 16), (m.ceCount.toNat, 0)],
   BitVec.ofNat 32 m.ueAddr.toNat, regOf [(b2n m.ueValid, 31), (m.ueAddr.toNat >>> 32, 0)],
   regOf [(min 65535 m.marked.length, 16), (m.spareLeft.toNat, 8), (m.repaired.toNat, 0)], regOf [(m.temp.toNat, 0)], m.rfm]

/-- Seconds of quarantine left (R391). -/
def quarLeft (s : State) (l : Link) : Nat := if l.state == 5#3 then ceilDiv (l.quarUntil - s.wall) (10 ^ 9) else 0

def linkWords (s : State) (l : Link) : List Reg :=
  [regOf [(l.cause.toNat, 16), (l.lanes.toNat, 12), (l.mode.toNat, 10), (l.state.toNat, 0)], l.cfg, l.peerCfg, l.epoch,
   regOf [(l.peerId.toNat, 0)], regOf [(l.err.toNat, 0)], l.malCount, l.fecCe, l.fecUe, l.replayed, l.drop,
   regOf [(l.nonfinite.toNat, 16), (l.flushed.toNat, 0)], l.asym, l.delay, regOf [(l.quarCount.toNat, 16), (quarLeft s l % 65536, 0)]]

/-! ### Time, power and life-cycle registers (Tables 13.8, 13.9, 15.9, 16.5) -/

/-- TIM_STAT. -/
def timeStat (s : State) : Reg :=
  regOf [(s.time.distance.toNat, 16), (sourcePort s.time.inForce % 32, 11), (sourceKind s.time.inForce, 8), (b2n (pinIsStep s), 4),
         (b2n s.time.fault, 3), (b2n s.time.holdover, 2), (b2n s.time.joined, 0)]

/-- TIM_OFFSET: the last offset in ps, saturated to 32 bits. -/
def offsetWord (ps : Int) : Reg := BitVec.ofInt 32 (max (-(2 ^ 31)) (min (2 ^ 31 - 1) ps))

def timeWords (s : State) : List Reg :=
  [BitVec.ofNat 32 (s.time.now / 65536), s.time.hi, regOf [(s.time.frac.toNat, 0)], timeStat s, s.time.cfg, offsetWord s.time.offsetPs,
   BitVec.ofNat 32 s.time.epoch.toNat, regOf [(s.time.epoch.toNat >>> 32, 0)], BitVec.ofNat 32 (holderCodes s),
   BitVec.ofNat 32 (holderCodes s >>> 32)]

/-- Mask of the ungated frames. -/
def ungatedMask (s : State) : Nat := s.frames.foldr (fun f acc => b2n f.ungated + 2 * acc) 0

/-- The nine registers PWR_STAT to PWR_EDGE. -/
def powerWords (s : State) : List Reg :=
  let p := s.power
  [regOf [(ungatedMask s, 24), (p.flowIndex.toNat, 16), (b2n p.alert, 9), (b2n p.floor, 8), (p.vclk, 0)],
   regOf [(p.sched % 65536, 16), (p.inForce % 65536, 0)], regOf [(p.alertCap.toNat, 16), (p.boardCap.toNat, 0)],
   regOf [(p.stagSub.toNat, 16), (p.stepNs.toNat, 0)], regOf [(p.leadUs.toNat, 0)], regOf [(p.gateOrder.toNat, 0)],
   regOf [(p.maxPower.toNat, 16), (p.meanPower.toNat, 0)], regOf [(p.late.toNat, 16), (p.floorEvents.toNat, 0)],
   regOf [(p.stray.toNat, 0)]]

/-- PWR_FRAME_ENERGY_LO_f and _HI_f. -/
def energyWords (p : Power) : List Reg :=
  (List.range 8).flatMap (fun f => [BitVec.ofNat 32 (nth p.energy f).toNat, nth p.energyHi f])

/-- PWR_TEMP. -/
def tempWord (p : Power) : Reg := regOf [(b2n p.tempWarn, 16), (p.tempPeak.toNat, 8), (p.tempNow.toNat, 0)]

/-- Set fuses of a rollback thermometer (Table 15.2), and the bank in force (R479). -/
def rollbackLevel (f : Fuses) : Nat := f.fwRollback
def bankInForce (f : Fuses) : Nat := f.banks.length - 1
def imageRevoked (f : Fuses) : BitVec 4 := match f.banks.getLast? with | some b => b.revoke | none => 0

/-- Is debug permitted (R485)? -/
def debugPermitted (s : State) : Bool := s.life.state == .blank || s.life.debug

def lcsWords (s : State) : List Reg :=
  let l := s.life
  [regOf [(rollbackLevel l.fuses, 16), (bankInForce l.fuses, 10), (b2n (debugPermitted s), 8), (lcsCode l.state, 0)], l.fwRelease,
   regOf [(b2n l.activating.isSome, 3), (b2n l.trial, 2), (b2n l.fallback, 1), (l.bank, 0)],
   regOf [(l.fuses.fwRevoke.toNat, 4), ((imageRevoked l.fuses).toNat, 0)]]

/-! ### The external page -/

/-- The 32-bit word of a byte string at an offset. -/
def wordAt (b : Bytes) (off : Nat) : Reg := BitVec.ofNat 32 (field b off 4)

/-- The value of the register at an aligned offset of the external page; an offset that holds none reads as
0 (R11, R324). -/
def pageWord (s : State) (off : Nat) : Reg :=
  let k := s.keeper
  if off == 0x1000 then regOf [(k.code.toNat, 16), (keeperCode k.state, 0)]
  else if off == 0x1004 then regOf [(s.life.dieId.toNat, 0)]
  else if off == 0x1008 then k.fwdDrop
  else if off == 0x100C then k.i3cErr
  else if 0x1100 ≤ off && off < 0x1200 then (if off % 16 == 0 then mailboxStat (getMailbox s ((off - 0x1100) / 16)) else 0)
  else if 0x1200 ≤ off && off < 0x12A0 then
    let n := (off - 0x1200) / 32
    let j := off % 32 / 4
    if j < 4 then nth (nth k.sessAddr n) j
    else if j == 4 then regOf [(b2n (nth k.sessEnable n), 16), ((nth k.sessPort n).toNat, 0)] else 0
  else if 0x1300 ≤ off && off < 0x1310 then nth k.netAddr (off % 16 / 4)
  else if 0x1400 ≤ off && off < 0x141C then nth (faultWords s) ((off - 0x1400) / 4)
  else if 0x2000 ≤ off && off < 0x2200 then nth (combWords (getFrame s ((off - 0x2000) / 64))) (off % 64 / 4)
  else if 0x3000 ≤ off && off < 0x3200 then nth (partnerWords (getPartner s ((off - 0x3000) / 64))) (off % 64 / 4)
  else if 0x3400 ≤ off && off < 0x3500 then nth (memWords (getMemPort s ((off - 0x3400) / 64))) (off % 64 / 4)
  else if 0x3800 ≤ off && off < 0x3E00 then nth (linkWords s (getLink s ((off - 0x3800) / 64))) (off % 64 / 4)
  else if 0x4000 ≤ off && off < 0x4028 then nth (timeWords s) ((off - 0x4000) / 4)
  else if 0x4100 ≤ off && off < 0x4124 then nth (powerWords s) ((off - 0x4100) / 4)
  else if 0x4140 ≤ off && off < 0x4180 then nth (energyWords s.power) ((off - 0x4140) / 4)
  else if 0x4180 ≤ off && off < 0x41A0 then regOf [((nth s.power.activity ((off - 0x4180) / 4)).toNat, 0)]
  else if 0x41C0 ≤ off && off < 0x41D8 then regOf [((nth s.power.isns ((off - 0x41C0) / 4)).toNat, 0)]
  else if off == 0x41D8 then tempWord s.power
  else if 0x4800 ≤ off && off < 0x4810 then nth (lcsWords s) ((off - 0x4800) / 4)
  else if 0x8000 ≤ off && off < 0xA000 then
    let b := getMailbox s ((off - 0x8000) / 512)
    if off % 512 < 256 then wordAt b.inbound (off % 256) else wordAt b.outbound (off % 256)
  else 0

/-! ### The registers of a worker -/

/-- WRK_SFN_BANK: pending marks and active banks. -/
def bankWord (w : Worker) : Reg :=
  regOf [(w.root.foldr (fun r acc => b2n r.pending + 2 * acc) 0, 16), (w.root.foldr (fun r acc => b2n r.activeB + 2 * acc) 0, 0)]

/-- The value of a worker register at an aligned offset below 0x1000; 0 where there is none. -/
def workerWord (w : Worker) (off : Nat) : Reg :=
  if off == 0x180 then w.flushA
  else if off == 0x184 then w.flushB
  else if off == 0x188 then w.numFlush
  else if off == 0x18C then w.numSat
  else if off == 0x190 then w.numNanLost
  else if 0x200 ≤ off && off < 0x228 then
    let k := (off - 0x200) / 8
    if off % 8 == 0 then BitVec.ofNat 32 (nth w.cyc k).toNat else nth w.cycHi k
  else if off == 0x228 then regOf [(w.cycTag.toNat, 0)]
  else if off == 0x240 then regOf [(w.rsCe.toNat, 4), (rsCode w.rsState, 0)]
  else if off == 0x244 then w.numCancel
  else if off == 0x248 then regOf [(b2n w.flagAllNeginf, 1), (b2n w.flagCancel, 0)]
  else if off == 0x260 then bankWord w
  else if off == 0x264 then w.sfnZero
  else if off == 0x268 then w.sfnSkip
  else if off == 0x26C then regOf [(w.sfnUe.toNat, 16), (w.sfnCe.toNat, 0)]
  else if off == 0x280 then regOf [(w.epoch.toNat, 16), (admitCode w.admission, 0)]
  else if 0x300 ≤ off && off < 0x380 then
    let r := nth w.root ((off - 0x300) / 8)
    if off % 8 == 0 then r.a.gen else r.b.gen
  else 0

end Sys2Proof.Machine
end

