-- ==== Sys2Proof/Machine/Time.lean ====
section
/-!
DEFINITION. Hive time: the counter and its rate (R413, R414), the discipline sources (R418 to R422),
joining and rejoining (R416, R417, R424), and the records they write (Table 13.6).
-/

namespace Sys2Proof.Machine

/-! ### Units -/

/-- A difference of two hive times, in 2^−16 ns, as ps, rounded down. -/
def diffPs (d : Int) : Int := d * 1000 / 65536

/-- An offset in ps as units of 2^−16 ns, rounded down. -/
def psUnits (p : Int) : Int := p * 65536 / 1000

/-- A signed 64-bit field. -/
def signed64 (i : Int) : Bytes := natLe 8 (ofSigned 64 i)

/-! ### Records (kinds 34 and 35) -/

def timeRecord (s : State) (event : Nat) (offset : Int) (holdover : Nat) : State :=
  logRecord s 35 (dieSource s) (natLe 1 event ++ natLe 7 0 ++ signed64 offset ++ natLe 8 holdover)

def changeRecord (s : State) (old new : Option TimeSource) (offset : Int) : State :=
  logRecord s 34 (dieSource s)
    (natLe 1 (sourceKind old) ++ natLe 1 (sourcePort old) ++ natLe 1 (sourceKind new) ++ natLe 1 (sourcePort new)
      ++ natLe 1 s.time.distance.toNat ++ natLe 3 0 ++ signed64 offset)

/-! ### The sources (Table 13.1) -/

/-- A source that has not been heard. -/
def freshSource (src : TimeSource) : SourceState :=
  { source := src, qualified := false, since := 0, offsets := [], offset := 0, distance := 0, excludedUntil := none, grandmaster := 0
    lastPulse := none }

def findSource (s : State) (src : TimeSource) : SourceState :=
  (s.time.sources.find? (fun x => x.source == src)).getD (freshSource src)

def setSource (s : State) (src : TimeSource) (f : SourceState → SourceState) : State :=
  let x := f (findSource s src)
  setTime s (fun t => { t with sources := x :: t.sources.filter (fun y => !(y.source == src)) })

/-- Does TIM_CFG.mode allow a source (R419)? -/
def modeAllows (mode : Nat) : TimeSource → Bool
  | .link _ => mode == 0 || mode == 1
  | .ptp => mode == 0 || mode == 2
  | .pps => mode == 0 || mode == 3

/-- Rank of a source: lower is better (R419). -/
def sourceRank (x : SourceState) : Nat :=
  100 * x.distance + (match x.source with | .pps => 0 | .ptp => 1 | .link n => 2 + n.val)

/-- May the die follow a source: qualified, allowed, not excluded (R418, R419, R424)? -/
def followable (s : State) (x : SourceState) : Bool :=
  x.qualified && modeAllows (bits s.time.cfg.toNat 1 0) x.source && x.excludedUntil.isNone

/-- The best of several sources. -/
def bestOf (xs : List SourceState) : Option SourceState :=
  match xs with
  | [] => none
  | x :: t => some (t.foldl (fun b y => if sourceRank y < sourceRank b then y else b) x)

/-- The best source that the die may follow. -/
def bestSource (s : State) : Option SourceState := bestOf (s.time.sources.filter (followable s))

/-- The Keeper enters state ready from recover once hive time is joined (Table 10.2, R416). -/
def enterReady (s : State) : State :=
  if s.time.joined && s.keeper.state == .recover then
    setLife (setKeeper s (fun k => { k with state := if s.journal.hold then .hold else .ready, code := if s.journal.hold then 0x0517 else 0 }))
      (fun l => { l with readyAt := some s.wall })
  else s

/-- The die enters holdover: the counter goes on at the rate last steered, with no correction outstanding (R422). -/
def enterHoldover (s : State) : State :=
  if s.time.holdover then s
  else
    let s := setTime s (fun t => { t with holdover := true, holdoverSince := s.time.now, distance := 0xFF, slew := 0 })
    timeRecord s 1 s.time.offsetPs 0

/-- A source comes into force; the counter is never stepped by the change (R413, R419, R422). -/
def followSource (s : State) (x : SourceState) : State :=
  let old := s.time.inForce
  let held := s.time.holdover
  let dur := (s.time.now - s.time.holdoverSince) / 65536
  let s := setTime s (fun t =>
    { t with inForce := some x.source, offsetPs := x.offset, slew := psUnits x.offset, distance := BitVec.ofNat 8 (min 254 x.distance)
             holdover := false })
  let s := changeRecord s old (some x.source) x.offset
  if held then timeRecord s 2 x.offset dur else s

/-- The source in force is given up: at once to the best other source, or into holdover (R419, R422). -/
def dropInForce (s : State) : State :=
  match bestSource s with
  | some x => followSource s x
  | none =>
    let old := s.time.inForce
    let s := changeRecord (setTime s (fun t => { t with inForce := none, distance := 0xFF })) old none s.time.offsetPs
    if s.time.joined then enterHoldover s else s

/-- A source is lost (R418). -/
def loseSource (s : State) (src : TimeSource) : State :=
  let s := setSource s src (fun x => { x with qualified := false, offsets := [], lastPulse := none })
  if s.time.inForce == some src then dropInForce s else s

/-- A link's session has ended: a measurement source no longer (Table 13.1). -/
def loseTimeLink (s : State) (n : Nat) : State :=
  if h : n < 24 then
    let src := TimeSource.link ⟨n, h⟩
    if s.time.sources.any (fun x => x.source == src) then loseSource s src else s
  else s

/-- The die joins hive time on a source (R416): ahead of the counter it steps forward once, behind it slews. -/
def joinOn (s : State) (x : SourceState) : State :=
  let s := setTime s (fun t =>
    { t with joined := true, holdover := false, inForce := some x.source, offsetPs := x.offset
             distance := BitVec.ofNat 8 (min 254 x.distance)
             now := if 0 < x.offset then (t.now + psUnits x.offset).toNat else t.now
             slew := if 0 < x.offset then 0 else psUnits x.offset })
  let s := changeRecord s none (some x.source) x.offset
  enterReady (timeRecord s 4 x.offset 0)

/-- R424: a qualified source whose offset exceeds 1 ms is not followed, and is excluded for 60 s. -/
def timeFault (s : State) (x : SourceState) : State :=
  let s := setTime s (fun t => { t with fault := true })
  let s := timeRecord s 3 x.offset 0
  let s := setSource s x.source (fun y => { y with excludedUntil := some (s.wall + 60 * 10 ^ 9) })
  if s.time.inForce == some x.source then dropInForce s else s

/-- What a source's latest measurement does once it is qualified. -/
def discipline (s : State) (src : TimeSource) : State :=
  let x := findSource s src
  if !(x.qualified && modeAllows (bits s.time.cfg.toNat 1 0) src) || x.excludedUntil.isSome then s
  else if !s.time.joined then joinOn s x
  else if 10 ^ 9 < x.offset.natAbs then timeFault s x
  else if s.time.inForce == some src then
    setTime s (fun t =>
      { t with offsetPs := x.offset, slew := psUnits x.offset, distance := BitVec.ofNat 8 (min 254 x.distance)
               steer := max (-65) (min 65 (Config.steerRate x.offsets)) })
  else if s.time.inForce.isNone then followSource s x
  else s

/-- Do `n` values lie within a tolerance of their mean (Table 13.1)? -/
def withinMean (n : Nat) (tol : Int) (xs : List Int) : Bool :=
  xs.length == n && xs.all (fun x => (n * x - xs.foldl (· + ·) 0).natAbs ≤ (n * tol).natAbs)

/-- A measurement of a source's offset: it qualifies after `n` of them within `tol` ps of their mean. -/
def measure (s : State) (src : TimeSource) (offset : Int) (distance n : Nat) (tol : Int) : State :=
  let s := setSource s src (fun x =>
    let os := (x.offsets ++ [offset]).drop (x.offsets.length + 1 - n)
    let ok := x.qualified || withinMean n tol os
    { x with offsets := os, offset := offset, distance := distance, qualified := ok, since := if x.qualified then x.since else s.wall })
  discipline s src

/-! ### One ns of the counter (R413, R499) -/

/-- The counter over one ns: its steered rate, and the part of the outstanding correction that keeps the rate
between 0.999 and 1.001. -/
def advanceCounter (t : TimeUnit) : TimeUnit :=
  let steer := max (-65) (min 65 t.steer)
  let part := max (-65 - steer) (min (65 - steer) t.slew)
  { t with now := (t.now + 65536 + steer + part).toNat, slew := t.slew - part }

/-- What an empty queue lets pass: one nanosecond, and the counter's over it while the die is clocked
(notes/assumptions/5.md). -/
def tick (s : State) : State := { s with wall := s.wall + 1, time := if standing s then s.time else advanceCounter s.time }

/-! ### The commands -/

/-- FREE_RUNNING_JOIN (R417): free_join is 1, the journal has been scanned, and no source has qualified. -/
def execFreeRunningJoin (s : State) : Host.Outcome State Fault Refusal :=
  clocked s (
    if s.time.joined || s.time.scanAt.isNone || !bit s.time.cfg.toNat 3 || s.time.sources.any SourceState.qualified then s
    else
      let s := setTime s (fun t => { t with joined := true, holdover := true, holdoverSince := t.now, distance := 0xFF })
      enterReady (timeRecord s 6 0 0))

/-- SOURCE_LOSS (R418). -/
def execSourceLoss (source : TimeSource) (s : State) : Host.Outcome State Fault Refusal := clocked s (loseSource s source)

/-- SOURCE_CHANGE (R419): the best source outranks the one in force and has stayed qualified for 10 s. -/
def execSourceChange (s : State) : Host.Outcome State Fault Refusal :=
  clocked s (
    match bestSource s, s.time.inForce with
    | some x, some cur => if x.source != cur && sourceRank x < sourceRank (findSource s cur) then followSource s x else s
    | _, _ => s)

/-- TIME_FAULT_EXCLUSION_END (R424). -/
def execTimeFaultExclusionEnd (source : TimeSource) (s : State) : Host.Outcome State Fault Refusal :=
  clocked s (if (findSource s source).excludedUntil.isNone then s else setSource s source (fun x => { x with excludedUntil := none }))

/-- SYNC_PPS_PULSE (R421, R498): the pulse's instant, against the second that it marks once that is known. -/
def ppsPulse (s : State) (highNs : Nat) : State :=
  let now := s.time.now
  let x := findSource s .pps
  let early := match x.lastPulse with | some t => now < t + 100000 * 65536 | none => false
  if pinIsStep s || highNs < 100 || early || !s.time.syncRefLocked then s
  else
    let second := 10 ^ 9 * 65536
    let other := s.time.sources.find? (fun y => y.qualified && !(y.source == .pps))
    let known := match s.time.nextPpsSecond, other with
      | some n, _ => some n
      | none, some y => some (((now + psUnits y.offset + second / 2) / second).toNat)
      | none, none => none
    let s := match x.lastPulse with
      | some t =>
        setSource s .pps (fun x =>
          let os := (x.offsets ++ [diffPs (now - t - second)]).drop (x.offsets.length - 2)
          let ok := x.qualified || (known.isSome && os.length == 3 && os.all (fun d => d.natAbs ≤ 200000))
          { x with offsets := os, lastPulse := some now, distance := 0, since := if x.qualified then x.since else s.wall, qualified := ok })
      | none => setSource s .pps (fun x => { x with lastPulse := some now })
    match known with
    | none => s
    | some n =>
      let s := setTime s (fun t => { t with nextPpsSecond := some (n + 1) })
      discipline (setSource s .pps (fun x => { x with offset := diffPs (n * second - now) })) .pps

def execSyncPpsPulse (highNs : Nat) (s : State) : Host.Outcome State Fault Refusal := clocked s (ppsPulse s highNs)

/-- SYNC_REF_LOSS (R422, R500): PPS is lost with it. -/
def execSyncRefLoss (s : State) : Host.Outcome State Fault Refusal :=
  clocked s (
    let s := setTime s (fun t => { t with syncRefLocked := false, nextPpsSecond := none })
    if (findSource s .pps).qualified || !(findSource s .pps).offsets.isEmpty then loseSource s .pps else s)

/-- SYNC_REF_LOCK (R421, R500). -/
def execSyncRefLock (s : State) : Host.Outcome State Fault Refusal := clocked s (setTime s (fun t => { t with syncRefLocked := true }))

/-- The IPv6 address of a session as its registers hold it, first byte lowest (Table 10.4). -/
def sessionAddr (s : State) (k : Nat) : BitVec 128 :=
  BitVec.ofNat 128 ((nth s.keeper.sessAddr k).foldr (fun w acc => w.toNat + 2 ^ 32 * acc) 0)

/-- PTP_MESSAGE (R420): only from the address of an enabled session and on the domain listened to. Another
grandmaster than before loses the source first (Table 13.1). -/
def ptpMessage (s : State) (addr : BitVec 128) (m : PtpMessage) : State :=
  let fromSession := (List.range 5).any (fun k => nth s.keeper.sessEnable k && sessionAddr s k == addr)
  let listens (d : BitVec 8) : Bool := d.toNat == bits s.time.cfg.toNat 15 8
  let changeTo (g : BitVec 64) (s : State) : State :=
    if (findSource s .ptp).grandmaster == g then s
    else setSource (loseSource s .ptp) .ptp (fun x => { x with grandmaster := g })
  if !fromSession then s
  else
    match m with
    | .announce d g => if listens d then changeTo g s else s
    | .sync d g sec ps =>
      if !listens d then s
      else
        let s := changeTo g s
        let target : Int := ((sec : Int) - s.time.epoch.toNat) * 10 ^ 12 + ps
        measure s .ptp (target - diffPs s.time.now) 0 8 1000000

def execPtpMessage (addr : BitVec 128) (message : PtpMessage) (s : State) : Host.Outcome State Fault Refusal :=
  clocked s (ptpMessage s addr message)

/-- TIM_CFG is given a new mode or domain: another domain loses PTP, and a source that the mode does not allow
is given up (R419, R420). -/
def setTimeCfg (s : State) (cfg : BitVec 32) : State :=
  let old := s.time.cfg
  let s := setTime s (fun t => { t with cfg := cfg })
  let s := if bits old.toNat 15 8 != bits cfg.toNat 15 8 then loseSource s .ptp else s
  match s.time.inForce with
  | some src => if modeAllows (bits cfg.toNat 1 0) src then s else dropInForce s
  | none => s

end Sys2Proof.Machine
end

