-- ==== Sys2Proof/Machine/Registers.lean ====
section
/-!
DEFINITION. Reads and writes of registers: the latches (R177, R415, R442), the access codes (R10, R11),
the stored ranges that the tables give, and the worker a register number reaches (R18, R29, R324).
-/

namespace Sys2Proof.Machine

/-! ### Reads -/

/-- TIM_NOW_LO is read: the upper bits and the fraction of the same value are latched (R415). -/
def latchNow (s : State) : State :=
  setTime s (fun t => { t with hi := BitVec.ofNat 32 (t.now / 65536 / 2 ^ 32), frac := BitVec.ofNat 16 (t.now % 65536) })

/-- PWR_FRAME_ENERGY_LO_f is read (Table 13.9). -/
def latchEnergy (s : State) (f : Nat) : State :=
  setPower s (fun p => { p with energyHi := updAt p.energyHi f (fun _ => BitVec.ofNat 32 ((nth p.energy f).toNat / 2 ^ 32)) })

/-- A _LO half of a worker's cycle counter is read (R177). -/
def latchCycles (s : State) (w k : Nat) : State :=
  setWorker s w (fun x => { x with cycHi := updAt x.cycHi k (fun _ => BitVec.ofNat 32 ((nth x.cyc k).toNat / 2 ^ 32)) })

/-- A register of the external page is read. -/
def readPage (s : State) (off : Nat) : State × Reg :=
  let v := pageWord s off
  if off == 0x4000 then (latchNow s, v)
  else if 0x4140 ≤ off && off < 0x4180 && off % 8 == 0 then (latchEnergy s ((off - 0x4140) / 8), v)
  else (s, v)

/-- A register of a physical worker is read. -/
def readWorkerReg (s : State) (w off : Nat) : State × Reg :=
  let v := workerWord (getWorker s w) off
  if 0x200 ≤ off && off < 0x228 && off % 8 == 0 then (latchCycles s w ((off - 0x200) / 8), v) else (s, v)

/-- `n` registers in order. -/
def readMany (rd : State → Nat → State × Reg) (s : State) (off n : Nat) : State × List Reg :=
  (List.range n).foldl (fun acc i => let (s, v) := rd acc.1 (off + 4 * i); (s, acc.2 ++ [v])) (s, [])

/-! ### Writes (R10) -/

/-- A value no larger than a bound. -/
def capAt (bound v : Nat) : Nat := min bound v

/-- LNK_CFG as a write of it stores it: q_limit 0 as 0x40, mode code 3 as 2, media 3 as 0 (Table 12.13). -/
def storedLinkCfg (v : Nat) : Reg :=
  let q := if bits v 23 16 == 0 then 0x40 else bits v 23 16
  regOf [(q, 16), (bits v 10 6, 6), (capAt 2 (bits v 5 4), 4), (capAt 2 (bits v 3 2), 2), (if bits v 1 0 == 3 then 0 else bits v 1 0, 0)]

/-- Is PWR_GATE_ORDER's value a permutation of 0 to 7 (Table 13.9)? -/
def isGateOrder (v : Nat) : Bool := (List.range 8).all (fun f => (List.range 8).any (fun k => bits v (3 * k + 2) (3 * k) == f))

/-- A write to a register of frame `f` (Table 3.4). -/
def writeCombReg (s : State) (f k v : Nat) : State :=
  if k == 2 then (if bit v 31 then setFrame s f (fun x => { x with ueValid := false }) else s)
  else if k == 3 then setFrame s f (fun x => { x with narrowMax := BitVec.ofNat 7 v })
  else if k == 5 then setFrame s f (fun x => { x with patrolMs := BitVec.ofNat 16 (max 1 (min 1000 (v % 65536))) })
  else s

/-- A write to a register of link `n` (Table 12.13). -/
def writeLinkReg (s : State) (n k v : Nat) : State :=
  if k == 1 then setLink s n (fun l => { l with cfg := storedLinkCfg v })
  else if k == 2 then setLink s n (fun l => { l with peerCfg := BitVec.ofNat 32 (v % 2 ^ 17) })
  else if k == 5 then setLink s n (fun l => { l with err := l.err &&& ~~~ BitVec.ofNat 8 v })
  else if k == 12 then setLink s n (fun l => { l with asym := BitVec.ofNat 32 v })
  else s

/-- A write to a time register (Table 13.8). -/
def writeTimeReg (s : State) (off v : Nat) : State :=
  if off == 0x400C then (if bit v 3 then setTime s (fun t => { t with fault := false }) else s)
  else if off == 0x4010 then setTimeCfg s (regOf [(bits v 15 8, 8), (bits v 3 0, 0)])
  else if off == 0x4018 then
    setTime s (fun t => { t with epoch := BitVec.ofNat 48 (t.epoch.toNat / 2 ^ 32 * 2 ^ 32 + v % 2 ^ 32) })
  else if off == 0x401C then
    setTime s (fun t => { t with epoch := BitVec.ofNat 48 (v % 2 ^ 16 * 2 ^ 32 + t.epoch.toNat % 2 ^ 32) })
  else s

/-- A write to a power or sense register (Tables 13.9 and 16.5). -/
def writePowerReg (s : State) (off v : Nat) : State :=
  if off == 0x4108 then
    setPower s (fun p => { p with alertCap := BitVec.ofNat 16 (capAt 1440 (bits v 31 16)), boardCap := BitVec.ofNat 16 (capAt 1440 (bits v 15 0)) })
  else if off == 0x410C then setPower s (fun p => { p with stagSub := BitVec.ofNat 6 (bits v 21 16), stepNs := BitVec.ofNat 16 (bits v 15 0) })
  else if off == 0x4110 then setPower s (fun p => { p with leadUs := BitVec.ofNat 16 (max 300 (bits v 15 0)) })
  else if off == 0x4114 then (if isGateOrder v then setPower s (fun p => { p with gateOrder := BitVec.ofNat 24 v }) else s)
  else if 0x41C0 ≤ off && off < 0x41D8 then
    setPower s (fun p => { p with isns := updAt p.isns ((off - 0x41C0) / 4) (fun _ => BitVec.ofNat 16 v) })
  else if off == 0x41D8 then
    setPower s (fun p => { p with tempPeak := BitVec.ofNat 8 (bits v 15 8), tempWarn := if bit v 16 then false else p.tempWarn })
  else s

/-- A write to a register of the external page: RW fields store, W1C fields clear, RO and reserved fields and
offsets without a register ignore it (R10, R11). Which registers a sender may write is the sender's rule. -/
def writePage (s : State) (off v : Nat) : State :=
  if 0x1100 ≤ off && off < 0x1200 then
    let n := (off - 0x1100) / 16
    if off % 16 == 0 then
      let s := if bit v 2 then setMailbox s n (fun b => { b with overrun := false }) else s
      if bit v 1 then clearOut s n else s
    else if off % 16 == 4 && bit v 0 then slotPost s n else s
  else if 0x1200 ≤ off && off < 0x12A0 then
    let n := (off - 0x1200) / 32
    let j := off % 32 / 4
    if j < 4 then setKeeper s (fun k => { k with sessAddr := updAt k.sessAddr n (fun a => updAt a j (fun _ => BitVec.ofNat 32 v)) })
    else if j == 4 then
      setKeeper s (fun k => { k with sessEnable := updAt k.sessEnable n (fun _ => bit v 16), sessPort := updAt k.sessPort n (fun _ => BitVec.ofNat 16 v) })
    else s
  else if 0x1300 ≤ off && off < 0x1310 then
    setKeeper s (fun k => { k with netAddr := updAt k.netAddr (off % 16 / 4) (fun _ => BitVec.ofNat 32 v) })
  else if 0x2000 ≤ off && off < 0x2200 then writeCombReg s ((off - 0x2000) / 64) (off % 64 / 4) v
  else if 0x3000 ≤ off && off < 0x3200 then
    (if off % 64 == 8 then setPartner s ((off - 0x3000) / 64) (fun p => { p with err := p.err &&& ~~~ BitVec.ofNat 6 v }) else s)
  else if 0x3400 ≤ off && off < 0x3500 then
    (if off % 64 == 12 && bit v 31 then setMemPort s ((off - 0x3400) / 64) (fun m => { m with ueValid := false }) else s)
  else if 0x3800 ≤ off && off < 0x3E00 then writeLinkReg s ((off - 0x3800) / 64) (off % 64 / 4) v
  else if 0x4000 ≤ off && off < 0x4100 then writeTimeReg s off v
  else if 0x4100 ≤ off && off < 0x4200 then writePowerReg s off v
  else if 0x8000 ≤ off && off < 0xA000 && off % 512 < 256 then slotWrite s ((off - 0x8000) / 512) (off % 256) (natLe 4 v)
  else s

/-- A flush register as a write stores it: each field at most its format's fraction width (R49). -/
def storedFlush (widths : List Nat) (v : Nat) : Reg :=
  regOf (widths.mapIdx (fun i w => (capAt w (bits v (6 * i + 5) (6 * i)), 6 * i)))

/-- A write to a register of a worker. -/
def writeWorkerReg (s : State) (w off v : Nat) : State :=
  if off == 0x180 then setWorker s w (fun x => { x with flushA := storedFlush [52, 28, 23, 7, 10] v })
  else if off == 0x184 then setWorker s w (fun x => { x with flushB := storedFlush [3, 2, 2, 3, 1] v })
  else if off == 0x228 then setWorker s w (fun x => { x with cycTag := BitVec.ofNat 16 v })
  else if off == 0x248 then
    setWorker s w (fun x => { x with flagAllNeginf := if bit v 1 then false else x.flagAllNeginf, flagCancel := if bit v 0 then false else x.flagCancel })
  else s

/-! ### Numbers of workers in the register window (R18, R324) -/

/-- The physical worker that a number reaches: 0 to 63 the one that serves the number, or the worker itself
while none serves it; 64 to 67 a spare that is not standing in. -/
def windowWorker (s : State) (n : Nat) : Option Nat :=
  if n < 64 then some ((servingOf s n).getD n)
  else if n ≤ 67 && (getWorker s n).serves.isNone then some n else none

/-- End of the external register page: the last mailbox slot's. -/
def pageEnd : Nat := 0xA000

/-- Registers that no REG_READ or REG_WRITE reaches (R308). -/
def sessionReg (off : Nat) : Bool :=
  (0x1200 ≤ off && off < 0x12A0 && off % 32 < 20) || (0x1300 ≤ off && off < 0x1310)

/-- Is a run of registers of the page out of reach (R324): misaligned, outside the page, in a slot, or restricted? -/
def pageRangeBad (off n : Nat) : Bool :=
  off % 4 != 0 || pageEnd < off + 4 * n
    || (List.range n).any (fun i => let o := off + 4 * i; (0x8000 ≤ o && o < 0xA000) || sessionReg o)

/-- Is a run of worker registers out of reach? -/
def workerRangeBad (off n : Nat) : Bool := off % 4 != 0 || 0x1000 < off + 4 * n

/-! ### The commands -/

/-- TIM_NOW_LO_READ (R415). -/
def execTimNowLoRead (s : State) : Host.Outcome State Fault Refusal :=
  clocked s (let (t, v) := readPage s 0x4000; { t with readBack := [v] })

/-- WRK_CYC_LO_READ (R177). -/
def execWrkCycLoRead (w : Fin 68) (k : Fin 5) (s : State) : Host.Outcome State Fault Refusal :=
  clocked s (let (t, v) := readWorkerReg s w (0x200 + 8 * k.val); { t with readBack := [v] })

/-- PWR_FRAME_ENERGY_LO_READ (R442). -/
def execPwrFrameEnergyLoRead (f : Fin 8) (s : State) : Host.Outcome State Fault Refusal :=
  clocked s (let (t, v) := readPage s (0x4140 + 8 * f.val); { t with readBack := [v] })

/-- REGISTER_WRITE (R10): to the external page but for the registers that only I3C and the site record write (R308), or to
a worker that belongs to no run (R29). -/
def execRegisterWrite (target : Option (Fin 68)) (offset : BitVec 32) (value : BitVec 32) (s : State) :
    Host.Outcome State Fault Refusal :=
  clocked s (
    if offset.toNat % 4 != 0 then s
    else
      match target with
      | none => if sessionReg offset.toNat then s else writePage s offset.toNat value.toNat
      | some w => if (getWorker s w).run.isSome then s else writeWorkerReg s w offset.toNat value.toNat)

end Sys2Proof.Machine
end

