-- ==== Sys2Proof/Machine/Requests.lean ====
section
/-!
DEFINITION. Inbound messages: what the Keeper takes from a slot, the assembly of fragments (R313), the
checks of R315 in their order with the layouts of every message body, repeated tags (R314), the states
that serve a request (R302, R484), and the frame in which every message row acts.
-/

namespace Sys2Proof.Machine

/-! ### Layouts (the body tables of chapters 10 to 15) -/

/-- Is a type that of a request (Table 10.7)? -/
def knownRequest (t : Nat) : Bool :=
  [0x0001, 0x0003, 0x0010, 0x0011, 0x0012, 0x0013, 0x0020, 0x0021, 0x0022, 0x0030, 0x0031, 0x0040, 0x0041, 0x0042, 0x0050,
   0x0100, 0x0200, 0x0201, 0x0202, 0x0300, 0x0301, 0x0310, 0x0311, 0x0320, 0x0321, 0x0330, 0x0400, 0x0401, 0x0402,
   0x0500, 0x0510, 0x0511, 0x0512, 0x0520, 0x0530, 0x0531, 0x0532, 0x0540, 0x0550].contains t

/-- Is the length of an assembled body the one that its layout gives (R315)? An LC_CHANGE carries a payload
exactly where its transition has one (R483). -/
def bodyLengthOk (s : State) (t : Nat) (b : Bytes) : Bool :=
  let n := b.length
  let fixed (k : Nat) : Bool := n == k
  if t == 0x0001 || t == 0x0300 || t == 0x0311 || t == 0x0400 || t == 0x0510 then fixed 0
  else if t == 0x0003 then fixed 264
  else if t == 0x0010 then 16 ≤ n && n ≤ 16 + 65536
  else if t == 0x0012 || t == 0x0013 || t == 0x0301 || t == 0x0321 || t == 0x0330 || t == 0x0402 then fixed 16
  else if t == 0x0020 then 24 ≤ n && n == 600 + field b 20 4
  else if t == 0x0030 then 104 ≤ n && n ≤ 104 + 7328
  else if t == 0x0041 then 8 ≤ n && n == 8 + 4 * field b 2 2
  else if t == 0x0042 || t == 0x0401 then fixed 24
  else if t == 0x0201 then 8 ≤ n && n == 8 + field b 4 4
  else if t == 0x0310 then 16 ≤ n && n == 16 + 16 * field b 8 2
  else if t == 0x0511 then
    fixed (if field b 0 1 == 1 && (s.life.state == .blank || s.life.state == .provisioned) then 553 else 201)
  else if t == 0x0512 || t == 0x0520 then fixed 201
  else if t == 0x0530 || t == 0x0540 then 8 ≤ n && n ≤ 8 + 65536
  else fixed 8

/-- A nonzero reserved field of a body, or a field that must be 0 in the case at hand (R11, R315). -/
def bodyReserved (t : Nat) (b : Bytes) : Bool :=
  let z (off size : Nat) : Bool := field b off size != 0
  if t == 0x0003 then z 2 6
  else if t == 0x0010 || t == 0x0011 || t == 0x0012 || t == 0x0013 then z 1 7
  else if t == 0x0020 then
    field b 8 8 >>> 42 != 0 || field b 17 1 >>> 1 != 0 || z 18 2 || (!bit (field b 17 1) 0 && (b.drop 24 |>.take 64).any (· != 0))
  else if t == 0x0030 then z 2 2
  else if t == 0x0031 then field b 4 1 >>> 1 != 0 || z 5 3
  else if t == 0x0040 then field b 0 1 == 0 && z 1 1
  else if t == 0x0041 then (field b 0 1 == 0 || field b 0 1 == 4) && z 1 1
  else if t == 0x0042 then z 1 7 || field b 16 1 >>> 4 != 0 || z 17 7
  else if t == 0x0050 then field b 0 1 != 1 || z 2 6
  else if t == 0x0100 || t == 0x0202 || t == 0x0550 then z 2 6
  else if t == 0x0200 then z 1 7
  else if t == 0x0201 then z 2 2
  else if t == 0x0301 then z 3 5
  else if t == 0x0310 then z 10 6
  else if t == 0x0320 then z 3 1
  else if t == 0x0321 then z 10 6
  else if t == 0x0330 then z 10 2
  else if t == 0x0402 then z 9 7
  else if t == 0x0500 then z 3 1 || z 6 2 || (field b 0 1 != 2 && z 1 1)
  else if t == 0x0511 then z 1 7 || (b.length == 553 && (b.drop 203 |>.take 14).any (· != 0))
  else if t == 0x0512 || t == 0x0520 || t == 0x0532 then z 1 7
  else if t == 0x0530 || t == 0x0540 then z 1 3
  else if t == 0x0531 then z 0 8
  else false

/-- May a type arrive on a mailbox (Table 10.7, R373, R412, R448, R473, R495)? RESOLVE is allowed on every
mailbox from the order's own source. -/
def allowedOn (t n : Nat) (src : BitVec 22) (b : Bytes) : Bool :=
  let managed := n == 0 || (9 ≤ n && n ≤ 13)
  if [0x0001, 0x0020, 0x0021, 0x0022, 0x0100, 0x0200, 0x0300, 0x0311, 0x0321, 0x0330, 0x0400, 0x0401].contains t then true
  else if t == 0x0003 then n ≤ 13
  else if t == 0x0310 then managed || n == 14 || n == 15
  else if t == 0x0402 then managed || orderSource (BitVec.ofNat 64 (field b 0 8)) == src
  else if [0x0510, 0x0511, 0x0512, 0x0520, 0x0540].contains t then n == 0
  else managed

/-- The code with which the current state refuses a type (Table 10.2, R484, R490); 0 when it serves it. -/
def stateRefusal (s : State) (t n : Nat) : BitVec 16 :=
  let work := t == 0x0020 || t == 0x0011 || t == 0x0030
  if s.life.state == .retired && t != 0x0001 then 0x0504
  else
    match s.keeper.state with
    | .rom => 0x0504
    | .boot => if t == 0x0001 || t == 0x0040 then 0 else 0x0504
    | .recover => if work then 0x0504 else 0
    | .ready => 0
    | .hold => if work then 0x0517 else 0
    | .failed => if n == 0 && [0x0001, 0x0500, 0x0530, 0x0531].contains t then 0 else 0x0504

/-! ### One message (Table 10.6) -/

def msgType (m : Bytes) : Nat := field m 0 2
def msgLength (m : Bytes) : Nat := field m 2 2
def msgTag (m : Bytes) : BitVec 32 := BitVec.ofNat 32 (field m 4 4)
def msgSource (m : Bytes) : BitVec 22 := BitVec.ofNat 22 (field m 8 4)
def msgIndex (m : Bytes) : Nat := bits (field m 14 2) 8 0
def msgLast (m : Bytes) : Bool := bit (field m 14 2) 15
def msgCrcOk (m : Bytes) : Bool := (crc32c (zeroField m 24 4)).toNat == field m 24 4

/-- A reserved header field of a request is not 0 (Table 10.6). -/
def headerReserved (m : Bytes) : Bool :=
  field m 8 4 >>> 22 != 0 || field m 12 2 != 0 || bits (field m 14 2) 14 9 != 0 || field m 16 8 != 0 || field m 28 4 != 0

/-- The source of a request that arrives on a mailbox (R305). -/
def requestSource (s : State) (n : Nat) (m : Bytes) : BitVec 22 :=
  if n ≤ 13 then BitVec.ofNat 22 (s.life.dieId.toNat * 64 + mailboxSource n)
  else BitVec.ofNat 22 ((getMailbox s n).origin.toNat * 64 + field m 8 4 % 64)

/-- A rejection of a message that is no complete request: its reply is not kept for a repeated tag. -/
def rejectMessage (s : State) (n : Nat) (type : BitVec 16) (tag : BitVec 32) (src : BitVec 22) (code : BitVec 16) : State :=
  if type == 0x0022 then s
  else enqueue s n ((fragments (type ||| 0x8000) tag src code (s.time.now / 65536) []).map (fun b => { bytes := b, completion := none }))

/-- A request is rejected (R315); NOTICE_ACK never gets a reply (R511). -/
def reject (s : State) (p : Pending) (code : BitVec 16) : State := if p.type == 0x0022 then s else reply s p code []

/-! ### What the Keeper takes from an inbound slot -/

/-- What a message row meets at a mailbox. -/
inductive Inbound where
  /-- No message, or one that must wait (R302, R307). -/
  | nothing
  /-- The message was rejected or answered with a stored reply. -/
  | done (s : State)
  /-- A fragment that is not the last was taken. -/
  | part (s : State)
  /-- A reply or notice of another die (R317). -/
  | foreign (s : State) (msg : Bytes)
  /-- A request that has passed every check. -/
  | request (s : State) (p : Pending)

/-- The checks of an assembled request after its fragments (R314, R315; for a SUBMIT Table 10.13 puts the
state first). -/
def checkRequest (s : State) (p : Pending) (headerBad : Bool) : Inbound :=
  let t := p.type.toNat
  let refusal := stateRefusal s t p.mailbox
  let b := getMailbox s p.mailbox
  let repeated := t != 0x0022 && b.lastTag == some p.tag && !b.lastReply.isEmpty
  if !bodyLengthOk s t p.body then .done (reject s p 0x0501)
  else if t == 0x0020 && refusal != 0 && !repeated then .done (reject s p refusal)
  else if headerBad || bodyReserved t p.body then .done (reject s p 0x0502)
  else if !allowedOn t p.mailbox p.source p.body then .done (reject s p 0x0505)
  else if repeated then .done (enqueue s p.mailbox b.lastReply)
  else if refusal != 0 then .done (reject s p refusal)
  else .request s p

/-- A fragment joins the request being assembled on its mailbox (R313). An unexpected one, or one of another source,
discards that request with 0x0503 to its own source; with index 0 it begins a new one. -/
def takeFragment (s : State) (n : Nat) (m : Bytes) (src : BitVec 22) : Inbound :=
  let t := BitVec.ofNat 16 (msgType m)
  let tag := msgTag m
  let clear (s : State) : State := setMailbox s n (fun b => { b with assembly := none })
  let expected (a : Assembly) : Bool := msgIndex m == a.next && t == a.type && tag == a.tag && src == a.source
  let start : Assembly := { type := t, tag := tag, next := 0, body := [], reserved := false, source := src }
  let found : (State × Assembly) ⊕ State := match (getMailbox s n).assembly with
    | some a =>
      if expected a then .inl (s, a)
      else
        let s := rejectMessage (clear s) n a.type a.tag a.source 0x0503
        if msgIndex m == 0 then .inl (s, start) else .inr s
    | none => if msgIndex m == 0 then .inl (s, start) else .inr (rejectMessage s n t tag src 0x0503)
  match found with
  | .inr s => .done s
  | .inl (s, old) =>
    let a : Assembly := { old with next := old.next + 1, body := old.body ++ (m.drop 32).take (msgLength m)
                                   reserved := old.reserved || headerReserved m }
    if 330 < a.next || 73728 < a.body.length then .done (rejectMessage (clear s) n t tag src 0x0503)
    else if msgLast m then
      checkRequest (clear s) { mailbox := n, type := t, tag := tag, source := src, body := a.body } a.reserved
    else .part (setMailbox s n (fun b => { b with assembly := some a }))

/-- The Keeper reads an inbound slot and clears in_full (R306, R307), and checks the message (R305, R313,
R315). In state rom, during a wipe (R483), and while 64 messages wait in the mailbox's outbound queue, the message stays. -/
def takeMessage (s : State) (n : Nat) : Inbound :=
  let b := getMailbox s n
  if !b.inFull || s.keeper.state == .rom || s.life.change.isSome || 64 ≤ b.queue.length then .nothing
  else
    let m := b.inbound
    let src := requestSource s n m
    let t := msgType m
    let s := pullArrived (setMailbox s n (fun b => { b with inFull := false })) n
    if !msgCrcOk m || 224 < msgLength m then .done (rejectMessage s n (BitVec.ofNat 16 t) (msgTag m) src 0x0501)
    else if 14 ≤ n && 0x4000 ≤ t then .foreign s m
    else if 14 ≤ n && (src.toNat % 64 == 0 || 15 ≤ src.toNat % 64) then .done (rejectMessage s n (BitVec.ofNat 16 t) (msgTag m) src 0x0506)
    else if !knownRequest t then .done (rejectMessage s n (BitVec.ofNat 16 t) (msgTag m) src 0x0501)
    else takeFragment s n m src

/-- The frame of every message row: it acts on a request that is its own; a rejection or a repeated tag is
dealt with by whichever row reads the slot; anything else is another row's. -/
def onRequest (s : State) (n : Nat) (mine : Pending → Bool) (act : State → Pending → State) : State :=
  match takeMessage s n with
  | .done t => t
  | .request t p => if mine p then act t p else s
  | _ => s

/-- MESSAGE_FRAGMENT (R313). -/
def execMessageFragment (n : Fin 16) (s : State) : Host.Outcome State Fault Refusal :=
  clocked s (match takeMessage s n with | .done t => t | .part t => t | _ => s)

/-- A request of a type. -/
def isType (t : BitVec 16) (p : Pending) : Bool := p.type == t

/-- A request of a type whose body names an action at an offset: this row's action, or one that no row has. -/
def isAction (t : BitVec 16) (off act : Nat) (acts : List Nat) (p : Pending) : Bool :=
  p.type == t && (field p.body off 1 == act || !acts.contains (field p.body off 1))

end Sys2Proof.Machine
end

