-- ==== Sys2Proof/Machine/Operands.lean ====
section
/-!
DEFINITION. Number formats (chapter 2): decoding, encoding, rounding, conversion, the counter-based
generator, and where the elements of a tensor lie.

A value in flight is either a `Val` (exact: NaN, an infinity, or a dyadic number) or a `TV`, an
encoding together with its format code, which a same-format copy passes on bit for bit (R48).
-/

namespace Sys2Proof.Machine

/-- An exact value: (−1)^neg × m × 2^e; a zero has m = 0 and keeps its sign (R42). -/
inductive Val where
  | nan
  | inf (neg : Bool)
  | fin (neg : Bool) (m : Nat) (e : Int)
deriving DecidableEq, Repr, Inhabited

/-- A typed value: format code and encoding. -/
structure TV where
  fmt : Nat
  raw : Nat
deriving DecidableEq, Repr, Inhabited

/-- What numeric work counts or raises (Tables 2.9 and 2.10, 6.7, 7.9). -/
structure Ev where
  flushed : Nat
  saturated : Nat
  nanLost : Nat
  cancel : Nat
  thrZero : Nat
  allNeginf : Bool
  /-- Codes of the faults met, in order of meeting. -/
  faults : List (BitVec 16)
deriving DecidableEq, Repr, Inhabited

/-- Nothing counted. -/
def Ev.zero : Ev :=
  { flushed := 0, saturated := 0, nanLost := 0, cancel := 0, thrZero := 0, allNeginf := false, faults := [] }

/-- Both counted. -/
def Ev.add (a b : Ev) : Ev :=
  { flushed := a.flushed + b.flushed, saturated := a.saturated + b.saturated, nanLost := a.nanLost + b.nanLost
    cancel := a.cancel + b.cancel, thrZero := a.thrZero + b.thrZero, allNeginf := a.allNeginf || b.allNeginf
    faults := a.faults ++ b.faults }

def Ev.flush1 : Ev := { Ev.zero with flushed := 1 }
def Ev.sat1 : Ev := { Ev.zero with saturated := 1 }
def Ev.nanLost1 : Ev := { Ev.zero with nanLost := 1 }
def Ev.fault1 (c : BitVec 16) : Ev := { Ev.zero with faults := [c] }

/-- The numeric setting of a worker: flush registers, and Heirloom mode (R58, R276). -/
structure NumMode where
  flushA : BitVec 32
  flushB : BitVec 32
  heirloom : Bool
deriving DecidableEq, Repr, Inhabited

/-! ### Formats (Tables 2.1 and 2.2) -/

/-- Bits of an element. -/
def fmtBits : Nat → Nat
  | 0 => 64 | 1 => 40 | 2 => 32 | 3 => 16 | 4 => 16 | 5 => 8 | 6 => 8 | 7 => 6 | 8 => 6 | 9 => 4
  | 10 => 8 | 11 => 32 | 12 => 16 | 13 => 8 | 14 => 8 | _ => 4

/-- Fraction bits of a float format. -/
def fracBits : Nat → Nat
  | 0 => 52 | 1 => 28 | 2 => 23 | 3 => 7 | 4 => 10 | 5 => 3 | 6 => 2 | 7 => 2 | 8 => 3 | 9 => 1 | _ => 0

/-- Exponent bias. -/
def fmtBias : Nat → Nat
  | 0 => 1023 | 1 => 1023 | 2 => 127 | 3 => 127 | 4 => 15 | 5 => 7 | 6 => 15 | 7 => 3 | 8 => 1 | 9 => 1 | _ => 0

/-- Is the format a floating-point format with sign, exponent and fraction (codes 0x0 to 0x9)? -/
def isFloat (f : Nat) : Bool := f ≤ 9
/-- Is it an integer format (0xB to 0xF)? -/
def isInt (f : Nat) : Bool := 11 ≤ f && f ≤ 15
/-- Has the format infinities? -/
def hasInf (f : Nat) : Bool := f ≤ 4 || f == 6
/-- Has the format NaNs? -/
def hasNan (f : Nat) : Bool := f ≤ 6 || f == 10
/-- Exponent of the smallest normal. -/
def fmtEmin (f : Nat) : Int := 1 - (fmtBias f : Int)
/-- Exponent field width. -/
def expBits (f : Nat) : Nat := fmtBits f - 1 - fracBits f

/-- Largest finite magnitude m × 2^e (Table 2.1). -/
def maxFinite : Nat → Nat × Int
  | 0 => (2 ^ 53 - 1, 971) | 1 => (2 ^ 29 - 1, 995) | 2 => (2 ^ 24 - 1, 104) | 3 => (255, 120)
  | 4 => (2047, 5) | 5 => (14, 5) | 6 => (7, 13) | 7 => (7, 2) | 8 => (15, -1) | 9 => (3, 1) | _ => (0, 0)

/-- Range of an integer format (Table 2.2). -/
def intRange (f : Nat) : Int × Int :=
  if f == 14 then (0, 255) else (-((2 : Int) ^ (fmtBits f - 1)), (2 : Int) ^ (fmtBits f - 1) - 1)

/-- Canonical NaN (R41); 0xFF for E8M0. -/
def qnan : Nat → Nat
  | 0 => 0x7FF8000000000000 | 1 => 0x7FF8000000 | 2 => 0x7FC00000 | 3 => 0x7FC0 | 4 => 0x7E00 | 5 => 0x7F
  | 6 => 0x7E | 10 => 0xFF | _ => 0

/-- The d field of a format in WRK_FLUSH_A and WRK_FLUSH_B (Tables 2.5 and 2.6). -/
def flushField (md : NumMode) (f : Nat) : Nat :=
  if md.heirloom then 0
  else if f ≤ 4 then bits md.flushA.toNat (6 * f + 5) (6 * f)
  else if f ≤ 9 then bits md.flushB.toNat (6 * (f - 5) + 5) (6 * (f - 5))
  else 0

/-- Exponent of the flush threshold (R49). -/
def flushExp (md : NumMode) (f : Nat) : Int := fmtEmin f - (flushField md f : Int)

/-! ### Exact arithmetic -/

/-- m × 2^e as a signed integer in units of 2^u, for u at most e. -/
def scaled (neg : Bool) (m : Nat) (e u : Int) : Int :=
  let v : Int := (m : Int) * (2 : Int) ^ (e - u).toNat
  if neg then -v else v

/-- −1, 0 or 1: the sign of a finite number. -/
def signum (neg : Bool) (m : Nat) : Int := if m == 0 then 0 else if neg then -1 else 1

/-- Exact comparison of two finite numbers: the sign of a − b. Numbers of one sign whose leading bits
differ in weight are told apart by those, so that no power of two of a far exponent is formed. -/
def cmpFin (na : Bool) (ma : Nat) (ea : Int) (nb : Bool) (mb : Nat) (eb : Int) : Ordering :=
  let sa := signum na ma
  let sb := signum nb mb
  if sa != sb || sa == 0 then compare sa sb
  else
    let la := (ma.log2 : Int) + ea
    let lb := (mb.log2 : Int) + eb
    if la != lb then compare (sa * la) (sa * lb)
    else
      let u := min ea eb
      compare (scaled na ma ea u) (scaled nb mb eb u)

/-- Exact sum; an exact zero is +0 unless both addends are −0 (R167). -/
def Val.add : Val → Val → Val
  | .nan, _ | _, .nan => .nan
  | .inf a, .inf b => if a == b then .inf a else .nan
  | .inf a, _ => .inf a
  | _, .inf b => .inf b
  | .fin na ma ea, .fin nb mb eb =>
    let u := min ea eb
    let t := scaled na ma ea u + scaled nb mb eb u
    if t == 0 then .fin (na && nb && ma == 0 && mb == 0) 0 0 else .fin (decide (t < 0)) t.natAbs u

/-- −a; the negative of a NaN is a NaN. -/
def Val.neg : Val → Val
  | .nan => .nan
  | .inf a => .inf (!a)
  | .fin n m e => .fin (!n) m e

/-- |a|. -/
def Val.abs : Val → Val
  | .nan => .nan
  | .inf _ => .inf false
  | .fin _ m e => .fin false m e

/-- Exact product; 0 × ∞ is a NaN (R166). -/
def Val.mul : Val → Val → Val
  | .nan, _ | _, .nan => .nan
  | .inf a, .inf b => .inf (a != b)
  | .inf a, .fin n m _ => if m == 0 then .nan else .inf (a != n)
  | .fin n m _, .inf b => if m == 0 then .nan else .inf (n != b)
  | .fin na ma ea, .fin nb mb eb => .fin (na != nb) (ma * mb) (if ma * mb == 0 then 0 else ea + eb)

def Val.isNan : Val → Bool | .nan => true | _ => false
def Val.isInf : Val → Bool | .inf _ => true | _ => false
def Val.isFin : Val → Bool | .fin _ _ _ => true | _ => false
def Val.isZero : Val → Bool | .fin _ 0 _ => true | _ => false
/-- The sign bit; a NaN's stands in its encoding and is read there. -/
def Val.sign : Val → Bool | .nan => false | .inf n => n | .fin n _ _ => n

/-- a < b for values that are not NaN; −0 and +0 are equal (R167). -/
def Val.lt : Val → Val → Bool
  | .nan, _ | _, .nan => false
  | .inf a, .inf b => a && !b
  | .inf a, _ => a
  | _, .inf b => !b
  | .fin na ma ea, .fin nb mb eb => cmpFin na ma ea nb mb eb == .lt

/-- a = b for values that are not NaN. -/
def Val.eq : Val → Val → Bool
  | .nan, _ | _, .nan => false
  | .inf a, .inf b => a == b
  | .fin na ma ea, .fin nb mb eb => cmpFin na ma ea nb mb eb == .eq
  | _, _ => false

/-- The order of MIN and MAX: as `lt`, with −0 below +0 (R167). -/
def Val.below (a b : Val) : Bool :=
  a.lt b || (a.isZero && b.isZero && a.sign && !b.sign)

/-- An integer as an exact value. -/
def Val.ofInt (i : Int) : Val := .fin (decide (i < 0)) i.natAbs 0

/-- The integer part toward zero of a finite value. -/
def Val.truncInt : Val → Int
  | .fin n m e =>
    let v : Int := if e ≥ 0 then (m : Int) * (2 : Int) ^ e.toNat else ((m >>> (-e).toNat : Nat) : Int)
    if n then -v else v
  | _ => 0

/-! ### Encodings (R39, R40, R43) -/

/-- The value of an encoding. -/
def decodeVal (t : TV) : Val :=
  let f := t.fmt
  if f == 10 then (if t.raw == 0xFF then .nan else .fin false 1 ((t.raw : Int) - 127))
  else if f > 9 then
    Val.ofInt (if f == 14 then (t.raw : Int) else toSigned (fmtBits f) t.raw)
  else
    let mb := fracBits f
    let fr := t.raw % 2 ^ mb
    let ex := (t.raw >>> mb) % 2 ^ expBits f
    let ng := bit t.raw (fmtBits f - 1)
    let top := 2 ^ expBits f - 1
    if ex == top && hasInf f then (if fr == 0 then .inf ng else .nan)
    else if f == 5 && ex == top && fr == 7 then .nan
    else if ex == 0 then .fin ng fr (if fr == 0 then 0 else fmtEmin f - mb)
    else .fin ng (2 ^ mb + fr) ((ex : Int) - fmtBias f - mb)

/-- The sign bit of an encoding, a NaN's included (R166: COPYSIGN). -/
def rawSign (t : TV) : Bool := if isFloat t.fmt then bit t.raw (fmtBits t.fmt - 1) else (decodeVal t).sign

/-- The encoding of a value that the format represents. -/
def encodeVal (f : Nat) (v : Val) : Nat :=
  if f == 10 then
    match v with
    | .fin _ m e => if m == 0 then 0 else (min 254 (max 0 ((m.log2 : Int) + e + 127))).toNat
    | _ => 0xFF
  else if f > 9 then
    match v with
    | .fin n m e => ofSigned (fmtBits f) (Val.truncInt (.fin n m e))
    | _ => 0
  else
    let sb := 2 ^ (fmtBits f - 1)
    match v with
    | .nan => qnan f
    | .inf n => b2n n * sb + (2 ^ expBits f - 1) * 2 ^ fracBits f
    | .fin n m e =>
      if m == 0 then b2n n * sb
      else
        let E := max ((m.log2 : Int) + e) (fmtEmin f)
        let q := E - fracBits f
        let t := if q ≤ e then m * 2 ^ (e - q).toNat else m >>> (q - e).toNat
        if t < 2 ^ fracBits f then b2n n * sb + t
        else b2n n * sb + (E + fmtBias f).toNat * 2 ^ fracBits f + (t - 2 ^ fracBits f)

/-- The canonical encoding of a value in a format. -/
def tv (f : Nat) (v : Val) : TV := { fmt := f, raw := encodeVal f v }

/-! ### Rounding (R56, R57) -/

/-- Rounding modes of the conversion control byte (Table 2.3), stochastic with its 16-bit draw. -/
inductive Rnd where
  | rne
  | rtz
  | srnd (draw16 : Nat)
deriving DecidableEq, Repr, Inhabited

/-- Magnitude m × 2^e, plus something in (0, 2^e) when `sticky`, rounded to a multiple of 2^q. A shift
past the leading bit by 18 places rounds as every larger one does. -/
def roundMag (m : Nat) (e q : Int) (sticky : Bool) (r : Rnd) : Nat :=
  if q ≤ e then m * 2 ^ (e - q).toNat
  else
    let sh := min (q - e).toNat (m.log2 + 18)
    let t := m >>> sh
    let rem := m % 2 ^ sh
    match r with
    | .rtz => t
    | .rne =>
      let half := 2 ^ (sh - 1)
      if rem > half || (rem == half && (sticky || t % 2 == 1)) then t + 1 else t
    | .srnd d => if rem * 65536 / 2 ^ sh + d % 65536 ≥ 65536 then t + 1 else t

/-- The quantum exponent of a float format at a magnitude, or 0 for an integer format (R53, R56). -/
def quantum (f : Nat) (m : Nat) (e : Int) : Int :=
  if isInt f then 0 else max ((m.log2 : Int) + e) (fmtEmin f) - fracBits f

/-- A value rounded to a format with unbounded exponent; `sticky` as in `roundMag`. -/
def roundTo (f : Nat) (neg : Bool) (m : Nat) (e : Int) (sticky : Bool) (r : Rnd) : Val :=
  if m == 0 then .fin neg 0 0
  else
    let q := quantum f m e
    .fin neg (roundMag m e q sticky r) q

/-- Does a magnitude exceed the largest finite value of a float format? -/
def beyondMax (f : Nat) (m : Nat) (e : Int) : Bool :=
  let (mm, me) := maxFinite f
  cmpFin false m e false mm me == .gt

/-- Is a nonzero magnitude below the flush threshold (R49)? -/
def belowFlush (md : NumMode) (f : Nat) (m : Nat) (e : Int) : Bool :=
  m != 0 && cmpFin false m e false 1 (flushExp md f) == .lt

/-- The flush of a result (R49, R50): a zero of the same sign, counted. -/
def flushVal (md : NumMode) (f : Nat) (v : Val) : Val × Ev :=
  match v with
  | .fin n m e => if isFloat f && belowFlush md f m e then (.fin n 0 0, Ev.flush1) else (v, Ev.zero)
  | _ => (v, Ev.zero)

/-- rne into a format without flush: beyond the largest finite value it is an infinity (R166). -/
def rneExact (f : Nat) (neg : Bool) (m : Nat) (e : Int) (sticky : Bool) (r : Rnd := .rne) : Val :=
  match roundTo f neg m e sticky r with
  | .fin n m' e' => if beyondMax f m' e' then .inf n else .fin n m' e'
  | v => v

/-- A float operation's exact result rounded once and flushed (R166). -/
def rnd (md : NumMode) (f : Nat) (v : Val) (r : Rnd := .rne) : Val × Ev :=
  match v with
  | .fin n m e => flushVal md f (rneExact f n m e false r)
  | _ => (v, Ev.zero)

/-! ### Conversion (R48, R53 to R55) -/

/-- Overflow modes (Table 2.3). -/
inductive Ovf where
  | standard
  | saturate
  | fault
deriving DecidableEq, Repr, Inhabited

/-- The rnd and ovf fields of a control byte, with the draw of the place (R47, R57). -/
def ctlRnd (c : BitVec 8) (draw16 : Nat) : Rnd :=
  if bits c.toNat 3 2 == 1 then .rtz else if bits c.toNat 3 2 == 2 then .srnd draw16 else .rne
def ctlOvf (c : BitVec 8) : Ovf :=
  if bits c.toNat 1 0 == 1 then .saturate else if bits c.toNat 1 0 == 2 then .fault else .standard
def ctlScaleOnStore (c : BitVec 8) : Bool := bit c.toNat 4
def ctlHeadroom (c : BitVec 8) : Bool := bit c.toNat 5

/-- The signed largest finite value of a float format, or the range end of an integer format. -/
def rangeEnd (f : Nat) (neg : Bool) : Val :=
  if isInt f then Val.ofInt (if neg then (intRange f).1 else (intRange f).2)
  else .fin neg (maxFinite f).1 (maxFinite f).2

/-- Is a rounded value outside the finite range of its format? -/
def outside (f : Nat) (n : Bool) (m : Nat) (e : Int) : Bool :=
  if isInt f then
    let i := Val.truncInt (.fin n m e)
    decide (i < (intRange f).1) || decide (i > (intRange f).2)
  else beyondMax f m e

/-- `convert(x, f, c)` of R48 for a destination other than E8M0. `sticky` marks an inexact quotient,
root or exponential, whose magnitude lies just above the one given. -/
def convertSticky (md : NumMode) (x : Val) (sticky : Bool) (f : Nat) (r : Rnd) (o : Ovf) : Val × Ev :=
  match x with
  | .nan =>
    if hasNan f then (.nan, Ev.zero)
    else if o = .fault then (.fin false 0 0, Ev.fault1 0x0211)
    else (.fin false 0 0, Ev.nanLost1)
  | .inf n =>
    if hasInf f then (.inf n, Ev.zero)
    else if o = .fault then (.fin false 0 0, Ev.fault1 0x0210)
    else if o = .standard && hasNan f then (.nan, Ev.zero)
    else (rangeEnd f n, Ev.sat1)
  | .fin n m e =>
    match roundTo f n m e sticky r with
    | .fin n' m' e' =>
      if outside f n' m' e' then
        if o = .fault then (.fin false 0 0, Ev.fault1 0x0210)
        else if o = .standard && hasInf f then (.inf n, Ev.zero)
        else if o = .standard && hasNan f then (.nan, Ev.zero)
        else (rangeEnd f n, Ev.sat1)
      else flushVal md f (.fin n' m' e')
    | v => (v, Ev.zero)

/-- Conversion into E8M0 (R55). -/
def toE8M0 (x : Val) (o : Ovf) : Nat :=
  match x with
  | .nan => 0xFF
  | .inf _ => if o = .saturate then 0xFE else 0xFF
  | .fin _ m e => if m == 0 then 0 else (min 254 (max 0 ((m.log2 : Int) + e + 127))).toNat

/-- A conversion of a value into a format (R48, R55). -/
def convertVal (md : NumMode) (x : Val) (f : Nat) (r : Rnd) (o : Ovf) : TV × Ev :=
  if f == 10 then ({ fmt := 10, raw := toE8M0 x o }, Ev.zero)
  else
    let (v, ev) := convertSticky md x false f r o
    (tv f v, ev)

/-- In Heirloom mode a subnormal operand reads as a zero of the same sign (R58). -/
def heirloomOperand (md : NumMode) (t : TV) : TV :=
  match decodeVal t with
  | .fin n m e =>
    if md.heirloom && isFloat t.fmt && m != 0 && cmpFin false m e false 1 (fmtEmin t.fmt) == .lt
    then tv t.fmt (.fin n 0 0) else t
  | _ => t

/-- A conversion of an encoding into a format: a bit copy when the formats are the same (R48). In Heirloom mode a
subnormal operand, a copied one included, is a zero (R58, R168). -/
def convertTV (md : NumMode) (t : TV) (f : Nat) (r : Rnd) (o : Ovf) : TV × Ev :=
  let t := heirloomOperand md t
  if t.fmt == f then (t, Ev.zero) else convertVal md (decodeVal t) f r o

/-! ### Quotients, roots and exponentials, correctly rounded (R194, R257, R232) -/

/-- Extra bits that make a truncated quotient or root decide every rounding. -/
def guardBits : Nat := 200

/-- |a| / |b| truncated, as m × 2^e with a sticky bit. -/
def quotMag (ma : Nat) (ea : Int) (mb : Nat) (eb : Int) : Nat × Int × Bool :=
  let k := guardBits + mb.log2 + 1
  let n := ma * 2 ^ k
  (n / mb, ea - eb - k, n % mb != 0)

/-- a / b with IEEE special cases, not yet rounded. -/
def divVal (a b : Val) : Val × Bool :=
  match a, b with
  | .nan, _ | _, .nan => (.nan, false)
  | .inf _, .inf _ => (.nan, false)
  | .inf n, .fin n' _ _ => (.inf (n != n'), false)
  | .fin n _ _, .inf n' => (.fin (n != n') 0 0, false)
  | .fin n m e, .fin n' m' e' =>
    if m' == 0 then (if m == 0 then .nan else .inf (n != n'), false)
    else if m == 0 then (.fin (n != n') 0 0, false)
    else
      let (q, qe, st) := quotMag m e m' e'
      (.fin (n != n') q qe, st)

/-- √a, not yet rounded; a negative number has none. -/
def sqrtVal (a : Val) : Val × Bool :=
  match a with
  | .nan => (.nan, false)
  | .inf n => (if n then .nan else .inf false, false)
  | .fin n m e =>
    if m == 0 then (.fin n 0 0, false)
    else if n then (.nan, false)
    else
      let k : Nat := 2 * guardBits + (if e % 2 == 0 then 0 else 1)
      let x := m * 2 ^ k
      let s := Nat.sqrt x
      (.fin false s ((e - k) / 2), s * s != x)

/-- 1 / √a, not yet rounded. -/
def rsqrtVal (a : Val) : Val × Bool :=
  match a with
  | .nan => (.nan, false)
  | .inf n => (if n then .nan else .fin false 0 0, false)
  | .fin n m e =>
    if m == 0 then (.inf n, false)
    else if n then (.nan, false)
    else
      -- 1/√(m·2^e) = √(2^k / m) · 2^(−(e+k)/2) with e + k even
      let k0 : Nat := 4 * guardBits + 2 * m.log2
      let k : Nat := if (e + k0) % 2 == 0 then k0 else k0 + 1
      let x := 2 ^ k / m
      let s := Nat.sqrt x
      (.fin false s (-((e + k) / 2)), !(s * s == x && x * m == 2 ^ k))

/-- Round an unrounded quotient, root or exponential to nearest even, without flush (R194). -/
def rneSticky (f : Nat) (p : Val × Bool) : Val :=
  match p.1 with
  | .fin n m e => rneExact f n m e p.2
  | v => v

/-- The same with the format's flush threshold (R257, R166). -/
def rndSticky (md : NumMode) (f : Nat) (p : Val × Bool) : Val × Ev := flushVal md f (rneSticky f p)

/-- Fixed-point bits of the exponential. -/
def expBitsP : Nat := 320

/-- ln 2 in units of 2^−expBitsP: Σ 1/(n 2^n), with guard bits, truncated. -/
def ln2Fixed : Nat :=
  ((List.range 400).foldl (fun acc i => acc + 2 ^ (expBitsP + 64) / ((i + 1) * 2 ^ (i + 1))) 0) >>> 64

/-- Taylor terms of e^r for r in units of 2^−expBitsP: sum and last term after each of `n` steps. -/
def expTaylor (r : Nat) : (n : Nat) → Nat × Nat
  | 0 => (2 ^ expBitsP, 2 ^ expBitsP)
  | n + 1 =>
    let (s, t) := expTaylor r n
    let t' := (t * r) / ((n + 1) * 2 ^ expBitsP)
    (s + t', t')

/-- e^x for a finite x of magnitude below 2^11, as an unrounded value just below the exact one.
DEDUCED: 320 fixed-point bits decide every rounding to a 29-bit significand (notes/assumptions/8.md). -/
def expVal (x : Val) : Val × Bool :=
  match x with
  | .nan => (.nan, false)
  | .inf n => (if n then .fin false 0 0 else .inf false, false)
  | .fin n m e =>
    if m == 0 then (.fin false 1 0, false)
    else if (m.log2 : Int) + e ≥ 11 then (if n then .fin false 1 (-4096) else .fin false 1 4096, true)
    else
      let u : Int := -(expBitsP : Int)
      let fx : Int := if e ≥ u then scaled n m e u
        else (let v : Int := ((m >>> (u - e).toNat : Nat) : Int); if n then -v else v)
      let k := fx / (ln2Fixed : Int)
      let r := (fx - k * (ln2Fixed : Int)).toNat
      (.fin false (expTaylor r 90).1 (k - expBitsP), true)

/-! ### The counter-based generator (R59) -/

/-- One of the ten rounds: the four words and the two keys. -/
def rngRound (st : Nat × Nat × Nat × Nat × Nat × Nat) : Nat × Nat × Nat × Nat × Nat × Nat :=
  let (w0, w1, w2, w3, k0, k1) := st
  let w0 := (w0 + w1 + k0) % 2 ^ 32
  let w3 := rotl32 (w3 ^^^ w0) 16
  let w2 := (w2 + w3 + k1) % 2 ^ 32
  let w1 := rotl32 (w1 ^^^ w2) 12
  let w0 := (w0 + w1) % 2 ^ 32
  let w3 := rotl32 (w3 ^^^ w0) 8
  let w2 := (w2 + w3) % 2 ^ 32
  let w1 := rotl32 (w1 ^^^ w2) 7
  (w0, w1, w2, w3, (k0 + 0x9E3779B9) % 2 ^ 32, (k1 + 0xBB67AE85) % 2 ^ 32)

/-- `rng32` of R59. -/
def rng32 (seed : BitVec 64) (instr tile lane elem draw : Nat) : Nat :=
  let s := seed.toNat
  let st := (instr % 2 ^ 32, tile % 2 ^ 32,
    (((tile >>> 32) ||| (lane <<< 8)) ||| (elem <<< 16)) ||| (draw <<< 20), 0, s % 2 ^ 32, s >>> 32)
  let st := (List.range 10).foldl (fun st _ => rngRound st) st
  st.1 ^^^ st.2.2.1

/-! ### Where elements lie (R44, R45) -/

/-- Elements of a storage group: 8 for W40, 4 for FP6, 2 for FP4 and INT4 (R46). -/
def groupSize (f : Nat) : Nat :=
  if f == 1 then 8 else if f == 7 || f == 8 then 4 else if f == 9 || f == 15 then 2 else 1

/-- Bytes of a storage group. -/
def groupBytes (f : Nat) : Nat := groupSize f * fmtBits f / 8

/-- The bytes of element `e` counted from `base`: address, bit within the byte, in value order.
W40's bits [39:32] lie apart from its low word (R44). -/
def elemBytes (f : Nat) (base : Int) (e : Int) : List Int :=
  if f == 1 then
    let g := e / 8
    let j := e % 8
    let b := base + 40 * g
    [b + 4 * j, b + 4 * j + 1, b + 4 * j + 2, b + 4 * j + 3, b + 32 + j]
  else if f == 7 || f == 8 then
    let b := base + 3 * (e / 4)
    let j := e % 4
    if j == 0 then [b] else if j == 1 then [b, b + 1] else if j == 2 then [b + 1, b + 2] else [b + 2]
  else if f == 9 || f == 15 then [base + e / 2]
  else (List.range (fmtBits f / 8)).map (fun (i : Nat) => base + e * (fmtBits f / 8 : Nat) + (i : Int))

/-- Where the element's value begins within its first byte. -/
def elemShift (f : Nat) (e : Int) : Nat :=
  if f == 7 || f == 8 then (6 * (e % 4).toNat) % 8
  else if f == 9 || f == 15 then 4 * (e % 2).toNat
  else 0

/-- An element's encoding, read through a byte reader. -/
def readElem (rd : Nat → Byte) (f : Nat) (base e : Int) : Nat :=
  let v := leNat ((elemBytes f base e).map (fun a => rd a.toNat))
  (v >>> elemShift f e) % 2 ^ fmtBits f

/-- The byte writes that store an element: address and new byte. Bits of a shared byte that belong to
a neighbour keep their content (R84's merge). -/
def storeElem (rd : Nat → Byte) (f : Nat) (base e : Int) (raw : Nat) : List (Nat × Byte) :=
  let as := (elemBytes f base e).map Int.toNat
  let old := leNat (as.map rd)
  let sh := elemShift f e
  let w := fmtBits f
  let v := if w % 8 == 0 then raw
    else old % 2 ^ sh + (raw % 2 ^ w) * 2 ^ sh + (old >>> (sh + w)) * 2 ^ (sh + w)
  as.zip (natLe as.length v)

end Sys2Proof.Machine
end

