-- ==== Sys2Proof/Machine/Sfn.lean ====
section
/-!
DEFINITION. Special functions (chapter 7): table files and their checks, the evaluation procedure,
and the built-in FP32 exponential.
-/

namespace Sys2Proof.Machine

/-- A value rounded to nearest even into a float format, no flush (R166). -/
def rneV (f : Nat) (v : Val) : Val := match v with | .fin n m e => rneExact f n m e false | v => v

/-- A power of two. -/
def pow2 (k : Int) : Val := .fin false 1 k

/-- The integer below a finite value. -/
def Val.floorInt : Val → Int
  | .fin n m e =>
    let a : Int := if n then -(m : Int) else m
    if e ≥ 0 then a * (2 : Int) ^ e.toNat else a >>> (-e).toNat
  | _ => 0

/-- A path descriptor as decoded (Table 7.4). -/
structure PathDesc where
  path : Nat
  red : Nat
  index : Nat
  sym : Nat
  segCount : Nat
  segExp : Int
  segBits : Nat
  coefFmt : Nat
  below : Nat
  above : Nat
  lo : Val
  inScale : Val
  outScale : Val
  belowA : Val
  belowB : Val
  aboveA : Val
  aboveB : Val
  thr0 : Val
  thr1 : Val
  coefOffset : Nat
  symC : Val
deriving DecidableEq, Repr, Inhabited

/-- An FP32 value. -/
def fp32 (raw : Nat) : Val := decodeVal { fmt := 2, raw := raw }
/-- An FP64 value. -/
def fp64 (raw : Nat) : Val := decodeVal { fmt := 0, raw := raw }

/-- The path descriptor at an offset of a table file. -/
def pathDesc (file : Bytes) (o : Nat) : PathDesc :=
  { path := field file o 1, red := field file (o + 1) 1, index := field file (o + 2) 1, sym := field file (o + 3) 1
    segCount := field file (o + 4) 2, segExp := toSigned 8 (field file (o + 6) 1), segBits := field file (o + 7) 1
    coefFmt := field file (o + 8) 1, below := field file (o + 9) 1, above := field file (o + 10) 1
    lo := fp32 (field file (o + 12) 4), inScale := fp64 (field file (o + 16) 8), outScale := fp64 (field file (o + 24) 8)
    belowA := fp32 (field file (o + 32) 4), belowB := fp32 (field file (o + 36) 4)
    aboveA := fp32 (field file (o + 40) 4), aboveB := fp32 (field file (o + 44) 4)
    thr0 := fp32 (field file (o + 48) 4), thr1 := fp32 (field file (o + 52) 4)
    coefOffset := field file (o + 56) 4, symC := fp32 (field file (o + 60) 4) }

/-- Flags of a table file (Table 7.3): bit 0 short path, bit 1 FP32 path, bit 2 heirloom. -/
def tableFlags (file : Bytes) : Nat := field file 6 2

/-- Offsets of the path descriptors of a table file with the path each stands for (R222). -/
def pathOffsets (file : Bytes) : List (Nat × Nat) :=
  let fl := tableFlags file
  (if bit fl 0 then [(32, 1)] else []) ++ (if bit fl 1 then [(if bit fl 0 then 96 else 32, 2)] else [])

/-- The descriptor of a path of a table file, if the file has it. -/
def filePath (file : Bytes) (path : Nat) : Option PathDesc :=
  ((pathOffsets file).find? (fun p => p.2 == path)).map (fun p => pathDesc file p.1)

/-- End of the covered domain (R227). -/
def domainEnd (d : PathDesc) : Val :=
  if d.index == 0 then d.lo.add (.fin false d.segCount d.segExp) else pow2 (d.segExp + (d.segCount / 2 ^ d.segBits : Nat))

/-- Bytes of a coefficient block (R223). -/
def coefBytes (d : PathDesc) : Nat := d.segCount * (if d.path == 1 then 4 else 12)

/-- Coefficients of a segment, lowest power first (R223). -/
def fileCoef (file : Bytes) (d : PathDesc) (i : Nat) : List Val :=
  if d.path == 1 then (List.range 2).map (fun j => decodeVal { fmt := d.coefFmt, raw := field file (d.coefOffset + 4 * i + 2 * j) 2 })
  else (List.range 3).map (fun j => fp32 (field file (d.coefOffset + 12 * i + 4 * j) 4))

/-! ### Checks of a table file (R224) -/

/-- Do two byte ranges meet? -/
def rangesMeet (a b : Nat × Nat) : Bool := a.1 < b.2 && b.1 < a.2 && a.1 < a.2 && b.1 < b.2

/-- 0x0170. -/
def tableMalformed (file : Bytes) : Bool :=
  let fl := tableFlags file
  file.length < 32 || field file 0 4 != 0x4C425441 || field file 4 2 != 1 || fl >>> 3 != 0
    || (file.drop 20 |>.take 12).any (· != 0) || field file 8 4 == 0 || fl % 4 == 0 || (bit fl 2 && !bit fl 1)
    || field file 12 4 != file.length || file.length > 7328
    || 32 + 64 * (pathOffsets file).length > file.length
    || (pathOffsets file).any (fun p =>
        let d := pathDesc file p.1
        d.path != p.2 || field file (p.1 + 11) 1 != 0 || d.coefOffset % 4 != 0
          || d.coefOffset + coefBytes d > file.length
          || rangesMeet (0, 32 + 64 * (pathOffsets file).length) (d.coefOffset, d.coefOffset + coefBytes d))
    || (match pathOffsets file with
        | [a, b] =>
          let da := pathDesc file a.1
          let db := pathDesc file b.1
          rangesMeet (da.coefOffset, da.coefOffset + coefBytes da) (db.coefOffset, db.coefOffset + coefBytes db)
        | _ => false)

/-- 0x0171. -/
def tableCrcBad (file : Bytes) : Bool := (crc32c (zeroField file 16 4)).toNat != field file 16 4

/-- Domain of a reduction other than 0 (Table 7.5). -/
def redDomain (red : Nat) : Val × Val :=
  if red == 1 then (Val.ofInt 0, Val.ofInt 1) else if red ≤ 3 then (Val.ofInt 1, Val.ofInt 2) else (Val.ofInt 1, Val.ofInt 4)

/-- 0x0172 for one path. -/
def pathLayoutBad (d : PathDesc) : Bool :=
  let wUnits := (d.lo.mul (pow2 (-d.segExp)))
  d.index > 1 || d.red > 5 || d.segCount == 0 || d.segCount > (if d.path == 1 then 256 else 512)
    || !(if d.path == 1 then d.coefFmt == 3 || d.coefFmt == 4 else d.coefFmt == 2)
    || (if d.index == 0 then d.segBits != 0 else d.segBits > 9)
    || !d.lo.isFin
    || (d.index == 0 && !(Val.ofInt wUnits.truncInt).eq wUnits)
    || (d.index == 1 && (!(d.lo.eq (pow2 d.segExp)) || d.segCount % 2 ^ d.segBits != 0))
    || (rangeEnd 2 false).lt (domainEnd d)
    || (d.red != 0 && (!(d.lo.eq (redDomain d.red).1) || !((domainEnd d).eq (redDomain d.red).2)))

/-- 0x0173 for one path, at its offset. -/
def pathEdgeBad (file : Bytes) (o : Nat) (d : PathDesc) : Bool :=
  d.below > 4 || d.above > 4 || d.sym > 2 || (d.red != 1 && !(d.inScale.eq (Val.ofInt 1)))
    || !d.inScale.isFin || d.inScale.isZero || !d.outScale.isFin || d.outScale.isZero
    || d.thr0.isNan || d.thr1.isNan || (d.path == 2 && field file (o + 52) 4 != 0)
    || (d.sym != 0 && d.red != 0) || (d.sym != 1 && field file (o + 60) 4 != 0)
    || (d.red != 0 && (d.below != 0 || d.above != 0 || (file.drop (o + 32) |>.take 16).any (· != 0)))

/-- The refusal of a table file, lowest code first (R224, R293). -/
def tableRefusal (file : Bytes) : Option (BitVec 16) :=
  if tableMalformed file then some 0x0170
  else if tableCrcBad file then some 0x0171
  else if (pathOffsets file).any (fun p => pathLayoutBad (pathDesc file p.1)) then some 0x0172
  else if (pathOffsets file).any (fun p => pathEdgeBad file p.1 (pathDesc file p.1)) then some 0x0173
  else none

/-! ### The evaluation (R225 to R229) -/

/-- The argument reduction of Table 7.5: a final value, or u and k. -/
def sfnReduce (d : PathDesc) (u0 : Val) : Val ⊕ (Val × Int) :=
  match d.red, u0 with
  | 0, u => .inr (u, 0)
  | 1, .inf n => .inl (if n then .fin false 0 0 else .inf false)
  | 1, u =>
    let z := u.mul d.inScale
    let k := z.floorInt
    let f := rneV 2 (z.add (Val.ofInt (-k)))
    if f.eq (Val.ofInt 1) then .inr (.fin false 0 0, k + 1) else .inr (f, k)
  | 2, .inf n => .inl (if n then .nan else .inf false)
  | 2, .fin n m e =>
    if m == 0 then .inl (.inf true) else if n then .inl .nan
    else .inr (.fin false m (-(m.log2 : Int)), (m.log2 : Int) + e)
  | 3, .inf n => .inl (.fin n 0 0)
  | 3, .fin n m e =>
    if m == 0 then .inl (.inf n) else .inr (.fin false m (-(m.log2 : Int)), (m.log2 : Int) + e)
  | r, .inf n => .inl (if n then .nan else if r == 4 then .fin false 0 0 else .inf false)
  | r, .fin n m e =>
    if m == 0 then .inl (if r == 4 then .inf n else .fin n 0 0)
    else if n then .inl .nan
    else
      let k := ((m.log2 : Int) + e) / 2
      .inr (.fin false m (e - 2 * k), k)
  | _, .nan => .inl .nan

/-- Segment of u and its start (R227). -/
def segmentOf (d : PathDesc) (u : Val) : Nat × Val :=
  if d.index == 0 then
    let i := ((u.add d.lo.neg).mul (pow2 (-d.segExp))).floorInt
    (i.toNat, d.lo.add ((Val.ofInt i).mul (pow2 d.segExp)))
  else
    match u with
    | .fin _ m e =>
      let lg := (m.log2 : Int) + e
      let j := (m * 2 ^ d.segBits) / 2 ^ m.log2 - 2 ^ d.segBits
      (((lg - d.segExp) * (2 ^ d.segBits : Nat) + j).toNat, .fin false (2 ^ d.segBits + j) (lg - d.segBits))
    | _ => (0, d.lo)

/-- The interpolation of a path at u (R227); no intermediate flush. -/
def interp (coef : Nat → List Val) (d : PathDesc) (u : Val) : Val :=
  let (i, s) := segmentOf d u
  let t := u.add s.neg
  match coef i with
  | [c0, c1] => rneV 2 ((c1.mul t).add c0)
  | [c0, c1, c2] => rneV 2 ((rneV 2 ((c2.mul t).add c1)).mul t |>.add c0)
  | _ => .nan

/-- Edge modes (Table 7.6). -/
def edgeVal (mode : Nat) (a b u : Val) : Val :=
  if mode == 0 then .fin u.sign 0 0 else if mode == 1 then a else if mode == 2 then u
  else if mode == 3 then (a.mul u).add b else .nan

/-- The scale of Table 7.5, exact. -/
def sfnScale (d : PathDesc) (x v : Val) (k : Int) : Val :=
  let w := match d.red with
    | 0 => v
    | 1 => v.mul (pow2 k)
    | 2 => (Val.ofInt k).add v
    | 3 => let p := v.mul (pow2 (-k)); if x.sign then p.neg else p
    | 4 => v.mul (pow2 (-k))
    | _ => v.mul (pow2 k)
  w.mul d.outScale

/-- `sfn(x, d, f)` of R225. -/
def sfnEval (md : NumMode) (coef : Nat → List Val) (d : PathDesc) (f : Nat) (x : Val) : Val × Ev :=
  if x.isNan then (.nan, Ev.zero)
  else if x.lt (if f == 4 then d.thr1 else d.thr0) then (.fin false 0 0, { Ev.zero with thrZero := 1 })
  else
    let fold := d.sym != 0 && x.sign
    let u0 := if fold then x.neg else x
    let v := match sfnReduce d u0 with
      | .inl v => v
      | .inr (u, k) =>
        let v := if u.lt d.lo then edgeVal d.below d.belowA d.belowB u
          else if u.lt (domainEnd d) then interp coef d u
          else edgeVal d.above d.aboveA d.aboveB u
        sfnScale d u0 v k
    let v := if fold && d.sym == 1 then (if d.symC.isZero then v.neg else (d.symC.add d.symC).add v.neg) else v
    flushVal md f (rneV f v)

/-! ### The built-in FP32 exponential (R232) -/

/-- The path descriptor of the FP32 path of the first canonical EXP file (Table 7.7, R231): in_scale
is the FP64 value nearest to log2 e, thr_0 the FP32 value at −150 ln 2 rounded away from zero. DEDUCED,
notes/assumptions/2.md. -/
def expPath : PathDesc :=
  { path := 2, red := 1, index := 0, sym := 0, segCount := 512, segExp := -9, segBits := 0, coefFmt := 2
    below := 0, above := 0, lo := Val.ofInt 0, inScale := fp64 0x3FF71547652B82FE, outScale := Val.ofInt 1
    belowA := Val.ofInt 0, belowB := Val.ofInt 0, aboveA := Val.ofInt 0, aboveB := Val.ofInt 0
    thr0 := fp32 0xC2CFF1B5, thr1 := Val.ofInt 0, coefOffset := 0, symC := Val.ofInt 0 }

/-- Coefficients of the built-in exponential: the canonical file's, or in Heirloom mode those of the
heirloom-flagged EXP table in read-only storage (Table 8.9). -/
def expCoefs (heirloom : Bool) (i : Nat) : List Val :=
  let (a, b, c) := if heirloom then Config.heirloomExpCoef i else Config.expCoef i
  [fp32 a.toNat, fp32 b.toNat, fp32 c.toNat]

/-- exp(x) of SMAX_STATS and SMAX_BLOCK, into FP32. -/
def builtinExp (md : NumMode) (x : Val) : Val × Ev := sfnEval md (expCoefs md.heirloom) expPath 2 x

/-- exp_seed(x) into W40 (R232): correctly rounded, flushed; below −728.50 it is +0 unevaluated. A
result beyond the largest finite W40 value is reported by 0x0250 (R213). −728.50 is the FP64 value
of 1,051 ln 2 rounded away from zero as printed. -/
def seedExp (md : NumMode) (x : Val) : Val × Ev :=
  match x with
  | .inf true => (.fin false 0 0, Ev.zero)
  | .fin _ _ _ =>
    if x.lt (.fin true 1457 (-1)) then (.fin false 0 0, { Ev.zero with thrZero := 1 })
    else
      match rneSticky 1 (expVal x) with
      | .inf _ => (.nan, Ev.fault1 0x0250)
      | v => flushVal md 1 v
  | v => (v, Ev.zero)

/-- The Heirloom lookup (R248): a subnormal input reads as zero, the entry is the result, and the flush
of R58 applies to it. -/
def heirloomLookup (md : NumMode) (rd : Nat → Byte) (page : Nat) (t : TV) : TV × Ev :=
  let t := heirloomOperand { md with heirloom := true } t
  let y : TV := { t with raw := leNat [rd (page + 2 * t.raw), rd (page + 2 * t.raw + 1)] }
  match flushVal { md with heirloom := true } y.fmt (decodeVal y) with
  | (v, ev) => if ev.flushed == 0 then (y, ev) else (tv y.fmt v, ev)

end Sys2Proof.Machine
end

