-- ==== Sys2Proof/Machine/Chain.lean ====
section
/-!
DEFINITION. Tiles and fused chains: the tiling of an instruction (R128 to R131), the operations of
the stages (chapter 5), block scaling (R61 to R66), and the execution of a chain over one tile.
-/

namespace Sys2Proof.Machine

/-! ### Tiling (R123, R124, R128 to R132) -/

/-- Is a format 8 or 5 bytes wide (R128)? -/
def wideFmt (f : Nat) : Bool := f == 0 || f == 1

/-- Kind of a stage by its operation byte (Table 5.2): 1 load, 2 FMA/ALU, 3 special function, 4 second
ALU, 5 compare/select, 6 tap, 7 store; 0 reserved. -/
def stageKind (b0 : Nat) : Nat := b0 / 32

/-- Nibbles of the operand select (Table 5.4). -/
def Stage.op (s : Stage) : Nat := s.b0.toNat
def Stage.hi1 (s : Stage) : Nat := s.b1.toNat / 16
def Stage.lo1 (s : Stage) : Nat := s.b1.toNat % 16
def Stage.hi2 (s : Stage) : Nat := s.b2.toNat / 16
def Stage.lo2 (s : Stage) : Nat := s.b2.toNat % 16

/-- Does the operation byte name CVT (0x4A or 0x8A)? -/
def isCvt (b0 : Nat) : Bool := b0 == 0x4A || b0 == 0x8A

/-- Working, destination or accumulation format of a stage; a STORE has none (Table 5.4). -/
def Stage.wf (s : Stage) : Option Nat :=
  let k := stageKind s.op
  if k == 1 || isCvt s.op || k == 6 then some s.lo1
  else if 2 ≤ k && k ≤ 5 then some s.lo2
  else none

/-- Descriptors whose role is set. -/
def usedDescs (op : PInstr) : List Nat := (List.range op.descs.length).filter (fun j => (nth op.descs j).role != 0)
/-- Descriptors of a role. -/
def roleDescs (op : PInstr) (r : Nat) : List Nat := (List.range op.descs.length).filter (fun j => (nth op.descs j).role == r)
/-- Written descriptors (roles 2 and 3). -/
def writtenDescs (op : PInstr) : List Nat :=
  (List.range op.descs.length).filter (fun j => (nth op.descs j).role == 2 || (nth op.descs j).role == 3)
/-- Does a descriptor lie in place? -/
def inPlace (op : PInstr) : Bool := op.descs.any (fun d => d.role == 3)

/-- Is an opcode one of the reductions, normalisations and soft maxima? -/
def isReduceOp (o : Nat) : Bool := 0x20 ≤ o && o ≤ 0x3F

/-- The apply opcodes (Table 6.5): without a chain they read their descriptors directly. -/
def isApplyOp (o : Nat) : Bool := o == 0x2E || o == 0x31 || o == 0x33 || o == 0x35

/-- The stages that execute, with the chain_len 0 forms of R172 and R181; an apply opcode has none of those. -/
def effStages (op : PInstr) : List Stage :=
  let load (j : Nat) : Stage := { b0 := 0x20, b1 := BitVec.ofNat 8 ((9 + j) * 16 + (nth op.descs j).fmt), b2 := 0 }
  let store (j : Nat) : Stage := { b0 := 0xE0, b1 := BitVec.ofNat 8 (0x10 + j), b2 := 0 }
  if op.chainLen != 0 then op.stages.take op.chainLen
  else if op.micro then
    [load 1, store 0]
  else if op.opcode == 0x40 then
    match roleDescs op 1, writtenDescs op with
    | i :: _, o :: _ => [load i, store o]
    | _, _ => []
  else if op.opcode == 0x50 then [load 0, store 2]
  else if isReduceOp op.opcode && !isApplyOp op.opcode then
    load op.shapeSrc :: (if op.reduceMask % 8 == 0 then [] else [{ b0 := 0xC0, b1 := 0x11, b2 := 0 }])
  else []

/-- `wide` of R128. -/
def isWide (op : PInstr) : Bool :=
  (usedDescs op).any (fun j => wideFmt (nth op.descs j).fmt)
    || (effStages op).any (fun s => match s.wf with | some f => wideFmt f | none => false)
/-- `scaled` of R128. -/
def isScaled (op : PInstr) : Bool := (usedDescs op).any (fun j => (nth op.descs j).scaled)

/-- The tile shape (R128). -/
def tileShape (e0 e1 e2 : Nat) (wide scaled : Bool) : Nat × Nat × Nat × Nat :=
  let q := if wide then 8 else 16
  let cap := 256 * q
  let g := if scaled then 32 else q
  let t0 := min (g * max 1 (ceilDiv e0 g)) cap
  let t1 := max 1 (min e1 (cap / t0))
  let t2 := max 1 (min e2 (cap / (t0 * t1)))
  (q, t0, t1, t2)

/-- Is dimension k reduced? -/
def reduced (op : PInstr) (k : Nat) : Bool := !op.micro && isReduceOp op.opcode && bit op.reduceMask k

/-- The tiling for resolved extents (R128, R129). -/
def tilingOf (op : PInstr) (ext : List Nat) : Tiling :=
  let e := fun k => nth ext k
  let (q, t0, t1, t2) := tileShape (e 0) (e 1) (e 2) (isWide op) (isScaled op)
  let kept0 := (List.range 5).any (fun k => !reduced op k && e k == 0)
  let n := fun k (t : Nat) => if e k == 0 && reduced op k && !kept0 then 1 else ceilDiv (e k) t
  { ext := ext, shape := [t0, t1, t2], counts := [n 0 t0, n 1 t1, n 2 t2, n 3 1, n 4 1], q := q }

/-- Number of tiles. -/
def tileCount (t : Tiling) : Nat := t.counts.foldl (· * ·) 1

/-- Index tuple of a tile (R129). -/
def tileTuple (t : Tiling) (T : Nat) : List Nat :=
  let n := fun k => nth t.counts k
  [T % n 0, T / n 0 % n 1, T / (n 0 * n 1) % n 2, T / (n 0 * n 1 * n 2) % n 3, T / (n 0 * n 1 * n 2 * n 3)]

/-- Tile index of a tuple. -/
def tileIndex (t : Tiling) (i : List Nat) : Nat :=
  let n := fun k => nth t.counts k
  let x := fun k => nth i k
  x 0 + n 0 * (x 1 + n 1 * (x 2 + n 2 * (x 3 + n 3 * x 4)))

/-- Element index tuple of a tile's first position. -/
def tileOrigin (t : Tiling) (T : Nat) : List Nat :=
  (tileTuple t T).mapIdx (fun k i => if k < 3 then i * nth t.shape k else i)

/-- A present position of a tile: its position number and the indices it covers (R130, R131). -/
structure Pos where
  p : Nat
  idx : List Nat
deriving DecidableEq, Repr, Inhabited

/-- The present positions of a tile, ascending. -/
def positions (t : Tiling) (T : Nat) : List Pos :=
  let o := tileOrigin t T
  let t0 := nth t.shape 0
  let t1 := nth t.shape 1
  let present := fun k => (List.range (nth t.shape k)).filter (fun a => nth o k + a < nth t.ext k)
  if nth o 3 < nth t.ext 3 && nth o 4 < nth t.ext 4 then
    (present 2).flatMap (fun c => (present 1).flatMap (fun b => (present 0).map (fun a =>
      { p := a + t0 * (b + t1 * c), idx := [nth o 0 + a, nth o 1 + b, nth o 2 + c, nth o 3, nth o 4] })))
  else []

/-- Units of an instruction (R132): tiles, or strips by their lowest tile. -/
def unitIndices (op : PInstr) (t : Tiling) : List Nat :=
  (List.range (tileCount t)).filter (fun T =>
    (tileTuple t T).zipIdx.all (fun p => !(reduced op p.2) || p.1 == 0))

/-- Tiles of a unit, ascending. -/
def unitTiles (op : PInstr) (t : Tiling) (u : Nat) : List Nat :=
  let base := tileTuple t u
  let r := fun k => List.range (if reduced op k then nth t.counts k else 1)
  (r 2).flatMap (fun c => (r 1).flatMap (fun b => (r 0).map (fun a =>
    tileIndex t [nth base 0 + a, nth base 1 + b, nth base 2 + c, nth base 3, nth base 4])))

/-- The element number that a descriptor's index tuple addresses; a size of 1 is not stepped (R119). -/
def elemIndex (d : Desc) (sizes idx : List Nat) : Int :=
  (List.range 5).foldl (fun acc k => if nth sizes k == 1 then acc else acc + ((nth idx k : Nat) : Int) * nth d.strides k) 0

/-! ### The context of a tile -/

/-- What a tile runs on: the worker's numeric setting, the readers of comb, tables and pages, and
where each descriptor's operand begins for this tile. -/
structure TileCtx where
  md : NumMode
  guarded : Bool
  rd : Nat → Byte
  seed : BitVec 64
  instr : Nat
  tile : Nat
  op : PInstr
  sizes : List (List Nat)
  til : Tiling
  base : Nat → Int
  bank : Nat → Option Bytes
  hlPage : Nat → Nat → Option Nat

/-- An element write, or a byte of scales. -/
inductive EWrite where
  | elem (fmt : Nat) (base e : Int) (raw : Nat)
  | byte (addr : Nat) (v : Byte)
deriving DecidableEq, Repr, Inhabited

/-- A value a stage reads: an encoding, or an exact product of a block-scaled load (R66). -/
inductive Opnd where
  | enc (t : TV)
  | exact (v : Val)
deriving DecidableEq, Repr, Inhabited

def Opnd.val : Opnd → Val | .enc t => decodeVal t | .exact v => v

/-- An operand as a stage reads it: in Heirloom mode a subnormal is a zero of its sign (R58, R168). -/
def Opnd.valIn (md : NumMode) : Opnd → Val | .enc t => decodeVal (heirloomOperand md t) | .exact v => v

/-- R48 on an operand. -/
def convOpnd (md : NumMode) (o : Opnd) (f : Nat) (r : Rnd) (v : Ovf) : TV × Ev :=
  match o with | .enc t => convertTV md t f r v | .exact x => convertVal md x f r v

/-- The 16-bit draw of a place, when its control byte selects stochastic rounding (R57, R60). -/
def drawAt (c : TileCtx) (p stage : Nat) (ctl : BitVec 8) : Nat :=
  if bits ctl.toNat 3 2 == 2 then rng32 c.seed c.instr c.tile (p / c.til.q) (p % c.til.q) stage % 65536 else 0

/-- A conversion under a control byte at a place (R47, R48, R60). In a guarded layer a conversion that
would fault delivers an open value (R67). -/
def convAt (c : TileCtx) (p stage : Nat) (o : Opnd) (f : Nat) (ctl : BitVec 8) (draw : Nat) : TV × Ev :=
  let (t, ev) := convOpnd c.md o f (ctlRnd ctl draw) (ctlOvf ctl)
  if c.guarded && !ev.faults.isEmpty then ({ t with raw := (Config.guardedValue f p stage).toNat % 2 ^ fmtBits f }, ev)
  else (t, ev)

/-- E of R65: where the tile-packed scales begin, from the tile's first element: past a full tile's
positions, or past the elements of a micro op. -/
def packedOffset (op : PInstr) (d : Desc) (sizes : List Nat) (t : Tiling) : Nat :=
  let full := if op.micro then t.ext else t.shape
  let hi : Int := (List.range 3).foldl (fun acc k =>
    if nth sizes k == 1 then acc else acc + max 0 ((((nth full k : Nat) : Int) - 1) * nth d.strides k)) 0
  roundUp (((elemBytes d.fmt 0 hi).foldl max 0).toNat + 1) 64

/-- Address of block `j`'s scale in the tile-packed arrangement (R65). -/
def packedScale (c : TileCtx) (j block : Nat) : Nat :=
  let d := nth c.op.descs j
  let first := elemIndex d (nth c.sizes j) (tileOrigin c.til c.tile)
  ((elemBytes d.fmt (c.base j) first).headD 0).toNat + packedOffset c.op d (nth c.sizes j) c.til + block

/-- Indices of the scale element that serves an index tuple (R65). -/
def scaleIdx (idx : List Nat) : List Nat := (nth idx 0 / 32) :: idx.drop 1

/-- The scale of a block-scaled descriptor at a position (R65, R66). -/
def readScale (c : TileCtx) (j p : Nat) (idx : List Nat) : Nat :=
  let d := nth c.op.descs j
  if d.separate then
    let sd := nth c.op.descs d.scaleDesc
    readElem c.rd 10 (c.base d.scaleDesc) (elemIndex sd (nth c.sizes d.scaleDesc) (scaleIdx idx))
  else (c.rd (packedScale c j (p / 32))).toNat

/-- A block-scaled element's value (R66). -/
def blockVal (fmt raw scale : Nat) : Val :=
  if scale == 0xFF then .nan
  else
    let x := decodeVal { fmt := fmt, raw := raw }
    (if fmt == 13 then x.mul (pow2 (-6)) else x).mul (pow2 ((scale : Int) - 127))

/-- Position number, within its tile, of the element at an index tuple (R65: a gathered element's own position). -/
def elemPos (t : Tiling) (idx : List Nat) : Nat :=
  nth idx 0 % nth t.shape 0 + nth t.shape 0 * (nth idx 1 % nth t.shape 1 + nth t.shape 1 * (nth idx 2 % nth t.shape 2))

/-- The element of a descriptor at an index tuple. In Heirloom mode a subnormal element of a block is a zero as well
(R58: DEDUCED, notes/assumptions/17.md). -/
def readDescAt (c : TileCtx) (j p : Nat) (idx : List Nat) : Opnd :=
  let d := nth c.op.descs j
  let raw := readElem c.rd d.fmt (c.base j) (elemIndex d (nth c.sizes j) idx)
  if d.scaled then .exact (blockVal d.fmt (heirloomOperand c.md { fmt := d.fmt, raw := raw }).raw (readScale c j p idx))
  else .enc { fmt := d.fmt, raw := raw }

/-- The element of a descriptor at a position; ROW_GATHER's table row comes from the index tensor (R173). -/
def readDesc (c : TileCtx) (j : Nat) (q : Pos) : Opnd × Ev :=
  if !c.op.micro && c.op.opcode == 0x50 && j == 0 then
    let x := toSigned 32 (readElem c.rd 11 (c.base 1)
      (elemIndex (nth c.op.descs 1) (nth c.sizes 1) [0, nth q.idx 1, nth q.idx 2, nth q.idx 3, nth q.idx 4]))
    if x < 0 || ((nth (nth c.sizes 0) 1 : Nat) : Int) ≤ x then (.enc { fmt := 2, raw := 0 }, Ev.fault1 0x0240)
    else
      let idx := [nth q.idx 0, x.toNat, 0, 0, 0]
      (readDescAt c 0 (elemPos c.til idx) idx, Ev.zero)
  else (readDescAt c j q.p q.idx, Ev.zero)

/-- An immediate as the stage reads it (R155): INT32 beside an integer format, else FP32. -/
def immTV (op : PInstr) (code wf : Nat) : TV :=
  { fmt := if isInt wf then 11 else 2, raw := (if code == 14 then op.imm0 else op.imm1).toNat }

/-- Results so far at a present position. -/
structure Row where
  pos : Pos
  res : List Opnd
deriving DecidableEq, Repr, Inhabited

/-- An operand by its source code, unconverted (Table 5.3). `wf` decides how an immediate is read. -/
def srcOpnd (c : TileCtx) (r : Row) (code wf : Nat) : Opnd × Ev :=
  if code == 0 then (.enc { fmt := 2, raw := 0 }, Ev.zero)
  else if code ≤ 8 then (nth r.res (code - 1), Ev.zero)
  else if code ≤ 13 then readDesc c (code - 9) r.pos
  else (.enc (immTV c.op code wf), Ev.zero)

/-- An operand converted into a working format as an implicit load is (R155). The conversions of
immediates are made once at issue and counted there. -/
def srcConv (c : TileCtx) (r : Row) (code wf : Nat) : TV × Ev :=
  let (o, e1) := srcOpnd c r code wf
  let (t, e2) := convOpnd c.md o wf .rne .standard
  (t, e1.add (if code ≥ 14 then Ev.zero else e2))

/-! ### Stage operations -/

/-- Truth (R168). -/
def truthVal (v : Val) : Bool := !(v.isNan || v.isZero)

/-- 1 or +0 in a format (R161). -/
def boolTV (f : Nat) (b : Bool) : TV := tv f (Val.ofInt (b2n b))

/-- A float result rounded, flushed and encoded (R166). -/
def fres (md : NumMode) (f : Nat) (v : Val) : TV × Ev :=
  let (y, ev) := rnd md f v
  (tv f y, ev)

/-- An integer result, wrapped (R168). -/
def ires (f : Nat) (i : Int) : TV × Ev := ({ fmt := f, raw := ofSigned (fmtBits f) i }, Ev.zero)

/-- A value as SCALEB's exponent: an integer toward zero, clamped to ±2,100. -/
def scalebExp : Val → Int
  | .inf n => if n then -2100 else 2100
  | v => max (-2100) (min 2100 v.truncInt)

/-- MIN and MAX: −0 below +0; a NaN operand gives a NaN (R167). -/
def minVal (a b : Val) : Val := if a.isNan || b.isNan then .nan else if b.below a then b else a
def maxVal (a b : Val) : Val := if a.isNan || b.isNan then .nan else if a.below b then b else a

/-- The FMA/ALU and second-ALU operations by their low five bits (Table 5.7), CVT apart. -/
def aluOp (md : NumMode) (n f : Nat) (ta tb tc : TV) : TV × Ev :=
  let ta := heirloomOperand md ta
  let tb := heirloomOperand md tb
  let a := decodeVal ta
  let b := decodeVal tb
  let c := decodeVal (heirloomOperand md tc)
  let w := fmtBits f
  let sh := (b.truncInt % (w : Int)).toNat
  match n with
  | 0x00 => fres md f (a.add b)
  | 0x01 => fres md f (a.add b.neg)
  | 0x02 => fres md f (a.mul b)
  | 0x03 => fres md f ((a.mul b).add c)
  | 0x04 => fres md f ((a.mul b).add c.neg)
  | 0x05 => fres md f (c.add (a.mul b).neg)
  | 0x06 => fres md f a.neg
  | 0x07 => fres md f a.abs
  | 0x08 => fres md f (if rawSign tb then a.abs.neg else a.abs)
  | 0x09 => fres md f (if b.isNan then .nan else a.mul (pow2 (scalebExp b)))
  | 0x0C => ires f (a.truncInt + b.truncInt)
  | 0x0D => ires f (a.truncInt - b.truncInt)
  | 0x0E => ires f (a.truncInt * b.truncInt)
  | 0x0F => ires f (a.truncInt * 2 ^ sh)
  | 0x10 => ires f (a.truncInt / 2 ^ sh)
  | 0x11 => ({ fmt := f, raw := ta.raw >>> sh }, Ev.zero)
  | _ => ({ fmt := f, raw := 0 }, Ev.zero)

/-- The compare/select operations (Table 5.8), PAIRSWAP apart. -/
def cmpOp (md : NumMode) (b0 f : Nat) (ta tb tc : TV) : TV × Ev :=
  let ta := heirloomOperand md ta
  let tb := heirloomOperand md tb
  let tc := heirloomOperand md tc
  let a := decodeVal ta
  let b := decodeVal tb
  let c := decodeVal tc
  let out (v : Val) : TV × Ev := if isInt f then ires f v.truncInt else fres md f v
  let bool (x : Bool) : TV × Ev := (boolTV f x, Ev.zero)
  let bitwise (x : Nat) (y : Bool) : TV × Ev := if isInt f then ({ fmt := f, raw := x }, Ev.zero) else bool y
  match b0 with
  | 0xA0 => bool (a.eq b)
  | 0xA1 => bool (!(a.eq b))
  | 0xA2 => bool (a.lt b)
  | 0xA3 => bool (a.lt b || a.eq b)
  | 0xA4 => bool (b.lt a)
  | 0xA5 => bool (b.lt a || a.eq b)
  | 0xA6 => out (if truthVal c then a else b)
  | 0xA7 => out (minVal a b)
  | 0xA8 => out (maxVal a b)
  | 0xA9 => out (if a.isNan then b else if b.isNan then a else minVal a b)
  | 0xAA => out (if a.isNan then b else if b.isNan then a else maxVal a b)
  | 0xAB => out (minVal (maxVal a b) c)
  | 0xAC => bool a.isNan
  | 0xAD => bool a.isInf
  | 0xAE => bool a.isFin
  | 0xAF => bitwise (ta.raw &&& tb.raw) (truthVal a && truthVal b)
  | 0xB0 => bitwise (ta.raw ||| tb.raw) (truthVal a || truthVal b)
  | 0xB1 => bitwise (ta.raw ^^^ tb.raw) (truthVal a != truthVal b)
  | 0xB2 => bitwise (2 ^ fmtBits f - 1 - ta.raw) (!truthVal a)
  | _ => (boolTV f false, Ev.zero)

/-- The word of a RANDOM or RANDMASK stage (R169). -/
def randWord (c : TileCtx) (s : Stage) (k p : Nat) : Nat :=
  let rekey := bit s.b1.toNat 7
  rng32 c.seed (if rekey then c.op.imm1.toNat else c.instr) c.tile (p / c.til.q) (p % c.til.q) (if rekey then s.hi2 else k)

/-- k of RANDMASK: floor(p × 2^24) with imm0 clamped to 0 to 1 (Table 5.9). -/
def maskThreshold (imm0 : BitVec 32) : Int :=
  let p := fp32 imm0.toNat
  if p.isNan then 0
  else (((maxVal (Val.ofInt 0) (minVal p (Val.ofInt 1)))).mul (pow2 24)).floorInt

/-- The special function of a slot (R162, R214, R225, R246, R248). -/
def sfnStage (c : TileCtx) (slot f : Nat) (t : TV) : TV × Ev :=
  let none_ : TV × Ev := ({ fmt := f, raw := 0 }, Ev.fault1 0x0260)
  if c.md.heirloom && (f == 3 || f == 4) then
    match c.hlPage slot f with
    | some pg => heirloomLookup c.md c.rd pg t
    | none => none_
  else
    match c.bank slot with
    | none => none_
    | some file =>
      match filePath file (if f == 2 then 2 else 1) with
      | none => none_
      | some d =>
        let (v, ev) := sfnEval c.md (fileCoef file d) d f (decodeVal (heirloomOperand c.md t))
        (tv f v, ev)

/-- The result of stage `k` at a present position. GATHER converts nearest even with ovf standard, and RANDOM toward zero
without a flush in Heirloom mode too: DEDUCED, notes/assumptions/82.md; `rows` serves PAIRSWAP. A STORE's result is its
source value (R157). -/
def stageResult (c : TileCtx) (rows : List Row) (k : Nat) (s : Stage) (r : Row) : Opnd × Ev :=
  let b0 := s.op
  let enc (x : TV × Ev) : Opnd × Ev := (.enc x.1, x.2)
  let f := s.wf.getD 2
  match stageKind b0 with
  | 1 =>
    if b0 == 0x20 then
      let (o, e1) := srcOpnd c r s.hi1 f
      let (t, e2) := convAt c r.pos.p k o f s.b2 (drawAt c r.pos.p k s.b2)
      (.enc t, e1.add e2)
    else if b0 == 0x21 then
      let j := s.hi1 - 9
      let x := (nth r.res (s.hi2 - 1)).val.truncInt
      if x < 0 || ((nth (nth c.sizes j) 0 : Nat) : Int) ≤ x then
        (.enc (boolTV f false), if bit s.b2.toNat 0 then Ev.zero else Ev.fault1 0x0240)
      else
        let idx := x.toNat :: r.pos.idx.drop 1
        enc (convOpnd c.md (readDescAt c j (elemPos c.til idx) idx) f .rne .standard)
    else if b0 == 0x22 then
      let i := nth r.pos.idx (bits s.b2.toNat 2 0)
      if isInt f then enc (ires f i) else enc (tv f (Val.ofInt i), Ev.zero)
    else if b0 == 0x23 then
      let u := randWord c s k r.pos.p / 256
      enc (tv f (roundTo f false u (-24) false .rtz), Ev.zero)
    else
      let w := randWord c s k r.pos.p / 256
      enc (boolTV f (decide ((w : Int) < maskThreshold c.op.imm0)), Ev.zero)
  | 2 | 4 =>
    if isCvt b0 then
      let (o, e1) := srcOpnd c r s.hi1 f
      let (t, e2) := convAt c r.pos.p k o f s.b2 (drawAt c r.pos.p k s.b2)
      (.enc t, e1.add e2)
    else
      let (a, e1) := srcConv c r s.hi1 f
      let (b, e2) := srcConv c r s.lo1 f
      let (d, e3) := srcConv c r s.hi2 f
      let (y, e4) := aluOp c.md (b0 % 32) f a b d
      (.enc y, (e1.add e2).add (e3.add e4))
  | 3 =>
    let (a, e1) := srcConv c r s.hi1 f
    let (y, e2) := sfnStage c (b0 - 0x60) f a
    (.enc y, e1.add e2)
  | 5 =>
    if b0 == 0xB3 then
      match rows.find? (fun r' => r'.pos.p == r.pos.p ^^^ 1) with
      | none => (.enc (boolTV f false), Ev.zero)
      | some r' =>
        let (a, e1) := srcConv c r' s.hi1 f
        let (y, e2) := if isInt f then (a, Ev.zero) else fres c.md f (decodeVal (heirloomOperand c.md a))
        (.enc y, e1.add e2)
    else
      let (a, e1) := srcConv c r s.hi1 f
      let (b, e2) := srcConv c r s.lo1 f
      let (d, e3) := srcConv c r s.hi2 f
      let (y, e4) := cmpOp c.md b0 f a b d
      (.enc y, (e1.add e2).add (e3.add e4))
  | 6 =>
    let (a, e1) := srcConv c r s.hi1 f
    (.enc a, e1)
  | _ =>
    let (o, e1) := srcOpnd c r s.hi1 (nth c.op.descs s.lo1).fmt
    (o, e1)

/-! ### Stores (R164, R165) and block scaling (R61 to R65) -/

/-- Exponent of the largest normal of a block-scaled element format (R62). -/
def blockEmax (f : Nat) : Int := if f == 5 then 8 else if f == 6 then 15 else if f == 7 then 4 else if f == 8 then 2 else if f == 9 then 2 else 0

/-- Largest element value of a block-scaled format (R62, R64). -/
def blockMax (f : Nat) : Nat × Int := if f == 13 then (127, -6) else maxFinite f

/-- X of R62 for a block maximum. -/
def blockExp (f : Nat) (headroom : Bool) (amax : Val) : Int :=
  match amax with
  | .fin _ m e =>
    let lg := (m.log2 : Int) + e
    let x := if headroom then
        let (mm, me) := blockMax f
        let x0 := lg - ((mm.log2 : Int) + me)
        if cmpFin false m e false mm (me + x0) == .gt then x0 + 1 else x0
      else lg - blockEmax f
    max (-127) (min 127 x)
  | _ => -127

/-- One element of a block-scaled store: x / 2^X, rounded, saturated by magnitude, not flushed. -/
def blockElem (f : Nat) (x : Int) (r : Rnd) (v : Val) : Nat × Ev :=
  let (mm, me) := blockMax f
  let enc (n : Bool) (m : Nat) (e : Int) : Nat := if f == 13 then encodeVal 13 (.fin n m (e + 6)) else encodeVal f (.fin n m e)
  match v with
  | .nan => (0, Ev.zero)
  | .inf n => (enc n mm me, Ev.sat1)
  | .fin n m e =>
    if m == 0 then (enc n 0 0, Ev.zero)
    else
      match (if f == 13 then roundTo 13 n m (e - x + 6) false r else roundTo f n m (e - x) false r) with
      | .fin _ m' e' =>
        let e'' := if f == 13 then e' - 6 else e'
        if cmpFin false m' e'' false mm me == .gt then (enc n mm me, Ev.sat1) else (enc n m' e'', Ev.zero)
      | _ => (0, Ev.zero)

/-- The scale and the elements of one block, in position order (R62 to R64). No element of a block written with scale 0xFF is
counted: for an infinity that is a DESIGN CHOICE, notes/assumptions/83.md. -/
def blockStore (f : Nat) (ctl : BitVec 8) (vals : List (Nat × Nat × Val)) : Nat × List Nat × Ev :=
  let vs := vals.map (fun v => v.2.2)
  let o := ctlOvf ctl
  let hasInf := vs.any Val.isInf
  if vs.any Val.isNan then (0xFF, vs.map (fun _ => 0), Ev.zero)
  else if hasInf && o ≠ .saturate then
    (0xFF, vals.map (fun v => (Config.infBlockElement f v.1).toNat % 2 ^ fmtBits f),
      if o = .fault then Ev.fault1 0x0210 else Ev.zero)
  else
    let fin := (vs.filter (fun v => v.isFin && !v.isZero)).map Val.abs
    let x : Int := match fin with
      | [] => -127
      | a :: t => blockExp f (ctlHeadroom ctl) (t.foldl maxVal a)
    let es := vals.map (fun v => blockElem f x (ctlRnd ctl v.2.1) v.2.2)
    ((127 + x).toNat, es.map Prod.fst, es.foldl (fun acc e => acc.add e.2) Ev.zero)

/-- A value to be stored: its place, its draw and the value. -/
structure StoreItem where
  pos : Pos
  draw : Nat
  val : Opnd
deriving DecidableEq, Repr, Inhabited

/-- The writes of a store with scale-on-store: each block and its scale (R61 to R65). -/
def storeBlocks (c : TileCtx) (j : Nat) (els : List StoreItem) : List EWrite × Ev :=
  let d := nth c.op.descs j
  let blocks := (els.map (fun e => scaleIdx e.pos.idx)).eraseDups
  blocks.foldl (fun acc b =>
    let mine := els.filter (fun e => scaleIdx e.pos.idx == b)
    let (scale, raws, ev) := blockStore d.fmt d.conv (mine.map (fun e => (e.pos.p, e.draw, e.val.valIn c.md)))
    let ws := (mine.zip raws).map (fun e => EWrite.elem d.fmt (c.base j) (elemIndex d (nth c.sizes j) e.1.pos.idx) e.2)
    let sw := match mine with
      | [] => []
      | e :: _ =>
        if d.separate then
          let sd := nth c.op.descs d.scaleDesc
          [EWrite.elem 10 (c.base d.scaleDesc) (elemIndex sd (nth c.sizes d.scaleDesc) (scaleIdx e.pos.idx)) scale]
        else [EWrite.byte (packedScale c j (e.pos.p / 32)) (BitVec.ofNat 8 scale)]
    (acc.1 ++ ws ++ sw, acc.2.add ev)) ([], Ev.zero)

/-- Values stored to a written descriptor under its conv byte (R164, R183); `stage` names the place of
an open value. -/
def storeItems (c : TileCtx) (stage j : Nat) (els : List StoreItem) : List EWrite × Ev :=
  let d := nth c.op.descs j
  if ctlScaleOnStore d.conv then storeBlocks c j els
  else
    let ws := els.map (fun e =>
      let (t, ev) := convAt c e.pos.p stage e.val d.fmt d.conv e.draw
      (EWrite.elem d.fmt (c.base j) (elemIndex d (nth c.sizes j) e.pos.idx) t.raw, ev))
    (ws.map Prod.fst, ws.foldl (fun acc w => acc.add w.2) Ev.zero)

/-- The writes of a STORE stage over the rows, whose last result is the stored value (R164, R165). -/
def storeStage (c : TileCtx) (k : Nat) (s : Stage) (rows : List Row) : List EWrite × Ev :=
  let j := s.lo1
  let kept := rows.filter (fun r => s.hi2 == 0 || truthVal ((nth r.res (s.hi2 - 1)).valIn c.md))
  storeItems c k j (kept.map (fun r =>
    { pos := r.pos, draw := drawAt c r.pos.p k (nth c.op.descs j).conv, val := nth r.res k }))

/-! ### A chain over a tile -/

/-- What a tile's chain delivers: results at the present positions, writes, events. -/
structure ChainOut where
  rows : List Row
  writes : List EWrite
  ev : Ev
deriving DecidableEq, Repr, Inhabited

/-- One stage over every present position (R146). -/
def runStage (c : TileCtx) (o : ChainOut) (ks : Stage × Nat) : ChainOut :=
  let res := o.rows.map (fun r => stageResult c o.rows ks.2 ks.1 r)
  let rows := (o.rows.zip res).map (fun p => { p.1 with res := p.1.res ++ [p.2.1] })
  let ev := res.foldl (fun acc p => acc.add p.2) o.ev
  if stageKind ks.1.op == 7 then
    let (ws, e2) := storeStage c ks.2 ks.1 rows
    { rows := rows, writes := o.writes ++ ws, ev := ev.add e2 }
  else { o with rows := rows, ev := ev }

/-- The chain of an instruction over one tile. -/
def runChain (c : TileCtx) : ChainOut :=
  (effStages c.op).zipIdx.foldl (runStage c)
    { rows := (positions c.til c.tile).map (fun q => { pos := q, res := [] }), writes := [], ev := Ev.zero }

/-- Events of the immediates that stages read in a working format, converted once at issue (R155): each
immediate in each format it is read in. CVT and STORE convert an immediate per element, as their own
operation. -/
def immEvents (md : NumMode) (op : PInstr) : Ev :=
  let uses := (effStages op).flatMap (fun s =>
    let k := stageKind s.op
    let srcs := if isCvt s.op then [] else if k == 2 || k == 4 || k == 5 then [s.hi1, s.lo1, s.hi2]
      else if k == 3 || k == 6 then [s.hi1] else []
    (srcs.filter (· ≥ 14)).map (fun c => (c, s.wf.getD 2)))
  uses.eraseDups.foldl (fun acc u => acc.add (convertTV md (immTV op u.1 u.2) u.2 .rne .standard).2) Ev.zero

/-- Element writes as byte writes in order; elements that share a byte see each other's bits. -/
def flattenWrites (rd : Nat → Byte) (ws : List EWrite) : List (Nat × Byte) :=
  ws.foldl (fun acc w =>
    match w with
    | .byte a v => acc ++ [(a, v)]
    | .elem f b e raw =>
      let rd' := fun a => if fmtBits f % 8 == 0 then rd a else
        match acc.reverse.find? (fun p => p.1 == a) with | some p => p.2 | none => rd a
      acc ++ storeElem rd' f b e raw) []

end Sys2Proof.Machine
end

