-- ==== Sys2Proof/Machine/Reduce.lean ====
section
/-!
DEFINITION. Reductions, row statistics, normalisation and soft maximum (chapter 6): lane, tree and
fold order, the strip end, the apply opcodes, the Seedling forms, and the Ohmine sums of Heirloom mode.
-/

namespace Sys2Proof.Machine

/-! ### Values in W40 -/

/-- A value as a W40 encoding of equal magnitude (R190). -/
def w40 (v : Val) : BitVec 40 := BitVec.ofNat 40 (encodeVal 1 v)
/-- The value of a W40 encoding. -/
def ofW40 (b : BitVec 40) : Val := decodeVal { fmt := 1, raw := b.toNat }
/-- A W40 value as an operand held in W40. -/
def heldW40 (v : Val) : Opnd := .enc (tv 1 v)
/-- rne_w40, without flush. -/
def rneW40 (v : Val) : Val := rneV 1 v
/-- fp32(v) of R205: rne into FP32 as R166 rounds. -/
def toFp32 (md : NumMode) (v : Val) : Val × Ev := rnd md 2 v
/-- exp_w40 of R194. -/
def expW40 (v : Val) : Val := rneSticky 1 (expVal v)
/-- A quotient in the strip-end unit's format: W40, or FP32 in Heirloom mode (R194, Table 8.9). -/
def stripFmt (md : NumMode) : Nat := if md.heirloom then 2 else 1

/-! ### The taps of a tile -/

/-- A value that a tap hands to the reduction (R179, R182). -/
structure Tap where
  pos : Pos
  kept : Nat
  lane : Nat
  red : Nat
  val : Val
  second : Val
deriving DecidableEq, Repr, Inhabited

/-- Ordinal of a kept position in the order of R130 restricted to the kept dimensions (R134). -/
def keptOrdinal (op : PInstr) (t : Tiling) (idx : List Nat) : Nat :=
  let k := fun i => if reduced op i then 1 else nth t.shape i
  let o := fun i => if reduced op i then 0 else nth idx i % nth t.shape i
  o 0 + k 0 * (o 1 + k 1 * o 2)

/-- Entries of a strip: the product of the kept tile dimensions (R135). -/
def keptCount (op : PInstr) (t : Tiling) : Nat :=
  ((List.range 3).map (fun i => if reduced op i then 1 else nth t.shape i)).foldl (· * ·) 1

/-- Reduced index of an element (R188). -/
def reducedIndex (op : PInstr) (t : Tiling) (idx : List Nat) : Nat :=
  ((List.range 3).foldl (fun acc k => if reduced op k then (acc.1 + nth idx k * acc.2, acc.2 * nth t.ext k) else acc) (0, 1)).1

/-- Index tuple of the output element of an element: reduced coordinates 0. -/
def keptIdx (op : PInstr) (idx : List Nat) : List Nat := idx.mapIdx (fun k i => if reduced op k then 0 else i)

/-- The kept positions of a strip that exist: ordinal and output index tuple. -/
def keptPositions (op : PInstr) (t : Tiling) (T : Nat) : List (Nat × List Nat) :=
  let o := tileOrigin t T
  let r := fun k => if reduced op k then [0] else (List.range (nth t.shape k)).filter (fun a => nth o k + a < nth t.ext k)
  (r 2).flatMap (fun c => (r 1).flatMap (fun b => (r 0).map (fun a =>
    let idx := [a, b, c].mapIdx (fun k x => if reduced op k then 0 else nth o k + x)
    let idx := idx ++ [nth o 3, nth o 4]
    (keptOrdinal op t idx, idx))))

/-- The TAP stage of an instruction. -/
def tapStage (op : PInstr) : Option (Stage × Nat) := (effStages op).zipIdx.find? (fun s => stageKind s.1.op == 6)

/-- Accumulation format (R180, R181). -/
def accFmt (op : PInstr) : Nat := match tapStage op with | some s => s.1.lo1 | none => 1

/-- The taps of a tile's chain: present, unmasked, in position order. -/
def tapsOf (c : TileCtx) (o : ChainOut) : List Tap × Ev :=
  match tapStage c.op with
  | none => ([], Ev.zero)
  | some (s, k) =>
    let live := o.rows.filter (fun r => s.lo2 == 0 || truthVal ((nth r.res (s.lo2 - 1)).valIn c.md))
    let ts := live.map (fun r =>
      let (t2, e2) := if s.hi2 == 0 then ({ fmt := 2, raw := 0 }, Ev.zero) else srcConv c r s.hi2 s.lo1
      ({ pos := r.pos, kept := keptOrdinal c.op c.til r.pos.idx, lane := r.pos.p / c.til.q
         red := reducedIndex c.op c.til r.pos.idx, val := (nth r.res k).val, second := decodeVal t2 : Tap }, e2))
    (ts.map Prod.fst, ts.foldl (fun acc t => acc.add t.2) Ev.zero)

/-! ### Lane and tree order (R186) -/

/-- A step of a fold whose events are counted. -/
def stepEv {α β : Type} (f : β → α → β × Ev) (acc : β × Ev) (x : α) : β × Ev :=
  let (b, e) := f acc.1 x
  (b, acc.2.add e)

/-- One level of the end-of-lane tree. -/
def treeLevel {β : Type} (tree : β → β → β × Ev) : List β → List β × Ev
  | a :: b :: t =>
    let (y, e) := tree a b
    let (ys, e') := treeLevel tree t
    (y :: ys, e.add e')
  | l => (l, Ev.zero)

/-- The end-of-lane tree over the lane partials, in at most `fuel` levels. -/
def treeFold {β : Type} (tree : β → β → β × Ev) : (fuel : Nat) → List β → Ev → Option β × Ev
  | _, [], ev => (none, ev)
  | _, [a], ev => (some a, ev)
  | 0, a :: _, ev => (some a, ev)
  | fuel + 1, l, ev =>
    let (l', e) := treeLevel tree l
    treeFold tree fuel l' (ev.add e)

/-- The partial of a tile for one kept position, from its values with their lanes in position order. -/
def tilePartial {α β : Type} (first : α → β × Ev) (lane : β → α → β × Ev) (tree : β → β → β × Ev)
    (xs : List (Nat × α)) : Option β × Ev :=
  let lanes := (xs.map Prod.fst).eraseDups
  let parts := lanes.filterMap (fun l =>
    match (xs.filter (fun x => x.1 == l)).map Prod.snd with
    | [] => none
    | x :: t => some (t.foldl (stepEv lane) (first x)))
  treeFold tree 9 (parts.map Prod.fst) (parts.foldl (fun acc p => acc.add p.2) Ev.zero)

/-- A combine step that counts nothing. -/
def pureEv {α β γ : Type} (f : α → β → γ) (a : α) (b : β) : γ × Ev := (f a b, Ev.zero)

/-- Rounding of lane and tree into the accumulation format (R186). -/
def accRnd (md : NumMode) (acc : Nat) (v : Val) : Val × Ev := rnd md acc v

/-- The partial of a sum (Table 6.3). -/
def sumPartial (md : NumMode) (acc : Nat) (xs : List (Nat × Val)) : Option Val × Ev :=
  tilePartial (fun x => (x, Ev.zero)) (fun a x => accRnd md acc (a.add x)) (fun a b => accRnd md acc (a.add b)) xs

/-- The partial of a sum of squares. -/
def sqPartial (md : NumMode) (acc : Nat) (xs : List (Nat × Val)) : Option Val × Ev :=
  tilePartial (fun x => accRnd md acc (x.mul x)) (fun a x => accRnd md acc ((x.mul x).add a)) (fun a b => accRnd md acc (a.add b)) xs

/-- The partial of a selection. -/
def selPartial (sel : Val → Val → Val) (xs : List (Nat × Val)) : Option Val × Ev :=
  tilePartial (fun x => (x, Ev.zero)) (pureEv sel) (pureEv sel) xs

/-- Argmax or argmin selection: the first NaN wins; between equal values the lower index (R188). -/
def argSel (max_ : Bool) (a b : Val × Nat) : Val × Nat :=
  if a.1.isNan && b.1.isNan then (.nan, min a.2 b.2)
  else if a.1.isNan then (.nan, a.2)
  else if b.1.isNan then (.nan, b.2)
  else
    let (lo, hi) := if max_ then (a.1.below b.1, b.1.below a.1) else (b.1.below a.1, a.1.below b.1)
    if lo then b else if hi then a else if a.2 ≤ b.2 then a else b

/-! ### The fold into the row-state entries (R191) -/

/-- The rounding of a fold: nearest even, or stochastic under srnd_xtile with the cross-tile draw;
`half` is 0 for the first rounding of an entry and 1 for the second. -/
def foldRnd (c : TileCtx) (acc k half : Nat) (v : Val) : Val × Ev :=
  if bit c.op.flags.toNat 3 then
    rnd c.md acc v (.srnd ((rng32 c.seed c.instr c.tile (k % 256) 0 8 >>> (16 * half)) % 65536))
  else rnd c.md acc v

/-- One slot of an entry with a tile's partial folded into it; `fresh` when no tile came before. -/
def foldSlot (fresh : Bool) (f : Val → Val → Val × Ev) (v : BitVec 40) (p : Option Val) : BitVec 40 × Ev :=
  match p with
  | none => (v, Ev.zero)
  | some x => if fresh then (w40 x, Ev.zero) else let (y, e) := f (ofW40 v) x; (w40 y, e)

/-- A fresh entry of a strip. -/
def entryInit (opcode : Nat) : RowEntry :=
  let negInf := w40 (.inf true)
  { v0 := if opcode == 0x30 then negInf else 0, v1 := 0, v2 := 0, v3 := 0, v4 := 0
    opc := BitVec.ofNat 8 opcode, flags := if opcode == 0x34 then 9 else 1, count := 0 }

/-- A Heirloom sum in progress (R277): the total of the closed groups, the running sum of the open group, and the
number of values. -/
structure Ohmine where
  total : Val
  group : Val
  n : Nat
deriving DecidableEq, Repr, Inhabited

/-- No value yet. -/
def Ohmine.zero : Ohmine := { total := .fin false 0 0, group := .fin false 0 0, n := 0 }

/-- One value more: a full group of 32 is added to the total first (R277). `x` is already squared and rounded where
the kind squares. -/
def ohmineAdd (md : NumMode) (a : Ohmine) (x : Val) : Ohmine × Ev :=
  if a.n == 0 then ({ a with group := x, n := 1 }, Ev.zero)
  else if a.n % 32 == 0 then
    let (t, ev) := if a.n == 32 then (a.group, Ev.zero) else rnd md 2 (a.total.add a.group)
    ({ total := t, group := x, n := a.n + 1 }, ev)
  else
    let (g, ev) := rnd md 2 (a.group.add x)
    ({ a with group := g, n := a.n + 1 }, ev)

/-- The Heirloom sum of the values so far. -/
def ohmineTotal (md : NumMode) (a : Ohmine) : Val × Ev :=
  if a.n == 0 then (.fin false 0 0, Ev.zero)
  else if a.n ≤ 32 then (a.group, Ev.zero)
  else rnd md 2 (a.total.add a.group)

/-- The sums that an entry holds (Table 6.6: v0 that of source, v1 that of source2). The open group of each stands in v2
and v3 until the strip end: DESIGN CHOICE, notes/assumptions/81.md. -/
def ohmineFirst (e : RowEntry) : Ohmine := { total := ofW40 e.v0, group := ofW40 e.v2, n := e.count.toNat }
def ohmineSecond (e : RowEntry) : Ohmine := { total := ofW40 e.v1, group := ofW40 e.v3, n := e.count.toNat }

/-- Does an opcode accumulate a sum? -/
def isSumOp (o : Nat) : Bool := o == 0x20 || o == 0x22 || o == 0x23 || o == 0x2C
def isSqOp (o : Nat) : Bool := o == 0x21 || o == 0x2D

/-- Flags bit 2 of an entry: a non-finite value has been seen (R190). -/
def seenFlag (ts : List Tap) (e : RowEntry) : RowEntry :=
  if ts.any (fun t => !t.val.isFin || !t.second.isFin) then { e with flags := e.flags ||| 4 } else e

/-- One tile's taps of one kept position folded into its entry, for the sum and compare kinds
(R187, R191, R200, Table 6.6). -/
def foldSumCompare (c : TileCtx) (k : Nat) (ts : List Tap) (e : RowEntry) : RowEntry × Ev :=
  let o := c.op.opcode
  let acc := accFmt c.op
  let fresh := e.count == 0
  let xs := ts.map (fun t => (t.lane, t.val))
  let n := BitVec.ofNat 40 ts.length
  let e := seenFlag ts e
  let fsum := fun half (a b : Val) => foldRnd c acc k half (a.add b)
  if o == 0x20 || o == 0x22 then
    let (p, e1) := sumPartial c.md acc xs
    let (v, e2) := foldSlot fresh (fsum 0) e.v0 p
    ({ e with v0 := v, count := e.count + n }, e1.add e2)
  else if o == 0x21 || o == 0x2D then
    let (p, e1) := sqPartial c.md acc xs
    let (v, e2) := foldSlot fresh (fsum 0) e.v0 p
    ({ e with v0 := v, count := e.count + n }, e1.add e2)
  else if o == 0x23 then
    let (p, e1) := sumPartial c.md acc xs
    let (v, e2) := foldSlot fresh (fsum 0) e.v0 p
    let (p', e3) := sumPartial c.md acc (ts.map (fun t => (t.lane, t.second)))
    let (v', e4) := foldSlot fresh (fsum 1) e.v1 p'
    ({ e with v0 := v, v1 := v', count := e.count + n }, (e1.add e2).add (e3.add e4))
  else if o == 0x2C then
    let pv := ofW40 e.v2
    let ds := xs.map (fun x => (x.1, accRnd c.md acc (x.2.add pv.neg)))
    let e0 := ds.foldl (fun a d => a.add d.2.2) Ev.zero
    let ds := ds.map (fun d => (d.1, d.2.1))
    let (p, e1) := sumPartial c.md acc ds
    let (v, e2) := foldSlot fresh (fsum 0) e.v0 p
    let (p', e3) := sqPartial c.md acc ds
    let (v', e4) := foldSlot fresh (fsum 1) e.v1 p'
    ({ e with v0 := v, v1 := v', count := e.count + n }, e0.add ((e1.add e2).add (e3.add e4)))
  else if o == 0x27 || o == 0x28 then
    let mx := o == 0x27
    let (p, _) := tilePartial (fun x => (x, Ev.zero)) (pureEv (argSel mx)) (pureEv (argSel mx))
      (ts.map (fun t => (t.lane, (t.val, t.red))))
    match p with
    | none => (e, Ev.zero)
    | some x =>
      let y := if fresh then x else argSel mx (ofW40 e.v0, e.v1.toNat) x
      ({ e with v0 := w40 y.1, v1 := BitVec.ofNat 40 y.2, count := e.count + n }, Ev.zero)
  else
    let sel : Val → Val → Val := if o == 0x25 then minVal else maxVal
    let xs := if o == 0x26 then xs.map (fun x => (x.1, x.2.abs)) else xs
    let (p, _) := selPartial sel xs
    let (v, _) := foldSlot fresh (pureEv sel) e.v0 p
    ({ e with v0 := v, count := e.count + n }, Ev.zero)

/-- One tile's taps folded by a sum of Heirloom mode (R277); squares are rounded first. -/
def foldOhmine (c : TileCtx) (ts : List Tap) (e : RowEntry) : RowEntry × Ev :=
  let sq (v : Val) : Val × Ev := if isSqOp c.op.opcode then rnd c.md 2 (v.mul v) else (v, Ev.zero)
  ts.foldl (fun acc t =>
    let (x, e1) := sq t.val
    let (a, e2) := ohmineAdd c.md (ohmineFirst acc.1) x
    let (b, e3) := if c.op.opcode == 0x23 then ohmineAdd c.md (ohmineSecond acc.1) t.second else (ohmineSecond acc.1, Ev.zero)
    ({ acc.1 with v0 := w40 a.total, v1 := w40 b.total, v2 := w40 a.group, v3 := w40 b.group, count := BitVec.ofNat 40 a.n },
      (acc.2.add e1).add (e2.add e3))) (seenFlag ts e, Ev.zero)

/-- One tile's taps folded by SMAX_STATS (R205, R206). -/
def foldSmax (c : TileCtx) (k : Nat) (ts : List Tap) (e : RowEntry) : RowEntry × Ev :=
  let n := BitVec.ofNat 40 ts.length
  let e := seenFlag ts { e with count := e.count + n }
  let m := ofW40 e.v0
  match (selPartial maxVal (ts.map (fun t => (t.lane, t.val)))).1 with
  | none => (e, Ev.zero)
  | some mt =>
    if m.isNan then (e, Ev.zero)
    else if mt.isNan then ({ e with v0 := w40 .nan, v1 := w40 .nan }, Ev.zero)
    else if m == .inf false then (e, Ev.zero)
    else if mt == .inf false then ({ e with v0 := w40 mt, v1 := w40 .nan }, Ev.zero)
    else if mt == .inf true then (e, Ev.zero)
    else if c.md.heirloom then ({ e with v0 := w40 (maxVal m mt) }, Ev.zero)
    else
      let es := ts.map (fun t =>
        let (x, e1) := toFp32 c.md (t.val.add mt.neg)
        let (y, e2) := builtinExp c.md x
        ((t.lane, y), e1.add e2))
      let e0 := es.foldl (fun a x => a.add x.2) Ev.zero
      let (st, e1) := sumPartial c.md 1 (es.map Prod.fst)
      let st := st.getD (.fin false 0 0)
      let s := ofW40 e.v1
      if m == .inf true then ({ e with v0 := w40 mt, v1 := w40 st }, e0.add e1)
      else if m.lt mt then
        let f := expW40 (rneW40 (m.add mt.neg))
        let (s', e2) := foldRnd c 1 k 0 ((s.mul f).add st)
        ({ e with v0 := w40 mt, v1 := w40 s', v2 := w40 f }, (e0.add e1).add e2)
      else
        let f := expW40 (rneW40 (mt.add m.neg))
        let (s', e2) := foldRnd c 1 k 0 ((st.mul f).add s)
        ({ e with v1 := w40 s', v2 := w40 f }, (e0.add e1).add e2)

/-- One tile's taps folded by SMAX_SEED (R211, R213): v0 the sum; flags bit 2 after a NaN or +∞, bit 3
while every present value is −∞. -/
def foldSeed (c : TileCtx) (k : Nat) (ts : List Tap) (e : RowEntry) : RowEntry × Ev :=
  let es := ts.map (fun t => let (y, e1) := seedExp c.md t.val; ((t.lane, y), e1))
  let e0 := es.foldl (fun a x => a.add x.2) Ev.zero
  let (st, e1) := sumPartial c.md 1 (es.map Prod.fst)
  let (v, e2) := foldSlot (e.count == 0) (fun a b => foldRnd c 1 k 0 (a.add b)) e.v0 st
  let special := ts.any (fun t => t.val.isNan || t.val == .inf false)
  let flags := if special then e.flags ||| 4 else e.flags
  let flags := if ts.any (fun t => !(t.val == .inf true)) then flags &&& 0xF7 else flags
  let ovf := if (ofW40 v).isInf && flags &&& 4 == 0 then Ev.fault1 0x0250 else Ev.zero
  ({ e with v0 := v, flags := flags, count := e.count + BitVec.ofNat 40 ts.length }, ((e0.add e1).add e2).add ovf)

/-- The taps of each kept position folded into the strip's entries: entry k of the row-state memory. -/
def foldTile (c : TileCtx) (taps : List Tap) (entries : List RowEntry) : List RowEntry × Ev :=
  let o := c.op.opcode
  let go := fun k (e : RowEntry) =>
    match taps.filter (fun t => t.kept == k) with
    | [] => (e, Ev.zero)
    | ts =>
      if o == 0x30 then foldSmax c k ts e
      else if o == 0x34 then foldSeed c k ts e
      else if c.md.heirloom && (isSumOp o || isSqOp o) then foldOhmine c ts e
      else foldSumCompare c k ts e
  let r := entries.mapIdx go
  (r.map Prod.fst, r.foldl (fun a x => a.add x.2) Ev.zero)

/-- The pivots of a strip: the tap value of the element with reduced index 0, or 0 when it is absent
(R200). -/
def setPivots (op : PInstr) (taps : List Tap) (entries : List RowEntry) : List RowEntry :=
  if op.opcode == 0x2C && bit op.imm1.toNat 0 then
    entries.mapIdx (fun k e =>
      match taps.find? (fun t => t.kept == k && t.red == 0) with
      | some t => { e with v2 := w40 t.val }
      | none => e)
  else entries

/-! ### Outputs (R183, R185, R512) -/

/-- Descriptors that STORE stages of the chain name, with the scale descriptors they serve. -/
def storedDescs (op : PInstr) : List Nat :=
  let st := ((effStages op).filter (fun s => stageKind s.op == 7)).map Stage.lo1
  st ++ (st.filter (fun j => (nth op.descs j).scaled && (nth op.descs j).separate)).map (fun j => (nth op.descs j).scaleDesc)

/-- Written descriptors that receive the opcode's outputs, ascending. -/
def outputDescs (op : PInstr) : List Nat := (writtenDescs op).filter (fun j => !(storedDescs op).contains j)

/-- The draw of an output written once per kept position (R512). -/
def keptDraw (c : TileCtx) (unit k j : Nat) (ctl : BitVec 8) : Nat :=
  if bits ctl.toNat 3 2 == 2 then rng32 c.seed c.instr unit (k % 256) (k / 256) (12 + j) % 65536 else 0

/-- One output, number `j`, of every kept position, stored to its descriptor; `packed` puts it at index
`j` of dimension 0. -/
def storeKept (c : TileCtx) (unit : Nat) (packed : Bool) (d j : Nat) (outs : List (Nat × List Nat × Opnd)) : List EWrite × Ev :=
  storeItems c 8 d (outs.map (fun o =>
    { pos := { p := o.1, idx := if packed then j :: o.2.1.drop 1 else o.2.1 }
      draw := keptDraw c unit o.1 j (nth c.op.descs d).conv, val := o.2.2 }))

/-- The outputs of kept positions: ordinal, index tuple and the list of output values. -/
def storeOutputs (c : TileCtx) (unit : Nat) (outs : List (Nat × List Nat × List Opnd)) : List EWrite × Ev :=
  let ds := outputDescs c.op
  let m := outs.foldl (fun n o => max n o.2.2.length) 0
  let packed := ds.length == 1 && m == 2
  (List.range m).foldl (fun acc j =>
    let d := if packed then nth ds 0 else nth ds j
    let (ws, ev) := storeKept c unit packed d j (outs.map (fun o => (o.1, o.2.1, nth o.2.2 j)))
    (acc.1 ++ ws, acc.2.add ev)) ([], Ev.zero)

/-- An integer output (INT32). -/
def intOpnd (i : Int) : Opnd := .enc { fmt := 11, raw := ofSigned 32 i }

/-- rstd = 1/√(x + ε) (R201): x + ε rounded once, then the reciprocal square root of R194. -/
def rstdOf (md : NumMode) (x eps : Val) : Val :=
  let f := stripFmt md
  let y := if md.heirloom then (rnd md 2 (x.add eps)).1 else rneV f (x.add eps)
  rneSticky f (rsqrtVal y)

/-- The entry of a Heirloom sum at the strip end: the sums in v0 and v1 (Table 6.6). -/
def ohmineClose (md : NumMode) (op : PInstr) (e : RowEntry) : RowEntry × Ev :=
  let (a, e1) := ohmineTotal md (ohmineFirst e)
  let (b, e2) := if op.opcode == 0x23 then ohmineTotal md (ohmineSecond e) else (.fin false 0 0, Ev.zero)
  ({ e with v0 := w40 a, v1 := w40 b, v2 := 0, v3 := 0 }, e1.add e2)

/-- The strip-end values of one kept position for the sum and compare kinds (R194, R198, R201), from an entry whose
Heirloom sums are closed. -/
def stripOutputs (md : NumMode) (op : PInstr) (e : RowEntry) : List Opnd × Ev :=
  let o := op.opcode
  let n := e.count.toNat
  let nv := Val.ofInt n
  let eps := fp32 op.imm0.toNat
  let v0 := ofW40 e.v0
  let v1 := ofW40 e.v1
  let z : Val := .fin false 0 0
  let div (a : Val) : Val := if n == 0 then z else rneSticky (stripFmt md) (divVal a nv)
  if o == 0x22 then ([heldW40 (div v0)], Ev.zero)
  else if o == 0x23 then ([heldW40 (if n == 0 then z else v0), heldW40 (if n == 0 then z else v1)], Ev.zero)
  else if o == 0x2D then ([heldW40 (rstdOf md (div v0) eps)], Ev.zero)
  else if o == 0x2C then
    let mdv := div v0
    let q := div v1
    let mean := rneW40 ((ofW40 e.v2).add mdv)
    let var := rneW40 (q.add (mdv.mul mdv).neg)
    let clamp := var.lt z
    let var := if clamp then z else var
    ([heldW40 mean, heldW40 (rstdOf md var eps)], if clamp then { Ev.zero with cancel := 1 } else Ev.zero)
  else if o == 0x27 || o == 0x28 then
    if n == 0 then ([heldW40 (.inf (o == 0x27)), intOpnd (-1)], Ev.zero)
    else ([heldW40 v0, intOpnd e.v1.toNat], Ev.zero)
  else if n == 0 then
    ([heldW40 (if o == 0x24 then .inf true else if o == 0x25 then .inf false else z)], Ev.zero)
  else ([heldW40 v0], Ev.zero)

/-- The Heirloom sum of a list of values (R277). -/
def ohmineSum (md : NumMode) (ys : List Val) : Val × Ev :=
  let r := ys.foldl (stepEv (ohmineAdd md)) (Ohmine.zero, Ev.zero)
  let (t, ev) := ohmineTotal md r.1
  (t, r.2.add ev)

/-- NSTATS in Heirloom mode for one kept position, from its values in ascending reduced index: the sum and the sum of
the squared deviations, the outputs and the events (R278). -/
def ohmineNstats (md : NumMode) (eps : Val) (xs : List Val) : (Val × Val) × List Opnd × Ev :=
  let nv := Val.ofInt xs.length
  let z : Val := .fin false 0 0
  let (s, e1) := ohmineSum md xs
  let (mean, e2) := if xs.isEmpty then (z, Ev.zero) else rndSticky md 2 (divVal s nv)
  let sqs := xs.map (fun x =>
    let (d, a) := rnd md 2 (x.add mean.neg)
    let (q, b) := rnd md 2 (d.mul d)
    (q, a.add b))
  let (q, e3) := ohmineSum md (sqs.map Prod.fst)
  let (var, e4) := if xs.isEmpty then (z, Ev.zero) else rndSticky md 2 (divVal q nv)
  ((s, q), [heldW40 mean, heldW40 (rstdOf md var eps)], sqs.foldl (fun a x => a.add x.2) (((e1.add e2).add e3).add e4))

/-- The sum of SMAX_STATS in Heirloom mode for one kept position (R210, R277). -/
def ohmineSmax (md : NumMode) (m : Val) (xs : List Val) : Val × Ev :=
  let es := xs.map (fun x =>
    let (d, a) := toFp32 md (x.add m.neg)
    let (y, b) := builtinExp md d
    (y, a.add b))
  let (t, ev) := ohmineSum md (es.map Prod.fst)
  (t, es.foldl (fun a x => a.add x.2) ev)

/-- The values of one kept position over all tiles of its strip, in ascending reduced index. -/
def stripValues (ctxOf : Nat → TileCtx) (tiles : List Nat) (k : Nat) : List Val :=
  tiles.flatMap (fun T =>
    let c := ctxOf T
    ((tapsOf c (runChain c)).1.filter (fun t => t.kept == k)).map Tap.val)

/-- The strip end of one kept position that exists: the entry with its last flags and sums, the outputs (none where the
opcode writes nothing) and the events (R198, R202, R206, R210, R211). -/
def stripRow (ctxOf : Nat → TileCtx) (tiles : List Nat) (k : Nat) (e : RowEntry) : RowEntry × List Opnd × Ev :=
  let c := ctxOf (tiles.headD 0)
  let op := c.op
  let o := op.opcode
  let h := c.md.heirloom
  let empty := e.count == 0
  if o == 0x30 then
    if empty then (e, [], Ev.zero)
    else
      let m := ofW40 e.v0
      let allNeg := m == .inf true
      let (s, ev) := if h && m.isFin then ohmineSmax c.md m (stripValues ctxOf tiles k) else (ofW40 e.v1, Ev.zero)
      ({ e with v1 := w40 s, flags := if allNeg then e.flags ||| 8 else e.flags }, [heldW40 m, heldW40 s], { ev with allNeginf := allNeg })
  else if o == 0x34 then
    if empty then (e, [], Ev.zero)
    else
      let f := e.flags.toNat
      let s := if bit f 2 then .nan else ofW40 e.v0
      let under := !bit f 2 && s.isZero && !bit f 3
      (e, [heldW40 s], { (if under then Ev.fault1 0x0251 else Ev.zero) with allNeginf := bit f 3 })
  else if o == 0x2C && h then
    let (sq, vs, ev) := ohmineNstats c.md (fp32 op.imm0.toNat) (stripValues ctxOf tiles k)
    ({ e with v0 := w40 sq.1, v1 := w40 sq.2, v2 := 0, v3 := 0 }, vs, ev)
  else
    let (e, e1) := if h && (isSumOp o || isSqOp o) then ohmineClose c.md op e else (e, Ev.zero)
    let (vs, ev) := stripOutputs c.md op e
    ({ e with flags := if ev.cancel != 0 then e.flags ||| 2 else e.flags }, vs, e1.add ev)

/-- The strip end of a reducing opcode: the writes of its outputs, the events, and the entries as they stay. -/
def stripEnd (ctxOf : Nat → TileCtx) (unit : Nat) (tiles : List Nat) (entries : List RowEntry) : List EWrite × Ev × List RowEntry :=
  let c := ctxOf unit
  let rows := (keptPositions c.op c.til unit).map (fun k => (k, stripRow ctxOf tiles k.1 (nth entries k.1)))
  let (ws, ev) := storeOutputs c unit ((rows.filter (fun x => !x.2.2.1.isEmpty)).map (fun x => (x.1.1, x.1.2, x.2.2.1)))
  (ws, rows.foldl (fun a x => a.add x.2.2.2) ev,
    entries.mapIdx (fun i e => match rows.find? (fun x => x.1.1 == i) with | some x => x.2.1 | none => e))

/-! ### SMAX_BLOCK (R208) -/

/-- What SMAX_BLOCK computes for one kept position. -/
structure BlockRow where
  kept : Nat
  idx : List Nat
  mOld : Val
  mNew : Val
  s : Val
  corr : Val
  ps : List (Pos × Opnd)
  ev : Ev
deriving DecidableEq, Repr, Inhabited

/-- One kept position of SMAX_BLOCK, from its present values and the held m and s; none without a present value. -/
def blockRow (c : TileCtx) (jm js : Nat) (ts : List Tap) (k : Nat × List Nat) : Option BlockRow :=
  match (selPartial maxVal (ts.map (fun t => (t.lane, t.val)))).1 with
  | none => none
  | some mt =>
    let held (j : Nat) : Val × Ev :=
      let (t, ev) := convOpnd c.md (readDescAt c j k.1 k.2) 1 .rne .standard
      (decodeVal t, ev)
    let (m, a1) := held jm
    let (s, a2) := held js
    let mn := maxVal m mt
    if mn == .inf true then
      some { kept := k.1, idx := k.2, mOld := m, mNew := mn, s := s, corr := Val.ofInt 1
             ps := ts.map (fun t => (t.pos, Opnd.enc (tv 2 (.fin false 0 0)))), ev := a1.add a2 }
    else
      let es := ts.map (fun t =>
        let (x, e1) := toFp32 c.md (t.val.add mn.neg)
        let (y, e2) := builtinExp c.md x
        (t, y, e1.add e2))
      let (st, e1) := sumPartial c.md 1 (es.map (fun x => (x.1.lane, x.2.1)))
      let corr := expW40 (rneW40 (m.add mn.neg))
      let (s', e2) := foldRnd c 1 k.1 0 ((s.mul corr).add (st.getD (.fin false 0 0)))
      some { kept := k.1, idx := k.2, mOld := m, mNew := mn, s := s', corr := corr
             ps := es.map (fun x => (x.1.pos, Opnd.enc (tv 2 x.2.1)))
             ev := es.foldl (fun a x => a.add x.2.2) ((a1.add a2).add (e1.add e2)) }

/-- SMAX_BLOCK over one tile: it reads m and s in place, writes P, m, s and corr, each output at all kept positions at
once, so that the blocks of a block-scaled output are those of R61; and the row-state entries of Table 6.6. -/
def smaxBlock (c : TileCtx) (taps : List Tap) : List EWrite × Ev × List RowEntry :=
  let op := c.op
  let ms := roleDescs op 3
  let (jm, js) := (nth ms 0, nth ms 1)
  let outs := (roleDescs op 2).filter (fun j => !(storedDescs op).contains j)
  let (jp, jc) := (nth outs 0, nth outs 1)
  let rowDraw (p : Nat) (j : Nat) : Nat :=
    if bits (nth op.descs j).conv.toNat 3 2 == 2 then rng32 c.seed c.instr c.tile (p / c.til.q) (p % c.til.q) 11 % 65536 else 0
  let rows := (keptPositions op c.til c.tile).filterMap (fun k => blockRow c jm js (taps.filter (fun t => t.kept == k.1)) k)
  let (w1, b1) := storeItems c 8 jp ((rows.flatMap BlockRow.ps).map (fun p => { pos := p.1, draw := rowDraw p.1.p jp, val := p.2 }))
  let (w2, b2) := storeKept c c.tile false jm 0 (rows.map (fun x => (x.kept, x.idx, heldW40 x.mNew)))
  let (w3, b3) := storeKept c c.tile false js 1 (rows.map (fun x => (x.kept, x.idx, heldW40 x.s)))
  let (w4, b4) := storeKept c c.tile false jc 2 (rows.map (fun x => (x.kept, x.idx, heldW40 x.corr)))
  (w1 ++ w2 ++ w3 ++ w4, rows.foldl (fun a x => a.add x.ev) ((b1.add b2).add (b3.add b4)),
    (List.replicate (keptCount op c.til) (entryInit 0x32)).mapIdx (fun i e =>
      match rows.find? (fun x => x.kept == i) with
      | some x => { seenFlag (taps.filter (fun t => t.kept == i)) e with
          v0 := w40 x.mOld, v1 := w40 x.mNew, v2 := w40 x.s, v3 := w40 x.corr, count := BitVec.ofNat 40 x.ps.length }
      | none => e))

/-! ### The sums of a Seedling strip (R212) -/

/-- First byte of a worker's cell 2. -/
def seedCell : Nat := 2 * 32768

/-- Eight bytes of a kept position: the W40 sum, the flags of the values folded, zeros. The place of the flags is a DESIGN
CHOICE, notes/assumptions/81.md. -/
def seedBytes (rows : List RowEntry) : Bytes :=
  rows.flatMap (fun e => natLe 5 e.v0.toNat ++ natLe 1 (e.flags.toNat % 16 + 16 * b2n (e.count != 0)) ++ natLe 2 0)

/-- The sums of `n` kept positions as cell 2 holds them. -/
def seedRows (cells : List Host.Cell) (n : Nat) : List RowEntry :=
  (List.range n).map (fun k =>
    let b := memBytes 0 cells (seedCell + 8 * k) 8
    { entryInit 0x34 with v0 := BitVec.ofNat 40 (field b 0 5), flags := BitVec.ofNat 8 (field b 5 1 % 16)
                          count := if bit (field b 5 1) 4 then 1 else 0 })

/-! ### The apply opcodes -/

/-- The draw of an output written once per present position (R512). -/
def applyDraw (c : TileCtx) (p : Nat) (ctl : BitVec 8) : Nat :=
  if bits ctl.toNat 3 2 == 2 then rng32 c.seed c.instr c.tile (p / c.til.q) (p % c.til.q) 11 % 65536 else 0

/-- One output per present position stored to a descriptor. -/
def storeApply (c : TileCtx) (j : Nat) (ys : List (Pos × Opnd)) : List EWrite × Ev :=
  storeItems c 8 j (ys.map (fun y => { pos := y.1, draw := applyDraw c y.1.p (nth c.op.descs j).conv, val := y.2 }))

/-- An operand read directly, exactly; in Heirloom mode a subnormal reads as a zero. -/
def direct (c : TileCtx) (j : Nat) (q : Pos) (idx : List Nat) : Val :=
  match readDescAt c j q.p idx with
  | .enc t => decodeVal (heirloomOperand c.md t)
  | .exact v => v

/-- A list of values with events, split. -/
def unzipEv {α : Type} (l : List (α × Ev)) : List α × Ev := (l.map Prod.fst, l.foldl (fun a x => a.add x.2) Ev.zero)

/-- NAPPLY (R203). -/
def napplyTile (c : TileCtx) : List EWrite × Ev :=
  let d := fun j => nth c.op.descs j
  let w := if (d 0).fmt == 1 then 1 else 2
  let packed := nth (nth c.sizes 1) 0 != 1
  let (ys, e1) := unzipEv ((positions c.til c.tile).map (fun q =>
    let x := direct c 0 q q.idx
    let mean := if packed then direct c 1 q (0 :: q.idx.drop 1) else .fin false 0 0
    let rstd := direct c 1 q ((if packed then 1 else 0) :: q.idx.drop 1)
    let g := if (d 2).role == 0 then Val.ofInt 1 else direct c 2 q q.idx
    let b := if (d 3).role == 0 then .fin false 0 0 else direct c 3 q q.idx
    let (t1, a1) := rnd c.md w (x.add mean.neg)
    let (t2, a2) := rnd c.md w (t1.mul rstd)
    let (t3, a3) := rnd c.md w ((t2.mul g).add b)
    ((q, Opnd.enc (tv w t3)), (a1.add a2).add a3)))
  let (ws, e2) := storeApply c 4 ys
  (ws, e1.add e2)

/-- x of an apply opcode: desc0 itself or, with a chain, the result of its last stage (R207). -/
def applyX (c : TileCtx) (o : ChainOut) : List (Pos × Val) :=
  o.rows.map (fun r => (r.pos, match r.res.getLast? with | some x => x.valIn c.md | none => direct c 0 r.pos r.pos.idx))

/-- SMAX_APPLY (R207). -/
def smaxApplyTile (c : TileCtx) (o : ChainOut) : List EWrite × Ev :=
  let (ys, e1) := unzipEv ((applyX c o).map (fun qx =>
    let m := direct c 1 qx.1 qx.1.idx
    let s := direct c 2 qx.1 qx.1.idx
    if s.isZero then ((qx.1, heldW40 (.fin false 0 0)), Ev.zero)
    else
      let (x, a1) := toFp32 c.md (qx.2.add m.neg)
      let (e, a2) := builtinExp c.md x
      ((qx.1, heldW40 (rneW40 (e.mul (rneSticky 1 (divVal (Val.ofInt 1) s))))), a1.add a2)))
  let (ws, e2) := storeApply c 3 ys
  (ws, e1.add e2)

/-- SMAX_RESCALE (R209), in W40. -/
def smaxRescaleTile (c : TileCtx) : List EWrite × Ev :=
  let ys := (positions c.til c.tile).map (fun q =>
    let t := rneW40 (((direct c 0 q q.idx).mul (direct c 2 q q.idx)).add (direct c 1 q q.idx))
    let t := if (nth c.op.descs 3).role == 0 then t
      else
        let s := direct c 3 q q.idx
        if s.isZero then .fin false 0 0 else rneW40 (t.mul (rneSticky 1 (divVal (Val.ofInt 1) s)))
    (q, heldW40 t))
  storeApply c 0 ys

/-- Are two positions of one row, by the sizes of the descriptor that holds s? -/
def sameRow (sizes a b : List Nat) : Bool := (List.range 5).all (fun k => nth sizes k == 1 || nth a k == nth b k)

/-- SMAX_SEED_APPLY (R211): x, s and y in the arrangement of R207 without m, as descriptors 0, 1 and 2. DEDUCED: the numbers
close up, and an s of +0 beside a value that is not −∞ divides, notes/assumptions/82.md. -/
def smaxSeedApplyTile (ctxOf : Nat → TileCtx) (c : TileCtx) (o : ChainOut) : List EWrite × Ev :=
  let rowAllNegInf := fun (idx : List Nat) =>
    (List.range (tileCount c.til)).all (fun T =>
      (applyX (ctxOf T) (runChain (ctxOf T))).all (fun qx => !(sameRow (nth c.sizes 1) idx qx.1.idx) || qx.2 == .inf true))
  let (ys, e1) := unzipEv ((applyX c o).map (fun qx =>
    let s := direct c 1 qx.1 qx.1.idx
    if s.isZero && rowAllNegInf qx.1.idx then ((qx.1, heldW40 (.fin false 0 0)), Ev.zero)
    else
      let (e, a) := seedExp c.md qx.2
      ((qx.1, heldW40 (rneW40 (e.mul (rneSticky 1 (divVal (Val.ofInt 1) s))))), a)))
  let (ws, e2) := storeApply c 2 ys
  (ws, e1.add e2)

end Sys2Proof.Machine
end

