-- ==== Sys2Proof/Machine/Optim.lean ====
section
/-!
DEFINITION. The optimizer step, the tensor watch and the fold of watch entries (chapter 8), and the
comparison of a shadow sample.
-/

namespace Sys2Proof.Machine

/-! ### The hyperparameter record (R255, R256) -/

/-- An FP32 field of the record. -/
def hyperF (h : Bytes) (off : Nat) : Val := fp32 (field h off 4)

/-- Does the record make the run fault with 0x0270 for an opcode (R256)? -/
def hyperBad (opcode : Nat) (h : Bytes) : Bool :=
  let mom := opcode == 0x62
  let used := [0, 4, 16, 20, 44] ++ (if mom then [] else [8, 12, 24, 28])
  let z := Val.ofInt 0
  let unit (v : Val) : Bool := v.lt z || !(v.lt (Val.ofInt 1))
  let hi := hyperF h 40
  let lo := hyperF h 44
  let fl := field h 48 4
  used.any (fun o => !(hyperF h o).isFin) || hi.isNan || hi == .inf true
    || unit (hyperF h 4) || (!mom && (unit (hyperF h 8) || !(z.lt (hyperF h 12)))) || (hyperF h 16).lt z
    || hi.lt lo || field h 32 8 == 0 || (if mom then fl >>> 1 != 0 else fl != 0)
    || (h.drop 52 |>.take 12).any (· != 0)

/-! ### The update (R257, R258) -/

/-- Events of the roundings made once per instruction (R155, R257). -/
def optIssueEvents (md : NumMode) (op : PInstr) (h : Bytes) : Ev :=
  let f := (nth op.descs 0).fmt
  let one := Val.ofInt 1
  let a1 := (rnd md f (one.add (hyperF h 4).neg)).2
  if op.opcode == 0x62 then a1 else a1.add (rnd md f (one.add (hyperF h 8).neg)).2

/-- New weight, first and second moment, and lr × d of one element. -/
structure OptElem where
  pos : Pos
  w : Val
  w1 : Val
  m1 : Val
  v1 : Option Val
  step : Val
deriving DecidableEq, Repr, Inhabited

/-- A square root correctly rounded into a format, with its flush. -/
def sqrtRnd (md : NumMode) (f : Nat) (v : Val) : Val × Ev := rndSticky md f (sqrtVal v)

/-- The element of an operand converted into f (R257, R50). -/
def optIn (c : TileCtx) (f j : Nat) (q : Pos) (idx : List Nat) : Val × Ev :=
  match convOpnd c.md (readDescAt c j q.p idx) f .rne .standard with
  | (t, ev) => (decodeVal (heirloomOperand c.md t), ev)

/-- One element of ADAMW, ADAM_L2 or MOMENTUM (R257). -/
def optElem (c : TileCtx) (h : Bytes) (q : Pos) : OptElem × Ev :=
  let op := c.op.opcode
  let md := c.md
  let f := (nth c.op.descs 0).fmt
  let rd (v : Val) : Val × Ev := rnd md f v
  let fma (a b d : Val) : Val × Ev := rd ((a.mul b).add d)
  let hp (o : Nat) : Val := decodeVal (heirloomOperand md { fmt := 2, raw := field h o 4 })
  let lr := hp 0
  let b1 := hp 4
  let wd := hp 16
  let one := Val.ofInt 1
  let a1 := (rd (one.add b1.neg)).1
  let at2 (k : Nat) : List Nat := [nth q.idx 0, nth q.idx 1, k, nth q.idx 3, nth q.idx 4]
  let (w, e0) := optIn c f 0 q q.idx
  let (g, e1) := optIn c f 1 q q.idx
  let (m, e2) := optIn c f 2 q (at2 0)
  let (gs, e3) := rd (g.mul (hp 20))
  let (gs, e4) := if op == 0x61 then fma wd w gs else (gs, Ev.zero)
  let ev := (((e0.add e1).add e2).add e3).add e4
  let (d, m1, v1, ev) : Val × Val × Option Val × Ev :=
    if op == 0x62 then
      let (m1, e5) := fma b1 m gs
      let (d, e6) := if bit (field h 48 4) 0 then fma b1 m1 gs else (m1, Ev.zero)
      (d, m1, none, (ev.add e5).add e6)
    else
      let b2 := hp 8
      let a2 := (rd (one.add b2.neg)).1
      let (v, e5) := optIn c f 2 q (at2 1)
      let (x, e6) := rd (a1.mul gs)
      let (m1, e7) := fma b1 m x
      let (y, e8) := rd (gs.mul gs)
      let (z, e9) := rd (a2.mul y)
      let (v1, e10) := fma b2 v z
      let (mh, e11) := rd (m1.mul (hp 24))
      let (vh, e12) := rd (v1.mul (hp 28))
      let (sq, e13) := sqrtRnd md f vh
      let (den, e14) := rd (sq.add (hp 12))
      let (d, e15) := rndSticky md f (divVal mh den)
      (d, m1, some v1, [e5, e6, e7, e8, e9, e10, e11, e12, e13, e14, e15].foldl Ev.add ev)
  let (d, e16) := if op == 0x61 then (d, Ev.zero) else fma wd w d
  let (st, e17) := rd (lr.mul d)
  let (w1, e18) := rd (w.add st.neg)
  ({ pos := q, w := w, w1 := w1, m1 := m1, v1 := v1, step := st }, ((ev.add e16).add e17).add e18)

/-- The bytes of a W40 value as stored in a watch entry. -/
def w40Bytes (v : Val) : Bytes := natLe 5 (w40 v).toNat

/-- The watch entry of a tile as byte writes (R260). -/
def watchWrites (c : TileCtx) (entry : Bytes) : List EWrite :=
  (padTo 16 entry).mapIdx (fun i b => EWrite.byte (c.op.imm1.toNat % 2 ^ 28 + 16 * c.tile + i) b)

/-- Is the watch of an instruction enabled (R260)? -/
def watchOn (op : PInstr) : Bool := 0x60 ≤ op.opcode && op.opcode ≤ 0x6F && bit op.imm1.toNat 31

/-- Lane of a position. -/
def laneOf (c : TileCtx) (q : Pos) : Nat := q.p / c.til.q

/-- One tile of an optimizer opcode (R257, R258, R261). -/
def optTile (c : TileCtx) (h : Bytes) : List EWrite × Ev :=
  let f := (nth c.op.descs 0).fmt
  let (els, ev) := unzipEv ((positions c.til c.tile).map (optElem c h))
  if els.any (fun e => !e.w1.isFin || !e.m1.isFin || (match e.v1 with | some v => !v.isFin | none => false)) then
    ([], Ev.fault1 0x0272)
  else
    let draw (j k : Nat) (q : Pos) : Nat := drawAt c q.p k (nth c.op.descs j).conv
    let at2 (k : Nat) (q : Pos) : Pos := { q with idx := [nth q.idx 0, nth q.idx 1, k, nth q.idx 3, nth q.idx 4] }
    let held (v : Val) : Opnd := .enc (tv f v)
    let ws0 := els.map (fun e => EWrite.elem f (c.base 0) (elemIndex (nth c.op.descs 0) (nth c.sizes 0) e.pos.idx) (tv f e.w1).raw)
    let (ws1, e1) := storeItems c 0 3 (els.map (fun e => { pos := at2 0 e.pos, draw := draw 3 0 e.pos, val := held e.m1 }))
    let (ws2, e2) := storeItems c 1 3 (els.filterMap (fun e => e.v1.map (fun v =>
      { pos := at2 1 e.pos, draw := draw 3 1 e.pos, val := held v })))
    let (ws3, e3) := if (nth c.op.descs 4).role == 2
      then storeItems c 2 4 (els.map (fun e => { pos := e.pos, draw := draw 4 2 e.pos, val := held e.w1 }))
      else ([], Ev.zero)
    let ww := if watchOn c.op then
        let u := (sqPartial c.md 1 (els.map (fun e => (laneOf c e.pos, e.step)))).1.getD (Val.ofInt 0)
        let q := (sqPartial c.md 1 (els.map (fun e => (laneOf c e.pos, e.w)))).1.getD (Val.ofInt 0)
        watchWrites c (w40Bytes u ++ w40Bytes q)
      else []
    (ws0 ++ ws1 ++ ws2 ++ ws3 ++ ww, ((ev.add e1).add e2).add e3)

/-- One tile of NWATCH (R263). -/
def nwatchTile (c : TileCtx) : List EWrite × Ev :=
  let (xs, ev) := unzipEv ((positions c.til c.tile).map (fun q =>
    let (v, e) := optIn c 1 0 q q.idx
    ((laneOf c q, v), e)))
  let (s, e1) := sqPartial c.md 1 xs
  let fin := xs.filter (fun x => x.2.isFin)
  let big := (selPartial maxVal (fin.map (fun x => (x.1, x.2.abs)))).1.getD (Val.ofInt 0)
  (watchWrites c (w40Bytes (s.getD (Val.ofInt 0)) ++ w40Bytes big ++ natLe 5 (xs.length - fin.length)), ev.add e1)

/-! ### The close unit (R261 to R263) -/

/-- Entries of a watch buffer: two W40 values and a 40-bit count each. -/
def watchEntry (e : Bytes) : Val × Val × Nat :=
  (decodeVal { fmt := 1, raw := field e 0 5 }, decodeVal { fmt := 1, raw := field e 5 5 }, field e 10 5)

/-- Left fold with rne into W40. -/
def foldW40 (xs : List Val) : Val :=
  match xs with
  | [] => Val.ofInt 0
  | x :: t => t.foldl (fun a b => rneW40 (a.add b)) x

/-- √(u / q) correctly rounded into W40 (R261). -/
def watchRatio (u q : Val) : Val :=
  if q.isZero then (if u.isZero then Val.ofInt 0 else if u.isNan then .nan else .inf false)
  else
    let (d, s1) := divVal u q
    let (r, s2) := sqrtVal d
    rneSticky 1 (r, s1 || s2)

/-- Bytes 32 to 63 of the close unit's record (Table 8.5), and which threshold was crossed. -/
def closePayload (op : PInstr) (h : Bytes) (entries : List Bytes) (elements : Nat) : Bytes × Nat :=
  let es := entries.map watchEntry
  if op.opcode == 0x68 then
    let s := foldW40 (es.map (fun e => e.1))
    let big := (es.map (fun e => e.2.1)).foldl maxVal (Val.ofInt 0)
    let n := (es.map (fun e => e.2.2)).foldl (· + ·) 0
    (natLe 8 0 ++ w40Bytes s ++ w40Bytes big ++ natLe 5 n ++ natLe 1 0 ++ natLe 5 elements ++ natLe 3 0, 0)
  else
    let u := foldW40 (es.map (fun e => e.1))
    let q := foldW40 (es.map (fun e => e.2.1))
    let r := watchRatio u q
    let crossed := if (hyperF h 40).lt r then 1 else if r.lt (hyperF h 44) then 2 else 0
    (natLe 8 (field h 32 8) ++ w40Bytes u ++ w40Bytes q ++ w40Bytes r ++ natLe 1 crossed ++ natLe 5 elements ++ natLe 3 0, crossed)

/-! ### Shadow sampling (R266, R267) -/

/-- Is a tile of a shadowed instruction sampled (R266)? -/
def sampled (log2N : Nat) (seed : BitVec 64) (instr T : Nat) : Bool :=
  let n := 2 ^ log2N
  let h := rng32 seed instr 0 0 0 9 % n
  ((T : Int) - h) % n == 0

/-- The chain of an instruction with every float working format raised to the shadow format;
special-function stages run on the FP32 path (R267). -/
def shadowOp (op : PInstr) (fmt : Nat) : PInstr :=
  { op with
    chainLen := (effStages op).length
    stages := (effStages op).map (fun s =>
      let k := stageKind s.op
      let setLo (b : BitVec 8) (f : Nat) : BitVec 8 := BitVec.ofNat 8 (b.toNat / 16 * 16 + f)
      if k == 3 then { s with b2 := setLo s.b2 2 }
      else if (k == 1 || isCvt s.op) && isFloat s.lo1 then { s with b1 := setLo s.b1 fmt }
      else if (k == 2 || k == 4 || k == 5) && !isCvt s.op && isFloat s.lo2 then { s with b2 := setLo s.b2 fmt }
      else s) }

/-- Spacing exponent of an output format at a magnitude (R267): 0, that is 1, for an integer format. -/
def spacingExp (f : Nat) (v : Val) : Int :=
  match v with
  | .fin _ m e => if isInt f then 0 else if m == 0 then fmtEmin f - fracBits f else quantum f m e
  | _ => 0

/-- The disagreement of a stored value and its wide result in ulps, rounded up, at most 65,535. -/
def ulpDiff (f : Nat) (ys yw : Val) : Nat :=
  if ys.isFin && yw.isFin then
    match (ys.add yw.neg).abs with
    | .fin _ m e =>
      let sh := e - spacingExp f yw
      min 65535 (if sh ≥ 0 then m * 2 ^ sh.toNat else ceilDiv m (2 ^ (-sh).toNat))
    | _ => 65535
  else if ys == yw then 0 else 65535

/-- The comparison of a sampled tile: `c` reads the sampled operands, `out` the stored outputs; largest
disagreement, elements compared, elements that differ (R267, Table 8.7). The spacing of a block-scaled
output is that of its element format times the block's scale (DEDUCED, notes/assumptions/11.md). -/
def shadowCompare (c : TileCtx) (out : Nat → Byte) (shadowFmt : Nat) : Nat × Nat × Nat :=
  let wide := runChain { c with op := shadowOp c.op shadowFmt }
  let stores := (effStages c.op).zipIdx.filter (fun s => stageKind s.1.op == 7)
  let diffs := stores.flatMap (fun s =>
    let j := s.1.lo1
    let d := nth c.op.descs j
    let live := wide.rows.filter (fun r => s.1.hi2 == 0 || truthVal (nth r.res (s.1.hi2 - 1)).val)
    live.map (fun r =>
      let yw := (nth r.res s.2).val
      match readDescAt { c with rd := out } j r.pos.p r.pos.idx with
      | .enc t => ulpDiff d.fmt (decodeVal (convertTV c.md t shadowFmt .rne .standard).1) yw
      | .exact v =>
        let ys := decodeVal (convertVal c.md v shadowFmt .rne .standard).1
        let x : Int := 127 - (readScale { c with rd := out } j r.pos.p r.pos.idx : Int) + (if d.fmt == 13 then 6 else 0)
        ulpDiff d.fmt (ys.mul (pow2 x)) (yw.mul (pow2 x))))
  (diffs.foldl max 0, diffs.length, (diffs.filter (· ≥ 1)).length)

end Sys2Proof.Machine
end

