-- ==== Sys2Proof/Machine/Image.lean ====
section
/-!
DEFINITION. Images as the loader reads them: the container, the declarations and their checks (phases 1
to 3 of Table 9.13), and the instructions of a program.
-/

namespace Sys2Proof.Machine

/-- Why and where the loader refuses an image (R293, Table 10.9); 0xFF and 0xF stand for none. -/
structure LoadRefusal where
  code : BitVec 16
  section_ : Nat
  record : Nat
  entry : Nat
  desc : Nat
  stage : Nat
  instr : Nat
deriving DecidableEq, Repr, Inhabited

/-- A refusal that names only a section and a record. -/
def refuseAt (code : BitVec 16) (sec : Nat) (record : Nat := 0xFFFFFFFF) : LoadRefusal :=
  { code := code, section_ := sec, record := record, entry := 0xFF, desc := 0xF, stage := 0xF, instr := 0xFFFFFFFF }

/-- The first refusal of a list of items in order, each with the refusals of its checks, of which the
lowest code counts (R293). -/
def lowest (l : List LoadRefusal) : Option LoadRefusal :=
  l.foldl (fun acc r =>
    match acc with
    | none => some r
    | some a =>
      let key (x : LoadRefusal) : Nat := x.code.toNat * 256 + x.desc * 16 + x.stage
      if key r < key a then some r else some a) none

/-- The first item that fails, with its lowest code. -/
def firstItem (items : List (List LoadRefusal)) : Option LoadRefusal := items.findSome? lowest

/-- A check: its refusal when it fails. -/
def chk (bad : Bool) (r : LoadRefusal) : List LoadRefusal := if bad then [r] else []

/-! ### The container (R281, R282) -/

/-- A section directory entry. -/
structure Section where
  kind : Nat
  reserved : Nat
  crc : Nat
  offset : Nat
  size : Nat
deriving DecidableEq, Repr, Inhabited

/-- A little-endian field through a byte reader. -/
def rfield (rd : Nat → Byte) (off size : Nat) : Nat := leNat ((List.range size).map (fun i => rd (off + i)))
/-- A range of bytes through a byte reader. -/
def rbytes (rd : Nat → Byte) (off size : Nat) : Bytes := (List.range size).map (fun i => rd (off + i))

/-- The section directory. -/
def directory (rd : Nat → Byte) : List Section :=
  (List.range (rfield rd 6 2)).map (fun i =>
    let o := 32 + 24 * i
    { kind := rfield rd o 2, reserved := rfield rd (o + 2) 2, crc := rfield rd (o + 4) 4, offset := rfield rd (o + 8) 8
      size := rfield rd (o + 16) 8 })

/-- The section of a type. -/
def sectionOf (dir : List Section) (k : Nat) : Option Section := dir.find? (fun s => s.kind == k)

/-- Record size of a section type with records, and the exact size of one without (R282). -/
def sectionSizeBad (s : Section) : Bool :=
  match s.kind with
  | 0x1 => s.size != 32
  | 0x2 | 0x3 | 0xA => s.size % 32 != 0
  | 0x4 => s.size != 72
  | 0x5 => s.size != 512
  | 0x6 | 0x9 | 0xB => s.size % 16 != 0
  | 0x8 => s.size != 64
  | 0xC => s.size % 256 != 0
  | 0xF => s.size != 112
  | _ => false

/-- Is a section type known? -/
def knownSection (k : Nat) : Bool := (1 ≤ k && k ≤ 12) || k == 15
/-- The required section types (Table 9.3). -/
def requiredSections : List Nat := [0x1, 0x2, 0xB, 0xC, 0xF]

/-- Checks of the header item. A length past the end of every section is the header's fault; a section
past the length is the section's. -/
def headerChecks (rd : Nat → Byte) (pellisMax : BitVec 32) : List LoadRefusal :=
  let n := rfield rd 6 2
  let len := rfield rd 16 8
  let e := refuseAt
  chk (rfield rd 0 4 != 0x49564841 || rfield rd 4 2 != 1 || n < 5 || n > 16 || rfield rd 8 8 == 0
        || (len ≤ 2 ^ 31 && (len < 32 + 24 * n || (directory rd).all (fun s => s.offset + s.size < len)))) (e 0x0101 0)
    ++ chk (rfield rd 28 4 != 0) (e 0x0104 0)
    ++ chk (len > 2 ^ 31) (e 0x0105 0)
    ++ chk (rfield rd 24 4 > pellisMax.toNat) (e 0x0106 0)

/-- Checks of directory entry `i`. -/
def entryChecks (len : Nat) (dir : List Section) (i : Nat) : List LoadRefusal :=
  let s := nth dir i
  let before := dir.take i
  let e := fun c => refuseAt c s.kind i
  chk (!knownSection s.kind || before.any (fun t => t.kind == s.kind) || s.offset % 64 != 0
        || s.offset < 32 + 24 * dir.length || s.offset + s.size > len
        || before.any (fun t => rangesMeet (s.offset, s.offset + s.size) (t.offset, t.offset + t.size))
        || sectionSizeBad s || (s.kind == 0xF && s.offset + s.size != len)) (e 0x0101)
    ++ chk (s.reserved != 0) (e 0x0104)

/-- SHA-384 of the image up to the signature section, with that section's directory crc taken as 0 (R283). -/
def imageDigest (rd : Nat → Byte) : BitVec 384 :=
  let dir := directory rd
  match (List.range dir.length).find? (fun i => (nth dir i).kind == 0xF) with
  | some i => Config.sha384 (zeroField (rbytes rd 0 (nth dir i).offset) (32 + 24 * i + 4) 4)
  | none => Config.sha384 []

/-- Records of a section, as byte strings. -/
def recordsOf (rd : Nat → Byte) (dir : List Section) (k size : Nat) : List Bytes :=
  match sectionOf dir k with
  | some s => (List.range (s.size / size)).map (fun i => rbytes rd (s.offset + i * size) size)
  | none => []

/-- Is any byte of a range nonzero? -/
def anyNonzero (b : Bytes) (off size : Nat) : Bool := (fieldBytes b off size).any (· != 0)

/-- Reserved fields of the records of a section that are nonzero, by record index (0x0104). -/
def reservedBad (k : Nat) (b : Bytes) : Bool :=
  match k with
  | 0x1 => anyNonzero b 2 2 || field b 7 1 != 0 || anyNonzero b 9 3 || bits (field b 12 4) 31 30 != 0
      || bits (field b 16 4) 31 30 != 0 || anyNonzero b 22 10
  | 0x2 => bits (field b 0 4) 31 28 != 0 || anyNonzero b 10 6
  | 0x3 => bits (field b 0 4) 31 28 != 0 || bits (field b 14 2) 15 1 != 0 || anyNonzero b 24 8
  | 0x4 => anyNonzero b 1 7
  | 0x5 => bits (field b 0 4) 30 20 != 0
  | 0x6 => bits (field b 2 1) 7 2 != 0 || anyNonzero b 5 3
  | 0x8 => anyNonzero b 5 3
  | 0x9 => anyNonzero b 3 1 || anyNonzero b 8 8
  | 0xA => anyNonzero b 14 2 || anyNonzero b 28 4
  | 0xB => anyNonzero b 12 4
  | 0xF => anyNonzero b 4 12
  | _ => false

/-- Record size of a section type. -/
def recordSize (k : Nat) : Nat :=
  match k with
  | 0x1 | 0x2 | 0x3 | 0xA => 32 | 0x4 => 72 | 0x5 => 4 | 0x6 | 0x9 | 0xB => 16 | 0x8 => 8 | 0xF => 112 | _ => 0

/-- Does a section type hold one record, which the response then does not number? -/
def singleRecord (k : Nat) : Bool := k == 0x1 || k == 0x4 || k == 0xF

/-- Items of one section in phase 1: its CRC, then the reserved fields of its records. -/
def sectionItems (rd : Nat → Byte) (dir : List Section) (s : Section) : List (List LoadRefusal) :=
  let body := rbytes rd s.offset s.size
  chk ((crc32c body).toNat != s.crc) (refuseAt 0x0103 s.kind)
    :: (if recordSize s.kind == 0 then [] else
        (recordsOf rd dir s.kind (recordSize s.kind)).mapIdx (fun i b =>
          chk (reservedBad s.kind b) (refuseAt 0x0104 s.kind (if singleRecord s.kind then 0xFFFFFFFF else i))))

/-- Phase 1 (Table 9.13): header, directory, signature, then the sections in directory order. `sigOk`
answers for a key index, the digest and the signature bytes. -/
def phase1 (rd : Nat → Byte) (pellisMax : BitVec 32) (sigOk : Nat → BitVec 384 → Bytes → Bool) : Option LoadRefusal :=
  match lowest (headerChecks rd pellisMax) with
  | some r => some r
  | none =>
    let dir := directory rd
    let len := rfield rd 16 8
    let missing := requiredSections.map (fun k => chk (sectionOf dir k).isNone (refuseAt 0x0101 k))
    match firstItem ((List.range dir.length).map (entryChecks len dir) ++ missing) with
    | some r => some r
    | none =>
      let sg := (sectionOf dir 0xF).getD default
      if !sigOk (rfield rd sg.offset 4) (imageDigest rd) (rbytes rd (sg.offset + 16) 96) then some (refuseAt 0x0102 0xF)
      else firstItem (dir.flatMap (sectionItems rd dir))

/-! ### Declarations (R284 to R292) -/

def parseRegion (b : Bytes) : Region :=
  { base := field b 0 4 % 2 ^ 28, size := field b 4 4, kind := field b 8 1, access := field b 9 1, lineage := field b 16 16 }

def parseRing (b : Bytes) : RingDecl :=
  { base := field b 0 4 % 2 ^ 28, slotSize := field b 4 4, slotCount := field b 8 2, producerKind := field b 10 1
    consumerKind := field b 11 1, producerIndex := field b 12 1, tileMapped := bit (field b 14 2) 0
    starveTimeout := field b 16 4, blockTimeout := field b 20 4 }

def parseSlot (b : Bytes) : SlotRec :=
  { slot := field b 0 1, kind := field b 1 1, paths := field b 2 1, hlBf16 := field b 3 1, hlFp16 := field b 4 1
    fileOffset := field b 8 4, fileLength := field b 12 4 }

def parseShadow (b : Bytes) : ShadowRec :=
  { entry := field b 0 1, log2N := field b 1 1, fmt := field b 2 1, instr := field b 4 4 }

def parseGuard (b : Bytes) : GuardRec :=
  { entry := field b 0 1, topLevel := field b 1 1, layerTag := field b 2 2, firstInstr := field b 4 4, count := field b 8 4
    promoRegion := field b 12 2, variants := [field b 16 4, field b 20 4, field b 24 4] }

def parseEntry (b : Bytes) : EntryRec := { slotOffset := field b 0 4, slotCount := field b 4 4, paramLength := field b 8 4 }

/-- The declarations of an image. -/
def parseImage (rd : Nat → Byte) : Image :=
  let dir := directory rd
  let rn := ((recordsOf rd dir 1 32)[0]?).getD []
  let sd := ((recordsOf rd dir 4 72)[0]?).getD []
  let off (k : Nat) : Nat := match sectionOf dir k with | some s => s.offset | none => 0
  let sz (k : Nat) : Nat := match sectionOf dir k with | some s => s.size | none => 0
  { imageId := rfield rd 8 8, frameMask := BitVec.ofNat 8 (field rn 0 1), partnerMask := BitVec.ofNat 8 (field rn 1 1)
    linkMask := BitVec.ofNat 24 (field rn 4 4), numericMode := field rn 8 1, flushA := BitVec.ofNat 32 (field rn 12 4)
    flushB := BitVec.ofNat 32 (field rn 16 4), paramRegion := field rn 20 2
    regions := (recordsOf rd dir 2 32).map parseRegion, rings := (recordsOf rd dir 3 32).map parseRing
    seedDeclared := BitVec.ofNat 8 (field sd 0 1)
    seeds := (List.range 8).map (fun i => BitVec.ofNat 64 (field sd (8 + 8 * i) 8))
    shapes := (recordsOf rd dir 5 4).map (fun b => (bit (field b 0 4) 31, field b 0 4 % 2 ^ 20))
    slots := (recordsOf rd dir 6 16).map parseSlot
    heirloom := (recordsOf rd dir 8 8).map (fun b => (BitVec.ofNat 32 (field b 0 4), field b 4 1))
    shadows := (recordsOf rd dir 9 16).map parseShadow, guards := (recordsOf rd dir 10 32).map parseGuard
    entries := (recordsOf rd dir 11 16).map parseEntry
    programOffset := off 12, programSize := sz 12, tableOffset := off 7, tableSize := sz 7 }

/-- The d fields of the flush words, by format 0 to 9. -/
def flushFields (a b : BitVec 32) : List Nat := (List.range 10).map (flushField { flushA := a, flushB := b, heirloom := false })

/-- Functions with a canonical Heirloom page (R248). -/
def heirloomFunctions : List Nat := [1, 3, 5, 6, 8, 9, 0xA, 0xB, 0xD]

/-- Declared ranges met so far, in directory and record order. -/
structure Declared where
  ranges : List (Nat × Nat)
  errs : List (List LoadRefusal)
deriving Repr, Inhabited

/-- Placement of a region or a ring: frame set and heirloom region (0x0121), overlap (0x0122). -/
def placeChecks (im : Image) (seen : List (Nat × Nat)) (base size : Nat) (e : BitVec 16 → LoadRefusal) : List LoadRefusal :=
  chk (!bit im.frameMask.toNat (base / 2 ^ 25) || base % 2 ^ 25 + size > 0x1F00000) (e 0x0121)
    ++ chk (seen.any (rangesMeet (base, base + size))) (e 0x0122)

/-- Checks of region record `i` (R286, R287, R101, R73). -/
def regionChecks (im : Image) (seen : List (Nat × Nat)) (i : Nat) : List LoadRefusal :=
  let r := nth im.regions i
  let e := fun c => refuseAt c 2 i
  let upto := im.regions.take (i + 1)
  chk (r.kind > 3 || r.access > 1 || r.size % 64 != 0 || r.size < 64 || r.size > 0x1F00000
        || ((r.lineage != 0) != (r.kind == 3))
        || (r.kind == 1 && (r.access != 1 || r.size < 512 || r.size > 65536 || (upto.filter (fun x => x.kind == 1)).length > 1)))
      (e 0x0120)
    ++ placeChecks im seen r.base r.size e
    ++ chk (r.kind == 3 && ((upto.filter (fun x => x.kind == 3)).length > 128
        || (upto.filter (fun x => x.kind == 3 && x.base / 2 ^ 25 == r.base / 2 ^ 25)).length > 16)) (e 0x0126)
    ++ chk (r.base % 64 != 0) (e 0x0129)

/-- Checks of ring record `i` (R89, R90, R73). -/
def ringChecks (im : Image) (consumerIndex : Nat) (seen : List (Nat × Nat)) (i : Nat) : List LoadRefusal :=
  let g := nth im.rings i
  let e := fun c => refuseAt c 3 i
  let mine := (im.rings.take (i + 1)).filter (fun x => x.base / 2 ^ 25 == g.base / 2 ^ 25)
  let limit := if g.producerKind == 2 then 7 else if g.producerKind == 3 then 23 else 0
  placeChecks im seen g.base (g.slotSize * g.slotCount) e
    ++ chk (g.slotSize % 64 != 0 || g.slotSize < 64 || g.slotSize > 1048576 || g.slotCount < 2 || g.slotCount > 4096
        || g.producerKind > 3 || g.consumerKind > 1 || g.producerIndex > limit || consumerIndex != 0
        || g.starveTimeout > 10000000 || g.blockTimeout > 10000000 || (g.producerKind ≥ 2 && g.blockTimeout != 0)
        || (g.producerKind == 2 && !bit im.partnerMask.toNat g.producerIndex)
        || (g.producerKind == 3 && !bit im.linkMask.toNat g.producerIndex)) (e 0x0123)
    ++ chk (mine.length > 64 || (mine.map RingDecl.slotCount).foldl (· + ·) 0 > 8192) (e 0x0124)
    ++ chk (g.base % 128 != 0) (e 0x0129)

/-- Checks of slot record `i` (R234, R290, R291). -/
def slotChecks (im : Image) (hasTables : Bool) (i : Nat) : List LoadRefusal :=
  let s := nth im.slots i
  let hl (v : Nat) : Bool := if im.numericMode == 0 then v != 0xFF else v != 0xFF && v > 7
  chk (s.slot > 15 || s.kind > 1 || (im.slots.take i).any (fun t => t.slot == s.slot)
      || (s.kind == 0 && (s.fileOffset % 64 != 0 || !hasTables || s.fileOffset + s.fileLength > im.tableSize))
      || (s.kind == 1 && (s.fileOffset != 0 || s.fileLength != 0)) || hl s.hlBf16 || hl s.hlFp16) (refuseAt 0x0174 6 i)

/-- Items of one section in phase 2, with the ranges declared before it. -/
def phase2Section (rd : Nat → Byte) (im : Image) (dir : List Section) (acc : Declared) (s : Section) : Declared :=
  let add (items : List (List LoadRefusal)) : Declared := { acc with errs := acc.errs ++ items }
  let step (n : Nat) (range : Nat → Nat × Nat) (f : List (Nat × Nat) → Nat → List LoadRefusal) : Declared :=
    (List.range n).foldl (fun a i => { ranges := a.ranges ++ [range i], errs := a.errs ++ [f a.ranges i] }) acc
  match s.kind with
  | 0x1 =>
    add [chk (im.frameMask == 0 || im.numericMode > 1
      || ((flushFields im.flushA im.flushB).zipIdx.any (fun d => d.1 > fracBits d.2))
      || (match im.regions[im.paramRegion]? with | some r => r.kind != 1 | none => true)) (refuseAt 0x0110 1)]
  | 0x2 =>
    let n := im.regions.length
    if n == 0 || n > 1024 then add [[refuseAt 0x0120 2]]
    else step n (fun i => ((nth im.regions i).base, (nth im.regions i).base + (nth im.regions i).size)) (regionChecks im)
  | 0x3 =>
    let recs := recordsOf rd dir 3 32
    step im.rings.length
      (fun i => ((nth im.rings i).base, (nth im.rings i).base + (nth im.rings i).slotSize * (nth im.rings i).slotCount))
      (fun seen i => ringChecks im (field (nth recs i) 13 1) seen i)
  | 0x4 => add [chk ((List.range 8).any (fun i => !bit im.seedDeclared.toNat i && (nth im.seeds i) != 0)) (refuseAt 0x0130 4)]
  | 0x5 => add (im.shapes.mapIdx (fun i p => chk (!p.1 && p.2 != 0) (refuseAt 0x0132 5 i)))
  | 0x6 => add ((List.range im.slots.length).map (slotChecks im (sectionOf dir 7).isSome))
  | 0x8 =>
    add (chk (im.numericMode == 0) (refuseAt 0x0176 8)
      :: im.heirloom.mapIdx (fun i p =>
          chk (if p.1 == 0 then p.2 != 0 else !(heirloomFunctions.contains p.1.toNat) || (p.2 != 3 && p.2 != 4)) (refuseAt 0x0176 8 i)))
  | 0xB =>
    let n := im.entries.length
    if n == 0 || n > 16 then add [[refuseAt 0x0133 0xB]]
    else
      let psize := match im.regions[im.paramRegion]? with | some r => r.size | none => 512
      add (im.entries.mapIdx (fun i e =>
        chk (e.slotOffset % 256 != 0 || e.slotCount == 0 || e.slotOffset + 256 * e.slotCount > im.programSize
          || e.paramLength + 512 > psize) (refuseAt 0x0133 0xB i)))
  | _ => acc

/-- Phase 2: declarations, sections in directory order. -/
def phase2 (rd : Nat → Byte) (im : Image) : Option LoadRefusal :=
  let dir := directory rd
  firstItem (dir.foldl (phase2Section rd im dir) { ranges := [], errs := [] }).errs

/-- The bytes of an embedded table file. -/
def tableFile (rd : Nat → Byte) (im : Image) (s : SlotRec) : Bytes := rbytes rd (im.tableOffset + s.fileOffset) s.fileLength

/-- Phase 3: embedded table files (R224), in record order. -/
def phase3 (rd : Nat → Byte) (im : Image) : Option LoadRefusal :=
  firstItem (im.slots.mapIdx (fun i s =>
    if s.kind != 0 then []
    else match tableRefusal (tableFile rd im s) with
      | some c => [refuseAt c 7 i]
      | none => []))

/-! ### Instructions (Tables 4.1, 4.4, 4.9) -/

/-- A tensor descriptor of 40 bytes with its role. -/
def parseDesc (role : Nat) (b : Bytes) : Desc :=
  let w := field b 0 4
  let sz := field b 4 14
  let bs := field b 38 1
  { role := role, fmt := w / 2 ^ 28, base := w % 2 ^ 28, sizes := (List.range 5).map (fun k => bits sz (20 * k + 19) (20 * k))
    dyn := (List.range 5).map (fun k => bit sz (100 + k)), dynBase := bits sz 111 105
    strides := (List.range 5).map (fun k => toSigned 32 (field b (18 + 4 * k) 4))
    scaled := bit bs 7, separate := bit bs 6, scaleDesc := bits bs 5 3, bscaleReserved := bits bs 2 0
    conv := BitVec.ofNat 8 (field b 39 1) }

/-- The eight stages of a chain field. -/
def parseStages (b : Bytes) : List Stage :=
  (List.range 8).map (fun k => { b0 := nth b (3 * k), b1 := nth b (3 * k + 1), b2 := nth b (3 * k + 2) })

/-- A macro-instruction (Table 4.1). -/
def parseMacro (b : Bytes) : PInstr :=
  let roles := field b 8 2
  { micro := false, opcode := field b 0 1, chainLen := field b 1 1, flags := BitVec.ofNat 16 (field b 2 2)
    layerTag := field b 4 2, seedIndex := field b 6 1, shapeSrc := field b 7 1, roles := BitVec.ofNat 16 roles
    reduceMask := field b 10 1, n3 := BitVec.ofNat 32 (field b 12 4), n4 := BitVec.ofNat 32 (field b 16 4)
    imm0 := BitVec.ofNat 32 (field b 20 4), imm1 := BitVec.ofNat 32 (field b 24 4), count := 0, dynSlot := 0
    descs := (List.range 5).map (fun j => parseDesc (bits roles (3 * j + 2) (3 * j)) (fieldBytes b (32 + 40 * j) 40))
    stages := parseStages (fieldBytes b 232 24), raw := b }

/-- Source codes that a stage names (Table 5.4). -/
def stageSources (s : Stage) : List Nat :=
  let k := stageKind s.op
  if s.op == 0x20 || s.op == 0x21 then [s.hi1] else if k == 1 then []
  else if isCvt s.op then [s.hi1]
  else if k == 2 || k == 4 || k == 5 then [s.hi1, s.lo1, s.hi2]
  else if k == 6 then [s.hi1, s.hi2] else [s.hi1]

/-- A micro vector op (Table 4.9) with its operands as descriptors of one dimension. -/
def parseMicro (b : Bytes) : PInstr :=
  let cnt := field b 2 2
  let n := if bit cnt 14 then 4096 else bits cnt 12 0
  let st := parseStages (fieldBytes b 32 24)
  let len := field b 1 1
  let conv := BitVec.ofNat 8 (field b 20 1)
  let readsOut := (st.take (min 8 len)).any (fun s => (stageSources s).contains 9)
  let mk (role w : Nat) (cv : BitVec 8) : Desc :=
    { role := role, fmt := w / 2 ^ 28, base := w % 2 ^ 28, sizes := [n, 1, 1, 1, 1], dyn := [bit cnt 14, false, false, false, false]
      dynBase := 0, strides := [1, 0, 0, 0, 0], scaled := ctlScaleOnStore cv, separate := false, scaleDesc := 0
      bscaleReserved := 0, conv := cv }
  let inp (off : Nat) : Desc := let w := field b off 4; mk (if w == 0 then 0 else 1) w 0
  { micro := true, opcode := field b 0 1, chainLen := len, flags := 0, layerTag := field b 4 2, seedIndex := field b 6 1
    shapeSrc := 0, roles := 0, reduceMask := 0, n3 := 1, n4 := 1, imm0 := BitVec.ofNat 32 (field b 24 4)
    imm1 := BitVec.ofNat 32 (field b 28 4), count := BitVec.ofNat 16 cnt, dynSlot := BitVec.ofNat 8 (field b 7 1)
    descs := [mk (if readsOut then 3 else 2) (field b 8 4) conv, inp 12, inp 16], stages := st, raw := b }

/-- The instructions of one 256-byte slot (R111). -/
def parseSlotInstrs (b : Bytes) : List PInstr :=
  if bit (field b 2 2) 15 then (List.range 4).map (fun i => parseMicro (fieldBytes b (64 * i) 64)) else [parseMacro b]

/-- Does a slot mix the two kinds (R111)? -/
def slotMixed (b : Bytes) : Bool :=
  bit (field b 2 2) 15 && (List.range 4).any (fun i => !bit (field b (64 * i + 2) 2) 15)

/-- The slots of an entry point's program. -/
def entrySlots (rd : Nat → Byte) (im : Image) (e : EntryRec) : List Bytes :=
  (List.range e.slotCount).map (fun i => rbytes rd (im.programOffset + e.slotOffset + 256 * i) 256)

/-- The program of an entry point: instruction k is its k-th (R112). -/
def programOf (rd : Nat → Byte) (im : Image) (e : Nat) : List PInstr :=
  (entrySlots rd im (nth im.entries e)).flatMap parseSlotInstrs

/-- The variant of an instruction of a guarded layer at a level above 0 (R292). -/
def variantOf (rd : Nat → Byte) (im : Image) (g : GuardRec) (level k : Nat) : PInstr :=
  parseMacro (rbytes rd (im.programOffset + nth g.variants (level - 1) + 256 * (k - g.firstInstr)) 256)

/-- Is an instruction flagged guarded? -/
def isGuarded (op : PInstr) : Bool := bit op.flags.toNat 1
def hasOverlap (op : PInstr) : Bool := bit op.flags.toNat 0
def isShadowed (op : PInstr) : Bool := bit op.flags.toNat 2
def isTiled (op : PInstr) : Bool := op.opcode ≤ 0x6F
def isMove (op : PInstr) : Bool := 0x70 ≤ op.opcode && op.opcode ≤ 0x75
def isCollective (op : PInstr) : Bool := 0x80 ≤ op.opcode && op.opcode ≤ 0x8F
def isFence (op : PInstr) : Bool := op.opcode == 0x98

/-- The ring of an operand (R288): the ring whose base is the descriptor's. -/
def ringOf (im : Image) (d : Desc) : Option Nat :=
  if d.role == 0 then none else indexWhere im.rings (fun g => g.base == d.base)

/-- Does the operand of a move lie in a stack? -/
def stackDesc (op : PInstr) (j : Nat) : Bool :=
  j == 1 && (op.opcode == 0x71 || op.opcode == 0x72 || op.opcode == 0x75)

end Sys2Proof.Machine
end

