-- ==== Sys2Proof/Machine/Reach.lean ====
section
/-!
DEFINITION. Which bytes an operand reaches (R121, R122): exact tests for two index tuples that address
the same element and for two operands that share a byte, the reach of a slice, and the size rule R119.
-/

namespace Sys2Proof.Machine

/-! ### Sums of index terms -/

/-- A term of an address: an index below `n` times a coefficient. -/
structure Term where
  n : Nat
  c : Int
deriving DecidableEq, Repr, Inhabited

/-- Lowest and highest value that a list of terms with nonzero counts can sum to. -/
def termSpan (ts : List Term) : Int × Int :=
  ts.foldl (fun acc t => (acc.1 + min 0 (((t.n : Int) - 1) * t.c), acc.2 + max 0 (((t.n : Int) - 1) * t.c))) (0, 0)

/-- Can the terms sum to `target`? Terms with large coefficients first keep the search short. -/
def termHit : List Term → Int → Bool
  | [], target => target == 0
  | t :: ts, target =>
    let (lo, hi) := termSpan ts
    if t.n == 0 then false
    else if t.c == 0 then decide (lo ≤ target ∧ target ≤ hi) && termHit ts target
    else
      -- indices x with lo ≤ target − c x ≤ hi
      let (a, b) := if t.c > 0 then (target - hi, target - lo) else (lo - target, hi - target)
      let m := t.c.natAbs
      let first := (max 0 (-((-a) / (m : Int)))).toNat
      let last := min ((t.n : Int) - 1) (b / (m : Int))
      (List.range (last + 1 - first).toNat).any (fun i => termHit ts (target - t.c * ((first + i : Nat) : Int)))

/-- Terms by falling coefficient. -/
def sortTerms (ts : List Term) : List Term := ts.mergeSort (fun a b => decide (b.c.natAbs ≤ a.c.natAbs))

/-- The index terms of a descriptor in elements. -/
def elemTerms (d : Desc) (sizes : List Nat) : List Term :=
  (List.range 5).map (fun k => { n := nth sizes k, c := if nth sizes k == 1 then 0 else nth d.strides k })

/-- Do two distinct index tuples within the sizes address one element (R121)? The tuples differ in some
highest dimension k, by at least 1 there and by anything below it. -/
def addressesTwice (d : Desc) (sizes : List Nat) : Bool :=
  let ts := (elemTerms d sizes).filter (fun t => t.n != 1)
  if (List.range 5).any (fun k => nth sizes k == 0) then false
  else ts.zipIdx.any (fun tk =>
    let t := tk.1
    let others := ts.take tk.2
    let terms := others.map (fun o => ({ n := 2 * o.n - 1, c := o.c } : Term))
    let shift := others.foldl (fun acc o => acc + ((o.n : Int) - 1) * o.c) 0
    termHit (sortTerms ({ n := t.n - 1, c := t.c } :: terms)) (shift - t.c))

/-- The index terms of a descriptor in bytes: groups of a grouped format, and the bytes of one element or
group. -/
def byteTerms (d : Desc) (sizes : List Nat) : List Term :=
  let g := groupSize d.fmt
  let gb := groupBytes d.fmt
  (elemTerms d sizes).mapIdx (fun k t =>
    if g == 1 then { t with c := t.c * gb }
    else if k == 0 then { n := ceilDiv t.n g, c := gb }
    else { t with c := t.c / g * gb }) ++ [{ n := gb, c := 1 }]

/-- Do two operands with comb bases share a byte? -/
def shareByte (a b : Desc) (sa sb : List Nat) : Bool :=
  if (sa ++ sb).any (· == 0) then false
  else termHit (sortTerms (byteTerms a sa ++ (byteTerms b sb).map (fun t => { t with c := -t.c }))) ((b.base : Int) - a.base)

/-- Lowest and highest byte of a descriptor at one index pair of dimensions 3 and 4, from its base. -/
def sliceSpan (d : Desc) (sizes : List Nat) (i3 i4 : Nat) : Int × Int :=
  let (lo, hi) := termSpan ((elemTerms d sizes).take 3)
  let off := (if nth sizes 3 == 1 then 0 else (i3 : Int) * nth d.strides 3)
    + (if nth sizes 4 == 1 then 0 else (i4 : Int) * nth d.strides 4)
  let bl := elemBytes d.fmt d.base (lo + off)
  let bh := elemBytes d.fmt d.base (hi + off)
  (bl.foldl min (bl.headD 0), bh.foldl max (bh.headD 0))

/-- Every slice of a descriptor that holds an element. -/
def slices (d : Desc) (sizes : List Nat) : List (Int × Int) :=
  if (sizes.take 5).any (· == 0) then []
  else (List.range (nth sizes 3)).flatMap (fun a => (List.range (nth sizes 4)).map (fun b => sliceSpan d sizes a b))

/-- Region records that hold a range of bytes. -/
def regionsHolding (im : Image) (r : Int × Int) : List Nat :=
  (List.range im.regions.length).filter (fun i =>
    let g := nth im.regions i
    decide ((g.base : Int) ≤ r.1) && decide (r.2 < (g.base : Int) + g.size))

/-- Does a range of bytes meet a ring's slots? -/
def meetsRing (im : Image) (r : Int × Int) : Bool :=
  im.rings.any (fun g => decide (r.1 < (g.base : Int) + (g.slotSize * g.slotCount : Nat)) && decide ((g.base : Int) ≤ r.2))

/-- Region records that a plain operand reaches (R122). -/
def reachedRegions (im : Image) (d : Desc) (sizes : List Nat) : List Nat :=
  ((slices d sizes).flatMap (regionsHolding im)).eraseDups

/-- Elements of a tile along dimension k of a descriptor: one per block of dimension 0 for scales (R61, R119). -/
def tileDim (d : Desc) (t : Tiling) (k : Nat) : Nat := if d.role == 4 && k == 0 then ceilDiv (nth t.shape 0) 32 else nth t.shape k

/-- Bytes of one tile of a ring operand within its slot: its elements, and its tile-packed scales (R65). -/
def tileBytes (op : PInstr) (d : Desc) (sizes : List Nat) (t : Tiling) : Nat :=
  let ts := (List.range 3).map (fun k =>
    ({ n := if nth sizes k == 1 then 1 else min (tileDim d t k) (nth sizes k), c := nth d.strides k } : Term))
  let (lo, hi) := termSpan ts
  let first := (elemBytes d.fmt 0 0).headD 0
  let top := (elemBytes d.fmt 0 hi).foldl max first
  let low := (elemBytes d.fmt 0 lo).foldl min first
  if low < 0 then 2 ^ 40
  else if d.scaled && !d.separate then
    packedOffset op d sizes t + ceilDiv ((t.shape).foldl (· * ·) 1) 32
  else top.toNat + 1

/-! ### Extents and sizes (R119, R123, R124) -/

/-- Sizes of a descriptor with every dynamic size at its bound. -/
def boundSizes (op : PInstr) : List (List Nat) := op.descs.map Desc.sizes

/-- The iteration extents for given descriptor sizes, n3 and n4. -/
def extentsOf (op : PInstr) (sizes : List (List Nat)) (n3 n4 : Nat) : List Nat :=
  let s := nth sizes (if op.micro then 0 else op.shapeSrc)
  [nth s 0, nth s 1, nth s 2, n3, n4]

/-- Value or bound of n3 or n4. -/
def outerBound (w : BitVec 32) : Nat := w.toNat % 2 ^ 20

/-- Extents with every dynamic size at its bound. -/
def boundExtents (op : PInstr) : List Nat :=
  extentsOf op (boundSizes op) (if op.micro then 1 else outerBound op.n3) (if op.micro then 1 else outerBound op.n4)

/-- Has an opcode two outputs that one written descriptor may hold packed (R185)? -/
def twoOutputs (o : Nat) : Bool := o == 0x23 || o == 0x27 || o == 0x28 || o == 0x2C || o == 0x30

/-- Descriptors read only through GATHER stages. -/
def gatherOnly (op : PInstr) (j : Nat) : Bool :=
  let named := (effStages op).flatMap (fun s => (stageSources s).map (fun c => (c, s.op)))
  named.any (fun p => p.1 == 9 + j) && named.all (fun p => p.1 != 9 + j || p.2 == 0x21)

/-- Is dimension k of descriptor j exempt from R119 (R159, R173, R185, R203, R254, R366)? -/
def sizeExempt (op : PInstr) (j k : Nat) (size : Nat) : Bool :=
  let o := op.opcode
  (k == 0 && gatherOnly op j)
    || (o == 0x50 && j == 0 && k == 1)
    || (k == 0 && twoOutputs o && bit op.reduceMask 0 && size == 2 && outputDescs op == [j])
    || (o == 0x2E && j == 1 && k == 0 && size == 2)
    || (0x60 ≤ o && o ≤ 0x62 && (j == 2 || j == 3) && k == 2)

/-- Does descriptor j break R119 for the given sizes and extents? Blocks that a move transposes have their
first two sizes exchanged (R366); a table has sizes 2 to 4 equal to 1 (R173). -/
def sizeBad (op : PInstr) (sizes : List (List Nat)) (ext : List Nat) (j : Nat) : Bool :=
  let d := nth op.descs j
  let s := nth sizes j
  let o := op.opcode
  if d.role == 0 then false
  else if d.role == 4 then
    match (List.range op.descs.length).find? (fun i => (nth op.descs i).role != 0 && (nth op.descs i).separate && (nth op.descs i).scaleDesc == j) with
    | none => j == op.shapeSrc
    | some i =>
      let t := nth sizes i
      j == op.shapeSrc || !(nth s 0 == ceilDiv (nth t 0) 32 && (List.range 4).all (fun k => nth s (k + 1) == nth t (k + 1)))
  else
    let trans := (o == 0x74 || o == 0x75) && j == 1
    (List.range 5).any (fun k =>
      let e := if trans && k == 0 then nth ext 1 else if trans && k == 1 then nth ext 0 else nth ext k
      let n := nth s k
      if k < 3 && j == op.shapeSrc then false
      else if sizeExempt op j k n then false
      else !(n == e || (n == 1 && (d.role == 1 || e ≤ 1 || reduced op k))))
      || (o == 0x50 && ((j == 0 && (nth s 2 != 1 || nth s 3 != 1 || nth s 4 != 1)) || (j == 1 && nth s 0 != 1)))

/-- Does a descriptor's dimension-0 size break the group rule (R46)? -/
def groupBad (d : Desc) (size0 : Nat) : Bool := groupSize d.fmt != 1 && size0 % groupSize d.fmt != 0

/-- Descriptors that an instruction writes: roles 2 and 3 and the scales that serve them. -/
def writers (op : PInstr) : List Nat :=
  let w := writtenDescs op
  w ++ (w.filter (fun j => (nth op.descs j).scaled && (nth op.descs j).separate)).map (fun j => (nth op.descs j).scaleDesc)

/-- Descriptors that an instruction reads. -/
def readers (op : PInstr) : List Nat :=
  (usedDescs op).filter (fun j => !(writers op).contains j || (nth op.descs j).role == 3)

/-- Elements of a move unit (R367). -/
def moveChunk (fmt : Nat) : Nat := 16384 / groupBytes fmt * groupSize fmt

end Sys2Proof.Machine
end

