-- ==== Sys2Proof/Machine/ImageChecks.lean ====
section
/-!
DEFINITION. The loader's checks of instructions and programs (phases 4 and 5 of Table 9.13): Tables
4.10, 5.15, 6.10, 7.10 and 8.10, and those of moves and collectives.
-/

namespace Sys2Proof.Machine

/-- A broken check: code, descriptor, stage; 0xF where none is concerned. -/
structure Finding where
  code : Nat
  desc : Nat
  stage : Nat
deriving DecidableEq, Repr, Inhabited

/-- A finding when `bad` holds. -/
def finding (bad : Bool) (code : Nat) (desc : Nat := 0xF) (stage : Nat := 0xF) : List Finding :=
  if bad then [{ code := code, desc := desc, stage := stage }] else []

/-- What the checks of one instruction look at. -/
structure CheckCtx where
  im : Image
  rd : Nat → Byte
  prog : List PInstr
  instr : Nat
  op : PInstr
  /-- The instruction is a variant of a guarded layer at a level above 0. -/
  variant : Bool
  /-- End of the user area of each stack (Table 11.5). -/
  userEnd : Nat → Nat

/-- The opcodes that have a meaning in each class (Tables 5.10, 6.5, 8.1, 11.7 and 12.9, R239). -/
def assignedOpcodes : List Nat :=
  [0x00, 0x40, 0x50, 0x20, 0x21, 0x22, 0x23, 0x24, 0x25, 0x26, 0x27, 0x28, 0x2C, 0x2D, 0x2E, 0x30, 0x31, 0x32, 0x33, 0x34,
   0x35, 0x60, 0x61, 0x62, 0x68, 0x70, 0x71, 0x72, 0x73, 0x74, 0x75, 0x80, 0x81, 0x82, 0x98]

/-- Reserved values of the conversion control byte (Table 2.3). -/
def convBad (c : BitVec 8) : Bool := bits c.toNat 7 6 != 0 || bits c.toNat 3 2 == 3 || bits c.toNat 1 0 == 3

/-- Stages with their positions. -/
def stagesOf (op : PInstr) : List (Stage × Nat) := (op.stages.take (min 8 op.chainLen)).zipIdx
/-- Is a stage a LOAD or a CVT, whose byte 2 is a conversion control byte? -/
def convStage (s : Stage) : Bool := s.op == 0x20 || isCvt s.op

/-! ### Header and descriptors -/

/-- Reserved fields (R111, R116, R156; Tables 4.2, 4.5, 4.9, 5.4). -/
def reservedFindings (op : PInstr) : List Finding :=
  let b := op.raw
  let head :=
    if op.micro then
      bit op.count.toNat 13 || bit op.dynSlot.toNat 7 || op.seedIndex ≥ 16 || anyNonzero b 21 3 || anyNonzero b 56 8
    else
      bits op.flags.toNat 15 4 != 0 || op.seedIndex ≥ 16 || op.shapeSrc ≥ 8 || bit op.roles.toNat 15 || op.reduceMask ≥ 8
        || anyNonzero b 11 1 || bits op.n3.toNat 31 28 != 0 || bits op.n4.toNat 31 28 != 0 || anyNonzero b 28 4
  finding head 0x0140
    ++ (List.range op.descs.length).flatMap (fun j => finding ((nth op.descs j).bscaleReserved != 0) 0x0140 j)
    ++ (stagesOf op).flatMap (fun sk =>
      let s := sk.1
      let o := s.op
      let bad :=
        if o == 0x21 then bits s.lo2 3 1 != 0
        else if o == 0x22 then s.hi1 != 0 || s.hi2 != 0 || s.lo2 > 4
        else if o == 0x23 || o == 0x24 then s.hi1 % 8 != 0 || s.lo2 != 0 || (!bit s.hi1 3 && s.hi2 != 0)
        else if stageKind o == 3 then s.lo1 != 0 || s.hi2 != 0
        else if o == 0xE0 then s.lo2 != 0
        else false
      finding bad 0x0140 0xF sk.2)

/-- Opcode and chain length (R116, R143, R253, Table 4.3). -/
def opcodeFindings (op : PInstr) : List Finding :=
  let o := op.opcode
  let bad := if op.micro then o != 0x00 && o != 0x40 else !assignedOpcodes.contains o
  let lo := if o ≤ 0x1F then 1 else 0
  let hi := if o ≤ 0x5F then 8 else 0
  finding bad 0x0141
    ++ finding (op.chainLen < lo || op.chainLen > hi || (op.stages.drop op.chainLen).any (fun s => s.b0 != 0 || s.b1 != 0 || s.b2 != 0)) 0x0142

/-- Has an instruction no operand to iterate over (R239, Table 12.9)? -/
def noOperands (op : PInstr) : Bool := !op.micro && (op.opcode == 0x98 || op.opcode == 0x82)

/-- Consistency of the descriptors (R120, R171). -/
def consistencyFindings (im : Image) (op : PInstr) : List Finding :=
  let o := op.opcode
  let d := nth op.descs
  let js := List.range op.descs.length
  let scaleUsers := fun j => js.filter (fun i => (d i).role != 0 && (d i).separate && (d i).scaleDesc == j)
  let canScale := fun f => (5 ≤ f && f ≤ 9) || f == 13
  let each := js.flatMap (fun j =>
    let x := d j
    let written := x.role == 2 || x.role == 3
    finding (x.role > 4
      || (!op.micro && x.role == 0 && anyNonzero (fieldBytes op.raw (32 + 40 * j) 40) 0 40)
      || ((x.role == 1 || x.role == 4) && x.conv != 0)
      || (x.role != 0 && x.scaled && !canScale x.fmt)
      || (written && ctlScaleOnStore x.conv != x.scaled)
      || (x.role != 0 && x.separate && (!((d x.scaleDesc).role == 4 && (d x.scaleDesc).fmt == 10) || x.scaleDesc ≥ 5))
      || (x.role == 4 && (scaleUsers j).length != 1)
      || (!op.micro && written && x.scaled && !x.separate && (ringOf im x).isNone)) 0x0143 j)
  let count := fun r => (roleDescs op r).length
  each
    ++ finding (!op.micro && !noOperands op && (d op.shapeSrc).role == 0) 0x0143 (min op.shapeSrc 15)
    ++ finding (count 3 > (if o == 0x32 then 2 else 1) || (o == 0x32 && count 3 != 2)) 0x0143 ((roleDescs op 3).headD 0xF)
    ++ finding (op.reduceMask != 0 && !isReduceOp o) 0x0143
    ++ finding (!op.micro && o == 0x40 && !(count 1 == 1 && (writtenDescs op).length == 1)) 0x0143
    ++ finding (!op.micro && o == 0x50 && !((d 0).role == 1 && (d 1).role == 1 && (d 1).fmt == 11 && (d 2).role == 2
        && op.shapeSrc == 2 && ((d 3).role == 0 || (d 3).role == 4) && ((d 4).role == 0 || (d 4).role == 4))) 0x0143

/-- Entries of the shape record that an instruction names, each with its descriptor (0xF: none). -/
def shapeEntries (op : PInstr) : List (Nat × Nat) :=
  if op.micro then (if bit op.count.toNat 14 then [(op.dynSlot.toNat % 128, 0xF)] else [])
  else
    op.descs.zipIdx.flatMap (fun p => if p.1.role == 0 then [] else
        ((List.range 5).filter (fun k => (p.1.dyn[k]?).getD false)).map (fun k => (p.1.dynBase + k, p.2)))
      ++ (if bit op.n3.toNat 20 then [(bits op.n3.toNat 27 21, 0xF)] else [])
      ++ (if bit op.n4.toNat 20 then [(bits op.n4.toNat 27 21, 0xF)] else [])

/-- Does an instruction draw from the generator (R118)? -/
def draws (op : PInstr) : Bool :=
  let srnd := fun (c : BitVec 8) => bits c.toNat 3 2 == 2
  (writtenDescs op).any (fun j => srnd (nth op.descs j).conv)
    || (stagesOf op).any (fun s => (convStage s.1 && srnd s.1.b2) || s.1.op == 0x23 || s.1.op == 0x24)
    || bit op.flags.toNat 3 || bit op.flags.toNat 2 || (!op.micro && op.opcode == 0x81 && bits op.imm0.toNat 9 8 == 2)

/-- Legal element count of a micro op (R144). -/
def microCountBad (op : PInstr) (n : Nat) : Bool :=
  let w40 := (usedDescs op).any (fun j => (nth op.descs j).fmt == 1) || (effStages op).any (fun s => s.wf == some 1)
  n != 0 && (n > (if isWide op then 2048 else 4096) || (w40 && n % 8 != 0))

/-- Sizes, counts, seeds, kept positions and shape entries (R73, R118, R119, R123, R127, R134, R144, R46, R47).
DESIGN CHOICE (notes/assumptions/89.md): the kept positions per tile of an instruction with dynamic sizes are those at the bounds;
R134 does not say which sizes the loader takes. -/
def sizeFindings (c : CheckCtx) : List Finding :=
  let op := c.op
  let sizes := boundSizes op
  let ext := boundExtents op
  let js := usedDescs op
  let es := shapeEntries op
  js.flatMap (fun j =>
    let d := nth op.descs j
    let stack := !op.micro && stackDesc op j
    finding ((d.role == 2 || d.role == 3) && convBad d.conv) 0x0114 j
      ++ finding (!stack && d.base % 64 != 0) 0x0129 j
      ++ finding (!op.micro && groupSize d.fmt != 1 && (nth d.strides 0 != 1 || (!(d.dyn[0]?).getD false && groupBad d (nth d.sizes 0))
            || (d.strides.drop 1).any (fun s => s % groupSize d.fmt != 0))) 0x0128 j
      ++ finding (!op.micro && sizeBad op sizes ext j) 0x0144 j)
    ++ (stagesOf op).flatMap (fun s => finding (convStage s.1 && convBad s.1.b2) 0x0114 0xF s.2)
    ++ finding (ext.foldl (· * ·) 1 > 2 ^ 40) 0x0145
    ++ finding (op.micro && !bit op.count.toNat 14 && microCountBad op (bits op.count.toNat 12 0)) 0x0149
    ++ finding (!op.micro && isTiled op && bit op.flags.toNat 3 && keptCount op (tilingOf op ext) > 256) 0x014D
    ++ finding (draws op && op.seedIndex < 8 && !bit c.im.seedDeclared.toNat op.seedIndex) 0x014A
    ++ es.flatMap (fun e => finding (e.1 > 127) 0x014B e.2
      ++ finding (match c.im.shapes[e.1]? with | some p => !p.1 | none => e.1 ≤ 127) 0x0131 e.2)

/-! ### Where operands lie -/

/-- Is an instruction executed by the foragers? -/
def foragerOp (op : PInstr) : Bool := !op.micro && (isMove op || op.opcode == 0x80)

/-- Does a ring operand use its ring in a role that the declaration does not give (R92)? The moves and
collectives whose ring has a code of its own are left to it. -/
def ringRoleBad (op : PInstr) (g : RingDecl) (j : Nat) : Bool :=
  let r := (nth op.descs j).role
  let reads := r == 1 || r == 3 || (r == 4 && (readers op).contains j)
  let writes := (writers op).contains j
  if !op.micro && (op.opcode == 0x73 || op.opcode == 0x81) && j == 0 then false
  else if foragerOp op then (reads && g.consumerKind != 1) || (writes && g.producerKind != 1)
  else (reads && g.consumerKind != 0) || (writes && g.producerKind != 0)

/-- Bytes of a ring operand that one unit puts into or takes from a slot. -/
def slotBytes (op : PInstr) (j : Nat) : Nat :=
  let d := nth op.descs j
  if !op.micro && (op.opcode == 0x70 || op.opcode == 0x71 || op.opcode == 0x72) then
    ceilDiv (min (moveChunk d.fmt) (((boundSizes op).getD j []).foldl (· * ·) 1)) (groupSize d.fmt) * groupBytes d.fmt
  else if !op.micro && (op.opcode == 0x73 || op.opcode == 0x80 || op.opcode == 0x81) then 0
  else tileBytes op d (nth (boundSizes op) j) (tilingOf op (boundExtents op))

/-- Reach, rings, regions and aliasing (R91, R92, R121, R122, R288; 0x0125, 0x0127, 0x012A, 0x0134, 0x0146,
0x0147). -/
def placeFindings (c : CheckCtx) : List Finding :=
  let op := c.op
  let im := c.im
  let sizes := boundSizes op
  let js := (usedDescs op).filter (fun j => op.micro || !stackDesc op j)
  let ws := writers op
  let plain := js.filter (fun j => (ringOf im (nth op.descs j)).isNone)
  js.flatMap (fun j =>
    let d := nth op.descs j
    match ringOf im d with
    | some g =>
      finding (ringRoleBad op (nth im.rings g) j) 0x0125 j ++ finding (slotBytes op j > (nth im.rings g).slotSize) 0x0146 j
    | none =>
      let ss := slices d (nth sizes j)
      let packed : Int := if op.micro && d.scaled && !d.separate then
          tileBytes op d (nth sizes j) (tilingOf op (boundExtents op)) else 0
      let ss := ss.map (fun s => (s.1, max s.2 ((d.base : Int) + packed - 1)))
      let rs := (ss.flatMap (regionsHolding im)).eraseDups
      let kinds := rs.map (fun r => (nth im.regions r).kind)
      finding (ss.any (meetsRing im)) 0x0125 j
        ++ finding (ss.any (fun s => (regionsHolding im s).isEmpty) || (!c.variant && kinds.contains 2)) 0x0146 j
        ++ finding (ws.contains j && rs.contains im.paramRegion) 0x0127 j
        ++ finding (ws.contains j && rs.any (fun r => (nth im.regions r).access == 1 && ((nth im.regions r).kind == 3 || isTiled op))) 0x0134 j)
    ++ ws.flatMap (fun j =>
      finding (addressesTwice (nth op.descs j) (nth sizes j)) 0x0147 j)
    ++ ws.flatMap (fun j => finding (js.contains j && js.any (fun i => i != j
        && (match ringOf im (nth op.descs i), ringOf im (nth op.descs j) with
            | some a, some b => a == b
            | none, none => plain.contains i && shareByte (nth op.descs j) (nth op.descs i) (nth sizes j) (nth sizes i)
            | _, _ => false))) 0x012A j)

/-! ### Chains (Table 5.15) -/

/-- Sources an operation uses: of the fields a, b, c of an ALU or compare stage (Tables 5.7 and 5.8). -/
def arity (o : Nat) : Nat :=
  let n := o % 32
  if stageKind o == 5 then
    (if o == 0xA6 || o == 0xAB then 3 else if o == 0xAC || o == 0xAD || o == 0xAE || o == 0xB2 || o == 0xB3 then 1 else 2)
  else if n == 3 || n == 4 || n == 5 then 3 else if n == 6 || n == 7 then 1 else 2

/-- Is the operation byte assigned (Tables 5.6 to 5.8, R162, R164, R179)? -/
def stageAssigned (o : Nat) : Bool :=
  let n := o % 32
  match stageKind o with
  | 1 => o ≤ 0x24
  | 2 => n ≤ 0x11 && n != 0x0B
  | 3 => o ≤ 0x6F
  | 4 => [0, 1, 2, 6, 7, 8, 0xA, 0xC, 0xD, 0xF, 0x10, 0x11].contains n
  | 5 => o ≤ 0xB3
  | 6 => o == 0xC0
  | 7 => o == 0xE0
  | _ => false

/-- Does a stage take the working format (Table 5.5)? -/
def stageFormatOk (s : Stage) : Bool :=
  let o := s.op
  let fl := fun f => f ≤ 4
  let it := fun f => 0xB ≤ f && f ≤ 0xE
  match s.wf with
  | none => true
  | some f =>
    if o == 0x22 then f == 2 || f == 0xB || f == 0xC
    else if o == 0x23 then fl f
    else if o == 0x24 then fl f || it f
    else if isCvt o || o == 0x20 || o == 0x21 then true
    else if stageKind o == 2 || stageKind o == 4 then (if o % 32 ≤ 9 then fl f else it f)
    else if stageKind o == 5 then fl f || it f
    else if stageKind o == 3 then f == 2 || f == 3 || f == 4
    else true

/-- Format in which a stage's result is held: its working format, or a STORE's source's. -/
def heldFmt (op : PInstr) : (fuel k : Nat) → Nat
  | 0, _ => 2
  | fuel + 1, k =>
    let s := nth op.stages k
    match s.wf with
    | some f => f
    | none =>
      if 1 ≤ s.hi1 && s.hi1 ≤ 8 then heldFmt op fuel (s.hi1 - 1)
      else if 9 ≤ s.hi1 && s.hi1 ≤ 13 then (nth op.descs (s.hi1 - 9)).fmt else 2

/-- Is a source code usable at stage k (R153, R154)? -/
def sourceOk (op : PInstr) (k code : Nat) : Bool :=
  if code == 0 then false
  else if code ≤ 8 then code ≤ k
  else if code ≤ 13 then
    (!op.micro || code ≤ 11) && ((nth op.descs (code - 9)).role == 1 || (nth op.descs (code - 9)).role == 3)
  else true

/-- Sources of one stage (R154, R159, Table 5.4). -/
def sourcesBad (op : PInstr) (s : Stage) (k : Nat) : Bool :=
  let o := s.op
  let ok := sourceOk op k
  let isDesc := fun c => 9 ≤ c && c ≤ 13
  let isRes := fun c => 1 ≤ c && c ≤ 8 && c ≤ k
  match stageKind o with
  | 1 =>
    if o == 0x20 then !(isDesc s.hi1 && ok s.hi1)
    else if o == 0x21 then !(isDesc s.hi1 && ok s.hi1 && (nth op.descs (s.hi1 - 9)).role == 1 && isRes s.hi2
      && isInt (heldFmt op 8 (s.hi2 - 1)))
    else false
  | 3 => !ok s.hi1
  | 6 => !(ok s.hi1 && s.hi1 < 14) || (s.hi2 != 0 && !ok s.hi2) || (s.lo2 != 0 && !isRes s.lo2)
  | 7 => !ok s.hi1 || (s.hi2 != 0 && !isRes s.hi2)
  | _ =>
    if isCvt o then !ok s.hi1
    else
      let a := arity o
      !ok s.hi1 || (if a ≥ 2 then !ok s.lo1 else s.lo1 != 0) || (if a ≥ 3 then !ok s.hi2 else s.hi2 != 0)

/-- Static value of n3 or n4, or its bound with its shape entry (R123). -/
def outerDeterminant (w : BitVec 32) : Nat := if bit w.toNat 20 then w.toNat % 2 ^ 28 else w.toNat % 2 ^ 20

/-- What must agree for a rekeyed mask (R170): the sizes and shape entries of the extents, wide and scaled. -/
def shapeDeterminants (op : PInstr) : List Nat × List Nat × List Bool × Bool × Bool :=
  let d := nth op.descs (if op.micro then 0 else op.shapeSrc)
  let dyn := (List.range 3).map (fun k => (d.dyn[k]?).getD false)
  let entries := if op.micro then [op.dynSlot.toNat % 128]
    else ((List.range 3).filter (fun k => (d.dyn[k]?).getD false)).map (fun k => d.dynBase + k)
  (d.sizes.take 3 ++ (if op.micro then [1, 1] else [outerDeterminant op.n3, outerDeterminant op.n4]),
    (if dyn.contains true then entries else []), dyn, isWide op, isScaled op)

/-- The checks of a chain. -/
def chainFindings (c : CheckCtx) : List Finding :=
  let op := c.op
  let st := stagesOf op
  let o := op.opcode
  let limit := fun k => if k == 1 then 3 else if k == 6 then 1 else 2
  let readSet := fun (l : List (Stage × Nat)) =>
    ((l.flatMap (fun s => stageSources s.1)).filter (fun x => 9 ≤ x && x ≤ 13)).eraseDups
  let dest := ((effStages op).filter (fun s => s.op == 0xE0)).map Stage.lo1
  let needStore := o ≤ 0x1F || (0x40 ≤ o && o ≤ 0x5F)
  st.flatMap (fun sk =>
    let s := sk.1
    let k := sk.2
    let kind := stageKind s.op
    finding (!stageAssigned s.op || (kind == 6 && (op.micro || !isReduceOp o))) 0x0150 0xF k
      ++ finding (sourcesBad op s k) 0x0151 0xF k
      ++ finding (!stageFormatOk s || (convStage s && ctlScaleOnStore s.b2)) 0x0152 0xF k
      ++ finding (((st.take (k + 1)).filter (fun t => stageKind t.1.op == kind)).length > limit kind) 0x0153 0xF k
      ++ finding (kind == 7 && (!((writtenDescs op).contains s.lo1)
            || (s.hi2 != 0 && ctlScaleOnStore (nth op.descs s.lo1).conv))) 0x0154 0xF k
      ++ finding (s.op == 0x24 && (fp32 op.imm0.toNat).isNan) 0x0155 0xF k
      ++ finding ((s.op == 0x23 || s.op == 0x24) && bit s.b1.toNat 7
            && (match c.prog[op.imm1.toNat]? with
                | some q => shapeDeterminants q != shapeDeterminants op
                | none => true)) 0x0156 0xF k)
    ++ st.flatMap (fun sk => finding ((readSet (st.take (sk.2 + 1))).length > 3) 0x0151 0xF sk.2)
    ++ finding (op.chainLen != 0 && needStore && dest.isEmpty) 0x0154
    ++ (if o ≤ 0x5F then (writtenDescs op).flatMap (fun j =>
        let n := (dest.filter (· == j)).length
        finding (n > 1 || (needStore && n == 0)) 0x0154 j) else [])

/-! ### Reductions (Table 6.10) -/

/-- Outputs of a reducing opcode (Table 6.5); none for the others. -/
def outputCount (o : Nat) : Option Nat :=
  if o == 0x32 || twoOutputs o then some 2
  else if [0x20, 0x21, 0x22, 0x24, 0x25, 0x26, 0x2D, 0x34].contains o then some 1 else none

/-- Compare and soft-maximum kinds of Table 6.5, whose tap accumulates in W40. -/
def w40Only (o : Nat) : Bool := (0x24 ≤ o && o ≤ 0x28) || (0x30 ≤ o && o ≤ 0x33)

/-- The checks of opcodes 0x20 to 0x3F. DESIGN CHOICE (notes/assumptions/89.md): under an apply opcode with reduce_mask 0, the
sizes that R207 asks for are left to R119's check. -/
def reduceFindings (c : CheckCtx) : List Finding :=
  let op := c.op
  let o := op.opcode
  if op.micro || !isReduceOp o || !assignedOpcodes.contains o then []
  else
    let d := nth op.descs
    let t := tilingOf op (boundExtents op)
    let k := keptCount op t
    let apply := isApplyOp o
    let outs := (writtenDescs op).filter (fun j => !(storedDescs op).contains j && (o != 0x32 || (d j).role == 2))
    let n := (outputCount o).getD 0
    let packed := twoOutputs o && outs.length == 1 && bit op.reduceMask 0 && nth (d (nth outs 0)).sizes 0 == 2
    let taps := (stagesOf op).filter (fun s => stageKind s.1.op == 6)
    let opt := fun j => (d j).role == 0 || (d j).role == 1
    let free := fun j => (d j).role == 0 || (d j).role == 4
    let xOk := op.chainLen != 0 || (d 0).role == 1
    let indexOut := outs.getLastD 9
    let form :=
      (op.reduceMask % 8 == 0) != apply
        || (!apply && outs.length != n && !packed)
        || ((o == 0x27 || o == 0x28)
            && ((List.range 3).foldl (fun a i => if reduced op i then a * nth t.ext i else a) 1) > 2 ^ 31 - 1)
        || (o == 0x2E && !(op.chainLen == 0 && op.shapeSrc == 0 && (d 0).role == 1 && (d 1).role == 1
            && (nth (d 1).sizes 0 == 1 || nth (d 1).sizes 0 == 2) && opt 2 && opt 3 && (d 4).role == 2))
        || (o == 0x31 && !(xOk && (d 1).role == 1 && (d 2).role == 1 && (d 3).role == 2))
        || (o == 0x33 && !(op.chainLen == 0 && (d 0).role == 3 && (d 1).role == 1 && (d 2).role == 1 && opt 3 && free 4))
        || (o == 0x35 && !(xOk && (d 1).role == 1 && (d 2).role == 2))
    let held := fun code => if 1 ≤ code && code ≤ 8 then heldFmt op 8 (code - 1) else if 9 ≤ code && code ≤ 13 then (d (code - 9)).fmt else 2
    let sourceBad := fun (s : Stage) (code : Nat) =>
      (code ≤ 8 && !(1 ≤ held code && held code ≤ 4)) || (s.lo1 == 2 && held code == 1)
    let tapBad := fun (s : Stage) =>
      !(s.lo1 == 1 || s.lo1 == 2) || sourceBad s s.hi1 || (s.hi2 != 0 && sourceBad s s.hi2) || (s.lo1 == 2 && w40Only o)
        || ((s.hi2 != 0) != (o == 0x23))
    let loaded := (d op.shapeSrc).fmt
    let eps := fp32 op.imm0.toNat
    finding (k * (if apply then 0 else 1) > 4096) 0x0148
      ++ finding form 0x0160
      ++ finding ((o == 0x27 || o == 0x28) && (d indexOut).fmt != 11) 0x0160 (if indexOut < 5 then indexOut else 0xF)
      ++ finding (!apply && op.chainLen != 0 && taps.isEmpty) 0x0161
      ++ finding (!apply && op.chainLen == 0 && (!(1 ≤ loaded && loaded ≤ 4) || o == 0x23)) 0x0161
      ++ taps.flatMap (fun s => finding (apply || tapBad s.1) 0x0161 0xF s.2)
      ++ finding ((o == 0x2C || o == 0x2D) && (!eps.isFin || eps.lt (Val.ofInt 0) || op.imm1.toNat / 2 != 0
          || (o == 0x2D && bit op.imm1.toNat 0) || (stagesOf op).any (fun s => (stageSources s.1).any (· ≥ 14)))) 0x0162
      ++ finding (o == 0x32 && ((List.range 3).any (fun i => reduced op i && nth t.counts i != 1) || k > 256
          || (roleDescs op 3).any (fun j => (d j).fmt != 1 && (d j).fmt != 2))) 0x0163
      ++ finding (c.im.numericMode == 1 && (o == 0x32 || o == 0x33 || o == 0x34 || o == 0x35)) 0x0164

/-! ### Tables, fences, Heirloom (Tables 7.10 and 8.10) -/

/-- The checks of special-function stages (R234, R249). -/
def tableFindings (c : CheckCtx) : List Finding :=
  let im := c.im
  (stagesOf c.op).flatMap (fun sk =>
    if stageKind sk.1.op != 3 || sk.1.op > 0x6F then []
    else
      let f := sk.1.lo2
      let slot := sk.1.op - 0x60
      let short := f == 3 || f == 4
      match im.slots.find? (fun r => r.slot == slot) with
      | none => finding true 0x0174 0xF sk.2
      | some r =>
        let file := tableFile c.rd im r
        let hasPath := if r.kind == 1 then bit r.paths (if short then 0 else 1)
          else (pathOffsets file).any (fun p => p.2 == (if short then 1 else 2))
        if im.numericMode == 1 && short then
          let pg := if f == 3 then r.hlBf16 else r.hlFp16
          let bound := match im.heirloom[pg]? with | some p => p.1 != 0 && p.2 == f | none => false
          finding (pg == 0xFF || !bound || im.heirloom.length > 8) 0x0176 0xF sk.2
        else
          finding (!hasPath) 0x0175 0xF sk.2
            ++ finding (im.numericMode == 1 && !(r.kind == 0 && bit (tableFlags file) 2)) 0x0178 0xF sk.2)

/-- A TFENCE's form (R239). -/
def fenceFindings (op : PInstr) : List Finding :=
  if op.micro || op.opcode != 0x98 then []
  else finding (op.chainLen != 0 || op.flags.toNat / 2 != 0 || op.imm0.toNat % 65536 == 0 || op.imm0.toNat / 65536 != 0
    || op.imm1 != 0 || op.layerTag != 0 || op.seedIndex != 0 || op.shapeSrc != 0 || op.roles != 0 || op.reduceMask != 0
    || op.n3 != 0 || op.n4 != 0 || anyNonzero op.raw 32 200) 0x0177

/-- Numerics that the Ohmine profile does not have (R279). -/
def heirloomFindings (c : CheckCtx) : List Finding :=
  let op := c.op
  let rndBad := fun (x : BitVec 8) => bits x.toNat 3 2 == 1 || bits x.toNat 3 2 == 2
  if c.im.numericMode == 0 then []
  else
    (usedDescs op).flatMap (fun j => finding ((nth op.descs j).fmt == 1
        || (((nth op.descs j).role == 2 || (nth op.descs j).role == 3) && rndBad (nth op.descs j).conv)) 0x0183 j)
      ++ (stagesOf op).flatMap (fun s => finding ((stageKind s.1.op != 6 && s.1.wf == some 1) || (convStage s.1 && rndBad s.1.b2)) 0x0183 0xF s.2)
      ++ finding (bit op.flags.toNat 3 || (!op.micro && op.opcode == 0x2C && bit op.imm1.toNat 0)
          || (!op.micro && op.opcode == 0x81 && bits op.imm0.toNat 9 8 == 2)) 0x0183

/-- The checks of opcodes 0x60 to 0x6F (R254, R255, R260, R263). -/
def optFindings (c : CheckCtx) : List Finding :=
  let op := c.op
  let o := op.opcode
  if op.micro || !(o == 0x60 || o == 0x61 || o == 0x62 || o == 0x68) then []
  else
    let d := nth op.descs
    let p := nth c.im.regions c.im.paramRegion
    let a := op.imm0.toNat % 2 ^ 28
    let want2 := if o == 0x62 then 1 else 2
    let momentSizes := fun j => nth (d j).sizes 2 == want2 && [0, 1, 3, 4].all (fun k => nth (d j).sizes k == nth (d 0).sizes k)
    let form :=
      if o == 0x68 then
        !((d 0).role == 1 && op.shapeSrc == 0 && isFloat (d 0).fmt && usedDescs op == [0]
          && op.imm0 == 0 && watchOn op)
      else
        !(op.shapeSrc == 0 && (d 0).role == 3 && ((d 0).fmt == 1 || (d 0).fmt == 2) && nth (d 0).sizes 2 == 1
          && (d 1).role == 1 && ((d 1).fmt == 2 || (d 1).fmt == 3 || (d 1).fmt == 4)
          && (d 2).role == 1 && (d 3).role == 2 && (d 2).fmt == (d 3).fmt
          && ((d 2).fmt == 1 || (d 2).fmt == 2 || (d 2).fmt == 3) && fmtBits (d 2).fmt ≤ fmtBits (d 0).fmt
          && ((d 4).role == 0 || ((d 4).role == 2 && isFloat (d 4).fmt && !(d 4).separate))
          && (List.range 5).all (fun j => (d j).role != 4) && momentSizes 2 && momentSizes 3)
        || shareByte (d 2) (d 3) (d 2).sizes (d 3).sizes || op.imm0.toNat / 2 ^ 28 != 0 || a % 64 != 0
    let buf : Nat := op.imm1.toNat % 2 ^ 28
    let size := 16 * tileCount (tilingOf op (boundExtents op))
    let rs := regionsHolding c.im (buf, (buf : Int) + size - 1)
    finding (o != 0x68 && (a < p.base || a + 64 > p.base + p.size)) 0x0127
      ++ finding form 0x0180
      ++ finding (if watchOn op then bits op.imm1.toNat 30 28 != 0 || buf % 64 != 0
            || !rs.any (fun r => (nth c.im.regions r).kind == 0 && (nth c.im.regions r).access == 0)
          else op.imm1 != 0) 0x0184

/-! ### Moves and collectives -/

/-- Stack of a stack base and the bytes the stack operand reaches (R365, R370). -/
def stackReach (op : PInstr) (sizes : List Nat) (base : Nat) : List (Int × Int) :=
  (slices { nth op.descs 1 with base := 0 } sizes).map (fun s => (s.1 + base, s.2 + base))

/-- A stack operand with some byte outside the user area, and one that reaches two stacks (R370). -/
def stackBaseBad (op : PInstr) (sizes : List Nat) (base : Nat) (userEnd : Nat → Nat) : Bool × Bool :=
  let r := stackReach op sizes base
  let inUser := fun (a : Int) => decide (0 ≤ a) && decide (a < 2 ^ 39) && decide (a.toNat % 2 ^ 37 < userEnd (a.toNat / 2 ^ 37))
  let ends := (r.flatMap (fun s => [s.1 / 2 ^ 37, s.2 / 2 ^ 37])).eraseDups
  (r.any (fun s => !inUser s.1 || !inUser s.2), ends.length > 1)

/-- The checks of moves (R364 to R370, R85 to R88). -/
def moveFindings (c : CheckCtx) : List Finding :=
  let op := c.op
  let o := op.opcode
  if op.micro || !(0x70 ≤ o && o ≤ 0x75) then []
  else
    let d := nth op.descs
    let roles := op.descs.map Desc.role
    let want := if o == 0x71 then [2, 1, 0, 0, 0] else if o == 0x73 then [1, 0, 0, 0, 0] else [1, 2, 0, 0, 0]
    let stack := o == 0x71 || o == 0x72 || o == 0x75
    let direct := !bit op.imm1.toNat 31
    let base := op.imm0.toNat + 2 ^ 32 * (op.imm1.toNat % 128)
    let ring := ringOf c.im (d 0)
    let slotSize := match ring with | some g => (nth c.im.rings g).slotSize | none => 1048576
    let n0 := nth (d 0).sizes 0
    let trans := o == 0x74 || o == 0x75
    let e := fmtBits (d 0).fmt / 8
    let s0 := nth (d 0).strides 0
    let s1 := nth (d 0).strides 1
    let (outUser, twoStacks) := if stack && direct then stackBaseBad op (d 1).sizes base c.userEnd else (false, false)
    let strided := !trans && (o == 0x70 || o == 0x72) && s0 != 1
    let far := fun (s : Int) => decide (s < -(2 ^ 20)) || decide (2 ^ 20 < s)
    let form :=
      roles != want || op.shapeSrc != 0 || op.flags.toNat / 2 != 0 || (d 0).scaled || (d 1).scaled
        || (o != 0x73 && (d 0).fmt != (d 1).fmt)
        || (stack && ((d 1).base != 0 || bits op.imm1.toNat 30 7 != 0
            || (!direct && (op.imm0.toNat / 65536 != 0 || op.imm0.toNat % 8 != 0
                || op.imm0.toNat % 65536 + 8 > (nth c.im.regions c.im.paramRegion).size))))
        || (o == 0x73 && ((d 0).fmt != 14 || n0 % 64 != 0 || n0 < 64 || n0 > slotSize || ((d 0).sizes.drop 1).any (· != 1)
            || bits op.imm0.toNat 7 3 != 0 || op.imm0.toNat / 65536 != 0 || op.imm1 != 0
            || !bit c.im.partnerMask.toNat (op.imm0.toNat % 8)))
    finding (trans && ((d 0).fmt == 0 || groupSize (d 0).fmt != 1 || (d 0).scaled || !(e == 1 || e == 2 || e == 4)
        || n0 < 1 || n0 > 128 || nth (d 0).sizes 1 < 1 || nth (d 0).sizes 1 > 128 || nth (d 0).sizes 2 != 1
        || s0 != 1 || s1 < max 1 n0 || s1 > 2 ^ 20)
        || (strided && (far s0 || far s1
            || (ring.isNone && (slices (d 0) (d 0).sizes).any (fun s => (regionsHolding c.im s).isEmpty))))) 0x012B 0
      ++ finding form 0x0190 ++ finding outUser 0x0191 1 ++ finding twoStacks 0x0192 1
      ++ finding (o == 0x73 && (match ring with | some g => (nth c.im.rings g).consumerKind != 1 | none => true)) 0x0193 0

/-- Plan of a collective. -/
def planOf (op : PInstr) : Nat := op.imm0.toNat / 65536
/-- Link of a CSEND or CLAND. -/
def linkOf (op : PInstr) : Nat := op.imm0.toNat % 32
/-- Is an instruction one of the collectives? -/
def isColl (op : PInstr) : Bool := !op.micro && isCollective op
def isCheck (op : PInstr) : Bool := !op.micro && op.opcode == 0x82

/-- Elements of a chunk for a slot size (R399). -/
def chunkElems (fmt slotSize : Nat) : Nat :=
  let s := min slotSize 16384
  if fmt == 1 then 8 * min 512 (s / 40) else min 4096 (s * groupSize fmt / groupBytes fmt)

/-- Regions that a descriptor list of an instruction touches. -/
def touched (im : Image) (op : PInstr) (js : List Nat) : List Nat :=
  (js.filter (fun j => (op.micro || !stackDesc op j) && (ringOf im (nth op.descs j)).isNone)).flatMap
    (fun j => reachedRegions im (nth op.descs j) (nth (boundSizes op) j))

/-- Sources and local partials of a collective. -/
def spanReads (op : PInstr) : List Nat := if op.opcode == 0x80 then [0] else if op.opcode == 0x81 && (nth op.descs 1).role == 1 then [1] else []

/-- Does an instruction write a byte that a span's collective `q` reads (R404)? -/
def writesSource (im : Image) (op q : PInstr) : Bool :=
  (writers op).any (fun j => (op.micro || !stackDesc op j) && (ringOf im (nth op.descs j)).isNone
    && (spanReads q).any (fun i => (ringOf im (nth q.descs i)).isNone
      && shareByte (nth op.descs j) (nth q.descs i) (nth (boundSizes op) j) (nth (boundSizes q) i)))

/-- Index of the CCHECK of a plan at or after an instruction. -/
def nextCheck (prog : List PInstr) (plan k : Nat) : Option Nat :=
  (List.range prog.length).find? (fun i => decide (k ≤ i) && isCheck (nth prog i) && planOf (nth prog i) == plan)

/-- The checks of collectives (R398, R404). -/
def collFindings (c : CheckCtx) : List Finding :=
  let op := c.op
  let o := op.opcode
  let coll := isColl op
  let d := nth op.descs
  let p := planOf op
  let n := c.prog.length
  let at_ := nth c.prog
  let held := fun l => l < 24 && bit c.im.linkMask.toNat l
  let opn := bits op.imm0.toNat 7 5
  let rnd := bits op.imm0.toNat 9 8
  let roles := op.descs.map Desc.role
  let fmtOk := fun f => 1 ≤ f && f ≤ 4
  let form :=
    if o == 0x80 then
      roles != [1, 0, 0, 0, 0] || op.shapeSrc != 0 || (d 0).scaled || !held (linkOf op) || opn != 0
        || bits op.imm0.toNat 15 8 > 63 || op.imm1.toNat / 2 ^ 24 != 0
    else if o == 0x81 then
      !(roles == [2, 0, 0, 0, 0] || roles == [2, 1, 0, 0, 0]) || op.shapeSrc != 0 || (d 0).scaled || (d 1).scaled
        || !held (linkOf op) || opn > 3 || (rnd != 0 && rnd != 2) || bits op.imm0.toNat 15 10 != 0 || op.imm1.toNat / 2 ^ 24 != 0
        || ((d 1).role == 1 && (d 1).sizes != (d 0).sizes)
    else
      roles != [0, 0, 0, 0, 0] || op.imm0.toNat % 65536 != 0
        || (List.range 24).any (fun l => bit op.imm1.toNat l && !held l)
  let afterCheck := decide (0 < c.instr) && isCheck (at_ (c.instr - 1)) && bit op.flags.toNat 0 && !op.micro
  -- span of the instruction's plan
  let spanStart := ((List.range c.instr).reverse.find? (fun i => isCheck (at_ i) && planOf (at_ i) == p)).map (· + 1) |>.getD 0
  let spanOf := fun (from_ upto plan : Nat) => ((List.range n).filter (fun i => decide (from_ ≤ i ∧ i < upto))).map at_
    |>.filter (fun q => isColl q && !isCheck q && planOf q == plan)
  let interleaved := coll && (List.range c.instr).any (fun i =>
      isColl (at_ i) && planOf (at_ i) != p && !isCheck (at_ i)
        && (match nextCheck c.prog (planOf (at_ i)) i with | some j => decide (c.instr < j) | none => true)
        && (List.range n).any (fun j => decide (c.instr < j) && isColl (at_ j) && planOf (at_ j) == planOf (at_ i)))
  let unclosed := coll && !isCheck op && (nextCheck c.prog p c.instr).isNone
  let maskShort := coll && isCheck op && (spanOf spanStart c.instr p).any (fun q => !bit op.imm1.toNat (linkOf q))
  -- a write of what an open span reads
  let hazard := (List.range c.prog.length).any (fun i =>
    let q := at_ i
    isColl q && !isCheck q
      && (let start := ((List.range i).reverse.find? (fun j => isCheck (at_ j) && planOf (at_ j) == planOf q)).map (· + 1) |>.getD 0
          let first := ((List.range n).find? (fun j => decide (start ≤ j) && isColl (at_ j) && planOf (at_ j) == planOf q)).getD i
          match nextCheck c.prog (planOf q) i with
          | some e => decide (first ≤ c.instr ∧ c.instr < e) && (writesSource c.im op q || (writtenDescs op).any (fun j => (d j).role == 3))
          | none => false))
  let ringShort := coll && o == 0x80 && (match ringOf c.im (d 0) with
    | some g =>
      let mine := (spanOf spanStart (match nextCheck c.prog p c.instr with | some e => e | none => n) p).filter
        (fun q => q.opcode == 0x80 && ringOf c.im (nth q.descs 0) == some g)
      decide ((nth c.im.rings g).slotCount < (mine.map (fun q =>
        ceilDiv ((nth q.descs 0).sizes.foldl (· * ·) 1) (max 1 (chunkElems (nth q.descs 0).fmt (nth c.im.rings g).slotSize)))).foldl (· + ·) 0)
    | none => false)
  finding (coll && (form || op.flags.toNat / 2 != 0)) 0x01A0
    ++ finding (coll && o == 0x81 && (match ringOf c.im (d 0) with
        | some g => (nth c.im.rings g).producerKind != 3 || (nth c.im.rings g).producerIndex != linkOf op
        | none => true)) 0x01A2 0
    ++ finding interleaved 0x01A3 ++ finding (hazard || ringShort) 0x01A4 ++ finding (unclosed || maskShort || afterCheck || (coll && isCheck op && bit op.flags.toNat 0)) 0x01A5
    ++ finding (coll && o == 0x81 && (((opn == 0) == ((d 1).role == 1))
        || (opn != 0 && (!fmtOk (d 0).fmt || !fmtOk (d 1).fmt)) || (rnd == 2 && (d 0).fmt != 3))) 0x01A6

/-- 0x01C0: sequences of a partner or link ring that one unit reads (R462). -/
def ringWindowFindings (c : CheckCtx) : List Finding :=
  let op := c.op
  let t := tilingOf op (boundExtents op)
  let per := (List.range 3).foldl (fun a k => if reduced op k then a * nth t.counts k else a) 1
  if op.micro || !isTiled op then []
  else (readers op).flatMap (fun j =>
    match ringOf c.im (nth op.descs j) with
    | some g => finding ((nth c.im.rings g).producerKind ≥ 2 && per > (nth c.im.rings g).slotCount) 0x01C0 j
    | none => [])

/-- Every finding about one instruction in phase 4. -/
def instrFindings (c : CheckCtx) : List Finding :=
  reservedFindings c.op ++ opcodeFindings c.op ++ consistencyFindings c.im c.op
    ++ sizeFindings c ++ placeFindings c
    ++ chainFindings c ++ reduceFindings c ++ tableFindings c ++ fenceFindings c.op ++ heirloomFindings c ++ optFindings c
    ++ moveFindings c ++ collFindings c ++ ringWindowFindings c

/-- A finding as a refusal. -/
def refusalOf (entry instr : Nat) (f : Finding) : LoadRefusal :=
  { code := BitVec.ofNat 16 f.code, section_ := 0xC, record := 0xFFFFFFFF, entry := entry, desc := f.desc, stage := f.stage, instr := instr }

/-- The variants of an entry point's guarded layers: level, instruction index and instruction, in program order. -/
def variantsOf (rd : Nat → Byte) (im : Image) (e : Nat) : List (Nat × PInstr) :=
  (im.guards.filter (fun g => g.entry == e)).flatMap (fun g =>
    (List.range g.topLevel).flatMap (fun l => (List.range g.count).map (fun i =>
      (g.firstInstr + i, variantOf rd im g (l + 1) (g.firstInstr + i)))))

/-- Items of an entry point in phase 4: each slot that mixes kinds, each instruction, then the variants. -/
def entryItems (rd : Nat → Byte) (im : Image) (userEnd : Nat → Nat) (e : Nat) : List (List LoadRefusal) :=
  let slots := entrySlots rd im (nth im.entries e)
  let prog := programOf rd im e
  let mixedAt := (slots.foldl (fun acc b =>
    (acc.1 + (parseSlotInstrs b).length, if slotMixed b then acc.2 ++ [acc.1] else acc.2)) (0, [])).2
  let one := fun (variant : Bool) (k : Nat) (op : PInstr) =>
    (instrFindings { im := im, rd := rd, prog := prog, instr := k, op := op, variant := variant, userEnd := userEnd }
      ++ finding (!variant && mixedAt.contains k) 0x0140).map (refusalOf e k)
  prog.mapIdx (fun k op => one false k op) ++ (variantsOf rd im e).map (fun v => one true v.1 v.2)

/-- Phase 4: entry points in order. -/
def phase4 (rd : Nat → Byte) (im : Image) (userEnd : Nat → Nat) : Option LoadRefusal :=
  firstItem ((List.range im.entries.length).flatMap (entryItems rd im userEnd))

/-! ### Phase 5: whole programs -/

/-- Regions that an instruction writes and reads. -/
def regionsWritten (im : Image) (op : PInstr) : List Nat :=
  touched im op (writers op) ++ (if watchOn op && !op.micro then
    (let b : Nat := op.imm1.toNat % 2 ^ 28; regionsHolding im (b, (b : Int))) else [])
def regionsRead (im : Image) (op : PInstr) : List Nat := touched im op (readers op)

/-- Do two instructions meet in a plain region that one of them writes (R114)? -/
def hazardPair (im : Image) (a b : PInstr) : Bool :=
  let meets := fun (x y : List Nat) => x.any (fun r => y.contains r)
  meets (regionsWritten im a) (regionsRead im b ++ regionsWritten im b) || meets (regionsWritten im b) (regionsRead im a)

/-- The instruction before `k`, fences passed over (R241). -/
def beforeFences (prog : List PInstr) (k : Nat) : Option Nat :=
  (List.range k).reverse.find? (fun i => !(!(nth prog i).micro && isFence (nth prog i)))

/-- Rings that an instruction produces into or consumes from. -/
def ringsOf (im : Image) (op : PInstr) (js : List Nat) : List Nat :=
  js.filterMap (fun j => if !op.micro && stackDesc op j then none else ringOf im (nth op.descs j))

/-- 0x014C: the first instruction with an overlap hazard (R114, R241), or that writes what a producer
into a ring reads. DESIGN CHOICE (notes/assumptions/89.md): a ring that no instruction of the program consumes has no last consumer
for a write to follow; nothing is refused for it. -/
def overlapAt (im : Image) (prog : List PInstr) : Option Nat :=
  let n := prog.length
  let at_ := nth prog
  (List.range n).find? (fun k =>
    (hasOverlap (at_ k) && !(at_ k).micro && !isFence (at_ k)
      && (match beforeFences prog k with
          | some b => hazardPair im (at_ b) (at_ k)
          | none => false))
    || (List.range k).any (fun j =>
      (ringsOf im (at_ j) (writers (at_ j))).any (fun g =>
        (nth im.rings g).producerKind ≤ 1
          && (match (List.range n).reverse.find? (fun i => (ringsOf im (at_ i) (readers (at_ i))).contains g) with
              | some last => decide (k ≤ last) && (regionsWritten im (at_ k)).any (fun r => (regionsRead im (at_ j)).contains r)
              | none => false))))

/-- The guarded layers of a program (R269): tag, first instruction, count. -/
def guardLayers (prog : List PInstr) : List (Nat × Nat × Nat) :=
  prog.zipIdx.foldl (fun acc p =>
    let op := p.1
    if op.micro || !isGuarded op then acc
    else
      match acc.getLast? with
      | some (t, f, n) => if t == op.layerTag && f + n == p.2 then acc.dropLast ++ [(t, f, n + 1)] else acc ++ [(op.layerTag, p.2, 1)]
      | none => [(op.layerTag, p.2, 1)]) []

/-- Format of a promotable float at a level (Table 8.8). -/
def promoted (heirloom : Bool) (level f : Nat) : Nat :=
  let w := if heirloom then 2 else 1
  let up := fun g => if 5 ≤ g && g ≤ 9 then 3 else if g == 3 || g == 4 then 2 else if g == 2 then w else g
  if isFloat f && f != 0 then (List.range level).foldl (fun g _ => up g) f else f

/-- Regions of a layer's internal tensors: written by an instruction of the layer and read by a later one (R269). -/
def internalRegions (im : Image) (ops : List PInstr) : List Nat :=
  ((List.range ops.length).flatMap (fun i =>
    (touched im (nth ops i) (writers (nth ops i))).filter (fun r => (ops.drop (i + 1)).any (fun q => (regionsRead im q).contains r)))).eraseDups

/-- Does a descriptor of an instruction of a layer hold an internal tensor? -/
def isInternal (im : Image) (regions : List Nat) (op : PInstr) (j : Nat) : Bool :=
  (nth op.descs j).role != 0 && (touched im op [j]).any (fun r => regions.contains r)

/-- Formats that a layer's stages and internal tensors hold and that promotion may raise. A special-function stage stops
at FP32 (R272). -/
def layerFormats (im : Image) (ops : List PInstr) : List Nat :=
  let regions := internalRegions im ops
  ops.flatMap (fun op =>
    (op.stages.take op.chainLen).filterMap (fun s => if stageKind s.op == 3 then none else s.wf)
      ++ ((usedDescs op).filter (fun j => (nth op.descs j).role != 4 && isInternal im regions op j)).map (fun j => (nth op.descs j).fmt))

/-- The top level of a layer: the lowest at which every promotable format is W40, or FP32 in Heirloom mode (R272). -/
def topLevel (heirloom : Bool) (fmts : List Nat) : Nat :=
  let top := if heirloom then 2 else 1
  ((List.range 4).find? (fun l => fmts.all (fun f => !isFloat f || f ≤ 1 || promoted heirloom l f == top))).getD 3

/-- Is instruction `b` not the promotion of `a` at a level (R272, Table 8.8)? -/
def variantBad (im : Image) (promo : Nat) (regions : List Nat) (level : Nat) (a b : PInstr) : Bool :=
  let up := promoted (im.numericMode == 1) level
  let stageBad := fun (p : Stage × Stage) =>
    p.1.op != p.2.op || p.2.wf != p.1.wf.map (fun f => if stageKind p.1.op == 3 && up f == 1 then 2 else up f)
  let descBad := fun j =>
    let x := nth a.descs j
    let y := nth b.descs j
    if isInternal im regions a j then
      if x.role == 4 then y.role != 0
      else y.role != x.role || y.fmt != up x.fmt || y.scaled || y.sizes != x.sizes || (touched im b [j]).any (· != promo)
    else y.role != x.role || y.fmt != x.fmt || y.conv != x.conv || y.base != x.base || y.scaled != x.scaled || y.sizes != x.sizes
  b.opcode != a.opcode || b.layerTag != a.layerTag || b.chainLen != a.chainLen
    || ((a.stages.take a.chainLen).zip b.stages).any stageBad || (List.range 5).any descBad

/-- 0x0181: guarded layers (R270, R272, R292). -/
def guardBad (rd : Nat → Byte) (im : Image) (e : Nat) (prog : List PInstr) : Bool :=
  let layers := guardLayers prog
  let recs := im.guards.filter (fun g => g.entry == e)
  let at_ := nth prog
  layers.any (fun l =>
    let (tag, first, n) := l
    let ops := (prog.drop first).take n
    let written := fun i => regionsWritten im (nth ops i)
    let read := fun i => regionsRead im (nth ops i)
    tag == 0 || (layers.filter (fun m => m.1 == tag)).length != 1
      || ops.any (fun op => (0x60 ≤ op.opcode && op.opcode ≤ 0x9F) || op.descs.any (fun d => d.role == 3 || (ringOf im d).isSome))
      || (List.range n).any (fun i => (written i).any (fun r =>
          (List.range i).any (fun j => (read j).contains r)
            || ((read i).contains r && !(List.range i).any (fun j => (written j).contains r))))
      || (first + n < prog.length && hasOverlap (at_ (first + n)) && !(at_ (first + n)).micro)
      || !recs.any (fun g => g.layerTag == tag && g.firstInstr == first && g.count == n
            && g.topLevel == topLevel (im.numericMode == 1) (layerFormats im ops)))
    || recs.any (fun g =>
      let ops := (prog.drop g.firstInstr).take g.count
      let regions := internalRegions im ops
      !layers.any (fun l => l == (g.layerTag, g.firstInstr, g.count)) || g.topLevel > 3 || g.layerTag == 0
        || (List.range 3).any (fun i => if i < g.topLevel then nth g.variants i % 256 != 0 || nth g.variants i + 256 * g.count > im.programSize
              else nth g.variants i != 0)
        || (g.promoRegion == 0xFFFF) != regions.isEmpty
        || (g.promoRegion != 0xFFFF && (match im.regions[g.promoRegion]? with | some r => r.kind != 2 | none => true))
        || (List.range g.topLevel).any (fun l => (ops.zipIdx).any (fun p =>
            variantBad im g.promoRegion regions (l + 1) p.1 (variantOf rd im g (l + 1) (g.firstInstr + p.2)))))

/-- A program with the instructions of one guarded layer replaced by their variants at a level. -/
def programAt (rd : Nat → Byte) (im : Image) (prog : List PInstr) (g : GuardRec) (level : Nat) : List PInstr :=
  prog.mapIdx (fun k op => if g.firstInstr ≤ k && k < g.firstInstr + g.count then variantOf rd im g level k else op)

/-- The programs of an entry point that the hazard proof looks at: as it stands, and with each guarded layer at each of its
levels (R114, R272). -/
def programsAt (rd : Nat → Byte) (im : Image) (e : Nat) (prog : List PInstr) : List (List PInstr) :=
  prog :: (im.guards.filter (fun g => g.entry == e)).flatMap (fun g =>
    (List.range (min 3 g.topLevel)).map (fun l => programAt rd im prog g (l + 1)))

/-- Bytes per tile that an instruction reads and writes, scales included (R265). -/
def tileTraffic (op : PInstr) : Nat :=
  let t := tilingOf op (boundExtents op)
  ((usedDescs op).map (fun j =>
    let s := nth (boundSizes op) j
    let d := nth op.descs j
    let share := fun k => if nth s k == 1 then 1 else min (tileDim d t k) (nth s k)
    let rows := share 1 * share 2
    let b := ceilDiv (share 0 * rows) (groupSize d.fmt) * groupBytes d.fmt + (if d.scaled && !d.separate then ceilDiv (share 0) 32 * rows else 0)
    if (nth op.descs j).role == 3 then 2 * b else b)).foldl (· + ·) 0

/-- 0x0182: shadow declarations (R265). -/
def shadowBad (im : Image) (e : Nat) (prog : List PInstr) : Bool :=
  let recs := im.shadows.filter (fun s => s.entry == e)
  im.shadows.length > 16
    || prog.zipIdx.any (fun p => !p.1.micro && isShadowed p.1 && (recs.filter (fun s => s.instr == p.2)).length != 1)
    || recs.any (fun s =>
      match prog[s.instr]? with
      | none => true
      | some op =>
        op.micro || !isShadowed op || s.log2N < 4 || s.log2N > 16 || !(s.fmt == 1 || s.fmt == 2)
          || !(op.opcode ≤ 0x1F || (0x40 ≤ op.opcode && op.opcode ≤ 0x4F))
          || (effStages op).any (fun st => match st.wf with | some f => isFloat f && fmtBits s.fmt < fmtBits f | none => false)
          || tileTraffic op > 32768)

/-- Phase 5: entry points in order; shadow and guard records of no entry point belong to the first item. -/
def phase5 (rd : Nat → Byte) (im : Image) : Option LoadRefusal :=
  let stray := im.shadows.any (fun s => s.entry ≥ im.entries.length)
  let strayGuard := im.guards.any (fun g => g.entry ≥ im.entries.length)
  firstItem ((List.range im.entries.length).map (fun e =>
    let prog := programOf rd im e
    let r := fun c => { refuseAt c 0xC with entry := e }
    (match (programsAt rd im e prog).findSome? (overlapAt im) with | some k => [{ r 0x014C with instr := k }] | none => []) ++ chk (guardBad rd im e prog || strayGuard) (r 0x0181)
      ++ chk (shadowBad im e prog || stray) (r 0x0182)))

/-- Phases 1 to 5 of an image. -/
def imageRefusal (rd : Nat → Byte) (pellisMax : BitVec 32) (sigOk : Nat → BitVec 384 → Bytes → Bool) (userEnd : Nat → Nat) :
    Option LoadRefusal :=
  match phase1 rd pellisMax sigOk with
  | some r => some r
  | none =>
    let im := parseImage rd
    match phase2 rd im with
    | some r => some r
    | none =>
      match phase3 rd im with
      | some r => some r
      | none =>
        match phase4 rd im userEnd with
        | some r => some r
        | none => phase5 rd im

end Sys2Proof.Machine
end

