-- ==== Sys2Proof/Machine/Partner.lean ====
section
/-!
DEFINITION. Partner ports: the Tile Stream Protocol in both directions (R342 to R355): the packets sent, credits and ring tokens.
-/

namespace Sys2Proof.Machine

/-! ### Packets (Tables 11.2 and 11.3) -/

/-- Units of 256 bytes that a packet costs (R349). -/
def tspCost (len : Nat) : Nat := ceilDiv (32 + len) 256

/-- A packet with its check (Table 11.2). -/
def tspBytes (type ring flags seq offset : Nat) (tileCrc : BitVec 32) (bufCredit : Nat) (payload : Bytes) : Bytes :=
  let k := natLe 1 type ++ natLe 1 ring ++ natLe 2 flags ++ natLe 4 payload.length ++ natLe 8 (seq % 2 ^ 40) ++ natLe 4 offset
    ++ natLe 4 tileCrc.toNat ++ natLe 2 bufCredit ++ natLe 2 0 ++ natLe 4 0 ++ payload
  overlay k 28 (natLe 4 (crc32c k).toNat)

/-- Is a port able to carry packets: up or degraded (R343)? -/
def portUp (p : PartnerPort) : Bool := p.state == 2#3 || p.state == 3#3

/-- One packet leaves: it returns the freed buffer units, costs units of the partner's buffer, and awaits the adapter's
acknowledgement (R349, R372). -/
def tspEmit (q : PartnerPort) (k : TspOut) : PartnerPort :=
  let give := min 65535 (q.owed + q.owedNop)
  { q with sent := q.sent ++ [tspBytes k.type k.ring k.flags k.seq k.offset k.tileCrc give k.payload]
           rxFree := q.rxFree + give, owed := 0, owedNop := q.owed + q.owedNop - give
           txUnits := q.txUnits - tspCost k.payload.length, unacked := q.unacked ++ [k.fsend] }

/-- May a packet leave now: the port is up, and units of the partner's buffer and the port's share of 2,048 suffice? -/
def tspMay (q : PartnerPort) (len : Nat) : Bool := portUp q && tspCost len ≤ q.txUnits && q.unacked.length < 2048

/-- Waiting packets leave in order as far as units and share allow. -/
def tspPumpPort : List TspOut → PartnerPort → PartnerPort
  | [], q => { q with waiting := [] }
  | k :: rest, q => if tspMay q k.payload.length then tspPumpPort rest (tspEmit q k) else { q with waiting := k :: rest }

def tspPump (s : State) (p : Nat) : State := setPartner s p (fun q => tspPumpPort q.waiting q)

/-- A packet handed to a port, behind those that wait. A port that is not up takes none. -/
def tspSend (s : State) (p : Nat) (type ring flags seq offset : Nat) (tileCrc : BitVec 32) (payload : Bytes)
    (fsend : Option Nat := none) : State :=
  if !portUp (getPartner s p) then s
  else setPartner s p (fun q =>
    tspPumpPort (q.waiting ++ [{ type := type, ring := ring, flags := flags, seq := seq, offset := offset, tileCrc := tileCrc
                                 payload := payload, fsend := fsend }]) q)

/-- The run's receive rings on a port: ring id is the ordinal (R347). -/
def receiveRings (im : Image) (p : Nat) : List Nat :=
  (List.range im.rings.length).filter (fun g => (nth im.rings g).producerKind == 2 && (nth im.rings g).producerIndex == p)

/-- Sequences in rising order, cut where one no longer fits a 64-bit map that starts at the first (`fuel` bounds the cuts). -/
def windows64 : (fuel : Nat) → List Nat → List (List Nat)
  | 0, _ => []
  | _, [] => []
  | fuel + 1, a :: t => (a :: t.filter (fun q => q < a + 64)) :: windows64 fuel (t.filter (fun q => a + 64 ≤ q))

/-- The base and the map of each CREDIT or RCREDIT for a list of sequences (R348, R394). -/
def creditMaps (seqs : List Nat) : List Bytes :=
  (windows64 (seqs.length + 1) (seqs.mergeSort (· ≤ ·))).map (fun c =>
    natLe 8 (c.headD 0) ++ natLe 8 (c.foldl (fun m q => m ||| 2 ^ (q - c.headD 0)) 0))

/-- CREDIT packets for sequences of a receive ring (R348). -/
def tspCredits (s : State) (p ring : Nat) (seqs : List Nat) : State :=
  (creditMaps seqs).foldl (fun s m => tspSend s p 2 ring 0 0 0 0 m) s

/-- Lap of a sequence (R93). -/
def lapOf (slotCount q : Nat) : BitVec 16 := BitVec.ofNat 16 (q / slotCount)

/-- Does a ring's token allow sequence `q` to be written, or read (R94)? -/
def tokenFree (g : Ring) (q : Nat) : Bool :=
  let t := nth g.tokens (q % g.decl.slotCount)
  !t.capped && t.lap == lapOf g.decl.slotCount q
def tokenFull (g : Ring) (q : Nat) : Bool :=
  let t := nth g.tokens (q % g.decl.slotCount)
  t.capped && t.lap == lapOf g.decl.slotCount q

/-- The sequences that the slots of a ring accept now: the one that each uncapped slot's lap names (R94, R347). They lie
within two laps of the highest that has been read. -/
def acceptable (g : Ring) : List Nat :=
  ((List.range (4 * g.decl.slotCount)).map (fun i => g.consSeq - 2 * g.decl.slotCount + i)).filter (tokenFree g)

/-- Change ring `g` of a run. -/
def setRing (s : State) (r g : Nat) (f : Ring → Ring) : State := setRun s r (fun rn => { rn with rings := updAt rn.rings g f })
/-- Ring `g` of a run. -/
def getRing (s : State) (r g : Nat) : Ring := match getRun s r with | some rn => nth rn.rings g | none => default

/-- RING_OPEN for one receive ring, and credits for what its slots accept (R347). -/
def tspOpen (s : State) (r p ring g : Nat) : State :=
  let rg := getRing s r g
  let s := tspSend s p 6 ring 0 0 0 0 (natLe 4 rg.decl.slotSize ++ natLe 2 rg.decl.slotCount ++ natLe 2 0)
  let s := setRing s r g (fun rg => { rg with opened := true, credits := acceptable rg, partials := [] })
  tspCredits s p ring (acceptable rg)

/-- RING_CLOSE for every receive ring of a run (R347). -/
def tspCloseAll (s : State) (r : Nat) : State :=
  match getRun s r with
  | none => s
  | some rn =>
    (List.range 8).foldl (fun s p =>
      (receiveRings rn.image p).zipIdx.foldl (fun s gk =>
        let s := tspSend s p 7 gk.2 0 0 0 0 []
        setRing s r gk.1 (fun g => { g with opened := false, credits := [], partials := [] })) s) s

/-- Open every receive ring of a run (R347). -/
def tspOpenAll (s : State) (r : Nat) : State :=
  match getRun s r with
  | none => s
  | some rn =>
    (List.range 8).foldl (fun s p =>
      (receiveRings rn.image p).zipIdx.foldl (fun s gk => tspOpen s r p gk.2 gk.1) s) s

/-! ### Tokens (R94) -/

/-- The slot of a sequence becomes capped, with the tile CRC held beside the token (R94, R352). -/
def capSlot (s : State) (r g q : Nat) (crc : Option (BitVec 32)) : State :=
  setRing s r g (fun rg =>
    { rg with tokens := updAt rg.tokens (q % rg.decl.slotCount)
                          (fun _ => { capped := true, lap := lapOf rg.decl.slotCount q, crc := crc })
              prodSeq := max rg.prodSeq (q + 1) })

/-- The slot of a sequence becomes uncapped with the next lap, and a partner's credit returns (R94, R348). -/
def uncapSlot (s : State) (r g q : Nat) : State :=
  let s := setRing s r g (fun rg =>
    { rg with tokens := updAt rg.tokens (q % rg.decl.slotCount)
                          (fun _ => { capped := false, lap := lapOf rg.decl.slotCount q + 1, crc := none })
              consSeq := max rg.consSeq (q + 1) })
  let rg := getRing s r g
  if rg.decl.producerKind == 2 && rg.opened then
    match getRun s r with
    | some rn =>
      match indexWhere (receiveRings rn.image rg.decl.producerIndex) (· == g) with
      | some id =>
        let next := q + rg.decl.slotCount
        let s := setRing s r g (fun rg => { rg with credits := rg.credits ++ [next] })
        tspCredits s rg.decl.producerIndex id [next]
      | none => s
    | none => s
  else s

/-- A slot that a producer has filled: capped, and uncapped at once when a rebuild lets it pass (R461). -/
def fillSlot (s : State) (r g q : Nat) (crc : Option (BitVec 32)) : State :=
  let s := capSlot s r g q crc
  if (getRing s r g).passes.contains q then
    uncapSlot (setRing s r g (fun rg => { rg with passes := rg.passes.filter (· != q) })) r g q
  else s

/-- Change the partner rings of a port. -/
def setPartnerRings (s : State) (p : Nat) (f : List PartnerRing → List PartnerRing) : State :=
  setPartner s p (fun q => { q with rings := f q.rings })

end Sys2Proof.Machine
end

