-- ==== Sys2Proof/Machine/Work.lean ====
section
/-!
DEFINITION. Work orders in execution: the program of an order, the resolution of dynamic sizes and the
checks at issue (R123 to R126, R256, R371), the units of an instruction and their home frames (R132,
R137, R367, R399), and commitment up to the end of an order (R331, R332, R458, R460).
-/

namespace Sys2Proof.Machine

/-! ### The program of a run -/

/-- The bytes of the image that a run was loaded from. -/
def runImage (s : State) (rn : Run) : Nat → Byte := imageByte s rn.slot

/-- The guard record of an instruction. -/
def guardOf (im : Image) (entry k : Nat) : Option GuardRec :=
  im.guards.find? (fun g => g.entry == entry && g.firstInstr ≤ k && k < g.firstInstr + g.count)

/-- The journaled level of a guarded layer (R273). -/
def levelOf (o : Order) (tag : Nat) : Nat := assocD o.levels tag 0

/-- Level at which an instruction issues: 0 outside guarded layers. -/
def instrLevel (im : Image) (o : Order) (k : Nat) : Nat :=
  match guardOf im o.entry k with | some g => levelOf o g.layerTag | none => 0

/-- Instruction `k` of an order, at its level (R272). -/
def instrAt (s : State) (rn : Run) (o : Order) (prog : List PInstr) (k : Nat) : PInstr :=
  match guardOf rn.image o.entry k with
  | some g => if levelOf o g.layerTag == 0 then nth prog k else variantOf (runImage s rn) rn.image g (levelOf o g.layerTag) k
  | none => nth prog k

/-- The order that a run executes. -/
def orderOf (s : State) (rn : Run) : Option Order := rn.order.bind (findOrder s)

/-- The program of the order in execution. -/
def orderProgram (s : State) (rn : Run) (o : Order) : List PInstr := programOf (runImage s rn) rn.image o.entry

/-- Base of the parameter region. -/
def paramBase (im : Image) : Nat := (nth im.regions im.paramRegion).base

/-- Function slots that a program names. -/
def programSlots (prog : List PInstr) : List Nat :=
  (List.range 16).filter (fun n => prog.any (fun op => (effStages op).any (fun st => st.op == 0x60 + n)
    || (!op.micro && isFence op && bit op.imm0.toNat n)))

/-! ### Root-store banks (R218, R220) -/

/-- The active bank of a slot, and the shadow bank. -/
def activeBank (r : RootSlot) : Bank := if r.activeB then r.b else r.a
def shadowBank (r : RootSlot) : Bank := if r.activeB then r.a else r.b

/-- What the root stores of a run hold (R235, R236, R240): the same in all its workers. -/
def runRoot (s : State) (r : Nat) : List RootSlot := match getRun s r with | some rn => rn.root | none => []

/-- Root stores changed in every worker of a run, and in what the Keeper knows of them. -/
def setRoots (s : State) (r : Nat) (f : List RootSlot → List RootSlot) : State :=
  (runWorkers s r).foldl (fun s w => setWorker s w (fun x => { x with root := f x.root })) (setRun s r (fun rn => { rn with root := f rn.root }))

/-- The generation in force for a slot of a run; 0 where none is. -/
def genInForce (s : State) (r n : Nat) : BitVec 32 := (activeBank (nth (runRoot s r) n)).gen

/-- The table that a worker holds under a bound generation (R220). -/
def bankFor (w : Worker) (gen : BitVec 32) (n : Nat) : Option Bytes :=
  if gen == 0 then none
  else
    let r := nth w.root n
    if r.a.gen == gen then some r.a.file else if r.b.gen == gen then some r.b.file else none

/-! ### Resolution and the checks at issue -/

/-- Entry i of the shape record (R123). -/
def shapeEntry (s : State) (im : Image) (i : Nat) : Nat := leNat (combBytes s (paramBase im + 4 * i) 4)

/-- Resolved sizes of every descriptor, and the values that a dynamic field took with their bounds. -/
structure Resolved where
  sizes : List (List Nat)
  n3 : Nat
  n4 : Nat
  dynamic : List (Nat × Nat)
deriving DecidableEq, Repr, Inhabited

/-- R123. -/
def resolve (s : State) (im : Image) (op : PInstr) : Resolved :=
  let entry := shapeEntry s im
  if op.micro then
    let n := if bit op.count.toNat 14 then entry (op.dynSlot.toNat % 128) else bits op.count.toNat 12 0
    { sizes := op.descs.map (fun _ => [n, 1, 1, 1, 1]), n3 := 1, n4 := 1, dynamic := [] }
  else
    let one (d : Desc) (k : Nat) : Nat := if d.role != 0 && (d.dyn[k]?).getD false then entry (d.dynBase + k) else nth d.sizes k
    let outer (w : BitVec 32) : Nat := if bit w.toNat 20 then entry (bits w.toNat 27 21) else outerBound w
    let dynD := op.descs.flatMap (fun d =>
      if d.role == 0 then [] else ((List.range 5).filter (fun k => (d.dyn[k]?).getD false)).map (fun k => (one d k, nth d.sizes k)))
    let dynN := [op.n3, op.n4].filterMap (fun w => if bit w.toNat 20 then some (outer w, outerBound w) else none)
    { sizes := op.descs.map (fun d => (List.range 5).map (one d)), n3 := outer op.n3, n4 := outer op.n4, dynamic := dynD ++ dynN }

/-- The stack base of a move (R365). -/
def stackBaseOf (s : State) (im : Image) (op : PInstr) : Nat :=
  if bit op.imm1.toNat 31 then leNat (combBytes s (paramBase im + op.imm0.toNat % 65536) 8)
  else op.imm0.toNat + 2 ^ 32 * (op.imm1.toNat % 128)

/-- The hyperparameter record of an optimizer instruction (R255); empty for other opcodes. -/
def hyperRecord (s : State) (op : PInstr) : Bytes :=
  if !op.micro && 0x60 ≤ op.opcode && op.opcode ≤ 0x62 then combBytes s (op.imm0.toNat % 2 ^ 28) 64 else []

/-- Codes of the issue-time checks that an instruction fails (R125, R144, R256, R371). -/
def issueCodes (s : State) (im : Image) (op : PInstr) (v : Resolved) : List (BitVec 16) :=
  let c (bad : Bool) (code : BitVec 16) : List (BitVec 16) := if bad then [code] else []
  if op.micro then c (bit op.count.toNat 14 && microCountBad op (nth (nth v.sizes 0) 0)) 0x0232
  else if v.dynamic.any (fun p => p.2 < p.1) then [0x0230]
  else if noOperands op then []
  else
    let ext := extentsOf op v.sizes v.n3 v.n4
    c ((usedDescs op).any (fun j => groupBad (nth op.descs j) (nth (nth v.sizes j) 0))) 0x0231
      ++ c ((usedDescs op).any (sizeBad op v.sizes ext)) 0x0233
      ++ c (0x60 ≤ op.opcode && op.opcode ≤ 0x62 && hyperBad op.opcode (hyperRecord s op)) 0x0270
      ++ c (isMove op && stackDesc op 1 && bit op.imm1.toNat 31
            && (let b := stackBaseBad op (nth v.sizes 1) (stackBaseOf s im op) (userEnd s); b.1 || b.2)) 0x0280

/-! ### Units -/

/-- Index tuple of an ordinal, dimension 0 fastest (R367, R399). -/
def ordinalIdx (ext : List Nat) (e : Nat) : List Nat :=
  (ext.foldl (fun (acc : List Nat × Nat) n => (acc.1 ++ [acc.2 % n], acc.2 / n)) ([], e)).1

/-- First byte of a descriptor's element at an index tuple, from a base. -/
def elemAddr (d : Desc) (sizes idx : List Nat) (base : Int) : Int := (elemBytes d.fmt base (elemIndex d sizes idx)).headD 0

/-- Units of an instruction with resolved sizes (R132, R144, R367, R369, R399); a CSEND whose peer ring is
not open yet has one unit, from which the others are known when it opens. -/
def instrUnits (op : PInstr) (t : Tiling) (chunk : Nat) : List Nat :=
  let total := t.ext.foldl (· * ·) 1
  if op.micro then (if nth t.ext 0 == 0 then [] else [0])
  else if isTiled op then unitIndices op t
  else if op.opcode == 0x73 then List.range (nth t.ext 3)
  else if op.opcode == 0x74 || op.opcode == 0x75 then List.range (nth t.ext 3 * nth t.ext 4)
  else if isMove op then List.range (ceilDiv total (moveChunk (nth op.descs 0).fmt))
  else if op.opcode == 0x80 then (if total == 0 then [] else if chunk == 0 then [0] else List.range (ceilDiv total chunk))
  else if op.opcode == 0x81 then List.range (ceilDiv total (max 1 chunk))
  else []

/-- Index tuple of a unit's first element. -/
def unitFirst (op : PInstr) (t : Tiling) (chunk u : Nat) : List Nat :=
  if op.micro || isTiled op then tileOrigin t u
  else if op.opcode == 0x74 || op.opcode == 0x75 then [0, 0, 0, u % max 1 (nth t.ext 3), u / max 1 (nth t.ext 3)]
  else if isMove op then ordinalIdx t.ext (u * moveChunk (nth op.descs 0).fmt)
  else ordinalIdx t.ext (u * chunk)

/-- Home frame of a unit (R137, R368, R403): the frame of its first byte; of a ring's base for a ring operand,
and of the descriptor's base for a unit without a present position (R129). -/
def unitHome (im : Image) (op : PInstr) (sizes : List (List Nat)) (t : Tiling) (chunk u : Nat) : Nat :=
  let j := if op.micro || !isTiled op then 0 else op.shapeSrc
  let d := nth op.descs j
  match ringOf im d with
  | some g => (nth im.rings g).base / 2 ^ 25
  | none =>
    if (t.ext.take 5).any (· == 0) then d.base / 2 ^ 25
    else (elemAddr d (nth sizes j) (if op.opcode == 0x80 && !op.micro then [0, 0, 0, 0, 0] else unitFirst op t chunk u) d.base).toNat / 2 ^ 25

/-- Index of the close unit of a watched instruction (R261). -/
def closeIndex (t : Tiling) : Nat := tileCount t

/-- Units that must commit before the instruction has. -/
def unitTotal (i : Issued) : Nat := i.units.length + b2n (watchOn i.op && !i.op.micro && !i.units.isEmpty)

/-- Has every unit of an issued instruction committed? -/
def instrDone (i : Issued) : Bool := unitTotal i ≤ i.committed.length

/-- The issued instruction of an index. -/
def findIssued (rn : Run) (k : Nat) : Option Issued := rn.issued.find? (fun i => i.instr == k)
def setIssued (s : State) (r k : Nat) (f : Issued → Issued) : State :=
  setRun s r (fun rn => { rn with issued := rn.issued.map (fun i => if i.instr == k then f i else i) })

/-- Change what the run's order holds about an instruction. -/
def setProgress (s : State) (r k : Nat) (f : Progress → Progress) : State :=
  match getRun s r with
  | some rn =>
    match rn.order with
    | some n => setOrder s n (fun o => { o with progress := o.progress.map (fun p => if p.instr == k then f p else p) })
    | none => s
  | none => s

/-- Units of an instruction that no worker or forager has taken, in any tally or queue. -/
def untaken (s : State) (r k : Nat) : Bool :=
  (runFrames s r).any (fun f =>
    let fr := getFrame s f
    (fr.tally ++ fr.replay ++ fr.moves ++ fr.moveReplay).any (fun u => u.instr == k))

/-- Has every unit of instruction `k` been taken; has it committed? A fence counts as the instruction before
it (R241). -/
def takenInstr (s : State) (r : Nat) (rn : Run) (prog : List PInstr) (k : Nat) : Bool :=
  match beforeFences prog (k + 1) with
  | none => true
  | some b =>
    !untaken s r b &&
      match findIssued rn b with
      | some i =>
        let isSend := !i.op.micro && i.op.opcode == 0x80
        (unitTotal i == i.units.length || i.closing) && !(isSend && i.chunk == 0 && !i.units.isEmpty)
      | none => true
def committedInstr (rn : Run) (prog : List PInstr) (k : Nat) : Bool :=
  match beforeFences prog (k + 1) with
  | some b => match findIssued rn b with | some i => instrDone i | none => true
  | none => true

/-- Units of instructions taken out of every tally and queue of a run. -/
def dropUnits (s : State) (r : Nat) (p : Nat → Bool) : State :=
  let keep (l : List UnitRef) : List UnitRef := l.filter (fun u => !p u.instr)
  (runFrames s r).foldl (fun s f => setFrame s f (fun fr =>
    { fr with tally := keep fr.tally, replay := keep fr.replay, moves := keep fr.moves, moveReplay := keep fr.moveReplay })) s

/-! ### Records of an order -/

/-- A PROGRESS record (Table 10.18): count 0 marks the whole instruction. -/
def progressRecord (s : State) (r k first count : Nat) (bitsSet : List Nat) : State :=
  let body := natLe 4 k ++ natLe 4 0 ++ natLe 8 first ++ natLe 8 count
    ++ natLe (ceilDiv count 8) (bitsSet.foldl (fun m u => m ||| 2 ^ (u - first)) 0)
  journal s 5 r (runOrder s r) (orderSource (runOrder s r)) body

/-- The archive entry of a generation, when a stack that holds its copy is up (R243). -/
def archiveEntry (s : State) (gen : BitVec 32) : Option ArchiveEntry :=
  s.keeper.archive.find? (fun e => e.gen == gen && e.copies.any (stackUp s))

/-- A bank filled from the archive; an empty one for generation 0. -/
def archivedBank (s : State) (gen : BitVec 32) : Bank :=
  if gen == 0 then { gen := 0, file := [] }
  else match archiveEntry s gen with
    | some e => { gen := gen, file := e.file }
    | none => { gen := 0, file := [] }

/-- Active and pending generation of every slot of a run, 0 where none is pending. -/
def gensOf (s : State) (r : Nat) : List (BitVec 32 × BitVec 32) :=
  (runRoot s r).map (fun x => ((activeBank x).gen, if x.pending then (shadowBank x).gen else 0))

/-- After a replay, the generations that were in force before it come back (R244). -/
def restoreGens (s : State) (r : Nat) : State :=
  match getRun s r with
  | none => s
  | some rn =>
    let s := if rn.savedGens.isEmpty || rn.savedGens == gensOf s r then s
      else setRoots s r (fun _ => rn.savedGens.map (fun g =>
        { a := archivedBank s g.1, b := archivedBank s g.2, activeB := false, pending := decide (g.2 ≠ 0#32) }))
    setRun s r (fun rn => { rn with savedGens := [], replayReady := false })

/-- The run stops executing an order: nothing of it stays in the run. -/
def clearRunOrder (s : State) (r : Nat) : State :=
  let s := restoreGens (dropUnits s r (fun _ => true)) r
  setRun s r (fun rn => { rn with order := none, issued := [], trip := none, fault := none, checkWait := none, orderSeeds := [] })

/-- An order is complete (R332): its COMPLETE record, and its end time. -/
def completeOrder (s : State) (r : Nat) : State :=
  let n := runOrder s r
  let (s, t) := stamp s
  let s := journalAt s t 6 r n (orderSource n) (stampNs t ++ stampFrac t ++ natLe 6 0)
  let s := setOrder s n (fun o => { o with state := .complete, endStamp := t })
  clearRunOrder s r

/-- An order is abandoned with a code (R455, R457, R321). -/
def abandonOrder (s : State) (n : BitVec 64) (code : BitVec 16) : State :=
  match findOrder s n with
  | none => s
  | some o =>
    let (s, t) := stamp s
    let s := journalAt s t 7 o.run n (orderSource n) (natLe 2 code.toNat ++ natLe 6 0 ++ stampNs t ++ stampFrac t ++ natLe 6 0)
    let s := setOrder s n (fun o => { o with state := .abandoned, code := code, endStamp := t, awaiting := false })
    match getRun s o.run with
    | some rn => if rn.order == some n then clearRunOrder s o.run else s
    | none => s

/-- The order completes when every instruction has committed (R332). -/
def finishOrder (s : State) (r : Nat) : State :=
  match getRun s r with
  | none => s
  | some rn =>
    match orderOf s rn with
    | none => s
    | some o =>
      if o.state == .running && rn.fault.isNone && rn.trip.isNone && rn.checkWait.isNone && rn.issued.all instrDone
          && o.nextIssue == (orderProgram s rn o).length
      then completeOrder s r else s

/-- Sums over a run's workers of flushed, saturated, nan_lost, cancel, thr_zero and skipped (R446). -/
def counterSums (s : State) (r : Nat) : List Nat :=
  let ws := (runWorkers s r).map (getWorker s)
  let sum (f : Worker → BitVec 32) : Nat := ws.foldl (fun n w => n + (f w).toNat) 0
  [sum Worker.numFlush, sum Worker.numSat, sum Worker.numNanLost, sum Worker.numCancel, sum Worker.sfnZero, sum Worker.sfnSkip]

/-- The kind-20 record of an instruction with a layer tag whose counters have moved (R446, Table 13.6). -/
def healthCounters (s : State) (r k tag : Nat) : State :=
  match getRun s r with
  | none => s
  | some rn =>
    let now := counterSums s r
    let inc := now.mapIdx (fun i n => n - nth rn.counted i)
    if tag == 0 || inc.all (· == 0) then s
    else
      let n := runOrder s r
      let s := logRecord s 20 (orderSource n)
        (natLe 8 n.toNat ++ natLe 4 k ++ natLe 2 tag ++ natLe 2 0 ++ inc.flatMap (fun v => natLe 4 (min v (2 ^ 32 - 1))))
      setRun s r (fun rn => { rn with counted := now })

/-- An instruction has committed (R113, R446, R460): its PROGRESS record and its kind-20 record, and perhaps
the end of its order. -/
def commitInstr (s : State) (r k : Nat) : State :=
  let tag := match (getRun s r).bind (fun rn => findIssued rn k) with | some i => i.op.layerTag | none => 0
  let s := setProgress s r k (fun p => { p with done := true })
  finishOrder (healthCounters (progressRecord s r k 0 0 []) r k tag) r

/-- Ring sequences whose consuming unit commits (R461, R462). -/
def consumeSeqs (s : State) (r : Nat) (seqs : List (Nat × Nat)) : State :=
  seqs.foldl (fun s p => setRing s r p.1 (fun rg => { rg with consumed := if rg.consumed.contains p.2 then rg.consumed else rg.consumed ++ [p.2] })) s

/-- A unit has committed (R458). The close unit of a watched instruction enters its tally when every other
unit has (R261). A unit that had committed before changes nothing. -/
def commitUnit (s : State) (r k u : Nat) : State :=
  match getRun s r with
  | none => s
  | some rn =>
    match findIssued rn k with
    | none => s
    | some i =>
      if i.committed.contains u then s
      else
        let s := setIssued s r k (fun i => { i with committed := i.committed ++ [u] })
        let s := setProgress s r k (fun p => { p with live := p.live ++ [u] })
        let n := i.committed.length + 1
        if n == i.units.length && n < unitTotal i && !i.closing then
          let s := setIssued s r k (fun i => { i with closing := true })
          setFrame s (i.op.imm1.toNat % 2 ^ 28 / 2 ^ 25) (fun f => { f with tally := f.tally ++ [{ instr := k, unit := closeIndex i.tiling }] })
        else if unitTotal i ≤ n then commitInstr s r k
        else s

/-! ### Units to be executed again -/

/-- Home frame of a unit that has issued; of a close unit, the frame of the watch buffer (R261). -/
def homeOf (im : Image) (i : Issued) (u : Nat) : Nat :=
  if u == closeIndex i.tiling && watchOn i.op && !i.op.micro && !i.units.contains u then i.op.imm1.toNat % 2 ^ 28 / 2 ^ 25
  else unitHome im i.op i.sizes i.tiling i.chunk u

/-- A unit placed in its home frame's replay queue (R458). -/
def redoUnit (s : State) (r : Nat) (ref : UnitRef) : State :=
  match getRun s r with
  | none => s
  | some rn =>
    match findIssued rn ref.instr with
    | none => s
    | some i =>
      let tiled := i.op.micro || isTiled i.op
      setFrame s (homeOf rn.image i ref.unit) (fun f =>
        if tiled then (if f.replay.contains ref then f else { f with replay := f.replay ++ [ref] })
        else (if f.moveReplay.contains ref then f else { f with moveReplay := f.moveReplay ++ [ref] }))

/-- A ring that a fault makes it necessary to deliver again waits for its rebuild (R461). -/
def askRebuild (s : State) (r g : Nat) : State :=
  match getRun s r with
  | none => s
  | some rn =>
    setFrame s ((nth rn.image.rings g).base / 2 ^ 25) (fun f => if f.rebuild.contains g then f else { f with rebuild := f.rebuild ++ [g] })

/-- A unit that a fault interrupts: redone, and the rings that it consumes are delivered again (R458, R461). -/
def interruptUnit (s : State) (r : Nat) (ref : UnitRef) : State :=
  let s := redoUnit s r ref
  match (getRun s r).bind (fun rn => (findIssued rn ref.instr).map (fun i => ringsOf rn.image i.op (readers i.op))) with
  | some gs => gs.foldl (fun s g => askRebuild s r g) s
  | none => s

/-- Region records reported invalid (R274, R456, R459). -/
def invalidate (s : State) (r : Nat) (regions : List Nat) : State :=
  setOrder s (runOrder s r) (fun o => { o with invalid := o.invalid ++ regions.filter (fun g => !o.invalid.contains g) })

/-- Regions that hold an address. -/
def regionsAt (im : Image) (a : Nat) : List Nat :=
  (List.range im.regions.length).filter (fun i => let g := nth im.regions i; g.base ≤ a && a < g.base + g.size)

/-- The bank of a comb address (R72). -/
def bankOf (a : Nat) : Nat := (a / 2 ^ 7 % 256) ^^^ (a / 2 ^ 15 % 256)

/-- A bank's status word changes (R80): corrected count, uncorrectable count, narrow-wait maximum. -/
def setBank (f : Frame) (b : Nat) (g : Nat × Nat × Nat → Nat × Nat × Nat) : Frame :=
  { f with bankStatus := assocSet f.bankStatus b (g (assocD f.bankStatus b (0, 0, 0))) }

/-- A corrected comb error of a frame (R107). -/
def countCorrected (s : State) (a : Nat) : State :=
  setFrame s (a / 2 ^ 25) (fun f => setBank { f with ceCount := satAdd f.ceCount 1 } (bankOf a) (fun w => (w.1 + 1, w.2.1, w.2.2)))

/-- An uncorrectable comb word found by a read: marked poisoned and recorded (R107, Table 3.4). -/
def markPoison (s : State) (a : Nat) : State :=
  let s := { s with poison := if s.poison.contains (a / 8) then s.poison else
                     s.poison.filter (· < a / 8) ++ [a / 8] ++ s.poison.filter (a / 8 < ·) }
  setFrame s (a / 2 ^ 25) (fun f =>
    setBank { f with ueCount := satAdd f.ueCount 1, ueValid := true
                     ueAddr := if f.ueValid then f.ueAddr else BitVec.ofNat 28 (a / 8 * 8) }
      (bankOf a) (fun w => (w.1, w.2.1 + 1, w.2.2)))

/-- The bytes of the canonical Heirloom page of a function and format (R248). -/
def pageBytes (functionId : BitVec 32) (fmt : Nat) : Bytes :=
  (List.range 65536).flatMap (fun b => natLe 2 (Config.heirloomEntry functionId fmt b).toNat)

/-- The Heirloom pages of a frame written by the Keeper (R75, R250). -/
def layPages (s : State) (f : Nat) (pairs : List (BitVec 32 × Nat)) : State :=
  pairs.zipIdx.foldl (fun s p => if p.1.1 == 0 then s else layComb s (f * 2 ^ 25 + 0x1F00000 + p.2 * 0x20000) (pageBytes p.1.1 p.1.2)) s

/-- After an uncorrectable error in a Heirloom page, the Keeper writes the page again (R250). -/
def mendPage (s : State) (a : Nat) : State :=
  let f := a / 2 ^ 25
  let o := a % 2 ^ 25
  if o < 0x1F00000 then s
  else
    let p := (o - 0x1F00000) / 0x20000
    match (getFrame s f).heirloom[p]? with
    | some pr => if pr.1 == 0 then s else layComb s (f * 2 ^ 25 + 0x1F00000 + p * 0x20000) (pageBytes pr.1 pr.2)
    | none => s

/-- A unit whose data fails its check at a comb address (R108, R456): redone once; at a word where a redo has been
made before, that detection escalates, and the order loses its data. A Heirloom page is written again either way (R250). -/
def lostData (s : State) (r : Nat) (ref : UnitRef) (a : Nat) : State :=
  match getRun s r with
  | none => s
  | some rn =>
    let before := match orderOf s rn with | some o => o.redoneAt.contains (a / 8) | none => false
    if before then
      mendPage (runFault (invalidate (runFault s r 0x0222 ref.instr ref.unit) r (regionsAt rn.image a)) r 0x0292 ref.instr ref.unit (phase := 4)) a
    else
      let s := setOrder s (runOrder s r) (fun o => { o with redoneAt := o.redoneAt ++ [a / 8] })
      mendPage (interruptUnit (runFault s r 0x0222 ref.instr ref.unit (redone := 1)) r ref) a

/-- A unit that meets an uncorrectable comb word (R107, R108). -/
def combFault (s : State) (r : Nat) (ref : UnitRef) (a : Nat) : State := lostData (markPoison s a) r ref a

/-- Units of an instruction that the order still owes: those that no progress shows committed (R458). -/
def owedUnits (o : Order) (k : Nat) (units : List Nat) : List Nat :=
  match o.progress.find? (fun p => p.instr == k) with
  | some p => if p.done then [] else units.filter (fun u => !p.live.contains u && !p.durable.contains u)
  | none => units

end Sys2Proof.Machine
end

