-- ==== Sys2Proof/Machine/Frames.lean ====
section
/-!
DEFINITION. The Waggle link layer: frames and their protection (R376, R388), virtual channels and
credits (R377, R378), sequence numbers and replay (R379 to R381), the loss of a session (R406).
-/

namespace Sys2Proof.Machine

/-! ### Types, channels and lengths (Table 12.3) -/

/-- Virtual channel of a frame type; ACK and NAK belong to none. -/
def frameVc (type : Nat) : Nat :=
  if type == 2 then 0 else if type == 1 || (3 ≤ type && type ≤ 6) then 1 else if type == 7 || type == 8 then 2 else 3

/-- ACK or NAK. -/
def isAckNak (type : Nat) : Bool := type == 15 || type == 16

/-- A handshake frame: HELLO, CERT, PROVE, FINISH; never encrypted (R385). -/
def isHandshake (type : Nat) : Bool := 9 ≤ type && type ≤ 12

/-- Units of a channel's receive buffer (Table 12.6). -/
def linkBuffer (vc : Nat) : Nat := if vc == 0 then 256 else if vc == 1 then 2048 else if vc == 2 then 16 else 64

/-- Does a payload have a length of its type? -/
def frameLengthOk (type len : Nat) : Bool :=
  match type with
  | 1 => len ≤ 4096
  | 2 => len == 256
  | 3 => len == 16
  | 5 => len == 16
  | 7 => len == 8
  | 8 => len == 40
  | 9 => len == 256
  | 10 => 1 ≤ len && len ≤ 4096
  | 11 => len == 96
  | 12 => len == 16
  | 13 => 4 ≤ len && len ≤ 4 + 16 * 64 && (len - 4) % 16 == 0
  | 14 => len == 8
  | _ => len == 0

/-! ### Sequence numbers (R379) -/

/-- The number after a sequence number: from 2^32 − 1 to 1. -/
def seqNext (x : Nat) : Nat := if x + 1 ≥ 2 ^ 32 then 1 else x + 1

/-- The highest sequence number received in order; 0 before the first frame. -/
def lastInOrder (l : Link) : Nat := if l.rxSeq == 1 then (if l.rxCount == 0 then 0 else 2 ^ 32 - 1) else l.rxSeq - 1

/-- Is a sequence number older than another, counted round the ring of 2^32 − 1 numbers? -/
def seqOlder (a b : Nat) : Bool := (a + (2 ^ 32 - 1) - b) % (2 ^ 32 - 1) ≥ 2 ^ 31

/-! ### Keys and protection (R387, R388) -/

/-- Does this die have the lower identifier of the two? -/
def isLower (s : State) (peer : Nat) : Bool := s.life.dieId.toNat < peer

/-- The key and salt of one direction: of frames sent by the lower identifier, or of the other. -/
def directionKey (keys : Bytes) (lower : Bool) : Bytes × Bytes :=
  if lower then ((keys.take 32), (keys.drop 64).take 4) else ((keys.drop 32).take 32, (keys.drop 68).take 4)

/-- The GCM nonce: the salt, and the sequence number extended by its wraps since the session began. -/
def frameNonce (salt : Bytes) (wraps seq : Nat) : Bytes := salt ++ natLe 8 (wraps * 2 ^ 32 + seq)

/-- Is a frame of a type protected by a GCM tag on this link now? -/
def protectedFrame (l : Link) (type : Nat) : Bool := l.session.isSome && (l.mode == 1#2 || l.mode == 2#2) && !isHandshake type

/-- Length of a frame with a payload. -/
def frameLen (l : Link) (type len : Nat) : Nat := 32 + len + (if protectedFrame l type then 16 else 0) + 4

/-- Units that a frame costs (R378). -/
def frameUnits (len : Nat) : Nat := ceilDiv len 256

/-- The frame of a header and a payload, with its tag and its frame check (R376, R388). -/
def sealFrame (s : State) (l : Link) (type seq : Nat) (hdr payload : Bytes) : Bytes :=
  let body :=
    if protectedFrame l type then
      let (key, salt) := directionKey (l.session.getD []) (isLower s l.peerId.toNat)
      let nonce := frameNonce salt l.txCount seq
      if l.mode == 1#2 then hdr ++ payload ++ padTo 16 (Config.gcmSeal key nonce (hdr ++ payload) []).2
      else
        let (c, t) := Config.gcmSeal key nonce hdr payload
        hdr ++ padTo payload.length c ++ padTo 16 t
    else hdr ++ payload
  body ++ natLe 4 (crc32c body).toNat

/-! ### Transmission (R377 to R379) -/

/-- Units of a dateline class of VC0 that held frames occupy (R384, R410). -/
def classHeld (l : Link) (dl : Bool) : Nat :=
  (l.heldFrames.filter (fun h => (field h 0 1 == 1) == dl)).foldl (fun n h => n + field h 1 1) 0

/-- Units that a channel can grant beyond those it has granted (R378). A grant of VC0 names no dateline class, so the die
grants no more than the fuller of the two classes of 128 has free: DESIGN CHOICE, notes/assumptions/90.md. -/
def freeUnits (l : Link) (vc : Nat) : Nat :=
  if vc == 0 then (if l.session.isNone then 0 else 128 - max (classHeld l false) (classHeld l true) - nth l.rxGranted 0)
  else nth l.rxUsed vc

/-- The units that the next frame returns: the first channel with units to grant, and how many. -/
def nextGrant (l : Link) : Nat × Nat :=
  match (List.range 4).find? (fun v => freeUnits l v != 0) with
  | some v => (v, min 4095 (freeUnits l v))
  | none => (0, 0)

/-- Units of a channel that have been freed and can be granted again; those of VC0 follow from what its buffer holds. -/
def freedUnits (l : Link) (vc n : Nat) : Link := if vc == 0 then l else { l with rxUsed := updAt l.rxUsed vc (· + n) }

/-- What a payload holds when its frame leaves: FINISH its key confirmation tag (R387), TIME_RESP its
departure time t3 (R409). -/
def departing (s : State) (l : Link) (type seq : Nat) (hdr payload : Bytes) : Bytes :=
  if type == 12 then
    match l.handshake with
    | some h =>
      let (key, salt) := directionKey h.keys (isLower s (field h.peerHello 4 2))
      padTo 16 (Config.gcmSeal key (frameNonce salt l.txCount seq) hdr []).2
    | none => payload
  else if type == 8 then overlay payload 24 (natLe 8 (s.time.now / 65536) ++ natLe 2 (s.time.now % 65536))
  else payload

/-- One frame leaves a port. Every frame acknowledges and returns units; every frame but ACK and NAK takes
the next sequence number, costs units and enters the replay buffer. -/
def transmit (s : State) (n : Nat) (q : TxReq) : State :=
  let l := getLink s n
  let ctl := isAckNak q.type
  let seq := if ctl then 0 else l.txSeq
  let (gv, gu) := nextGrant l
  let hdr := natLe 1 q.type ++ natLe 1 q.ctl ++ natLe 2 q.payload.length ++ natLe 4 seq ++ natLe 4 (lastInOrder l)
    ++ natLe 2 (gu + gv * 4096) ++ natLe 2 0 ++ padTo 16 q.land
  let bytes := sealFrame s l q.type seq hdr (departing s l q.type seq hdr q.payload)
  let cost := frameUnits bytes.length
  let vc := frameVc q.type
  setLink s n (fun l =>
    let l := { l with wire := l.wire ++ [bytes], ackDue := false, rxUsed := updAt l.rxUsed gv (· - gu)
                      rxGranted := updAt l.rxGranted gv (· + gu) }
    if ctl then l
    else
      { l with txSeq := seqNext seq, txCount := if seqNext seq == 1 then l.txCount + 1 else l.txCount
               replay := l.replay ++ [{ seq := seq, bytes := bytes, sends := 1 }]
               ackedAt := if l.replay.isEmpty then s.wall else l.ackedAt
               txUnits := updAt l.txUnits vc (· - cost)
               timeSentAt := if q.type == 7 then some s.time.now else l.timeSentAt })

/-- ACK and NAK (R380): neither takes a number, units or replay space. -/
def sendAck (s : State) (n : Nat) (type : Nat := 15) : State :=
  transmit s n { type := type, ctl := 0, land := [], payload := [], last := none, forward := none }

/-- An ACK for every channel whose freed units wait to be granted. -/
def sendGrants (s : State) (n : Nat) : State :=
  (List.range 4).foldl (fun s _ => if (List.range 4).any (fun v => freeUnits (getLink s n) v != 0) then sendAck s n else s) s

/-- A frame of VC0 or VC3: a routed message or a link control frame. -/
def sharedFrame (type : Nat) : Bool := frameVc type == 0 || frameVc type == 3

/-- Is the die-wide share of routed and link control frames that wait for acknowledgement used up (R411)? -/
def shareFull (s : State) : Bool :=
  4096 ≤ (s.links.map (fun l => (l.replay.filter (fun f => sharedFrame (nth f.bytes 0).toNat)).length)).sum

/-- May a waiting frame leave now: its channel is open in the port's state, and units, replay space and the share of
R411 (`full`: used up) suffice? -/
def mayLeave (full : Bool) (l : Link) (q : TxReq) : Bool :=
  let len := frameLen l q.type q.payload.length
  !(full && sharedFrame q.type) &&
  (if l.state == 2#3 then isHandshake q.type else l.state == 3#3 || l.state == 4#3)
    && frameUnits len ≤ nth l.txUnits (frameVc q.type)
    && l.replay.length < 256 && (l.replay.foldl (fun n f => n + f.bytes.length) 0) + len ≤ 2 ^ 20

/-- Index of the frame that leaves next (R377): VC3, then VC2, then VC0 and VC1 in rotating order. -/
def nextFrame (full : Bool) (l : Link) : Option Nat :=
  ([3, 2] ++ (if l.turn1 then [1, 0] else [0, 1])).findSome? (fun vc =>
    match indexWhere l.txQueue (fun q => frameVc q.type == vc) with
    | some i => if mayLeave full l (nth l.txQueue i) then some i else none
    | none => none)

/-- The last frame of a CSEND's unit stands in the replay buffer: the unit commits (R403). -/
def sendPlaced (s : State) (last : Option (Nat × UnitRef)) : State :=
  match last with
  | none => s
  | some (g, u) =>
    match (getForager s g).moves.find? (fun m => m.ref == u) with
    | none => s
    | some m =>
      commitUnit (consumeSeqs (setForager s g (fun f => { f with moves := f.moves.filter (fun x => !(x.ref == u)) })) m.run m.seqs)
        m.run u.instr u.unit

/-- The reply to a FORWARD whose frame has entered the replay buffer, or whose frame was lost before (R316). -/
def answerForward (s : State) (p : Option Pending) (code : BitVec 16) : State :=
  match p with
  | some p => reply s p code []
  | none => s

/-- Waiting frames leave as far as units and replay space allow (`fuel` bounds their number). -/
def pumpN (n : Nat) : (fuel : Nat) → State → State
  | 0, s => s
  | fuel + 1, s =>
    let l := getLink s n
    match nextFrame (shareFull s) l with
    | none => s
    | some i =>
      let q := nth l.txQueue i
      let s := setLink s n (fun l =>
        { l with txQueue := l.txQueue.take i ++ l.txQueue.drop (i + 1)
                 turn1 := if frameVc q.type == 0 then true else if frameVc q.type == 1 then false else l.turn1 })
      pumpN n fuel (answerForward (sendPlaced (transmit s n q) q.last) q.forward 0)

def pump (s : State) (n : Nat) : State := pumpN n (getLink s n).txQueue.length s

/-- As `pump`, and where the acknowledgement of a frame has made room in a share that was used up (`full`), every port's
waiting frames leave as far as it lets them (R411). -/
def pumpAfter (full : Bool) (s : State) (n : Nat) : State :=
  let s := pump s n
  if full then (List.range 24).foldl pump s else s

/-- A frame handed to a port. -/
def sendFrame (s : State) (n type : Nat) (land payload : Bytes) (last : Option (Nat × UnitRef) := none) (dl : Bool := false)
    (forward : Option Pending := none) : State :=
  pump (setLink s n (fun l =>
    { l with txQueue := l.txQueue ++ [{ type := type, ctl := frameVc type + 4 * b2n dl, land := land, payload := payload, last := last
                                        forward := forward }] })) n

/-- Frames that wait are lost with their session. -/
def dropQueue (s : State) (n : Nat) : State :=
  let q := (getLink s n).txQueue
  q.foldl (fun s q => answerForward s q.forward 0x0507) (setLink s n (fun l => { l with txQueue := [] }))

/-! ### The state of a port -/

/-- Is a session in force: up or degraded (R375)? -/
def linkUp (l : Link) : Bool := l.state == 3#3 || l.state == 4#3

/-- Landing rings of a link among the rings of an image, by ring id (R393). -/
def landingRings (im : Image) (n : Nat) : List Nat :=
  (List.range im.rings.length).filter (fun g => (nth im.rings g).producerKind == 3 && (nth im.rings g).producerIndex == n)

/-- Change every landing ring of a link in the run that holds it. -/
def mapLanding (s : State) (n : Nat) (f : Ring → Ring) : State :=
  match (getLink s n).run with
  | none => s
  | some r => setRun s r (fun rn => { rn with rings := rn.rings.map (fun g =>
      if g.decl.producerKind == 3 && g.decl.producerIndex == n then f g else g) })

/-- A session ends (R378, R393, R406): keys, replay buffer, waiting frames, units and grants go with it. A
run that holds the link waits for the next session; the port is a domain under recovery (R452). -/
def loseSession (s : State) (n : Nat) : State :=
  let l := getLink s n
  let full := shareFull s
  let s := mapLanding s n (fun g => { g with credits := [] })
  let s := setLink (dropQueue s n) n (fun l =>
    { l with session := none, handshake := none, mode := 0, replay := [], lastNak := none, ackDue := false
             txUnits := List.replicate 4 0, rxGranted := List.replicate 4 0, rxUsed := List.replicate 4 0
             peerRings := l.peerRings.map (fun p => { p with credits := [] })
             lostAt := if l.run.isSome && l.session.isSome && l.lostAt.isNone then some s.wall else l.lostAt
             lastPeer := if l.session.isSome then some l.peerId else l.lastPeer, timeSentAt := none })
  let s := pumpAfter full (loseTimeLink s n) n
  if l.run.isSome && l.session.isSome then beginRecovery s 8 n 0 else s

/-- The Keeper retrains a link (R375, R381, R391, R412): its session ends and it trains. -/
def retrainLink (s : State) (n : Nat) : State :=
  setLink (loseSession s n) n (fun l => { l with state := if linksOpen s then 1 else 0, lanes := 0, retryAt := none, retryWait := 1 })

/-- A fault of a link (R452): its run faults, the session ends, and the Keeper retrains. -/
def linkFault (s : State) (n : Nat) (code : BitVec 16) : State :=
  let s := faultRunOpt s (getLink s n).run code 8 n
  phaseRecord (retrainLink (beginRecovery s 8 n code) n) 8 n 2 code

/-- The link fails under R381: replay_limit is set, the session ends and the Keeper retrains the link. -/
def failLink (s : State) (n : Nat) : State :=
  retrainLink (setLink s n (fun l => { l with err := l.err ||| 0x80#8 })) n

/-- Every unacknowledged frame is sent again as the same bytes (R381); at the eighth send of one frame the
link fails. -/
def resend (s : State) (n : Nat) : State :=
  let s := setLink s n (fun l =>
    { l with wire := l.wire ++ l.replay.map TxFrame.bytes, replayed := satAdd l.replayed l.replay.length
             replay := l.replay.map (fun f => { f with sends := f.sends + 1 }) })
  if (getLink s n).replay.any (fun f => 8 ≤ f.sends) then failLink s n else s

/-- A cumulative acknowledgement: the named frame and those before it leave the replay buffer. -/
def takeAck (s : State) (n ack : Nat) : State :=
  match indexWhere (getLink s n).replay (fun f => f.seq == ack) with
  | some i => setLink s n (fun l => { l with replay := l.replay.drop (i + 1), ackedAt := s.wall })
  | none => s

/-- NAK, at most one per missing number in each 10 µs (R380). -/
def sendNak (s : State) (n : Nat) : State :=
  let l := getLink s n
  match l.lastNak with
  | some (q, t) => if q == l.rxSeq && s.wall < t + 10000 then s else sendAck (setLink s n (fun l => { l with lastNak := some (l.rxSeq, s.wall) })) n 16
  | none => sendAck (setLink s n (fun l => { l with lastNak := some (l.rxSeq, s.wall) })) n 16

/-! ### Limits (R390, R391) -/

/-- A frame dropped without malformation. -/
def dropFrame (s : State) (n : Nat) : State := setLink s n (fun l => { l with drop := satAdd l.drop 1 })

/-- Quarantine (R391): one QUARANTINE frame, which leaves at once (DESIGN CHOICE, notes/assumptions/90.md: neither the port's
state nor units nor replay space hold it), the fault of the run, 1 s × 2^(k−1) and at most 256 s. -/
def quarantineLink (s : State) (n : Nat) : State :=
  let l := getLink s n
  let recent := l.quarTimes.filter (fun t => s.wall < t + 3600 * 10 ^ 9) ++ [s.wall]
  let period := min 256 (2 ^ (recent.length - 1))
  let s := transmit s n { type := 14, ctl := frameVc 14, land := [], payload := natLe 2 0x0312 ++ natLe 2 0 ++ natLe 4 period
                          last := none, forward := none }
  let s := faultRunOpt s l.run 0x0312 8 n
  let s := beginRecovery s 8 n 0x0312
  setLink (phaseRecord (loseSession s n) 8 n 2 0x0312) n (fun l =>
    { l with state := 5, cause := 0x0312, quarTimes := recent, quarCount := satAdd l.quarCount 1, malTimes := []
             quarUntil := s.wall + period * 10 ^ 9 })

/-- A malformed frame: dropped, its bit of LNK_ERR set, counted; q_limit of them within 10 ms quarantine
the link (R390, R391). -/
def malformed (s : State) (n bitNo : Nat) : State :=
  let s := setLink s n (fun l =>
    { l with err := l.err ||| BitVec.ofNat 8 (2 ^ bitNo), malCount := satAdd l.malCount 1
             malTimes := l.malTimes.filter (fun t => s.wall < t + 10 ^ 7) ++ [s.wall] })
  let l := getLink s n
  if bits l.cfg.toNat 23 16 ≤ l.malTimes.length then quarantineLink s n else s

/-! ### Reception (R380, R390) -/

/-- A reserved type or field, or a length wrong for the type (R390); `tag` is the length of the tag. A QUARANTINE whose code
no die reports (R14) counts as one with a reserved value: DEDUCED, notes/assumptions/84.md. -/
def frameMalformed (k : Bytes) (tag : Nat) : Bool :=
  let ty := field k 0 1
  let ctl := field k 1 1
  let len := field k 2 2
  let z (off size : Nat) : Bool := field k off size != 0
  ty == 0 || 16 < ty || ctl >>> 3 != 0 || (if isAckNak ty then ctl != 0 || z 4 4 else ctl % 4 != frameVc ty)
    || 4096 < len || k.length != 32 + len + tag + 4 || !frameLengthOk ty len || field k 12 2 >>> 14 != 0 || z 14 2
    || (ty == 2 && (z 21 8 || z 29 3))
    || (ty == 1 && (63 < field k 16 1 || field k 17 1 > 1 || field k 18 2 == 0 || z 25 1 || (!bit (field k 17 1) 0 && z 28 4)))
    || (ty == 6 && (z 16 1 || z 17 1 || field k 18 2 == 0 || z 22 3 || z 25 1 || z 26 2 || z 28 4))
    || ((3 ≤ ty && ty ≤ 5) && 63 < field k 16 1)
    || (ty == 3 && z 38 2) || (ty == 7 && z 36 4)
    || (ty == 8 && (field k 37 1 > 1 || z 38 2 || z 50 6 || z 66 6))
    || (ty == 9 && (field k 32 2 != 1 || 2 < field k 34 1 || 2 < field k 35 1 || z 38 2 || field k 44 4 == 0 || 8192 < field k 44 4
          || ((k.drop 177).take 111).any (· != 0)))
    || (ty == 13 && (field k 32 1 > 1 || z 34 2 || len != 4 + 16 * field k 33 1
          || (List.range (field k 33 1)).any (fun i =>
               let o := 36 + 16 * i
               !(field k o 1 == 1 || field k o 1 == 2) || z (o + 2) 2 || z (o + 6) 2)))
    || (ty == 14 && (z 34 2 || (field k 32 2 != 0 && field k 32 2 < 0x100) || 0x800 ≤ field k 32 2))
    || (isAckNak ty && ((k.drop 16).take 16).any (· != 0))

/-- Routing fields on a one-hop channel (R390). The ring id of RING_OPEN, RING_CLOSE and RCREDIT stands
where DATA has it: notes/assumptions/31.md. -/
def strayRoute (k : Bytes) : Bool :=
  let ty := field k 0 1
  ty != 2 && (bit (field k 1 1) 2
    || (if ty == 1 || ty == 6 then false else if 3 ≤ ty && ty ≤ 5 then ((k.drop 17).take 15).any (· != 0)
        else ((k.drop 16).take 16).any (· != 0)))

/-- Wraps of an arriving frame's sequence number (R388): one more than the receiver's for a newer number across the wrap, one
fewer for an older one. ACK and NAK have no number and count as the frames that are next in order: DEDUCED,
notes/assumptions/84.md. -/
def frameWraps (l : Link) (type seq : Nat) : Nat :=
  if isAckNak type || seq == l.rxSeq then l.rxCount
  else if seqOlder seq l.rxSeq then (if l.rxSeq < seq then l.rxCount - 1 else l.rxCount)
  else if seq < l.rxSeq then l.rxCount + 1 else l.rxCount

/-- The payload of a frame in clear, when its tag verifies (R380, R388). -/
def openFrame (s : State) (l : Link) (k : Bytes) : Option Bytes :=
  let ty := field k 0 1
  let body := k.take (k.length - 4)
  if !protectedFrame l ty then some (body.drop 32)
  else
    let (key, salt) := directionKey (l.session.getD []) (!isLower s l.peerId.toNat)
    let seq := field k 4 4
    let wraps := frameWraps l ty seq
    let tag := body.drop (body.length - 16)
    let inner := body.take (body.length - 16)
    if l.mode == 1#2 then (Config.gcmOpen key (frameNonce salt wraps seq) inner [] tag).map (fun _ => inner.drop 32)
    else (Config.gcmOpen key (frameNonce salt wraps seq) (inner.take 32) (inner.drop 32) tag).map (padTo (inner.length - 32))

/-- A frame of type `t` on port `n`: the checks that are common to every type, then `f` on its payload
(R378, R380, R390). A frame of another valid type belongs to that type's command and has no effect here. -/
def linkReceive (s : State) (n t : Nat) (k : Bytes) (fec : FecReport) (f : Bytes → State → State) : State :=
  let l := getLink s n
  let ty := field k 0 1
  if l.lanes == 0 || l.state == 0#3 || l.state == 1#3 || l.state == 5#3 || (1 ≤ ty && ty ≤ 16 && ty != t) then s
  else
    let s := setLink s n (fun l => { l with fecCe := satAdd l.fecCe fec.corrected, fecUe := satAdd l.fecUe fec.uncorrected })
    if fec.uncorrected != 0 || k.length < 36 || (crc32c (k.take (k.length - 4))).toNat != leNat (k.drop (k.length - 4)) then
      sendNak (setLink s n (fun l => { l with err := l.err ||| 0x20#8 })) n
    else
      match openFrame s l k with
      | none =>
        let s := malformed s n 3
        if (getLink s n).state == l.state then sendNak s n else s
      | some pay =>
        let seq := field k 4 4
        let full := shareFull s
        let tag := if protectedFrame l ty then 16 else 0
        let checked (s : State) : State :=
          let cost := frameUnits k.length
          let claim := field k 1 1 % 4
          let back (s : State) : State := setLink s n (fun l =>
            if isAckNak ty || nth l.rxGranted claim < cost then l
            else freedUnits { l with rxGranted := updAt l.rxGranted claim (· - cost) } claim cost)
          if frameMalformed k tag then malformed (back s) n 2
          else
          let s := takeAck s n (field k 8 4)
          let g := field k 12 2
          let s := setLink s n (fun l => { l with txUnits := updAt l.txUnits (bits g 13 12) (· + bits g 11 0) })
          if isAckNak ty then f pay s
          else if nth (getLink s n).rxGranted (frameVc ty) < frameUnits k.length then malformed s n 0
          else
            let s := setLink s n (fun l =>
              freedUnits { l with rxGranted := updAt l.rxGranted (frameVc ty) (· - frameUnits k.length) } (frameVc ty) (frameUnits k.length))
            if strayRoute k then malformed s n 4 else f pay s
        if isAckNak ty then pumpAfter full (checked s) n
        else if seq == l.rxSeq then
          let s := setLink s n (fun l =>
            { l with rxSeq := seqNext l.rxSeq, rxCount := if seqNext l.rxSeq == 1 then l.rxCount + 1 else l.rxCount
                     ackDue := true, lastNak := none })
          pumpAfter full (checked s) n
        else if seqOlder seq l.rxSeq then pump (setLink s n (fun l => { l with ackDue := true })) n
        else pump (sendNak s n) n

end Sys2Proof.Machine
end

