-- ==== Sys2Proof/Machine/Waggle.lean ====
section
/-!
DEFINITION. Waggle above the link layer: sessions (R385 to R389), landing rings and the landing reducer
(R392 to R401), the sending of chunks (R399, R403), checkpoints (R405), RESUME (R406 to R408), routed
messages (R382 to R384, R410), and the commands of the link ports.
-/

namespace Sys2Proof.Machine

/-! ### Numbers of a run -/

/-- The numeric declaration of a run (Table 9.4). -/
def imageMode (im : Image) : NumMode := { flushA := im.flushA, flushB := im.flushB, heirloom := im.numericMode == 1 }

/-- The seed in a slot: 0 to 7 of the image, 8 to 15 of the order (R59, R331). -/
def seedOf (rn : Run) (i : Nat) : BitVec 64 := if i < 8 then nth rn.image.seeds i else nth rn.orderSeeds (i - 8)

/-! ### Tokens of landing rings (R392, R394) -/

/-- Grants every armed sequence whose slot is uncapped with its lap, when the ring is open and the session
in force (R394). -/
def grantLanding (s : State) (r g : Nat) : State :=
  let rg := getRing s r g
  let n := rg.decl.producerIndex
  if rg.decl.producerKind != 3 || !rg.opened || !linkUp (getLink s n) then s
  else
    match getRun s r with
    | none => s
    | some rn =>
      let id := (indexWhere (landingRings rn.image n) (· == g)).getD 0
      let qs := (rg.armed.map Armed.seq).filter (fun q => tokenFree rg q && !rg.credits.contains q)
      let s := setRing s r g (fun rg => { rg with credits := rg.credits ++ qs })
      (creditMaps qs).foldl (fun s m => sendFrame s n 5 (natLe 1 id) m) s

/-- The consumer's last read of a sequence: the slot becomes uncapped, and its producer's credit returns
(R94, R348, R394). -/
def releaseSlot (s : State) (r g q : Nat) : State := grantLanding (uncapSlot s r g q) r g

/-- RING_OPEN for every landing ring of a link that has not been opened, and what may be granted, while a session is up
(R393). -/
def openLanding (s : State) (n : Nat) : State :=
  match (if linkUp (getLink s n) then (getLink s n).run else none) with
  | none => s
  | some r =>
    match getRun s r with
    | none => s
    | some rn =>
      if !rn.ready then s else
      (landingRings rn.image n).zipIdx.foldl (fun s gk =>
        let rg := getRing s r gk.1
        if rg.opened then grantLanding s r gk.1
        else
          let s := sendFrame s n 3 (natLe 1 gk.2)
            (natLe 4 rg.decl.slotSize ++ natLe 2 rg.decl.slotCount ++ natLe 2 0 ++ natLe 8 0)
          grantLanding (setRing s r gk.1 (fun g => { g with opened := true, credits := [], partials := [] })) r gk.1) s

/-- RING_CLOSE for every landing ring of a run (R393). -/
def closeLanding (s : State) (r : Nat) : State :=
  match getRun s r with
  | none => s
  | some rn =>
    (List.range 24).foldl (fun s n =>
      (landingRings rn.image n).zipIdx.foldl (fun s gk =>
        let s := if (getRing s r gk.1).opened && linkUp (getLink s n) then sendFrame s n 4 (natLe 1 gk.2) [] else s
        setRing s r gk.1 (fun g => { g with opened := false, credits := [], partials := [] })) s) s

/-! ### Chunks (R399) -/

/-- Elements of a tensor, and of chunk `k`. -/
def totalElems (i : Issued) : Nat := i.tiling.ext.foldl (· * ·) 1
def chunkCount (i : Issued) (k : Nat) : Nat := min i.chunk (totalElems i - k * i.chunk)
/-- Bytes of chunk `k`, packed. -/
def chunkBytes (i : Issued) (k : Nat) : Nat := let f := (nth i.op.descs 0).fmt; ceilDiv (chunkCount i k) (groupSize f) * groupBytes f

/-- Encodings packed into storage groups (R44 to R46). -/
def packElems (f : Nat) (raws : List Nat) : Bytes :=
  (chunksOf (groupSize f) (raws.length + 1) raws).flatMap (fun g =>
    if f == 1 then g.flatMap (fun r => natLe 4 r) ++ g.map (fun r => BitVec.ofNat 8 (r >>> 32))
    else natLe (groupBytes f) (g.zipIdx.foldl (fun n p => n + p.1 * 2 ^ (fmtBits f * p.2)) 0))

/-- First byte of the slot that holds a sequence. -/
def slotBase (rg : Ring) (q : Nat) : Nat := rg.decl.base + q % rg.decl.slotCount * rg.decl.slotSize

/-- The bytes of chunk `k` of a CSEND: of its slot, or of its elements in index order (R399, R403). -/
def chunkSource (s : State) (r : Nat) (rn : Run) (i : Issued) (k : Nat) : Bytes :=
  let d := nth i.op.descs 0
  match ringOf rn.image d with
  | some g => combBytes s (slotBase (getRing s r g) (nth i.ringBase g + k)) (chunkBytes i k)
  | none =>
    packElems d.fmt ((List.range (chunkCount i k)).map (fun j =>
      readElem (readComb s) d.fmt d.base (elemIndex d (nth i.sizes 0) (ordinalIdx i.tiling.ext (k * i.chunk + j)))))

/-- The DATA frames of a chunk (Table 12.5): land field and payload of each, in order. -/
def chunkFrames (ring plan seq : Nat) (bytes : Bytes) : List (Bytes × Bytes) :=
  let parts := chunksOf 4096 (bytes.length + 1) bytes
  let crc := (crc32c bytes).toNat
  parts.mapIdx (fun i p =>
    let last := i + 1 == parts.length
    (natLe 1 ring ++ natLe 1 (b2n last) ++ natLe 2 plan ++ natLe 5 seq ++ natLe 1 0 ++ natLe 2 (i * 64) ++ natLe 4 (if last then crc else 0), p))

/-- The frames of a chunk handed to a link; `last` ends a CSEND's unit (R403). -/
def sendChunk (s : State) (n ring plan seq : Nat) (bytes : Bytes) (last : Option (Nat × UnitRef)) : State :=
  let fs := chunkFrames ring plan seq bytes
  fs.zipIdx.foldl (fun s f => sendFrame s n 1 f.1.1 f.1.2 (if f.2 + 1 == fs.length then last else none)) s

/-- Peer ring id of a CSEND. -/
def peerRingId (op : PInstr) : Nat := bits op.imm0.toNat 15 8
/-- The peer's ring of an id, once open. -/
def peerRing (l : Link) (id : Nat) : Option PeerRing := l.peerRings.find? (fun p => p.id == id)

/-- A CSEND learns its chunk size from the peer's RING_OPEN: its units are then known, or it faults (R399).
The one unit that stood for them stays the first, unless a replay has it committed (R458); its ring passes the others too
(R93). -/
def bindSend (s : State) (r : Nat) (i : Issued) : State :=
  match getRun s r, peerRing (getLink s (linkOf i.op)) (peerRingId i.op) with
  | some rn, some p =>
    let f := (nth i.op.descs 0).fmt
    let c := chunkElems f p.slotSize
    if i.chunk != 0 || i.units.isEmpty then s
    else if c == 0 || c % groupSize f != 0 then
      runFault (dropUnits s r (· == i.instr)) r 0x0313 i.instr 0
    else
      let us := List.range (ceilDiv (totalElems i) c)
      let owed := match orderOf s rn with | some o => owedUnits o i.instr us | none => us
      let s := setIssued s r i.instr (fun i => { i with chunk := c, units := us, committed := us.filter (fun u => !owed.contains u) })
      let s := match ringOf rn.image (nth i.op.descs 0) with
        | some g => setRing s r g (fun rg => { rg with consBase := rg.consBase + (us.length - 1) })
        | none => s
      let s := setProgress s r i.instr (fun p => { p with units := us.length })
      let first : UnitRef := { instr := i.instr, unit := 0 }
      let s := if owed.contains 0 then s
        else (List.range 32).foldl (fun s g => setForager s g (fun x => { x with moves := x.moves.filter (fun m => !(m.run == r && m.ref == first)) }))
          (dropUnits s r (· == i.instr))
      let more := (owed.filter (· != 0)).map (fun u => ({ instr := i.instr, unit := u } : UnitRef))
      let s := setFrame s (unitHome rn.image i.op i.sizes i.tiling c 0) (fun fr =>
        { fr with moves := match indexWhere fr.moves (· == first) with
                    | some x => fr.moves.take (x + 1) ++ more ++ fr.moves.drop (x + 1)
                    | none => more ++ fr.moves })
      if owed.isEmpty then commitInstr s r i.instr else s
  | _, _ => s

/-- Every CSEND of a link that waited for the peer's RING_OPEN. -/
def bindSends (s : State) (n : Nat) : State :=
  match (getLink s n).run with
  | none => s
  | some r =>
    match getRun s r with
    | none => s
    | some rn =>
      (rn.issued.filter (fun i => !i.op.micro && i.op.opcode == 0x80 && linkOf i.op == n)).foldl (fun s i => bindSend s r i) s

/-! ### Checkpoints (R404, R405) -/

/-- Plans with a span in progress on a link: a collective of the plan has issued, and no later CCHECK of the
plan has completed. -/
def spanPlans (s : State) (n : Nat) : List Nat :=
  match (getLink s n).run with
  | none => []
  | some r =>
    match getRun s r with
    | none => []
    | some rn =>
      match orderOf s rn with
      | none => []
      | some o =>
        let prog := orderProgram s rn o
        let closed (p k : Nat) : Bool := (List.range o.nextIssue).any (fun j =>
          k < j && isCheck (nth prog j) && planOf (nth prog j) == p && rn.checkWait != some j)
        ((List.range o.nextIssue).filterMap (fun k =>
          let op := nth prog k
          if isColl op && !isCheck op && linkOf op == n && !closed (planOf op) k then some (planOf op) else none)).eraseDups

/-- The plans whose CHECK frames a run expects on a link: those of its CCHECKs that name the link. -/
def expectedPlans (s : State) (n : Nat) : List Nat :=
  match (getLink s n).run with
  | none => []
  | some r =>
    match getRun s r with
    | none => []
    | some rn =>
      ((List.range rn.image.entries.length).flatMap (fun e =>
        (programOf (runImage s rn) rn.image e).filterMap (fun op =>
          if isCheck op && bit op.imm1.toNat n then some (planOf op) else none))).eraseDups

/-- A waiting CCHECK completes when every link of its mask has delivered a count that has reached its own. -/
def tryCheck (s : State) (r : Nat) : State :=
  match getRun s r with
  | none => s
  | some rn =>
    match rn.checkWait, orderOf s rn with
    | some k, some o =>
      let op := nth (orderProgram s rn o) k
      let plan := planOf op
      let own := assocD rn.checkCounts plan 0
      let ns := maskList 24 op.imm1.toNat
      if ns.all (fun n => own ≤ assocD (getLink s n).checksIn plan 0) then
        let s := setRun s r (fun rn => { rn with checkWait := none })
        let s := ns.foldl (fun s n => setLink s n (fun l => { l with sentChunks := l.sentChunks.filter (fun c => c.plan != plan) })) s
        commitInstr s r k
      else s
    | _, _ => s

/-- A CHECK count delivered for a plan: at least it has been received (R405, R407). -/
def takeCheck (s : State) (n plan count : Nat) : State :=
  let s := setLink s n (fun l => { l with checksIn := assocSet l.checksIn plan (max count (assocD l.checksIn plan 0)) })
  match (getLink s n).run with
  | some r => tryCheck s r
  | none => s

/-- The full count that a CHECK frame's 16 bits name: the nearest at or above what was received. -/
def fullCount (sofar c : Nat) : Nat :=
  let d := (c + 65536 - sofar % 65536) % 65536
  if d < 32768 then sofar + d else sofar

/-! ### Sessions (R385 to R389, R406) -/

/-- HELLO (Table 12.7). -/
def helloPayload (s : State) (l : Link) (draw : Nat) : Bytes :=
  padTo 256 (natLe 2 1 ++ natLe 1 (bits l.cfgInForce.toNat 5 4) ++ natLe 1 (bits l.cfgInForce.toNat 3 2) ++ natLe 2 s.life.dieId.toNat
    ++ natLe 2 0 ++ natLe 4 l.epoch.toNat ++ natLe 4 s.life.chain.length ++ padTo 32 (Config.randomBytes draw 32)
    ++ padTo 97 (Config.ephemeralPublic draw))

/-- A handshake begins: HELLO, then the certificate chain in CERT frames (R385). -/
def startHandshake (s : State) (n : Nat) : State :=
  let d := s.draws
  let h := helloPayload s (getLink s n) d
  let s := setLink { s with draws := s.draws + 1 } n (fun l =>
    { l with state := 2, retryAt := none
             handshake := some { draw := d, ownHello := h, peerHello := [], peerChain := [], sentCert := true, chainOk := false
                                 sentProve := false, proveOk := false, sentFinish := false, finishOk := false, keys := [], since := s.wall } })
  let s := sendFrame s n 9 [] h
  (chunksOf 4096 (s.life.chain.length + 1) s.life.chain).foldl (fun s c => sendFrame s n 10 [] c) s

/-- A handshake fails: the link reports failed with a code, and the Keeper retries after a wait that doubles
up to 64 s (R386, R389). -/
def failHandshake (s : State) (n : Nat) (code : BitVec 16) : State :=
  setLink (dropQueue s n) n (fun l =>
    { l with state := 6, cause := code, handshake := none
             retryAt := some (s.wall + l.retryWait * 10 ^ 9), retryWait := min 64 (2 * l.retryWait) })

/-- Changes the handshake in progress. -/
def setHandshake (s : State) (n : Nat) (f : Handshake → Handshake) : State :=
  setLink s n (fun l => { l with handshake := l.handshake.map f })

/-- The transcript hash: both HELLO payloads, then both chains, those of the lower die identifier first (R385). -/
def transcript (s : State) (h : Handshake) : BitVec 384 :=
  let a := h.ownHello
  let b := h.peerHello
  if isLower s (field b 4 2) then Config.sha384 (a ++ b ++ s.life.chain ++ h.peerChain)
  else Config.sha384 (b ++ a ++ h.peerChain ++ s.life.chain)

/-- Epoch and mode of the session that a handshake agrees on (R386, R387). -/
def agreedEpoch (h : Handshake) : BitVec 32 := BitVec.ofNat 32 (max (field h.ownHello 8 4) (field h.peerHello 8 4) + 1)
def agreedMode (h : Handshake) : Nat := max (field h.ownHello 2 1) (field h.peerHello 2 1)

/-- HMAC-SHA-384 (RFC 2104; blocks of 128 bytes). -/
def hmac384 (key msg : Bytes) : Bytes :=
  let k := padTo 128 (if 128 < key.length then natBe 48 (Config.sha384 key).toNat else key)
  let inner := natBe 48 (Config.sha384 (k.map (· ^^^ 0x36) ++ msg)).toNat
  natBe 48 (Config.sha384 (k.map (· ^^^ 0x5C) ++ inner)).toNat

/-- HKDF-SHA-384 with two blocks of output (RFC 5869). -/
def hkdf384 (ikm salt info : Bytes) : Bytes :=
  let prk := hmac384 salt ikm
  let t1 := hmac384 prk (info ++ [1])
  t1 ++ hmac384 prk (t1 ++ info ++ [2])

/-- The 72 bytes of keys and salts (R387): the x-coordinate of the shared point, salted with the transcript hash, with
"Waggle v1" and the epoch as info. -/
def sessionKeys (x : Bytes) (transcriptHash : BitVec 384) (epoch : BitVec 32) : Bytes :=
  (hkdf384 (padTo 48 x) (natBe 48 transcriptHash.toNat)
    ([0x57, 0x61, 0x67, 0x67, 0x6C, 0x65, 0x20, 0x76, 0x31] ++ natLe 4 epoch.toNat)).take 72

/-- The device key seed in force. -/
def deviceSeedOf (s : State) : BitVec 384 := (nth s.life.fuses.banks (s.life.fuses.banks.length - 1)).seed

/-- The entries of a RESUME: landing rings with the first sequence not capped, and plans with the CHECK count
sent (R406). -/
def resumeEntries (s : State) (n : Nat) : List Bytes :=
  let e (kind ring plan v : Nat) : Bytes := natLe 1 kind ++ natLe 1 ring ++ natLe 2 0 ++ natLe 2 plan ++ natLe 2 0 ++ natLe 8 v
  let rings := match (getLink s n).run with
    | none => []
    | some r =>
      match getRun s r with
      | none => []
      | some rn => (landingRings rn.image n).zipIdx.map (fun gk => e 1 gk.2 0 (nth rn.rings gk.1).prodSeq)
  (rings ++ (spanPlans s n).map (fun p => e 2 0 p (assocD (getLink s n).checksOut p 0))).take 64

/-- Straight after FINISH of a session that follows another, each side sends RESUME (R406); no run state for the link is held where no run holds it, or where this die
has had no session on it since its reset. -/
def sendResume (s : State) (n : Nat) : State :=
  let es := resumeEntries s n
  sendFrame s n 13 [] (natLe 1 (b2n ((getLink s n).run.isNone || (getLink s n).lastPeer.isNone)) ++ natLe 1 es.length ++ natLe 2 0 ++ es.flatten)

/-- The recovery of a link ends; one that no code began leaves no record (R452, R453). -/
def linkRecovered (s : State) (n : Nat) : State :=
  match findRecovery s 8 n with
  | none => s
  | some r =>
    if r.code == 0 then setKeeper s (fun k => { k with recoveries := k.recoveries.filter (fun x => !(x.domain == 8 && x.inst == n)) })
    else endRecovery s 8 n

/-- Both FINISH frames have verified: the session begins (R375, R378, R385, R387, R393, R406, R408). -/
def beginSession (s : State) (n : Nat) : State :=
  let l := getLink s n
  match l.handshake with
  | none => s
  | some h =>
    let epoch := agreedEpoch h
    let peer := BitVec.ofNat 16 (field h.peerHello 4 2)
    let s := setLink s n (fun l =>
      { l with state := if l.lanes == 15#4 then 3 else 4, mode := BitVec.ofNat 2 (agreedMode h), epoch := epoch, peerId := peer
               session := some h.keys, handshake := none, txCount := 0, rxCount := 0, retryWait := 1, lostAt := none
               txUnits := List.replicate 4 0, rxGranted := List.replicate 4 0, rxUsed := 0 :: ((List.range 4).drop 1).map linkBuffer })
    let s := sendGrants s n
    let s := linkRecovered s n
    let s := match l.lastPeer with
      | some p => if p != peer then faultRunOpt s l.run 0x0302 8 n else s
      | none => s
    let s := if epoch.toNat > 1 then sendResume s n else s
    openLanding s n

/-! ### Routed messages (R382 to R384, R410) -/

/-- The entry of the route table. -/
def routeOf (s : State) (dst : Nat) : Nat := (assocD s.routes dst 0x1E).toNat

/-- A frame of VC0 leaves by a port with its dateline class (R384). -/
def sendRouted (s : State) (out dst src hops : Nat) (dl : Bool) (msg : Bytes) (forward : Option Pending := none) : State :=
  let dl := dl || bit (getLink s out).cfgInForce.toNat 7
  sendFrame s out 2 (natLe 2 dst ++ natLe 2 src ++ natLe 1 hops) msg none dl forward

/-- A message that this die originates for another: 64 hops, by the table (R383). -/
def sendRemote (s : State) (dst : Nat) (msg : Bytes) : State :=
  let out := routeOf s dst
  if out < 24 && linkUp (getLink s out) then sendRouted s out dst s.life.dieId.toNat 64 false msg else s

/-- A message for this die: into the queue of 64 of mailbox 14 or 15, by its port (R410). -/
def queueMail (s : State) (n : Nat) (msg : Bytes) (src : Nat) : State :=
  pullArrived (setMailbox s (14 + n % 2) (fun b => { b with arrived := b.arrived ++ [(msg, BitVec.ofNat 16 src)] })) (14 + n % 2)

/-- A frame of VC0 that has passed its checks: delivered here, held in its dateline class's buffer while the queue is full
(R384, R410: class, units, source, message), or sent on. -/
def routeFrame (s : State) (n : Nat) (k pay : Bytes) : State :=
  let dst := field k 16 2
  let src := field k 18 2
  let hops := field k 20 1
  if dst == s.life.dieId.toNat then
    if (getMailbox s (14 + n % 2)).arrived.length < 64 then queueMail s n pay src
    else
      setLink s n (fun l =>
        { l with heldFrames := l.heldFrames ++ [natLe 1 (b2n (bit (field k 1 1) 2)) ++ natLe 1 (frameUnits k.length) ++ natLe 2 src ++ pay] })
  else
    let out := routeOf s dst
    if hops ≤ 1 || 24 ≤ out || out == n || !linkUp (getLink s out) then dropFrame s n
    else
      let dim (p : Nat) : Nat := bits (getLink s p).cfgInForce.toNat 9 8
      sendRouted s out dst src (hops - 1) (bit (field k 1 1) 2 && dim out == dim n) pay

/-! ### The landing reducer (R395, R396, R399 to R401) -/

/-- The landed value of an element: arriving `a`, local partial `p` (R395). -/
def landValue (md : NumMode) (op : Nat) (r : Rnd) (a p : TV) : TV × Ev :=
  if op == 0 then (a, Ev.zero)
  else
    let va := decodeVal (heirloomOperand md a)
    let vp := decodeVal (heirloomOperand md p)
    let y := if op == 1 then va.add vp else if op == 2 then maxVal va vp else minVal va vp
    let (v, ev) := rnd md a.fmt y r
    (tv a.fmt v, ev)

/-- Chunk `k` of a CLAND combined in its slot: byte writes, non-finite results and flushes. -/
def landChunk (s : State) (rn : Run) (i : Issued) (k slot : Nat) : List (Nat × Byte) × Nat × Nat :=
  let d0 := nth i.op.descs 0
  let d1 := nth i.op.descs 1
  let lop := bits i.op.imm0.toNat 7 5
  let md := imageMode rn.image
  let seed := seedOf rn i.op.seedIndex
  let one (j : Nat) : TV × Ev :=
    let a : TV := { fmt := d0.fmt, raw := readElem (readComb s) d0.fmt slot j }
    let e : Int := elemIndex d1 (nth i.sizes 1) (ordinalIdx i.tiling.ext (k * i.chunk + j))
    let p : TV := { fmt := d1.fmt, raw := if lop == 0 then 0 else readElem (readComb s) d1.fmt d1.base e }
    let r := if bits i.op.imm0.toNat 9 8 == 2 then .srnd (rng32 seed i.instr k (j / 16) (j % 16) 10 % 65536) else .rne
    landValue md lop r a p
  let ys := (List.range (chunkCount i k)).map one
  let bad := ys.filter (fun y => let v := decodeVal y.1; v.isNan || v.isInf)
  (bytesAt slot (packElems d0.fmt (ys.map (fun y => y.1.raw))), bad.length, ys.foldl (fun n y => n + y.2.flushed) 0)

/-- A DATA frame for a credited sequence that breaks R400: malformed, and the run faults (R390). -/
def windowFault (s : State) (n : Nat) : State :=
  let s := malformed s n 1
  if (getLink s n).state == 5#3 then s else linkFault s n 0x0310

/-- A landing that meets an uncorrectable comb word, in a merge or in its local partial (R84, R107): nothing is written, the
run faults with 0x0222, and the session ends so that RESUME names the sequence again (R461); at a word where that has been
tried before the order loses its data (R456). DEDUCED: notes/assumptions/84.md. -/
def landPoison (s : State) (n r : Nat) (rn : Run) (a : Armed) (addr : Nat) : State :=
  let s := markPoison s addr
  let before := match orderOf s rn with | some o => o.redoneAt.contains (addr / 8) | none => false
  if before then
    runFault (invalidate (runFault s r 0x0222 a.instr a.chunk) r (regionsAt rn.image addr)) r 0x0292 a.instr a.chunk (phase := 4)
  else
    let s := setOrder s (runOrder s r) (fun o => { o with redoneAt := o.redoneAt ++ [addr / 8] })
    retrainLink (runFault s r 0x0222 a.instr a.chunk (redone := 1)) n

/-- The first poisoned word that one of some byte writes would merge into (R84). -/
def mergePoison (s : State) (ws : List (Nat × Byte)) : Option Nat :=
  if s.poison.isEmpty then none
  else
    let whole := wholeWords ws
    (ws.map Prod.fst).find? (fun a => poisoned s a && !whole.contains (a / 8))

/-- The first poisoned word of a chunk's local partial (R107). -/
def partialPoison (s : State) (i : Issued) (k : Nat) : Option Nat :=
  let d := nth i.op.descs 1
  if s.poison.isEmpty || bits i.op.imm0.toNat 7 5 == 0 then none
  else
    ((List.range (chunkCount i k)).flatMap (fun j =>
      (elemBytes d.fmt d.base (elemIndex d (nth i.sizes 1) (ordinalIdx i.tiling.ext (k * i.chunk + j)))).map Int.toNat)).find? (poisoned s)

/-- A DATA frame lands (R400, R401). -/
def landData (s : State) (n : Nat) (k pay : Bytes) : State :=
  let l := getLink s n
  let found : Option (Nat × Run × Nat × Armed × Issued) := do
    let r ← l.run
    let rn ← getRun s r
    let g ← (landingRings rn.image n)[field k 16 1]?
    let rg := nth rn.rings g
    let q := field k 20 5
    let a ← rg.armed.find? (fun a => a.seq == q)
    let i ← findIssued rn a.instr
    if rg.opened && rg.credits.contains q then some (r, rn, g, a, i) else none
  match found with
  | none => dropFrame s n
  | some (r, rn, g, a, i) =>
    let rg := nth rn.rings g
    let last := bit (field k 17 1) 0
    let off := 64 * field k 26 2
    let part := rg.partials.find? (fun x => x.seq == a.seq)
    let next := match part with | some x => x.next | none => 0
    let size := chunkBytes i a.chunk
    if field k 18 2 != a.plan || off != next || (!last && pay.length % 64 != 0) || size < off + pay.length then windowFault s n
    else
      let slot := slotBase rg a.seq
      match mergePoison s (bytesAt (slot + off) pay) with
      | some w => landPoison s n r rn a w
      | none =>
      let s := writeComb s (bytesAt (slot + off) pay)
      let crc := crcMore (match part with | some x => x.crc | none => 0) pay
      let others := rg.partials.filter (fun x => x.seq != a.seq)
      if !last then
        setRing s r g (fun rg => { rg with partials := { seq := a.seq, next := off + pay.length, crc := crc } :: others })
      else
        let s := setRing s r g (fun rg => { rg with partials := others })
        if crc.toNat != field k 28 4 then linkFault (setLink s n (fun l => { l with err := l.err ||| 0x40#8 })) n 0x0311
        else match partialPoison s i a.chunk with
        | some w => landPoison s n r rn a w
        | none =>
          let (ws, bad, fl) := landChunk s rn i a.chunk slot
          let s := setLink (writeComb s ws) n (fun l => { l with nonfinite := satAdd l.nonfinite bad, flushed := satAdd l.flushed fl })
          let s := setRing s r g (fun rg =>
            { rg with credits := rg.credits.filter (· != a.seq), armed := rg.armed.filter (fun x => x.seq != a.seq) })
          let s := fillSlot s r g a.seq (some (crc32c (combBytes s slot size)))
          grantLanding (commitUnit s r a.instr a.chunk) r g

/-! ### RESUME (R407, R408) -/

/-- The forager that still holds a CSEND's unit. -/
def sendingMove (s : State) (u : UnitRef) : Option (Nat × UnitRef) :=
  ((List.range 32).find? (fun g => (getForager s g).moves.any (fun m => m.ref == u))).map (fun g => (g, u))

/-- Comb bytes of a chunk's source (R399). -/
def chunkReads (rn : Run) (i : Issued) (k : Nat) : List Nat :=
  let d := nth i.op.descs 0
  match ringOf rn.image d with
  | some g => (List.range (chunkBytes i k)).map (slotBase (nth rn.rings g) (nth i.ringBase g + k) + ·)
  | none =>
    (List.range (chunkCount i k)).flatMap (fun j =>
      (elemBytes d.fmt d.base (elemIndex d (nth i.sizes 0) (ordinalIdx i.tiling.ext (k * i.chunk + j)))).map Int.toNat)

/-- One chunk sent again, unless an earlier one has met an uncorrectable word (the flag). Its retained source cannot be
produced again (R404), so such a word loses the order's data at once: DEDUCED, notes/assumptions/84.md. -/
def resendChunk (n ring r : Nat) (rn : Run) (acc : State × Bool) (c : SentChunk) : State × Bool :=
  let (s, stopped) := acc
  match findIssued rn c.instr with
  | some i =>
    if stopped then acc
    else
      match if s.poison.isEmpty then none else (chunkReads rn i c.chunk).find? (poisoned s) with
      | some a =>
        let s := runFault (markPoison s a) r 0x0222 c.instr c.chunk
        (runFault (invalidate s r (regionsAt rn.image a)) r 0x0292 c.instr c.chunk (phase := 4), true)
      | none => (sendChunk s n ring c.plan c.seq (chunkSource s r rn i c.chunk) (sendingMove s { instr := c.instr, unit := c.chunk }), false)
  | none => acc

/-- The chunks sent to a peer ring at or above a sequence are read again and sent again, in ascending sequence. -/
def resendChunks (s : State) (n ring low : Nat) : State :=
  match (getLink s n).run with
  | none => s
  | some r =>
    match getRun s r with
    | none => s
    | some rn =>
      ((((getLink s n).sentChunks.filter (fun c => c.ring == ring && low ≤ c.seq)).mergeSort (fun a b => decide (a.seq ≤ b.seq))).foldl
        (resendChunk n ring r rn) (s, false)).1

/-- R407, and 0x0303 of R408. -/
def takeResume (s : State) (n : Nat) (pay : Bytes) : State :=
  let entry (i off size : Nat) : Nat := field pay (4 + 16 * i + off) size
  let es := List.range (field pay 1 1)
  let spans := spanPlans s n
  let s := setLink s n (fun l => { l with peerRings := l.peerRings.map (fun p => { p with credits := [] }) })
  let s := if bit (field pay 0 1) 0 && !spans.isEmpty then faultRunOpt s (getLink s n).run 0x0303 8 n else s
  let s := (es.filter (fun i => entry i 0 1 == 2)).foldl (fun s i => takeCheck s n (entry i 4 2) (entry i 8 8)) s
  let s := (es.filter (fun i => entry i 0 1 == 1)).foldl (fun s i => resendChunks s n (entry i 1 1) (entry i 8 8)) s
  let s := mapLanding s n (fun g => { g with partials := [], credits := [] })
  openLanding s n

/-! ### The commands -/

/-- LINK_TRAINING_DONE (R375): a disabled link and one with no signal is off; a link trained on 4 or 2 lanes
begins its handshake. -/
def execLinkTrainingDone (n : Fin 24) (signal : Bool) (lanes : BitVec 4) (s : State) : Host.Outcome State Fault Refusal :=
  clocked s (
    let l := getLink s n
    if 2 ≤ l.state.toNat || !linksOpen s then s
    else if !bit l.cfg.toNat 10 || !signal || !(lanes == 15#4 || lanes == 3#4) then
      setLink s n (fun l => { l with state := 0, lanes := 0 })
    else
      let s := setLink (dropQueue s n) n (fun l =>
        { l with state := 2, lanes := lanes, cfgInForce := l.cfg, txSeq := 1, rxSeq := 1, txCount := 0, rxCount := 0, replay := []
                 txUnits := List.replicate 4 0, rxGranted := List.replicate 4 0, rxUsed := [0, 0, 0, linkBuffer 3]
                 retryWait := 1, heldFrames := [] })
      startHandshake (sendGrants s n) n)

/-- HANDSHAKE_RETRY (R389). -/
def execHandshakeRetry (n : Fin 24) (s : State) : Host.Outcome State Fault Refusal :=
  clocked s (if (getLink s n).state == 6#3 && (getLink s n).retryAt.isSome then startHandshake s n else s)

/-- HANDSHAKE_TIMEOUT (R386). -/
def execHandshakeTimeout (n : Fin 24) (s : State) : Host.Outcome State Fault Refusal :=
  clocked s (if (getLink s n).handshake.isSome then failHandshake s n 0x0324 else s)

/-- A handshake frame within a handshake; outside one it is malformed (R390). -/
def inHandshake (s : State) (n : Nat) (f : Handshake → State) : State :=
  match (getLink s n).handshake with
  | some h => f h
  | none => malformed s n 2

/-- HELLO (R385, R386): the peer's identifier and the session mode are checked. -/
def execHello (n : Fin 24) (k : List (BitVec 8)) (fec : FecReport) (s : State) : Host.Outcome State Fault Refusal :=
  clocked s (linkReceive s n 9 k fec (fun pay s => inHandshake s n (fun h =>
    let l := getLink s n
    let peer := field pay 4 2
    let mode := max (field h.ownHello 2 1) (field pay 2 1)
    if !h.peerHello.isEmpty then malformed s n 2
    else if peer == s.life.dieId.toNat || (bit l.peerCfg.toNat 16 && peer != bits l.peerCfg.toNat 15 0) then failHandshake s n 0x0322
    else if mode < field h.ownHello 3 1 || mode < field pay 3 1 then failHandshake s n 0x0323
    else setHandshake s n (fun h => { h with peerHello := pay }))))

/-- CERT (R385, R386): the chain is collected and verified, and PROVE is sent. -/
def execCert (n : Fin 24) (k : List (BitVec 8)) (fec : FecReport) (s : State) : Host.Outcome State Fault Refusal :=
  clocked s (linkReceive s n 10 k fec (fun pay s => inHandshake s n (fun h =>
    let want := field h.peerHello 12 4
    let chain := h.peerChain ++ pay
    if h.peerHello.isEmpty || want < chain.length then malformed s n 2
    else if chain.length < want then setHandshake s n (fun h => { h with peerChain := chain })
    else if !Config.chainValid s.life.anchor chain || Config.chainDieId chain != some (BitVec.ofNat 16 (field h.peerHello 4 2)) then
      failHandshake s n 0x0320
    else
      let h := { h with peerChain := chain, chainOk := true, sentProve := true }
      let s := setHandshake s n (fun _ => h)
      sendFrame s n 11 [] (padTo 96 (Config.deviceSign (deviceSeedOf s) (transcript s h))))))

/-- PROVE (R386, R387): the peer's signature is verified, the keys derived, and FINISH sent. -/
def execProve (n : Fin 24) (k : List (BitVec 8)) (fec : FecReport) (s : State) : Host.Outcome State Fault Refusal :=
  clocked s (linkReceive s n 11 k fec (fun pay s => inHandshake s n (fun h =>
    if !h.chainOk || h.proveOk then malformed s n 2
    else if !Config.ecdsaValid (Config.chainKey h.peerChain) (transcript s h) pay then failHandshake s n 0x0321
    else
      let keys := padTo 72 (sessionKeys (Config.ecdhShared h.draw (fieldBytes h.peerHello 48 97)) (transcript s h) (agreedEpoch h))
      sendFrame (setHandshake s n (fun h => { h with proveOk := true, sentFinish := true, keys := keys })) n 12 [] (List.replicate 16 0))))

/-- FINISH (R387): the peer's key confirmation tag is verified, and the session begins. -/
def execFinish (n : Fin 24) (k : List (BitVec 8)) (fec : FecReport) (s : State) : Host.Outcome State Fault Refusal :=
  clocked s (linkReceive s n 12 k fec (fun pay s => inHandshake s n (fun h =>
    let (key, salt) := directionKey h.keys (!isLower s (field h.peerHello 4 2))
    if !h.proveOk then malformed s n 2
    else if padTo 16 (Config.gcmSeal key (frameNonce salt (getLink s n).rxCount (field k 4 4)) (k.take 32) []).2 != pay then
      malformed s n 3
    else beginSession (setHandshake s n (fun h => { h with finishOk := true })) n)))

/-- RESUME (R407, R408). -/
def execResume (n : Fin 24) (k : List (BitVec 8)) (fec : FecReport) (s : State) : Host.Outcome State Fault Refusal :=
  clocked s (linkReceive s n 13 k fec (fun pay s => if linkUp (getLink s n) then takeResume s n pay else malformed s n 2))

/-- QUARANTINE (R391): the peer's report stands in LNK_STAT.cause. -/
def execQuarantine (n : Fin 24) (k : List (BitVec 8)) (fec : FecReport) (s : State) : Host.Outcome State Fault Refusal :=
  clocked s (linkReceive s n 14 k fec (fun pay s => setLink s n (fun l => { l with cause := BitVec.ofNat 16 (field pay 0 2) })))

/-- ACK (R380): what every frame acknowledges and returns, and nothing else. -/
def execAck (n : Fin 24) (k : List (BitVec 8)) (fec : FecReport) (s : State) : Host.Outcome State Fault Refusal :=
  clocked s (linkReceive s n 15 k fec (fun _ s => s))

/-- NAK (R381): the frames after the one named are sent again. -/
def execNak (n : Fin 24) (k : List (BitVec 8)) (fec : FecReport) (s : State) : Host.Outcome State Fault Refusal :=
  clocked s (linkReceive s n 16 k fec (fun _ s => resend s n))

/-- ACK_TIMER (R380): frames are unacknowledged, or freed units wait, and nothing else is to be sent. -/
def execAckTimer (n : Fin 24) (s : State) : Host.Outcome State Fault Refusal :=
  clocked s (
    let l := getLink s n
    if l.lanes == 0 then s
    else
      let s := if l.ackDue then sendAck s n else s
      sendGrants s n)

/-- REPLAY_TIMEOUT (R381): 20 µs without the ack advancing. -/
def execReplayTimeout (n : Fin 24) (s : State) : Host.Outcome State Fault Refusal :=
  clocked s (if (getLink s n).replay.isEmpty then s else resend s n)

/-- LINK_FAIL (R381): 1 ms without the ack advancing. -/
def execLinkFail (n : Fin 24) (s : State) : Host.Outcome State Fault Refusal :=
  clocked s (if (getLink s n).replay.isEmpty then s else failLink s n)

/-- QUARANTINE_EXPIRY (R391): the link retrains. -/
def execQuarantineExpiry (n : Fin 24) (s : State) : Host.Outcome State Fault Refusal :=
  clocked s (if (getLink s n).state == 5#3 then retrainLink s n else s)

/-- SESSION_RESUME_TIMEOUT (R408). -/
def execSessionResumeTimeout (n : Fin 24) (s : State) : Host.Outcome State Fault Refusal :=
  clocked s (
    let l := getLink s n
    if l.lostAt.isNone || l.session.isSome then s
    else faultRunOpt (setLink s n (fun l => { l with lostAt := none })) l.run 0x0301 8 n)

/-- WAGGLE_DATA (R400). -/
def execWaggleData (n : Fin 24) (k : List (BitVec 8)) (fec : FecReport) (s : State) : Host.Outcome State Fault Refusal :=
  clocked s (linkReceive s n 1 k fec (fun pay s => landData s n k pay))

/-- WAGGLE_MAILBOX (R382, R383, R410). -/
def execWaggleMailbox (n : Fin 24) (k : List (BitVec 8)) (fec : FecReport) (s : State) : Host.Outcome State Fault Refusal :=
  clocked s (linkReceive s n 2 k fec (fun pay s => routeFrame s n k pay))

/-- LINK_MAILBOX_DELIVER (R410): a held frame enters its queue and its units return. -/
def execLinkMailboxDeliver (n : Fin 24) (s : State) : Host.Outcome State Fault Refusal :=
  clocked s (
    match (getLink s n).heldFrames with
    | [] => s
    | h :: rest =>
      if (getMailbox s (14 + n % 2)).arrived.length < 64 then
        queueMail (setLink s n (fun l => { l with heldFrames := rest })) n (h.drop 4) (field h 2 2)
      else s)

/-- WAGGLE_RING_OPEN (R393, R394, R399): the peer's ring, numbered from base_seq, with no grant. -/
def execWaggleRingOpen (n : Fin 24) (k : List (BitVec 8)) (fec : FecReport) (s : State) : Host.Outcome State Fault Refusal :=
  clocked s (linkReceive s n 3 k fec (fun pay s =>
    let id := field k 16 1
    bindSends (setLink s n (fun l =>
      { l with peerRings := l.peerRings.filter (fun p => p.id != id)
                 ++ [{ id := id, slotSize := field pay 0 4, slotCount := field pay 4 2, nextSeq := field pay 8 8, credits := [] }] })) n))

/-- WAGGLE_RING_CLOSE (R393, R394). -/
def execWaggleRingClose (n : Fin 24) (k : List (BitVec 8)) (fec : FecReport) (s : State) : Host.Outcome State Fault Refusal :=
  clocked s (linkReceive s n 4 k fec (fun _ s =>
    setLink s n (fun l => { l with peerRings := l.peerRings.filter (fun p => p.id != field k 16 1) })))

/-- RCREDIT (R394): sequences of a peer ring; for a ring that is not open the frame is dropped. -/
def execRcredit (n : Fin 24) (k : List (BitVec 8)) (fec : FecReport) (s : State) : Host.Outcome State Fault Refusal :=
  clocked s (linkReceive s n 5 k fec (fun pay s =>
    let id := field k 16 1
    if (peerRing (getLink s n) id).isNone then dropFrame s n
    else
      let qs := (maskList 64 (field pay 8 8)).map (fun i => field pay 0 8 + i)
      setLink s n (fun l => { l with peerRings := l.peerRings.map (fun p =>
        if p.id == id then { p with credits := p.credits ++ qs.filter (fun q => !p.credits.contains q) } else p) })))

/-- CHECK (R405): for a plan that no CCHECK of the run names on this link the frame is dropped. -/
def execCheck (n : Fin 24) (k : List (BitVec 8)) (fec : FecReport) (s : State) : Host.Outcome State Fault Refusal :=
  clocked s (linkReceive s n 6 k fec (fun _ s =>
    let plan := field k 18 2
    if !(expectedPlans s n).contains plan then dropFrame s n
    else takeCheck s n plan (fullCount (assocD (getLink s n).checksIn plan 0) (field k 20 2))))

/-- TIME_REQ (R409): answered with the exchange number, this die's distance and holdover, and t2; t3 is the
answer's departure. -/
def execTimeReq (n : Fin 24) (k : List (BitVec 8)) (fec : FecReport) (s : State) : Host.Outcome State Fault Refusal :=
  clocked s (linkReceive s n 7 k fec (fun pay s =>
    sendFrame s n 8 [] (padTo 40 (fieldBytes pay 0 4 ++ natLe 1 s.time.distance.toNat ++ natLe 1 (b2n s.time.holdover) ++ natLe 2 0
      ++ natLe 8 (s.time.now / 65536) ++ natLe 2 (s.time.now % 65536)))))

/-- Do the timers of R96 run for a run? -/
def timersRun (rn : Run) : Bool := !rn.paused && !rn.recovering

/-- LANDING_TIMEOUT (R402): a unit of a CLAND of this link has not committed in time; not timed while the link
recovers (R408). -/
def execLandingTimeout (n : Fin 24) (s : State) : Host.Outcome State Fault Refusal :=
  clocked s (
    match (getLink s n).run with
    | none => s
    | some r =>
      match getRun s r with
      | none => s
      | some rn =>
        match ((landingRings rn.image n).flatMap (fun g => (nth rn.rings g).armed)).head? with
        | some a => if linkUp (getLink s n) && timersRun rn then runFault s r 0x0315 a.instr a.chunk else s
        | none => s)

/-- CHECKPOINT_TIMEOUT (R405); not timed while a link of its mask recovers (R408). -/
def execCheckpointTimeout (r : Fin 8) (s : State) : Host.Outcome State Fault Refusal :=
  clocked s (
    match getRun s r with
    | none => s
    | some rn =>
      match rn.checkWait, orderOf s rn with
      | some k, some o =>
        let up := (maskList 24 (nth (orderProgram s rn o) k).imm1.toNat).all (fun n => linkUp (getLink s n))
        if up && timersRun rn then runFault s r 0x0316 k 0 else s
      | _, _ => s)

end Sys2Proof.Machine
end

