-- ==== Sys2Proof/Machine/Window.lean ====
section
/-!
DEFINITION. Requests that read and write the die's registers and tables: STATUS (Table 10.8), FAULT_STATUS (Table
14.7), the register window (R324), worker groups, BIST (R325), PORT_STATUS (R373) and the link messages (R382, R412).
-/

namespace Sys2Proof.Machine

/-! ### Status -/

/-- Is a run resident, its load complete? -/
def isResident (s : State) (r : Nat) : Bool := match getRun s r with | some rn => rn.ready | none => false

/-- The body of a STATUS reply (Table 10.8). -/
def statusBody (s : State) : Bytes :=
  natLe 1 (keeperCode s.keeper.state) ++ natLe 1 (((List.range 8).filter (isResident s)).foldl (fun m r => m + 2 ^ r) 0)
    ++ natLe 2 s.keeper.code.toNat ++ natLe 4 (dieSource s).toNat ++ natLe 8 (s.time.now / 65536) ++ natLe 2 (s.time.now % 65536)
    ++ natLe 2 0 ++ natLe 4 (journalFree s / 1024) ++ natLe 4 s.life.fwRelease.toNat ++ natLe 4 0
    ++ (List.range 8).flatMap (fun r => natLe 8 (match getRun s r with | some rn => if rn.ready then rn.image.imageId else 0 | none => 0))

/-- STATUS (R302). -/
def execStatus (n : Fin 16) (s : State) : Host.Outcome State Fault Refusal :=
  clocked s (onRequest s n (isType 0x0001) (fun s p => reply s p 0 (statusBody s)))

/-- Words in register order, as bytes. -/
def wordBytes (ws : List Reg) : Bytes := ws.flatMap (fun w => natLe 4 w.toNat)

/-- FAULT_STATUS (R473). -/
def execFaultStatus (n : Fin 16) (s : State) : Host.Outcome State Fault Refusal :=
  clocked s (onRequest s n (isType 0x0400) (fun s p => reply s p 0 (wordBytes (faultWords s) ++ natLe 4 0 ++ padTo 64 s.keeper.lastFault)))

/-! ### REG_READ (R324) -/

/-- A count that Table 10.11 does not allow. -/
def countBad (n : Nat) : Bool := n == 0 || 48 < n

/-- A REG_READ: the values that one register file delivers, unless the access is bad. -/
def readWindow (s : State) (p : Pending) : State :=
  let target := field p.body 0 1
  let n := field p.body 2 2
  let off := field p.body 4 4
  if 1 < target || countBad n then reject s p 0x0541
  else if target == 0 then
    if pageRangeBad off n then reject s p 0x0541
    else let (t, ws) := readMany readPage s off n; reply t p 0 (wordBytes ws)
  else if workerRangeBad off n then reject s p 0x0541
  else
    match windowWorker s (field p.body 1 1) with
    | none => reject s p 0x0541
    | some w => let (t, ws) := readMany (fun s o => readWorkerReg s w o) s off n; reply t p 0 (wordBytes ws)

/-- REG_READ_PAGE. -/
def execRegReadPage (n : Fin 16) (s : State) : Host.Outcome State Fault Refusal :=
  clocked s (onRequest s n (isAction 0x0040 0 0 [0, 1]) readWindow)

/-- REG_READ_WORKER. -/
def execRegReadWorker (n : Fin 16) (s : State) : Host.Outcome State Fault Refusal :=
  clocked s (onRequest s n (isAction 0x0040 0 1 [0, 1]) readWindow)

/-! ### REG_WRITE (R324) -/

/-- The values of a REG_WRITE, written from an offset on by one register file's write. -/
def writeMany (wr : State → Nat → Nat → State) (s : State) (off n : Nat) (values : Bytes) : State :=
  (List.range n).foldl (fun s i => wr s (off + 4 * i) (field values (4 * i) 4)) s

/-- Is a worker in the hands of a recovery, which alone writes it then (Table 14.5)? -/
def inReadmission (w : Worker) : Bool :=
  w.admission == .fenced || w.admission == .scrubbing || w.admission == .reloading || w.admission == .resync || w.admission == .selfTest

/-- A swarm write: every addressed worker is reached, or none. -/
def writeWorkers (s : State) (p : Pending) (addressed : Option (List Nat)) : State :=
  let n := field p.body 2 2
  let off := field p.body 4 4
  if countBad n || workerRangeBad off n then reject s p 0x0541
  else
    match addressed with
    | none => reject s p 0x0541
    | some ws =>
      if ws.any (fun w => (getWorker s w).run.isSome || inReadmission (getWorker s w)) then reject s p 0x0540
      else reply (ws.foldl (fun s w => writeMany (fun s o v => writeWorkerReg s w o v) s off n (p.body.drop 8)) s) p 0 []

/-- The physical workers that a list of worker numbers reaches; none when one of them is out of reach. -/
def reachAll (s : State) (ns : List Nat) : Option (List Nat) := ns.mapM (windowWorker s)

/-- The numbers of all workers: 0 to 63, and the spares that are not standing in. -/
def everyNumber (s : State) : List Nat :=
  List.range 64 ++ ((List.range 4).map (· + 64)).filter (fun n => (getWorker s n).serves.isNone)

/-- A REG_WRITE with any of its aliases. -/
def writeWindow (s : State) (p : Pending) : State :=
  let alias_ := field p.body 0 1
  let i := field p.body 1 1
  let n := field p.body 2 2
  let off := field p.body 4 4
  match alias_ with
  | 0 =>
    if countBad n || pageRangeBad off n || (List.range n).any (fun k => off + 4 * k == 0x4108) then reject s p 0x0541
    else reply (writeMany writePage s off n (p.body.drop 8)) p 0 []
  | 1 => writeWorkers s p (reachAll s [i])
  | 2 => writeWorkers s p (if i < 8 then reachAll s ((List.range 8).map (· + 8 * i)) else none)
  | 3 => writeWorkers s p (if i < 8 then reachAll s (maskList 68 (nth s.keeper.groups i).toNat) else none)
  | 4 => writeWorkers s p (reachAll s (everyNumber s))
  | _ => reject s p 0x0541

/-- The aliases that rows write. -/
def writeAliases : List Nat := [0, 1, 2, 3, 4]

/-- REG_WRITE_PAGE. -/
def execRegWritePage (n : Fin 16) (s : State) : Host.Outcome State Fault Refusal :=
  clocked s (onRequest s n (isAction 0x0041 0 0 writeAliases) writeWindow)

/-- REG_WRITE_WORKER. -/
def execRegWriteWorker (n : Fin 16) (s : State) : Host.Outcome State Fault Refusal :=
  clocked s (onRequest s n (isAction 0x0041 0 1 writeAliases) writeWindow)

/-- REG_WRITE_FRAME. -/
def execRegWriteFrame (n : Fin 16) (s : State) : Host.Outcome State Fault Refusal :=
  clocked s (onRequest s n (isAction 0x0041 0 2 writeAliases) writeWindow)

/-- REG_WRITE_GROUP. -/
def execRegWriteGroup (n : Fin 16) (s : State) : Host.Outcome State Fault Refusal :=
  clocked s (onRequest s n (isAction 0x0041 0 3 writeAliases) writeWindow)

/-- REG_WRITE_ALL. -/
def execRegWriteAll (n : Fin 16) (s : State) : Host.Outcome State Fault Refusal :=
  clocked s (onRequest s n (isAction 0x0041 0 4 writeAliases) writeWindow)

/-- GROUP_SET (R324). -/
def execGroupSet (n : Fin 16) (s : State) : Host.Outcome State Fault Refusal :=
  clocked s (onRequest s n (isType 0x0042) (fun s p =>
    let g := field p.body 0 1
    if 7 < g then reject s p 0x0541
    else reply (setKeeper s (fun k => { k with groups := updAt k.groups g (fun _ => BitVec.ofNat 68 (field p.body 8 9)) })) p 0 []))

/-- BIST (R325): asked for; BIST_START begins it, and its reply follows the test. -/
def execBist (n : Fin 16) (s : State) : Host.Outcome State Fault Refusal :=
  clocked s (onRequest s n (isType 0x0050) (fun s p =>
    match windowWorker s (field p.body 1 1) with
    | none => reject s p 0x0541
    | some w =>
      let wk := getWorker s w
      if wk.rsState == .testing || wk.bist.isSome then reject s p 0x0542
      else setWorker s w (fun x => { x with bist := some p })))

/-! ### Ports and links -/

/-- PORT_STATUS (R373). -/
def execPortStatus (n : Fin 16) (s : State) : Host.Outcome State Fault Refusal :=
  clocked s (onRequest s n (isType 0x0100) (fun s p =>
    let kind := field p.body 0 1
    let i := field p.body 1 1
    let head := natLe 1 kind ++ natLe 1 i ++ natLe 6 0
    if kind == 0 && i < 8 then reply s p 0 (head ++ wordBytes (partnerWords (getPartner s i)))
    else if kind == 1 && i < 4 then reply s p 0 (head ++ wordBytes (memWords (getMemPort s i)))
    else reject s p 0x0420))

/-- LINK_STATUS (R412). -/
def execLinkStatus (n : Fin 16) (s : State) : Host.Outcome State Fault Refusal :=
  clocked s (onRequest s n (isType 0x0200) (fun s p =>
    let i := field p.body 0 1
    if 23 < i then reject s p 0x0330 else reply s p 0 (padTo 8 p.body ++ wordBytes (linkWords s (getLink s i)))))

/-- Is a route entry reserved (R382)? -/
def routeBad (e : Byte) : Bool := !(e.toNat < 24 || e == 0x1E)

/-- Route entries written from a die identifier on; an entry that drops is not listed. -/
def writeRoutes (s : State) (first : Nat) (es : Bytes) : State :=
  { s with routes := s.routes.filter (fun p => p.1 < first || first + es.length ≤ p.1)
                      ++ (bytesAt first es).filter (fun p => p.2 != 0x1E) }

/-- LINK_ROUTE (R382, R412). -/
def execLinkRoute (n : Fin 16) (s : State) : Host.Outcome State Fault Refusal :=
  clocked s (onRequest s n (isType 0x0201) (fun s p =>
    let first := field p.body 0 2
    let es := p.body.drop 8
    if es.isEmpty || 65536 < first + es.length || es.any routeBad then reject s p 0x0332
    else reply (writeRoutes s first es) p 0 []))

/-- A LINK_CTL of one action (R412). -/
def linkCtl (s : State) (n action : Nat) (act : State → Pending → Nat → State) : State :=
  onRequest s n (isAction 0x0202 1 action [1, 2, 3, 4]) (fun s p =>
    let i := field p.body 0 1
    if field p.body 1 1 != action then reject s p 0x0502
    else if 23 < i then reject s p 0x0330
    else act s p i)

/-- LINK_CTL_RETRAIN: the session ends and the link trains; a quarantined link serves its quarantine, and a
disabled one stays off (R375). -/
def execLinkCtlRetrain (n : Fin 16) (s : State) : Host.Outcome State Fault Refusal :=
  clocked s (linkCtl s n 1 (fun s p i =>
    let l := getLink s i
    reply (if l.state == 5#3 || !bit l.cfg.toNat 10 then s else retrainLink s i) p 0 []))

/-- LINK_CTL_END_QUARANTINE (R391). -/
def execLinkCtlEndQuarantine (n : Fin 16) (s : State) : Host.Outcome State Fault Refusal :=
  clocked s (linkCtl s n 2 (fun s p i => reply (if (getLink s i).state == 5#3 then retrainLink s i else s) p 0 []))

/-- LINK_CTL_DISABLE: the link is gated (Table 12.13). -/
def execLinkCtlDisable (n : Fin 16) (s : State) : Host.Outcome State Fault Refusal :=
  clocked s (linkCtl s n 3 (fun s p i =>
    if (getLink s i).run.isSome then reject s p 0x0331
    else
      let s := loseSession s i
      reply (setLink s i (fun l => { l with cfg := l.cfg &&& ~~~0x400#32, state := 0, lanes := 0, retryAt := none })) p 0 []))

/-- LINK_CTL_ENABLE: an enabled link trains (R375). -/
def execLinkCtlEnable (n : Fin 16) (s : State) : Host.Outcome State Fault Refusal :=
  clocked s (linkCtl s n 4 (fun s p i =>
    let s := setLink s i (fun l => { l with cfg := l.cfg ||| 0x400#32 })
    reply (if (getLink s i).state == 0#3 then retrainLink s i else s) p 0 []))

end Sys2Proof.Machine
end

