-- ==== Sys2Proof/Machine/Clock.lean ====
section
/-!
DEFINITION. The requests of the time and power unit (R419 to R421, R424, R448), time transfer over links (R409),
the comparators that streams and marks share (R426, R427), the records of streams (R442, R445) and the log writer
(R443, R447).
-/

namespace Sys2Proof.Machine

/-! ### TIME_STATUS and TIME_CFG -/

/-- TIME_STATUS (R448). -/
def execTimeStatus (n : Fin 16) (s : State) : Host.Outcome State Fault Refusal :=
  clocked s (onRequest s n (isType 0x0300) (fun s p =>
    let t := s.time
    reply s p 0 (natLe 8 (t.now / 65536) ++ natLe 2 (t.now % 65536) ++ natLe 1 (b2n t.joined + 2 * b2n t.holdover + 4 * b2n t.fault)
      ++ natLe 1 (sourceKind t.inForce) ++ natLe 1 (sourcePort t.inForce) ++ natLe 1 t.distance.toNat ++ natLe 2 0 ++ signed64 t.offsetPs)))

/-- A TIME_CFG of one action; an unknown action is refused by whichever row meets it. -/
def timeCfg (s : State) (n action : Nat) (act : State → Pending → State) : State :=
  onRequest s n (isAction 0x0301 0 action [1, 2, 3, 4]) (fun s p =>
    if field p.body 0 1 != action then reject s p 0x0630 else act s p)

/-- TIME_CFG_SET_MODE (R419, R420). -/
def execTimeCfgSetMode (n : Fin 16) (s : State) : Host.Outcome State Fault Refusal :=
  clocked s (timeCfg s n 1 (fun s p =>
    let mode := field p.body 1 1
    if 3 < mode then reject s p 0x0630
    else
      let cfg := s.time.cfg.toNat
      reply (setTimeCfg s (regOf [(field p.body 2 1, 8), (bits cfg 7 2, 2), (mode, 0)])) p 0 []))

/-- TIME_CFG_SET_EPOCH (R420). -/
def execTimeCfgSetEpoch (n : Fin 16) (s : State) : Host.Outcome State Fault Refusal :=
  clocked s (timeCfg s n 2 (fun s p => reply (setTime s (fun t => { t with epoch := BitVec.ofNat 48 (field p.body 8 8) })) p 0 []))

/-- TIME_CFG_SET_PPS_SECOND (R421). -/
def execTimeCfgSetPpsSecond (n : Fin 16) (s : State) : Host.Outcome State Fault Refusal :=
  clocked s (timeCfg s n 3 (fun s p => reply (setTime s (fun t => { t with nextPpsSecond := some (field p.body 8 8) })) p 0 []))

/-- The step of R424: forward to the best qualified source, which comes into force. -/
def rejoin (s : State) (x : SourceState) : State :=
  let old := s.time.inForce
  let held := s.time.holdover
  let dur := (s.time.now - s.time.holdoverSince) / 65536
  let s := setSource s x.source (fun y => { y with excludedUntil := none })
  let s := setTime s (fun t =>
    { t with now := (t.now + psUnits x.offset).toNat, slew := 0, inForce := some x.source, offsetPs := x.offset
             distance := BitVec.ofNat 8 (min 254 x.distance), holdover := false })
  let s := if old == some x.source then s else changeRecord s old (some x.source) x.offset
  let s := if held then timeRecord s 2 x.offset dur else s
  timeRecord s 5 x.offset 0

/-- TIME_CFG_REJOIN (R424): excluded sources count, since it is for them that the die has to step. -/
def execTimeCfgRejoin (n : Fin 16) (s : State) : Host.Outcome State Fault Refusal :=
  clocked s (timeCfg s n 4 (fun s p =>
    let best := bestOf (s.time.sources.filter (fun x => x.qualified && modeAllows (bits s.time.cfg.toNat 1 0) x.source))
    match best with
    | some x => if anyResident s || x.offset < 0 then reject s p 0x0631 else reply (rejoin s x) p 0 []
    | none => reject s p 0x0631))

/-! ### Time transfer over links (R409) -/

/-- The exchange in progress has gone unanswered: the measurements of a link that has not qualified start again (Table 13.1:
consecutive exchanges). -/
def missExchange (s : State) (n : Nat) : State :=
  if h : n < 24 then
    let src := TimeSource.link ⟨n, h⟩
    if s.time.sources.any (fun x => x.source == src && !x.qualified) then setSource s src (fun x => { x with offsets := [] }) else s
  else s

/-- TIME_REQ_LAUNCH: one TIME_REQ on every up or degraded link with time_en set. -/
def execTimeReqLaunch (s : State) : Host.Outcome State Fault Refusal :=
  clocked s ((List.range 24).foldl (fun s n =>
    let l := getLink s n
    if linkUp l && bit l.cfg.toNat 6 then
      let x := l.timeExchange + 1
      let s := if l.timeSentAt.isSome then missExchange s n else s
      sendFrame (setLink s n (fun l => { l with timeExchange := x, timeSentAt := none })) n 7 [] (natLe 4 x.toNat ++ natLe 4 0)
    else s) s)

/-- WAGGLE_TIME_RESP: the delay and the offset of the exchange in progress, and a measurement of the link as a source;
a peer at distance 254 or more or in holdover makes it no candidate (R418). -/
def execWaggleTimeResp (n : Fin 24) (k : List (BitVec 8)) (fec : FecReport) (s : State) : Host.Outcome State Fault Refusal :=
  clocked s (linkReceive s n 8 k fec (fun pay s =>
    let l := getLink s n
    match l.timeSentAt with
    | none => s
    | some t1 =>
      if field pay 0 4 != l.timeExchange.toNat then s
      else
        let t2 := field pay 8 8 * 65536 + field pay 16 2
        let t3 := field pay 24 8 * 65536 + field pay 32 2
        let t4 := s.time.now
        let out : Int := (t2 : Int) - t1
        let back : Int := (t4 : Int) - t3
        let delay := diffPs (out + back) / 2
        let offset := (diffPs (out - back) - toSigned 32 l.asym.toNat) / 2
        let s := setLink s n (fun l =>
          { l with timeSentAt := none, delay := BitVec.ofNat 32 (max 0 (min (2 ^ 32 - 1) delay)).toNat })
        if 254 ≤ field pay 4 1 || bit (field pay 5 1) 0 then loseTimeLink s n
        else measure s (.link n) offset (field pay 4 1 + 1) 16 20000))

/-! ### Comparators (R426, R427) -/

/-- The lowest free comparator of 3 to 15. -/
def freeComparator (s : State) : Option Nat :=
  (List.range 16).find? (fun c => 3 ≤ c && nth s.time.comps c == .free)

def setComparator (s : State) (c : Nat) (h : CompHolder) : State := setTime s (fun t => { t with comps := updAt t.comps c (fun _ => h) })

/-- What the reply of 0x0620 carries after the codes: for each comparator, of a stream its number, of a mark the source
number of its requester. The manual gives no layout of this part: notes/assumptions/32.md. -/
def holderDetail : CompHolder → Nat
  | .stream number _ _ => number
  | .mark _ _ source => source.toNat
  | _ => 0

def noComparator (s : State) (p : Pending) : State :=
  reply s p 0x0620 (natLe 8 (holderCodes s) ++ s.time.comps.flatMap (fun h => natLe 4 (holderDetail h)))

/-- TIME_MARK (R426). -/
def execTimeMark (n : Fin 16) (s : State) : Host.Outcome State Fault Refusal :=
  clocked s (onRequest s n (isType 0x0330) (fun s p =>
    match freeComparator s with
    | none => noComparator s p
    | some c =>
      reply (setComparator s c (.mark (field p.body 0 8 * 65536 + field p.body 8 2) (BitVec.ofNat 32 (field p.body 12 4)) p.source)) p 0 []))

/-- TIME_MARK_FIRE (R448): the notice has the layout of the TIME_MARK body. -/
def execTimeMarkFire (c : Fin 16) (s : State) : Host.Outcome State Fault Refusal :=
  clocked s (
    match nth s.time.comps c with
    | .mark at_ tag source =>
      sendNotice (setComparator s c .free) 0x4330 source (stampNs at_ ++ stampFrac at_ ++ natLe 2 0 ++ natLe 4 tag.toNat)
    | _ => s)

/-! ### Streams (R442, R445) -/

/-- Counters of the links, of the comb and of the energies, whose increments a stream reports. -/
def streamCounters (s : State) (kind : Nat) : List Nat :=
  if kind == 17 then s.power.energy.map BitVec.toNat
  else if kind == 18 then s.links.flatMap (fun l => [l.malCount.toNat, l.fecUe.toNat, l.replayed.toNat])
  else if kind == 19 then s.frames.flatMap (fun f => [f.ceCount.toNat, f.ueCount.toNat])
  else []

/-- A rail stream's sums of a period: of the die power and of each rail the number of samples, their sum and the
largest. -/
def emptySums : List Nat := List.replicate 21 0

/-- A value added to entry `i` of such sums. -/
def addSum (l : List Nat) (i v : Nat) (hi : Nat) : List Nat :=
  updAt (updAt (updAt l (3 * i) (· + 1)) (3 * i + 1) (· + v)) (3 * i + 2) (max hi)

/-- The comparators of the rail streams. -/
def railStreams (s : State) : List Nat :=
  (List.range 16).filter (fun c => match nth s.time.comps c with | .stream _ k _ => k == 16 | _ => false)

/-- A measured value for every rail stream: entry 0 the die power in mW with its 1 µs maximum, entry 1 + n rail n in mA. -/
def feedStreams (s : State) (i v hi : Nat) : State :=
  { s with telem := { s.telem with last := s.telem.last.map (fun p => if (railStreams s).contains p.1 then (p.1, addSum p.2 i v hi) else p) } }

/-- Maximum currents of the rails in mA (Table 16.3). -/
def railMax : List Nat := [250000, 24000, 110000, 66000, 45000, 2000]

/-- Current of a rail in mA as its sample says (R505): the maximum while its scale is 0. -/
def railCurrent (s : State) (n : Nat) : Nat :=
  if nth s.power.isns n == 0 then nth railMax n else nth s.power.railSample n * (nth s.power.isns n).toNat

/-- RAIL_CURRENT_SAMPLE (R505): the sample, in mV. -/
def execRailCurrentSample (rail : Fin 6) (sample : BitVec 12) (s : State) : Host.Outcome State Fault Refusal :=
  clocked s (
    let s := setPower s (fun p => { p with railSample := updAt p.railSample rail (fun _ => sample.toNat) })
    feedStreams s (1 + rail) (railCurrent s rail) (railCurrent s rail))

/-- TELEM_STREAM_OPEN (R445): stream, kind and period in range, the stream not open, a comparator free. -/
def execTelemStreamOpen (n : Fin 16) (s : State) : Host.Outcome State Fault Refusal :=
  clocked s (onRequest s n (isAction 0x0320 0 1 [1, 2]) (fun s p =>
    let stream := field p.body 1 1
    let kind := field p.body 2 1
    let period := field p.body 4 4
    let isOpen := s.time.comps.any (fun h => match h with | .stream k _ _ => k == stream | _ => false)
    if field p.body 0 1 != 1 || 12 < stream || kind < 16 || 19 < kind || period < 10 || 1000000 < period || isOpen then reject s p 0x0621
    else
      match freeComparator s with
      | none => noComparator s p
      | some c =>
        let s := setComparator s c (.stream stream kind period)
        let first := if kind == 16 then emptySums else streamCounters s kind
        reply { s with telem := { s.telem with last := assocSet s.telem.last c first } } p 0 []))

/-- TELEM_STREAM_CLOSE (R426). -/
def execTelemStreamClose (n : Fin 16) (s : State) : Host.Outcome State Fault Refusal :=
  clocked s (onRequest s n (isAction 0x0320 0 2 [1, 2]) (fun s p =>
    let stream := field p.body 1 1
    if field p.body 0 1 != 2 || 12 < stream then reject s p 0x0621
    else
      match indexWhere s.time.comps (fun h => match h with | .stream k _ _ => k == stream | _ => false) with
      | none => reply s p 0 []
      | some c =>
        let s := setComparator s c .free
        reply { s with telem := { s.telem with last := s.telem.last.filter (fun x => x.1 != c) } } p 0 []))

/-- A mean, or the present value where nothing was sampled; and the largest. -/
def meanMax (sums : List Nat) (i now : Nat) : Nat × Nat :=
  let n := nth sums (3 * i)
  if n == 0 then (now, now) else (nth sums (3 * i + 1) / n, nth sums (3 * i + 2))

/-- A value in a field of `n` bytes, saturating. -/
def satLe (n v : Nat) : Bytes := natLe n (min (2 ^ (8 * n) - 1) v)

/-- The bodies of a stream's records (Table 13.6). -/
def streamBodies (s : State) (kind period : Nat) (base : List Nat) : List Bytes :=
  let now := streamCounters s kind
  let d (i : Nat) : Nat := nth now i - nth base i
  if kind == 16 then
    let p := meanMax base 0 (s.power.meanPower.toNat * 250)
    [natLe 4 period ++ natLe 4 (nth base 3) ++ satLe 2 (p.1 / 250) ++ satLe 2 (p.2 / 250)
      ++ (List.range 6).flatMap (fun r => let v := meanMax base (1 + r) (railCurrent s r); satLe 2 (v.1 / 100) ++ satLe 2 (v.2 / 100))]
  else if kind == 17 then
    [natLe 4 period ++ natLe 1 s.power.vclk ++ natLe 1 (ungatedMask s) ++ natLe 2 0 ++ (List.range 8).flatMap (fun f => satLe 4 (d f))]
  else if kind == 18 then
    [0, 8, 16].map (fun first => natLe 4 period ++ natLe 1 first ++ natLe 3 0
      ++ (List.range 8).flatMap (fun i => let k := 3 * (first + i); satLe 1 (d k) ++ satLe 1 (d (k + 1)) ++ satLe 2 (d (k + 2))))
  else
    [natLe 4 period ++ natLe 4 0 ++ (List.range 8).flatMap (fun f => satLe 2 (d (2 * f)) ++ satLe 2 (d (2 * f + 1)))]

/-- TELEM_STREAM_PERIOD (R445): a stream's comparator fires. -/
def execTelemStreamPeriod (c : Fin 16) (s : State) : Host.Outcome State Fault Refusal :=
  clocked s (
    match nth s.time.comps c with
    | .stream _ kind period =>
      let base := assocD s.telem.last c.val []
      let s := (streamBodies s kind period base).foldl (fun s b => logRecord s kind (dieSource s) b) s
      let next := if kind == 16 then emptySums else streamCounters s kind
      { s with telem := { s.telem with last := assocSet s.telem.last c.val next } }
    | _ => s)

/-! ### The log (R443, R447) -/

/-- Number of the oldest record that the ring of 2^26 holds. -/
def oldestRecord (s : State) : Nat := match s.telem.records.head? with | some r => r.1 | none => s.telem.next

/-- TELEM_READ (R448). -/
def execTelemRead (n : Fin 16) (s : State) : Host.Outcome State Fault Refusal :=
  clocked s (onRequest s n (isType 0x0321) (fun s p =>
    let count := field p.body 8 2
    if count == 0 || 1024 < count then reject s p 0x0640
    else
      let rs := (s.telem.records.filter (fun r => field p.body 0 8 ≤ r.1)).take count
      reply s p 0 (natLe 8 (oldestRecord s) ++ natLe 8 s.telem.next ++ rs.flatMap (fun r => padTo 64 r.2))))

/-- LOG_WRITE: the writer moves the oldest waiting record into the ring, in M0 and M2 as far as they are available, not
before the journal scan of R416. Once there is room, the drops so far are recorded. -/
def execLogWrite (s : State) : Host.Outcome State Fault Refusal :=
  clocked s (
    let t := s.telem
    match t.buffer with
    | [] => s
    | r :: rest =>
      if !s.journal.scanned || !(stackUp s 0 || stackUp s 2) then s
      else
        let s := { s with telem := { t with buffer := rest, next := t.next + 1, dropped := 0
                                            records := (t.records ++ [(t.next, r)]).filter (fun x => t.next < x.1 + 2 ^ 26) } }
        if t.dropped == 0 then s else logRecord s 37 (dieSource s) (natLe 8 t.dropped))

end Sys2Proof.Machine
end

