-- ==== Sys2Proof/Machine/Governor.lean ====
section
/-!
DEFINITION. The power governor (R428 to R434), the flow schedule (R435 to R441), the gating of frames (R26, R33) and
the change of VCLK (R22, R503).
-/

namespace Sys2Proof.Machine

/-! ### Powers (Table 13.3) -/

/-- Typical power of a frame at full activity, mW, and VCLK in MHz, by point code. -/
def frameMw (v : Nat) : Nat := nth [23750, 16000, 9700, 5100] v
def clockMhz (v : Nat) : Nat := nth [1750, 1400, 1050, 700] v

/-- Predicted power with a set of frames ungated at a point (R428), in 2^−16 mW. -/
def predicted (s : State) (ungated : List Nat) (v : Nat) : Nat :=
  (List.range 8).foldl (fun n f =>
    n + if ungated.contains f then frameMw v * (nth s.power.activity f).toNat else 400 * 65536) (s.power.outsideMw * 65536)

/-- Does a predicted power fit a cap of 0.25 W units? -/
def fits (cap p : Nat) : Bool := p ≤ cap * 250 * 65536

/-- The same with 3 % to spare (R432). -/
def fitsSpare (cap p : Nat) : Bool := p * 100 ≤ cap * 250 * 65536 * 97

/-- The cap in force (R428). -/
def capInForce (p : Power) : Nat :=
  let c := min (min p.sched p.boardCap.toNat) 1440
  if p.alert then min c p.alertCap.toNat else c

/-! ### Configurations (R429) -/

/-- Frames of runs in the order in which they are gated; a recovering frame is not gated (Table 14.4). -/
def gateSequence (s : State) : List Nat :=
  let order := (List.range 8).map (fun k => bits s.power.gateOrder.toNat (3 * k + 2) (3 * k))
  let mine := order.filter (fun f => (getFrame s f).run.isSome && !(getFrame s f).outOfService)
  mine.filter (fun f => !(getFrame s f).recovering) ++ mine.filter (fun f => (getFrame s f).recovering)

/-- The frames that stay ungated when `k` run frames do. -/
def keepSet (s : State) (k : Nat) : List Nat := (gateSequence s).drop ((gateSequence s).length - k)

/-- Fewest frames that a configuration keeps (R33). -/
def fewest (s : State) : Nat :=
  let seq := gateSequence s
  min seq.length (max 1 (seq.countP (fun f => (getFrame s f).recovering)))

/-- Number of ungated run frames and VCLK point. -/
abbrev PowerConfig : Type := Nat × Nat

def product (c : PowerConfig) : Nat := c.1 * clockMhz c.2

/-- Every configuration. -/
def configurations (s : State) : List PowerConfig :=
  let n := (gateSequence s).length
  ((List.range (n + 1)).filter (fun k => fewest s ≤ k)).flatMap (fun k => [(k, 0), (k, 1), (k, 2), (k, 3)])

/-- The largest product; ties go to more frames. -/
def largest (cs : List PowerConfig) : Option PowerConfig :=
  match cs with
  | [] => none
  | c :: t => some (t.foldl (fun b x => if product b < product x || (product b == product x && b.1 < x.1) then x else b) c)

/-- The floor: the fewest frames at 0.70 GHz (R433). -/
def floorConfig (s : State) : PowerConfig := (fewest s, 3)

/-- The target configuration for a cap under a test of fit; the floor when none fits. Without a run frame the point stays. -/
def targetFor (s : State) (fit : Nat → Bool) : PowerConfig :=
  if (gateSequence s).isEmpty then (0, s.power.vclk)
  else (largest ((configurations s).filter (fun c => fit (predicted s (keepSet s c.1) c.2)))).getD (floorConfig s)

/-! ### Gates -/

/-- A frame is ungated: its workers begin re-admission, and its run no longer pauses (R26, R465). -/
def ungateFrame (s : State) (f : Nat) : State :=
  let s := setFrame s f (fun x => { x with ungated := true, gateRequested := false })
  let s := (frameWorkers s f).foldl (fun s w => setWorker s w (fun x =>
    if x.run.isSome && x.admission == .notAdmitted then startAdmission x else x)) s
  match (getFrame s f).run with
  | some r => setRun s r (fun rn => { rn with paused := false })
  | none => s

/-- The target point is set once its gates are done (R430): a falling point at once, a rising one after the supply. -/
def settleTarget (s : State) : State :=
  let p := s.power
  if p.targetGated.any (fun f => (getFrame s f).ungated) then s
  else if p.vclk < p.targetVclk then setPower s (fun p => { p with vclk := p.targetVclk, vddCommanded := false })
  else setPower s (fun p => { p with vddCommanded := decide (p.targetVclk < p.vclk) })

/-- A target configuration: gates are requested and frames ungated; frames ungated ahead of an increase are left alone. -/
def setTarget (s : State) (c : PowerConfig) : State :=
  let keep := keepSet s c.1
  let gates := (gateSequence s).filter (fun f =>
    (getFrame s f).ungated && !keep.contains f && !s.power.leadUngated.contains f && !(getFrame s f).recovering)
  let s := gates.foldl (fun s f => setFrame s f (fun x => { x with gateRequested := true })) s
  let s := keep.foldl (fun s f => if (getFrame s f).ungated then setFrame s f (fun x => { x with gateRequested := false }) else ungateFrame s f) s
  settleTarget (setPower s (fun p => { p with targetVclk := c.2, targetGated := gates, vddCommanded := false }))

/-- Run frames that are ungated and stay so, without those ungated ahead of an increase. -/
def heldFrames (s : State) : List Nat :=
  (gateSequence s).filter (fun f => (getFrame s f).ungated && !(getFrame s f).gateRequested && !s.power.leadUngated.contains f)

/-- Every frame that is ungated. -/
def ungatedFrames (s : State) : List Nat := (List.range 8).filter (fun f => (getFrame s f).ungated)

/-! ### Records (kinds 32, 33 and 36) -/

/-- A record of the governor, and its FLOW notice to the schedule's writer (R441). -/
def flowRecord (s : State) (kind : Nat) (body : Bytes) (code : Nat) (notify : Bool) : State :=
  let (s, t) := stamp s
  let rec_ := padTo 64 (logHeader t kind (dieSource s) ++ body)
  let s := pushLog s rec_
  match s.power.writer with
  | some w => if notify then sendNotice s 0x4310 w (natLe 2 code ++ natLe 6 0 ++ rec_) else s
  | none => s

/-- Stagger of the die in ns (R437). -/
def stagger (s : State) : Nat :=
  s.power.stepNs.toNat * ((s.life.dieId.toNat * 64 + s.power.stagSub.toNat) % 1024)

/-- Die instant of a point (R437), in 2^−16 ns: of an edge point whose edge has not come, that of the earliest one. -/
def dieInstant (s : State) (q : FlowPoint) : Nat := (q.edgeAt.getD (q.time * 65536)) + stagger s * 65536

/-- The kind-32 record of the point that has begun: it has taken effect now, on time or late, or a later point begins
before it did. The effect time of a superseded point is not stated: notes/assumptions/33.md. -/
def closePoint (s : State) (superseded : Bool) : State :=
  match s.power.begun with
  | none => s
  | some b =>
    let due := b.dieInstant + b.allowed * 65536
    let late := !superseded && due < s.time.now
    let lateness := if late then (s.time.now - due) / 65536 else 0
    let (s, effect) := if superseded then ({ s with draws := s.draws + 1 }, (Config.freeBits s.draws).toNat) else (s, s.time.now / 65536)
    let status := if superseded then 2 else if late then 1 else 0
    let s := setPower s (fun p => { p with begun := none, late := if late then satAdd p.late 1 else p.late })
    flowRecord s 32
      (natLe 8 b.point.time ++ natLe 8 (b.dieInstant / 65536) ++ natLe 8 effect ++ natLe 2 b.point.cap ++ natLe 2 s.power.inForce
        ++ natLe 1 s.power.vclk ++ natLe 1 (ungatedMask s) ++ natLe 1 status ++ natLe 1 b.index ++ natLe 4 (min lateness (2 ^ 32 - 1)))
      (if late then 0x0651 else 0) (b.point.notify || late)

/-- Has the step of the begun point taken effect (R439): the target configuration is set and fits the cap in force? -/
def settleFlow (s : State) : State :=
  let p := s.power
  match p.begun with
  | none => s
  | some b =>
    if b.seen && p.vclk == p.targetVclk && !p.targetGated.any (fun f => (getFrame s f).ungated)
        && (p.floor || fits p.inForce (predicted s (ungatedFrames s) p.vclk)) then closePoint s false
    else s

/-! ### One period (R428 to R433, R438) -/

/-- A ramp moves for one period of 5 µs: its rate is in units per ms (R438). -/
def moveRamp (p : Power) : Power :=
  match p.ramp with
  | none => p
  | some (cap, slew) =>
    let goal := cap * 200
    let acc := if p.rampAcc < goal then min goal (p.rampAcc + slew) else max goal (p.rampAcc - slew)
    { p with rampAcc := acc, sched := acc / 200, ramp := if acc == goal then none else p.ramp }

/-- What the period measured (R442, Table 13.9). -/
def takeSample (s : State) (m : Sys2Proof.PowerSample) : State :=
  let s := setPower s (fun p =>
    { p with outsideMw := m.outsideMw
             activity := (List.range 8).map (nth m.activity)
             energy := (List.range 8).map (fun f => wrapAdd (nth p.energy f) (nth m.energyUj f))
             maxPower := BitVec.ofNat 16 (min 65535 (m.maxMw / 250)), meanPower := BitVec.ofNat 16 (min 65535 (m.periodMw / 250)) })
  feedStreams s 0 m.periodMw m.maxMw

/-- The cap-violation event begins or ends (R433). -/
def watchFloor (s : State) : State :=
  let c := floorConfig s
  let need := predicted s (keepSet s c.1) c.2
  let below := !(gateSequence s).isEmpty && !fits s.power.inForce need
  if below == s.power.floor then s
  else
    let s := setPower s (fun p => { p with floor := below, floorEvents := if below then satAdd p.floorEvents 1 else p.floorEvents })
    flowRecord s 33 (natLe 1 (if below then 1 else 2) ++ natLe 3 0 ++ natLe 2 s.power.inForce ++ satLe 2 (ceilDiv need (250 * 65536))) 0x0650 true

/-- R430: the power must fall. -/
def powerDown (s : State) : State :=
  let now := ungatedFrames s
  let v := ([0, 1, 2, 3].find? (fun v => fits s.power.inForce (predicted s now v))).getD 3
  let s := setPower s (fun p => { p with vclk := max p.vclk v, lastDown := some s.wall })
  setTarget s (targetFor s (fits s.power.inForce))

/-- R429, R430, R432: the configuration of the next period. -/
def chooseConfig (s : State) (meanMw : Nat) : State :=
  let p := s.power
  let held := ((heldFrames s).length, p.vclk)
  if !fits p.inForce (predicted s (ungatedFrames s) p.vclk) then powerDown s
  else if p.inForce * 250 < meanMw then
    match largest ((configurations s).filter (fun c => product c < product held)) with
    | some c => setTarget (setPower s (fun p => { p with lastDown := some s.wall })) c
    | none => s
  else
    let c := targetFor s (fitsSpare p.inForce)
    let rested := match p.lastDown with | some t => t + 100000 ≤ s.wall | none => true
    if product held < product c && rested then setTarget s c else s

/-- Frames of no run are gated in every configuration (R429). -/
def gateIdle (s : State) : State :=
  (List.range 8).foldl (fun s f =>
    let x := getFrame s f
    if (x.run.isNone || x.outOfService) && x.ungated && !x.recovering then setFrame s f (fun x => { x with gateRequested := true }) else s) s

/-- GOVERNOR_PERIOD. Before the firmware starts the die stays at 0.70 GHz (R504). -/
def governorPeriod (s : State) (m : Sys2Proof.PowerSample) : State :=
  if s.keeper.state == .rom then s
  else
    let s := takeSample s m
    let s := setPower s moveRamp
    let s := setPower s (fun p => { p with inForce := capInForce p, begun := p.begun.map (fun b => { b with seen := true }) })
    settleFlow (gateIdle (chooseConfig (watchFloor s) m.meanMw))

def execGovernorPeriod (sample : Sys2Proof.PowerSample) (s : State) : Host.Outcome State Fault Refusal := clocked s (governorPeriod s sample)

/-- FRAME_GATED (R26, R100): the frame's workers hold no tile and lose their cells; a run with no ungated frame pauses. -/
def execFrameGated (f : Fin 8) (s : State) : Host.Outcome State Fault Refusal :=
  clocked s (
    let ws := frameWorkers s f
    if !(getFrame s f).gateRequested || (getFrame s f).recovering
        || ws.any (fun w => !(getWorker s w).held.isEmpty || (getWorker s w).wait.isSome) then s
    else
      let s := setFrame s f (fun x => { x with ungated := false, gateRequested := false })
      let s := ws.foldl (fun s w => setWorker s w (fun x =>
        let x := { x with cells := [] }
        if x.admission == .admitted || x.admission == .waiting then { x with admission := .notAdmitted } else x)) s
      let s := setPower s (fun p => { p with leadUngated := p.leadUngated.filter (· != f.val) })
      let s := match (getFrame s f).run with
        | some r =>
          if (runFrames s r).all (fun g => !(getFrame s g).ungated) then setRun s r (fun rn => { rn with paused := true }) else s
        | none => s
      settleFlow (settleTarget s))

/-- VCLK_SWITCH (R503): the supply has risen and settled. -/
def execVclkSwitch (s : State) : Host.Outcome State Fault Refusal :=
  clocked s (
    if s.power.vddCommanded && s.power.targetVclk < s.power.vclk then
      settleFlow (setPower s (fun p => { p with vclk := p.targetVclk, vddCommanded := false }))
    else s)

/-! ### Alerts (R434, R504) -/

/-- The alert cap joins or leaves the cap in force. -/
def setAlert (s : State) (on : Bool) : State :=
  if s.power.alert == on then s
  else
    let s := setPower s (fun p => { p with alert := on })
    let s := setPower s (fun p => { p with inForce := capInForce p })
    logRecord s 36 (dieSource s) (natLe 1 (if on then 1 else 2) ++ natLe 3 0 ++ natLe 2 s.power.alertCap.toNat)

/-- PMB_ALERT_ASSERT: ignored until the Keeper enters state boot. -/
def execPmbAlertAssert (s : State) : Host.Outcome State Fault Refusal :=
  .next (
    let s := setPower s (fun p => { p with alertPinLow := true })
    if s.keeper.state == .rom || standing s then s else setAlert s true)

/-- PMB_ALERT_RELEASE. -/
def execPmbAlertRelease (s : State) : Host.Outcome State Fault Refusal :=
  .next (
    let s := setPower s (fun p => { p with alertPinLow := false })
    if standing s then s else setAlert s false)

/-! ### The flow schedule -/

/-- Frames ungated ahead of an increase go back to gated without a tile (R431). -/
def returnLead (s : State) : State :=
  let fs := s.power.leadUngated
  setPower (fs.foldl (fun s f => setFrame s f (fun x => { x with gateRequested := true })) s) (fun p => { p with leadUngated := [] })

/-- The first point begins (R437, R438). -/
def beginPoint (s : State) : State :=
  match s.power.points with
  | [] => s
  | q :: rest =>
    let s := closePoint s true
    let old := s.power.sched
    let s := if q.cap < old then returnLead s else setPower s (fun p => { p with leadUngated := [] })
    let b : BegunPoint :=
      { point := q, index := (s.power.flowIndex.toNat + 1) % 256, dieInstant := dieInstant s q, seen := false
        allowed := if q.edge && old < q.cap then s.power.leadUs.toNat * 1000 + 20000 else 20000 }
    setPower s (fun p =>
      { p with points := rest, flowIndex := p.flowIndex + 1, begun := some b
               sched := if q.slew == 0 then q.cap else p.sched
               ramp := if q.slew == 0 then none else some (q.cap, q.slew)
               rampAcc := if p.ramp.isSome then p.rampAcc else p.sched * 200 })

/-- May the first point begin: an edge point only once its edge has come (R440)? -/
def pointReady (s : State) : Bool :=
  match s.power.points with | [] => false | q :: _ => !q.edge || q.edgeAt.isSome

/-- FLOW_POINT_BEGIN (R437): comparator 0 fires. -/
def execFlowPointBegin (s : State) : Host.Outcome State Fault Refusal := clocked s (if pointReady s then beginPoint s else s)

/-- Points whose die instant has passed begin at once (`fuel` bounds their number). -/
def beginPassed : (fuel : Nat) → State → State
  | 0, s => s
  | fuel + 1, s =>
    match s.power.points with
    | [] => s
    | q :: _ => if pointReady s && dieInstant s q ≤ s.time.now then beginPassed fuel (beginPoint s) else s

/-- The next point that raises the cap at an instant known beforehand. -/
def nextIncrease (s : State) : Option FlowPoint :=
  (s.power.points.foldl (fun (acc : Nat × Option FlowPoint) q =>
    (q.cap, if acc.2.isSome then acc.2 else if acc.1 < q.cap && !q.edge then some q else none)) (s.power.sched, none)).2

/-- FLOW_LEAD (R431): comparator 1 fires; the frames that the increase will ungate are ungated now. -/
def execFlowLead (s : State) : Host.Outcome State Fault Refusal :=
  clocked s (
    match nextIncrease s with
    | none => s
    | some q =>
      let cap := capInForce { s.power with sched := q.cap }
      let c := targetFor s (fitsSpare cap)
      let ups := (keepSet s c.1).filter (fun f => !(getFrame s f).ungated)
      setPower (ups.foldl ungateFrame s) (fun p => { p with leadUngated := p.leadUngated ++ ups }))

/-- FLOW_STEP_EDGE (R440): it begins the first edge point that waits; others are counted stray, and a pulse shorter than
1 µs is none. -/
def execFlowStepEdge (highNs : Nat) (s : State) : Host.Outcome State Fault Refusal :=
  clocked s (
    if !pinIsStep s || highNs < 1000 then s
    else
      let stray := setPower s (fun p => { p with stray := satAdd p.stray 1 })
      let soon : Bool := match s.power.lastEdge with | some t => s.time.now < t + 100000 * 65536 | none => false
      match indexWhere s.power.points (fun q => q.edge && q.edgeAt.isNone && q.time * 65536 ≤ s.time.now) with
      | some i =>
        if soon then stray
        else setPower s (fun p =>
          { p with lastEdge := some s.time.now, points := updAt p.points i (fun q => { q with edgeAt := some s.time.now }) })
      | none => stray)

/-- A point of a FLOW_SET body. -/
def pointAt (b : Bytes) (i : Nat) : FlowPoint :=
  let o := 16 + 16 * i
  { time := field b o 8, cap := field b (o + 8) 2, slew := field b (o + 10) 2, edge := bit (field b (o + 12) 1) 0
    notify := bit (field b (o + 12) 1) 1, edgeAt := none }

/-- Is a reserved field of a point set? -/
def pointReserved (b : Bytes) (i : Nat) : Bool := field b (16 + 16 * i + 12) 1 >>> 2 != 0 || field b (16 + 16 * i + 13) 3 != 0

/-- Do times rise strictly? -/
def ascending : List FlowPoint → Bool
  | a :: b :: t => decide (a.time < b.time) && ascending (b :: t)
  | _ => true

/-- FLOW_SET (R436). -/
def execFlowSet (n : Fin 16) (s : State) : Host.Outcome State Fault Refusal :=
  clocked s (onRequest s n (isType 0x0310) (fun s p =>
    let b := p.body
    let start := field b 0 8
    let count := field b 8 2
    let new := (List.range count).map (pointAt b)
    let kept := s.power.points.filter (fun q => q.time < start)
    if !ascending new || new.any (fun q => q.time < start) || (List.range count).any (pointReserved b)
        || (!pinIsStep s && new.any FlowPoint.edge) then reject s p 0x0610
    else if 256 < kept.length + count then reject s p 0x0611
    else
      let s := setPower s (fun p' => { p' with points := kept ++ new, writer := some p.source })
      let s := beginPassed (kept.length + count) s
      let s := if (nextIncrease s).isNone then returnLead s else s
      reply s p 0 (natLe 2 s.power.points.length ++ natLe 6 0
        ++ natLe 8 (match s.power.points with | q :: _ => dieInstant s q / 65536 | [] => 0))))

/-- FLOW_STATUS (R448). -/
def execFlowStatus (n : Fin 16) (s : State) : Host.Outcome State Fault Refusal :=
  clocked s (onRequest s n (isType 0x0311) (fun s p => reply s p 0 (wordBytes (powerWords s))))

end Sys2Proof.Machine
end

