-- ==== Sys2Proof/Machine/Issue.lean ====
section
/-!
DEFINITION. Work orders begin (R331) and instructions issue (R113, R123 to R126): one command for each
opcode, all of them through `issueWhere`.
-/

namespace Sys2Proof.Machine

/-! ### The start of an order (R331, R242, R275) -/

/-- Is a source held by a guarded layer of one of its orders: tripped, or above level 0 and not closed (R275)? -/
def sourceHeld (s : State) (src : BitVec 22) : Bool :=
  (List.range 8).any (fun r =>
    match getRun s r with
    | none => false
    | some rn =>
      match orderOf s rn with
      | none => false
      | some o =>
        orderSource o.number == src &&
          (rn.trip.isSome || rn.image.guards.any (fun g =>
            g.entry == o.entry && levelOf o g.layerTag != 0 && rn.fault.isNone
              && !(o.progress.any (fun p => p.instr == g.firstInstr + g.count - 1 && p.done)))))

/-- The orders of a resident run: those of its image that it is to execute. -/
def ordersOf (s : State) (r : Nat) : List Order :=
  match getRun s r with
  | some rn => s.keeper.orders.filter (fun o => o.run == r && o.imageId == rn.image.imageId)
  | none => []

/-- The accepted order of a run with the lowest acceptance triple (R331). -/
def nextOrder (s : State) (r : Nat) : Option Order :=
  (((ordersOf s r).filter (fun o => o.state == .accepted && !o.acceptLost)).mergeSort
    (fun a b => decide (a.acceptStamp ≤ b.acceptStamp))).head?

/-- Generations in force for the slots that a program names, as the START record lists them (R242). -/
def startGens (s : State) (r : Nat) (prog : List PInstr) : List (BitVec 32) :=
  (List.range 16).map (fun n => if (programSlots prog).contains n then genInForce s r n else 0)

/-- The shape record and the parameter block in the parameter region, and seed slots 8 to 15 (R79, R331). -/
def loadOrder (s : State) (r : Nat) (rn : Run) (o : Order) : State :=
  let s := writeComb s (bytesAt (paramBase rn.image) (o.shapes.flatMap (fun v => natLe 4 v.toNat) ++ o.params))
  setRun s r (fun rn => { rn with order := some o.number, orderSeeds := o.seeds, issued := [], trip := none, fault := none,
                                  checkWait := none })

/-- WORK_ORDER_START (R331): the next order of a run in acceptance order; it issues from instruction 0. A paused run starts
none (R26). The
parameter region is not written while a scrub of the run's frames is due (R105). -/
def startOrder (s : State) (r : Nat) : State :=
  match getRun s r, nextOrder s r with
  | some rn, some o =>
    if !rn.ready || rn.paused || rn.order.isSome || sourceHeld s (orderSource o.number) || (runFrames s r).any (fun f => (getFrame s f).scrubBusy)
        || (ordersOf s r).any (fun x => x.state == .running || x.state == .partial_) then s
    else
      let prog := programOf (runImage s rn) rn.image o.entry
      let gens := startGens s r prog
      let s := journal s 2 r o.number (orderSource o.number) (gens.flatMap (fun g => natLe 4 g.toNat))
      let s := setOrder s o.number (fun o =>
        { o with state := .running, nextIssue := 0, startGens := gens, fenceGens := [], levels := [], invalid := []
                 progress := (List.range prog.length).map (fun k =>
                   { instr := k, live := [], durable := [], done := false, units := 0, recordedAt := s.wall }) })
      let s := (runFrames s r).foldl (fun s f => setFrame s f (fun f => { f with granted := [] })) s
      finishOrder (loadOrder s r rn o) r
  | _, _ => s

def execWorkOrderStart (r : Fin 8) (s : State) : Host.Outcome State Fault Refusal := clocked s (startOrder s r)

/-! ### Ring sequences of an instruction (R93) -/

/-- Ring sequences that an instruction passes: one a tile, or one a unit. -/
def ringCount (op : PInstr) (t : Tiling) (units : List Nat) : Nat :=
  if op.micro || isTiled op then (if units.isEmpty then 0 else tileCount t) else units.length

/-- Rings that an instruction reads and writes. -/
def consumedRings (im : Image) (op : PInstr) : List Nat := ringsOf im op (readers op)
def producedRings (im : Image) (op : PInstr) : List Nat := ringsOf im op (writers op)

/-- The base sequence of every ring for an instruction, and the rings' counters beyond it (R93). -/
def takeBases (s : State) (r : Nat) (rn : Run) (op : PInstr) (n : Nat) : State × List Nat :=
  let cs := consumedRings rn.image op
  let ps := producedRings rn.image op
  let bases := rn.rings.mapIdx (fun g rg => if ps.contains g then rg.prodBase else rg.consBase)
  (setRun s r (fun rn => { rn with rings := rn.rings.mapIdx (fun g rg =>
    { rg with consBase := if cs.contains g then rg.consBase + n else rg.consBase
              prodBase := if ps.contains g then rg.prodBase + n else rg.prodBase }) }), bases)

/-! ### Issue -/

/-- The instruction that a run issues next, if its order may issue it now (R113, R240, R405): the run stands
ready, unfaulted and not paused (R26), and the instruction before has been taken, for an overlapping instruction, or has
committed; a CCHECK waits for all before it. -/
def issuable (s : State) (r : Nat) : Option (Run × Order × List PInstr × Nat × PInstr) :=
  match getRun s r with
  | none => none
  | some rn =>
    match orderOf s rn with
    | none => none
    | some o =>
      let prog := orderProgram s rn o
      let k := o.nextIssue
      let op := instrAt s rn o prog k
      let before := if k == 0 then true
        else if !op.micro && hasOverlap op then takenInstr s r rn prog (k - 1)
        else committedInstr rn prog (k - 1)
      if rn.ready && o.state == .running && rn.fault.isNone && rn.trip.isNone && rn.checkWait.isNone
          && !rn.recovering && !rn.paused && (rn.savedGens.isEmpty || rn.replayReady) && k < prog.length && before && (!isCheck op || rn.issued.all instrDone)
          && !(runFrames s r).any (fun f => (getFrame s f).scrubBusy)
      then some (rn, o, prog, k, op) else none

/-- The order advances to its next instruction. -/
def advanceIssue (s : State) (n : BitVec 64) : State := setOrder s n (fun o => { o with nextIssue := o.nextIssue + 1 })

/-- TFENCE in a replay that has passed this fence before (R244): the recorded generations become active; one that
the archive no longer holds faults with 0x0261. -/
def replayFence (s : State) (r k mask : Nat) (gens : List (BitVec 32)) : State :=
  let wanted (n : Nat) : Bool := bit mask n && nth gens n != 0 && nth gens n != genInForce s r n
  if (List.range 16).any (fun n => wanted n && (archivedBank s (nth gens n)).gen == 0) then runFault s r 0x0261 k 0
  else setRoots s r (List.mapIdx (fun n x =>
    if !wanted n then x
    else if x.activeB then { x with a := archivedBank s (nth gens n), activeB := false, pending := false }
    else { x with b := archivedBank s (nth gens n), activeB := true, pending := false }))

/-- TFENCE (R240, R242): pending generations of the masked slots become active in every worker of the run, and
the journal records them. -/
def issueFence (s : State) (r : Nat) (o : Order) (k mask : Nat) : State :=
  match o.fenceGens.find? (fun f => f.1 == k) with
  | some f => replayFence s r k mask f.2
  | none =>
  let s := setRoots s r (List.mapIdx (fun n x => if bit mask n && x.pending then { x with activeB := !x.activeB, pending := false } else x))
  let gens := (List.range 16).map (fun n => if bit mask n then genInForce s r n else 0)
  let s := journal s 3 r o.number (orderSource o.number)
    (natLe 4 k ++ natLe 2 mask ++ natLe 2 0 ++ gens.flatMap (fun g => natLe 4 g.toNat))
  setOrder s o.number (fun o => { o with fenceGens := o.fenceGens ++ [(k, gens)] })

/-- CCHECK (R405): a CHECK frame on each link of its mask, and the wait for their counts. -/
def issueCheck (s : State) (r : Nat) (rn : Run) (k : Nat) (op : PInstr) : State :=
  let plan := planOf op
  let count := assocD rn.checkCounts plan 0 + 1
  let s := setRun s r (fun rn => { rn with checkCounts := assocSet rn.checkCounts plan count, checkWait := some k })
  let s := (maskList 24 op.imm1.toNat).foldl (fun s n =>
    sendFrame (setLink s n (fun l => { l with checksOut := assocSet l.checksOut plan count })) n 6
      (natLe 1 0 ++ natLe 1 0 ++ natLe 2 plan ++ natLe 5 (count % 65536)) []) s
  tryCheck s r

/-- CLAND arms every chunk (R402). -/
def armLanding (s : State) (r g k plan : Nat) (units : List Nat) : State :=
  let s := setRing s r g (fun rg =>
    { rg with armed := rg.armed ++ units.map (fun u => { seq := rg.armedCount + u, instr := k, chunk := u, plan := plan })
              armedCount := rg.armedCount + units.length })
  grantLanding s r g

/-- The units of an instruction enter the tallies or the move queues of their home frames, ascending (R137,
R368, R403). -/
def placeUnits (s : State) (r : Nat) (im : Image) (i : Issued) : State :=
  let homed := i.units.map (fun u => (unitHome im i.op i.sizes i.tiling i.chunk u, ({ instr := i.instr, unit := u } : UnitRef)))
  (runFrames s r).foldl (fun s f =>
    let mine := (homed.filter (fun h => h.1 == f)).map Prod.snd
    if mine.isEmpty then s
    else setFrame s f (fun fr =>
      if i.op.micro || isTiled i.op then { fr with tally := fr.tally ++ mine } else { fr with moves := fr.moves ++ mine })) s

/-- Chunk size of a collective as far as it is known at issue (R399). -/
def issueChunk (s : State) (im : Image) (op : PInstr) : Nat :=
  let f := (nth op.descs 0).fmt
  if op.micro then 0
  else if op.opcode == 0x80 then
    match peerRing (getLink s (linkOf op)) (peerRingId op) with | some p => chunkElems f p.slotSize | none => 0
  else if op.opcode == 0x81 then
    match ringOf im (nth op.descs 0) with | some g => chunkElems f (nth im.rings g).slotSize | none => 0
  else 0

/-- An instruction with units issues: sizes resolved and checked, generations and the hyperparameter record
bound, units placed (R125, R220, R240, R256, R371). -/
def issueUnits (s : State) (r : Nat) (rn : Run) (o : Order) (k : Nat) (op : PInstr) : State :=
  let im := rn.image
  let v := resolve s im op
  let codes := issueCodes s im op v
  let badSend := !op.micro && op.opcode == 0x80
    && (match peerRing (getLink s (linkOf op)) (peerRingId op) with
        | some p => let f := (nth op.descs 0).fmt; let c := chunkElems f p.slotSize; c == 0 || c % groupSize f != 0
        | none => false)
  let codes := codes ++ (if badSend then [0x0313] else [])
  match codes with
  | c :: cs => runFault s r (cs.foldl (fun a b => if b.toNat < a.toNat then b else a) c) k 0
  | [] =>
    let ext := extentsOf op v.sizes v.n3 v.n4
    let t := tilingOf op ext
    let chunk := issueChunk s im op
    let units := instrUnits op t chunk
    let unbound := !op.micro && op.opcode == 0x80 && chunk == 0 && !o.progress.any (fun p => p.instr == k && p.done)
    let owed := if unbound then units else owedUnits o k units
    let gens := (List.range 16).map (fun n =>
      if (effStages op).any (fun st => st.op == 0x60 + n) then genInForce s r n else 0)
    let (s, bases) := takeBases s r rn op (ringCount op t units)
    let i : Issued := { instr := k, level := instrLevel im o k, op := op, sizes := v.sizes, tiling := t, gens := gens
                        hyper := hyperRecord s op, units := units, committed := units.filter (fun u => !owed.contains u)
                        ringBase := bases, stackBase := stackBaseOf s im op, closing := false, chunk := chunk }
    let s := advanceIssue (setRun s r (fun rn => { rn with issued := rn.issued ++ [i] })) o.number
    let s := setProgress s r k (fun p => { p with units := unitTotal i })
    if owed.isEmpty then commitInstr s r k
    else if !op.micro && op.opcode == 0x81 then
      match ringOf im (nth op.descs 0) with
      | some g => armLanding s r g k (planOf op) owed
      | none => s
    else placeUnits s r im { i with units := owed }

/-- Comb bytes that the walkers read at issue: shape entries, an indirect stack base, the hyperparameter record (R123, R256,
R365). -/
def issueReads (im : Image) (op : PInstr) : List Nat :=
  (shapeEntries op).flatMap (fun e => (List.range 4).map (paramBase im + 4 * e.1 + ·))
    ++ (if isMove op && !op.micro && stackDesc op 1 && bit op.imm1.toNat 31 then (List.range 8).map (paramBase im + op.imm0.toNat % 65536 + ·) else [])
    ++ (if !op.micro && 0x60 ≤ op.opcode && op.opcode ≤ 0x62 then (List.range 64).map (op.imm0.toNat % 2 ^ 28 + ·) else [])

/-- One instruction issues, unless a word that the walkers read for it is uncorrectable (R107, R108); one without operands has its dynamic n3 and n4 checked like any other (R117, R125). -/
def issueOne (s : State) (r : Nat) (rn : Run) (o : Order) (k : Nat) (op : PInstr) : State :=
  match if s.poison.isEmpty then none else (issueReads rn.image op).find? (poisoned s) with
  | some a => combFault s r { instr := k, unit := 0 } a
  | none =>
  let codes := if !op.micro && noOperands op then issueCodes s rn.image op (resolve s rn.image op) else []
  let plain : Issued := { instr := k, level := 0, op := op, sizes := [], tiling := default, gens := [], hyper := [], units := []
                          committed := [], ringBase := [], stackBase := 0, closing := false, chunk := 0 }
  if !codes.isEmpty then runFault s r (codes.headD 0x0230) k 0
  else if !op.micro && isFence op then
    let s := issueFence s r o k (op.imm0.toNat % 65536)
    commitInstr (advanceIssue (setRun s r (fun rn => { rn with issued := rn.issued ++ [plain] })) o.number) r k
  else if isCheck op then
    issueCheck (advanceIssue (setRun s r (fun rn => { rn with issued := rn.issued ++ [plain] })) o.number) r rn k op
  else issueUnits s r rn o k op

/-- The run's next instruction issues if it may and is one that `p` names. -/
def issueWhere (s : State) (r : Nat) (p : PInstr → Bool) : State :=
  match issuable s r with
  | some (rn, o, _, k, op) => if p op then issueOne s r rn o k op else s
  | none => s

/-- A macro-instruction with an opcode of a range. -/
def macroOp (lo hi : Nat) (op : PInstr) : Bool := !op.micro && lo ≤ op.opcode && op.opcode ≤ hi

/-! ### The commands: each issues the run's next instruction when it has that opcode -/

/-- MICRO_VECTOR_OP (R143, R144). -/
def execMicroVectorOp (r : Fin 8) (s : State) : Host.Outcome State Fault Refusal := clocked s (issueWhere s r PInstr.micro)

/-- CHAIN (R171). -/
def execChain (r : Fin 8) (s : State) : Host.Outcome State Fault Refusal := clocked s (issueWhere s r (macroOp 0x00 0x1F))

/-- CONVERT (R172). -/
def execConvert (r : Fin 8) (s : State) : Host.Outcome State Fault Refusal := clocked s (issueWhere s r (macroOp 0x40 0x4F))

/-- ROW_GATHER (R173). -/
def execRowGather (r : Fin 8) (s : State) : Host.Outcome State Fault Refusal := clocked s (issueWhere s r (macroOp 0x50 0x50))

/-- RSUM (R198). -/
def execRsum (r : Fin 8) (s : State) : Host.Outcome State Fault Refusal := clocked s (issueWhere s r (macroOp 0x20 0x20))

/-- RSUMSQ (R198). -/
def execRsumsq (r : Fin 8) (s : State) : Host.Outcome State Fault Refusal := clocked s (issueWhere s r (macroOp 0x21 0x21))

/-- RMEAN (R198). -/
def execRmean (r : Fin 8) (s : State) : Host.Outcome State Fault Refusal := clocked s (issueWhere s r (macroOp 0x22 0x22))

/-- RSUM2 (R198). -/
def execRsum2 (r : Fin 8) (s : State) : Host.Outcome State Fault Refusal := clocked s (issueWhere s r (macroOp 0x23 0x23))

/-- RMAX (R198). -/
def execRmax (r : Fin 8) (s : State) : Host.Outcome State Fault Refusal := clocked s (issueWhere s r (macroOp 0x24 0x24))

/-- RMIN (R198). -/
def execRmin (r : Fin 8) (s : State) : Host.Outcome State Fault Refusal := clocked s (issueWhere s r (macroOp 0x25 0x25))

/-- RAMAX (R198). -/
def execRamax (r : Fin 8) (s : State) : Host.Outcome State Fault Refusal := clocked s (issueWhere s r (macroOp 0x26 0x26))

/-- RARGMAX (R198). -/
def execRargmax (r : Fin 8) (s : State) : Host.Outcome State Fault Refusal := clocked s (issueWhere s r (macroOp 0x27 0x27))

/-- RARGMIN (R198). -/
def execRargmin (r : Fin 8) (s : State) : Host.Outcome State Fault Refusal := clocked s (issueWhere s r (macroOp 0x28 0x28))

/-- NSTATS (R201). -/
def execNstats (r : Fin 8) (s : State) : Host.Outcome State Fault Refusal := clocked s (issueWhere s r (macroOp 0x2C 0x2C))

/-- RMSSTATS (R201). -/
def execRmsstats (r : Fin 8) (s : State) : Host.Outcome State Fault Refusal := clocked s (issueWhere s r (macroOp 0x2D 0x2D))

/-- NAPPLY (R203). -/
def execNapply (r : Fin 8) (s : State) : Host.Outcome State Fault Refusal := clocked s (issueWhere s r (macroOp 0x2E 0x2E))

/-- SMAX_STATS (R205). -/
def execSmaxStats (r : Fin 8) (s : State) : Host.Outcome State Fault Refusal := clocked s (issueWhere s r (macroOp 0x30 0x30))

/-- SMAX_APPLY (R207). -/
def execSmaxApply (r : Fin 8) (s : State) : Host.Outcome State Fault Refusal := clocked s (issueWhere s r (macroOp 0x31 0x31))

/-- SMAX_BLOCK (R208). -/
def execSmaxBlock (r : Fin 8) (s : State) : Host.Outcome State Fault Refusal := clocked s (issueWhere s r (macroOp 0x32 0x32))

/-- SMAX_RESCALE (R209). -/
def execSmaxRescale (r : Fin 8) (s : State) : Host.Outcome State Fault Refusal := clocked s (issueWhere s r (macroOp 0x33 0x33))

/-- SMAX_SEED (R211). -/
def execSmaxSeed (r : Fin 8) (s : State) : Host.Outcome State Fault Refusal := clocked s (issueWhere s r (macroOp 0x34 0x34))

/-- SMAX_SEED_APPLY (R211). -/
def execSmaxSeedApply (r : Fin 8) (s : State) : Host.Outcome State Fault Refusal := clocked s (issueWhere s r (macroOp 0x35 0x35))

/-- ADAMW (R257). -/
def execAdamw (r : Fin 8) (s : State) : Host.Outcome State Fault Refusal := clocked s (issueWhere s r (macroOp 0x60 0x60))

/-- ADAM_L2 (R257). -/
def execAdamL2 (r : Fin 8) (s : State) : Host.Outcome State Fault Refusal := clocked s (issueWhere s r (macroOp 0x61 0x61))

/-- MOMENTUM (R257). -/
def execMomentum (r : Fin 8) (s : State) : Host.Outcome State Fault Refusal := clocked s (issueWhere s r (macroOp 0x62 0x62))

/-- NWATCH (R263). -/
def execNwatch (r : Fin 8) (s : State) : Host.Outcome State Fault Refusal := clocked s (issueWhere s r (macroOp 0x68 0x68))

/-- FCOPY (R367). -/
def execFcopy (r : Fin 8) (s : State) : Host.Outcome State Fault Refusal := clocked s (issueWhere s r (macroOp 0x70 0x70))

/-- FLOAD (R367). -/
def execFload (r : Fin 8) (s : State) : Host.Outcome State Fault Refusal := clocked s (issueWhere s r (macroOp 0x71 0x71))

/-- FSTORE (R367). -/
def execFstore (r : Fin 8) (s : State) : Host.Outcome State Fault Refusal := clocked s (issueWhere s r (macroOp 0x72 0x72))

/-- FSEND (R369). -/
def execFsend (r : Fin 8) (s : State) : Host.Outcome State Fault Refusal := clocked s (issueWhere s r (macroOp 0x73 0x73))

/-- FTRANS (R366). -/
def execFtrans (r : Fin 8) (s : State) : Host.Outcome State Fault Refusal := clocked s (issueWhere s r (macroOp 0x74 0x74))

/-- FTRANS_STORE (R366). -/
def execFtransStore (r : Fin 8) (s : State) : Host.Outcome State Fault Refusal := clocked s (issueWhere s r (macroOp 0x75 0x75))

/-- CSEND (R403). -/
def execCsend (r : Fin 8) (s : State) : Host.Outcome State Fault Refusal := clocked s (issueWhere s r (macroOp 0x80 0x80))

/-- CLAND (R402). -/
def execCland (r : Fin 8) (s : State) : Host.Outcome State Fault Refusal := clocked s (issueWhere s r (macroOp 0x81 0x81))

/-- CCHECK (R405). -/
def execCcheck (r : Fin 8) (s : State) : Host.Outcome State Fault Refusal := clocked s (issueWhere s r (macroOp 0x82 0x82))

/-- TFENCE (R240). -/
def execTfence (r : Fin 8) (s : State) : Host.Outcome State Fault Refusal := clocked s (issueWhere s r (macroOp 0x98 0x98))

end Sys2Proof.Machine
end

