-- ==== Sys2Proof/Machine/Workers.lean ====
section
/-!
DEFINITION. The worker domain: fencing, spares,
re-admission (R18, R19, R464, R465, R468) and the tests of the row-state memory (R196, R325).
-/

namespace Sys2Proof.Machine

/-! ### Worker registers at admission (R69, R177, R202, R252) -/

def clearCounters (w : Worker) : Worker :=
  { w with numFlush := 0, numSat := 0, numNanLost := 0, cyc := List.replicate 5 0, cycHi := List.replicate 5 0
           rsCe := 0, numCancel := 0, flagAllNeginf := false, flagCancel := false, sfnZero := 0, sfnSkip := 0, sfnUe := 0, sfnCe := 0 }

/-- A pending shadow sample that cannot be completed is skipped (R268). -/
def skipSample (w : Worker) : Worker :=
  if w.sample.isSome then { w with sample := none, sfnSkip := satAdd w.sfnSkip 1 } else w

/-- The registers, tables and cells that a worker reset clears; the epoch stays (Table 15.1). -/
def wipeWorker (x : Worker) : Worker :=
  let z := Worker.reset 0
  { clearCounters (skipSample x) with
    flushA := z.flushA, flushB := z.flushB, cycTag := z.cycTag, rsState := z.rsState, root := z.root, rowState := [], cells := [], rewrite := none }

/-! ### Spares (R18, R465, R468, R493) -/

/-- The spare of a worker number's pair. -/
def spareOf (n : Nat) : Nat := n / 16

/-- May a pair's spare be taken: free, in service, and not already promised? -/
def spareFree (s : State) (k : Nat) : Bool :=
  let sp := getWorker s (64 + k)
  sp.serves.isNone && sp.admission != .outOfService && !s.keeper.substitutions.any (fun x => x.1 == k)

/-- A substitution asked for: the spare, the number it takes, whether the worker is then withdrawn, and
whether it returns by itself. -/
def askSpare (s : State) (n : Nat) (withdraw byItself : Bool) : State :=
  setKeeper s (fun k => { k with substitutions := k.substitutions ++ [(spareOf n, n, withdraw, byItself)] })

/-- An in-place unit whose copy-out cannot be completed: its tile is torn (R459); `w` names the worker whose fault
escalates so. -/
def tearUnit (w : Option Nat) (s : State) (h : Held) : State :=
  match getRun s h.run with
  | none => s
  | some rn =>
    let regions := match findIssued rn h.ref.instr with
      | some i => (roleDescs i.op 3).flatMap (fun j => reachedRegions rn.image (nth i.op.descs j) (nth i.sizes j))
      | none => []
    let s := invalidate s h.run regions
    match w with
    | some w => runFault s h.run 0x0292 h.ref.instr h.ref.unit 1 w (phase := 4)
    | none => runFault s h.run 0x0292 h.ref.instr h.ref.unit

/-- Was a part reset by an escalation within the last hour (R468)? -/
def resetBefore (s : State) (domain inst : Nat) : Bool :=
  s.keeper.resetParts.any (fun p => p.1 == domain && p.2.1 == inst && s.wall < p.2.2 + 3600 * 10 ^ 9)

/-- An escalated reset of a part, from which its hour runs (R468). -/
def noteReset (s : State) (domain inst : Nat) : State :=
  setKeeper s (fun k =>
    { k with resetParts := k.resetParts.filter (fun p => !(p.1 == domain && p.2.1 == inst)) ++ [(domain, inst, s.wall)] })

/-- A worker without a substitute is reset: it passes the sequence of Table 14.3, or leaves service. -/
def leaveOrReadmit (leave : Bool) (x : Worker) : Worker :=
  let x := { wipeWorker x with held := [] }
  if leave then { x with admission := .outOfService } else startAdmission x

/-- A worker is fenced (R464): its epoch advances, its open units are redone elsewhere, and a unit whose
copy-out was interrupted stays for the spare, or is torn when no spare is free (R459, R468). -/
def fenceWorker (s : State) (w : Nat) (code : BitVec 16) : State :=
  let wk := getWorker s w
  let openUnits := wk.held.filter (fun h => !h.copyOut)
  let s := openUnits.foldl (fun s h => interruptUnit s h.run h.ref) s
  let s := setWorker s w (fun x =>
    skipSample { x with epoch := x.epoch + 1, admission := .fenced, held := x.held.filter Held.copyOut, wait := none, rowState := [] })
  let second := (findRecovery s 1 w).isSome
  let again := resetBefore s 1 w
  let s := phaseRecord (beginRecovery s 1 w code) 1 w 2 code (redone := openUnits.length)
    (instr := match wk.held.head? with | some h => h.ref.instr | none => 0xFFFFFFFF)
    (unit := match wk.held.head? with | some h => h.ref.unit | none => 0)
  let s := if again then
      setKeeper (phaseRecord s 1 w 5 code) (fun k =>
        { k with oosWorker := k.oosWorker ++ [w], recoveries := k.recoveries.filter (fun x => !(x.domain == 1 && x.inst == w)) })
    else if second then noteReset (phaseRecord s 1 w 4 code) 1 w else s
  match wk.serves with
  | some n =>
    if w < 64 && spareFree s (spareOf n) then askSpare s n again true
    else
      let s := (wk.held.filter Held.copyOut).foldl (tearUnit (some w)) s
      setWorker s w (leaveOrReadmit again)
  | none => setWorker s w (leaveOrReadmit again)

/-! ### Root tables (R245, Table 14.3 step 2) -/

/-- The run whose tables a worker reloads: its own; for a worker that a spare replaces, that of its number; for a spare
that prepares a substitution, that of the number which it is to take. -/
def reloadRun (s : State) (w : Nat) : Option Nat :=
  let of (n : Nat) : Option Nat := (servingOf s n).bind (fun x => (getWorker s x).run)
  match (getWorker s w).run with
  | some r => some r
  | none => if w < 64 then of w else (s.keeper.substitutions.find? (fun x => x.1 + 64 == w)).bind (fun x => of x.2.1)

/-- Both banks of every slot reloaded from the archive with their pending marks (R245), and the flush settings of the run
with them (R51). -/
def reloadRoot (s : State) (w : Nat) : State :=
  match (reloadRun s w).bind (getRun s) with
  | none => s
  | some rn =>
    let heirloom := rn.image.numericMode == 1
    let from_ (b : Bank) : Bank := archivedBank s b.gen
    setWorker s w (fun x =>
      { x with root := rn.root.map (fun sl => { sl with a := from_ sl.a, b := from_ sl.b })
               flushA := if heirloom then 0 else rn.image.flushA, flushB := if heirloom then 0 else rn.image.flushB })

/-- Does the archive still give every generation that a worker has to reload? -/
def reloadable (s : State) (w : Nat) : Bool :=
  match (reloadRun s w).bind (getRun s) with
  | none => true
  | some rn => rn.root.all (fun sl => [sl.a, sl.b].all (fun b => b.gen == 0 || (archiveEntry s b.gen).isSome))

/-- Has a worker failed, so that its spare stands in at once: fenced, or in a sequence that has failed (Table 14.1, R465)? -/
def standsFailed (wk : Worker) : Bool :=
  wk.admission == .fenced || (1 ≤ wk.failures && wk.admission != .admitted && wk.admission != .waiting)

/-- SPARE_HANDOVER (R18, R465, R493): the spare takes number, frame membership and cells; after a failure at
once, otherwise when it has passed steps 1 to 4 and the worker holds no unit, with the tables then in force (R245). -/
def handOver (s : State) (k : Nat) : State :=
  match s.keeper.substitutions.find? (fun x => x.1 == k) with
  | none => s
  | some (_, n, withdraw, byItself) =>
    match servingOf s n with
    | none => s
    | some w =>
      let wk := getWorker s w
      let sp := getWorker s (64 + k)
      let fault := standsFailed wk
      if w == 64 + k || !(fault || (sp.admission == .waiting && wk.held.isEmpty && wk.wait.isNone)) then s
      else
        let s := setWorker s (64 + k) (fun x =>
          { x with serves := some n, run := wk.run, cells := wk.cells, held := wk.held
                   flushA := wk.flushA, flushB := wk.flushB, cycTag := wk.cycTag
                   admission := if fault then .notAdmitted else .waiting })
        let s := if !fault then reloadRoot s (64 + k)
          else if wk.held.isEmpty then setWorker s (64 + k) startAdmission else s
        let s := setWorker s w (fun x =>
          let x := { (if fault then wipeWorker x else { skipSample x with cells := [], rowState := [] }) with
                              serves := none, run := none, held := [] }
          if withdraw || x.admission == .outOfService then { x with admission := .outOfService } else if byItself then startAdmission x else { x with admission := .notAdmitted })
        setKeeper s (fun kp =>
          { kp with substitutions := kp.substitutions.filter (fun x => x.1 != k)
                    serviced := if byItself || withdraw then kp.serviced else kp.serviced ++ [w]
                    oosWorker := if withdraw && !kp.oosWorker.contains w then kp.oosWorker ++ [w] else kp.oosWorker })

def execSpareHandover (k : Fin 4) (s : State) : Host.Outcome State Fault Refusal := clocked s (handOver s k)

/-- IDENTITY_RETURN (R465, R493): at the spare's unit boundary the worker that passed re-admission takes its
number back; one that SERVICE action 1 replaced only by action 2. -/
def returnIdentity (s : State) (k : Nat) : State :=
  let sp := getWorker s (64 + k)
  match sp.serves with
  | none => s
  | some n =>
    let wk := getWorker s n
    if !(wk.serves.isNone && wk.admission == .waiting && sp.held.isEmpty && sp.wait.isNone
          && (!s.keeper.serviced.contains n || s.keeper.releases.contains k)) then s
    else
      let s := setWorker s n (fun x => { x with serves := some n, run := sp.run, flushA := sp.flushA, flushB := sp.flushB, cycTag := sp.cycTag })
      let s := setWorker s (64 + k) (fun x =>
        { skipSample x with serves := none, run := none, cells := [], rowState := []
                            admission := if x.admission == .outOfService then .outOfService else .notAdmitted })
      setKeeper (reloadRoot s n) (fun kp => { kp with serviced := kp.serviced.filter (· != n), releases := kp.releases.filter (· != k) })

def execIdentityReturn (k : Fin 4) (s : State) : Host.Outcome State Fault Refusal := clocked s (returnIdentity s k)

/-! ### Re-admission (Table 14.3) -/

/-- A failed sequence (R465): after two the worker is out of service; a worker that serves its own number
is replaced by its spare (R493). During the worker's own recovery it is a second fault, which escalates into a reset (R468). -/
def failAdmission (s : State) (w : Nat) (code : BitVec 16) : State :=
  let wk := getWorker s w
  let s := faultRecord s { code := code, domain := 1, inst := w, phase := 1, run := wk.run.getD 0xFF, order := 0, instr := 0xFFFFFFFF
                           redone := 0, unit := 0, duration := 0 } none
  let s := match wk.serves with
    | some n => if w < 64 && spareFree s (spareOf n) then askSpare s n false true else s
    | none => s
  if 1 ≤ wk.failures then
    let s := phaseRecord s 1 w 5 code
    let s := setWorker s w (fun x => { x with admission := .outOfService, failures := 2 })
    setKeeper s (fun k =>
      { k with oosWorker := if k.oosWorker.contains w then k.oosWorker else k.oosWorker ++ [w]
               substitutions := k.substitutions.filter (fun x => x.1 + 64 != w)
               recoveries := k.recoveries.filter (fun x => !(x.domain == 1 && x.inst == w)) })
  else
    let s := if (findRecovery s 1 w).isSome then noteReset (phaseRecord s 1 w 4 code) 1 w else s
    setWorker s w (fun x => { startAdmission x with failures := x.failures + 1 })

/-- READMISSION_STEP_DONE (R465): one step of Table 14.3 ends. -/
def stepDone (s : State) (w : Nat) (pass : Bool) : State :=
  let wk := getWorker s w
  match wk.admission with
  | .scrubbing =>
    let s := setWorker s w (fun x => { skipSample x with cells := [], rowState := [], rsState := if pass then .passed else .failed })
    if pass then setWorker s w (fun x => { x with admission := .reloading }) else failAdmission s w 0x0253
  | .reloading => if pass && reloadable s w then setWorker (reloadRoot s w) w (fun x => { x with admission := .resync }) else failAdmission s w 0x0243
  | .resync => if pass then setWorker s w (fun x => { x with admission := .selfTest }) else failAdmission s w 0x0243
  | .selfTest => if pass then setWorker s w (fun x => { x with admission := .waiting }) else failAdmission s w 0x0243
  | _ => s

def execReadmissionStepDone (w : Fin 68) (pass : Bool) (s : State) : Host.Outcome State Fault Refusal := clocked s (stepDone s w pass)

/-- WORKER_ADMIT (R431, R464, R465): step 5, not before the die instant of the increase that ungated its frame. The epoch advances and, for a worker of a run, the counters are cleared. -/
def admitWorker (s : State) (w : Nat) : State :=
  let wk := getWorker s w
  if wk.admission == .waiting && wk.serves.isSome && (getFrame s (workerFrame s w)).ungated
      && !s.power.leadUngated.contains (workerFrame s w) then
    let s := setWorker s w (fun x =>
      let x := if x.run.isSome then clearCounters x else x
      { x with admission := .admitted, epoch := x.epoch + 1, failures := 0 })
    endRecovery s 1 w
  else s

def execWorkerAdmit (w : Fin 68) (s : State) : Host.Outcome State Fault Refusal := clocked s (admitWorker s w)

/-! ### Tests of the row-state memory (R196, R197, R325) -/

/-- Entries per output element that an opcode needs (Table 6.5). -/
def entryNeed (op : PInstr) : Nat :=
  let o := op.opcode
  if !op.micro && ((0x20 ≤ o && o ≤ 0x28) || o == 0x2C || o == 0x2D || o == 0x30 || o == 0x32) then 1 else 0

/-- Does a worker hold a unit that needs row state? -/
def holdsRowState (s : State) (w : Nat) : Bool :=
  (getWorker s w).held.any (fun h =>
    match (getRun s h.run).bind (fun rn => findIssued rn h.ref.instr) with | some i => entryNeed i.op != 0 | none => false)

/-- BIST_START (R325): the test asked for begins once the worker holds no unit with e of 1 or
more and no scrub of the memory is under way. -/
def execBistStart (w : Fin 68) (s : State) : Host.Outcome State Fault Refusal :=
  clocked s (
    let wk := getWorker s w
    if wk.bist.isSome && wk.rsState != .testing && wk.rsState != .scrubbing && !holdsRowState s w then setWorker s w (fun x => { x with rsState := .testing }) else s)

/-- ROW_STATE_TEST_DONE (R196, R197, R325): passed or failed; a failure is recorded and starts substitution,
and a request for the test is answered. -/
def testDone (s : State) (w : Nat) (pass : Bool) : State :=
  let wk := getWorker s w
  if wk.rsState != .testing then s
  else
    let s := setWorker s w (fun x => { x with rsState := if pass then .passed else .failed, bist := none })
    let s := match wk.bist with
      | some p => reply s p 0 (natLe 1 (if pass then 2 else 3))
      | none => s
    if pass then s
    else
      let s := faultRecord s { code := 0x0253, domain := 3, inst := w, phase := 1, run := wk.run.getD 0xFF, order := 0, instr := 0xFFFFFFFF
                               redone := 0, unit := 0, duration := 0 } none
      match wk.serves with
      | some n => if w < 64 && spareFree s (spareOf n) then
          setWorker (askSpare s n false true) (64 + spareOf n) (fun x => if x.admission == .waiting then x else startAdmission x) else s
      | none => s

def execRowStateTestDone (w : Fin 68) (pass : Bool) (s : State) : Host.Outcome State Fault Refusal := clocked s (testDone s w pass)

/-- ROW_STATE_SCRUB_DONE (R196): the scrub after a fault leaves state passed. -/
def execRowStateScrubDone (w : Fin 68) (s : State) : Host.Outcome State Fault Refusal :=
  clocked s (if (getWorker s w).rsState == .scrubbing then endRecovery (setWorker s w (fun x => { x with rsState := .passed })) 3 w else s)

end Sys2Proof.Machine
end

