-- ==== Sys2Proof/Machine/Tally.lean ====
section
/-!
DEFINITION. The tallies and the tiles: the grant of units (R136 to R141), the run of one tile on a worker
(R94, R95, R133, R146, R176, R178, R193, R458, R459), the close unit (R261), shadow samples (R266 to R268),
guarded layers (R271 to R275), the ring timeouts (R97) and the drain of a commit slot (R459).
-/

namespace Sys2Proof.Machine

/-! ### Grants -/

/-- The run whose tallies a worker may take from now: admitted, its frame ungated and not about to gate, nothing
held, and neither its frame nor its run stopped (R26, R136, R455, R456). -/
def grantRun (s : State) (w : Nat) : Option Nat :=
  let wk := getWorker s w
  match wk.serves, wk.run with
  | some n, some r =>
    let f := getFrame s (n / 8)
    match getRun s r with
    | some rn =>
      if wk.admission == .admitted && f.ungated && !f.gateRequested && !f.recovering && wk.held.isEmpty && wk.wait.isNone
          && !rn.recovering && rn.fault.isNone then some r else none
    | none => none
  | _, _ => none

/-- May a worker take units that use row state (R197, R325)? -/
def rowStateReady (wk : Worker) : Bool := wk.rsState == .passed && wk.bist.isNone

/-- Is a unit one that a worker may take? -/
def unitOpen (s : State) (r : Nat) (wk : Worker) (u : UnitRef) : Bool :=
  match (getRun s r).bind (fun rn => findIssued rn u.instr) with
  | some i => entryNeed i.op == 0 || rowStateReady wk
  | none => false

/-- The affected slot is rewritten from the archive before the worker takes another unit (R247). -/
def rewriteSlot (s : State) (w : Nat) : State :=
  match (getWorker s w).rewrite with
  | none => s
  | some n =>
    let fresh (b : Bank) : Bank := match archiveEntry s b.gen with | some e => { b with file := e.file } | none => b
    let s := setWorker s w (fun x =>
      { x with rewrite := none, root := updAt x.root n (fun sl => { sl with a := fresh sl.a, b := fresh sl.b }) })
    endRecovery s 2 w

/-- A unit leaves the tally or the replay queue of a frame for a worker (R138, R458). -/
def takeUnit (s : State) (r w f : Nat) (u : UnitRef) : State :=
  let level := match (getRun s r).bind (fun rn => findIssued rn u.instr) with | some i => i.level | none => 0
  let redo := (getFrame s f).replay.contains u
  let s := setFrame s f (fun fr =>
    if redo then { fr with replay := fr.replay.erase u }
    else { fr with tally := fr.tally.erase u, granted := assocSet fr.granted u.instr (assocD fr.granted u.instr 0 + 1) })
  setWorker s w (fun x =>
    { x with held := [{ run := r, ref := u, level := level, tile := 0, seqs := [], copyOut := false, homes := [], crc := 0 }] })

/-- Cycles without a unit (Table 5.14). -/
def addCyc (s : State) (w k n : Nat) : State := setWorker s w (fun x => { x with cyc := updAt x.cyc k (fun c => wrapAdd c n) })

/-- UNIT_GRANT (R138, R458): the frame's replay queue, then its tally, in order; a unit with row state waits for
a worker whose test has passed (R197). -/
def grantUnit (s : State) (w idle : Nat) : State :=
  match grantRun s w with
  | none => s
  | some r =>
    let s := addCyc (rewriteSlot s w) w 4 idle
    let f := workerFrame s w
    let fr := getFrame s f
    match (fr.replay ++ fr.tally).find? (unitOpen s r (getWorker s w)) with
    | some u => takeUnit s r w f u
    | none => s

def execUnitGrant (w : Fin 68) (idleCycles : Nat) (s : State) : Host.Outcome State Fault Refusal := clocked s (grantUnit s w idleCycles)

/-- UNIT_STEAL (R139): a worker whose own frame holds no untaken unit takes one from the first frame f xor 1 to
f xor 7 of its run that does. -/
def stealUnit (s : State) (w idle : Nat) : State :=
  match grantRun s w with
  | none => s
  | some r =>
    let f := workerFrame s w
    let queued (g : Nat) : List UnitRef := let fr := getFrame s g; fr.replay ++ fr.tally
    if !(queued f).isEmpty then s
    else
      let s := addCyc (rewriteSlot s w) w 4 idle
      let victims := ((List.range 8).drop 1).map (fun x => f ^^^ x)
      match victims.find? (fun g => (getFrame s g).run == some r && !(getFrame s g).recovering && !(queued g).isEmpty) with
      | none => s
      | some g =>
        match (queued g).find? (unitOpen s r (getWorker s w)) with
        | some u => takeUnit s r w g u
        | none => s

def execUnitSteal (w : Fin 68) (idleCycles : Nat) (s : State) : Host.Outcome State Fault Refusal := clocked s (stealUnit s w idleCycles)

/-! ### What a tile runs on -/

/-- The ring sequence of tile `T` (R93): by its index on a tile-mapped ring, else the ring's next write or read. -/
def tileSeq (rn : Run) (i : Issued) (produce : Bool) (T g : Nat) : Nat :=
  let rg := nth rn.rings g
  if rg.decl.tileMapped then nth i.ringBase g + T else if produce then rg.prodSeq else rg.consSeq

/-- Ring and sequence of every slot that a tile reads, and writes. -/
def tileReadSlots (rn : Run) (i : Issued) (T : Nat) : List (Nat × Nat) :=
  (consumedRings rn.image i.op).map (fun g => (g, tileSeq rn i false T g))
def tileWriteSlots (rn : Run) (i : Issued) (T : Nat) : List (Nat × Nat) :=
  (producedRings rn.image i.op).map (fun g => (g, tileSeq rn i true T g))

/-- Where a descriptor's element 0 lies for tile `T`: a ring operand's first element of the tile stands at the start
of its slot (R65, R93). -/
def tileBase (rn : Run) (i : Issued) (T j : Nat) : Int :=
  let d := nth i.op.descs j
  match ringOf rn.image d with
  | none => d.base
  | some g =>
    let q := tileSeq rn i ((writers i.op).contains j) T g
    let first := elemIndex d (nth i.sizes j) (tileOrigin i.tiling T)
    (slotBase (nth rn.rings g) q : Int) - (elemBytes d.fmt 0 first).headD 0

/-- Address of the Heirloom page that a slot binds for a format, in the worker's own frame (R248, R251). -/
def heirloomPage (im : Image) (f slot fmt : Nat) : Option Nat :=
  match im.slots.find? (fun x => x.slot == slot) with
  | none => none
  | some x =>
    let p := if fmt == 3 then x.hlBf16 else x.hlFp16
    if p < 8 then some (f * 2 ^ 25 + 0x1F00000 + p * 0x20000) else none

/-- The context of tile `T` of a unit on a worker. -/
def tileCtx (s : State) (rn : Run) (i : Issued) (w T : Nat) : TileCtx :=
  let wk := getWorker s w
  { md := { flushA := wk.flushA, flushB := wk.flushB, heirloom := rn.image.numericMode == 1 }
    guarded := isGuarded i.op && !i.op.micro, rd := readComb s, seed := seedOf rn i.op.seedIndex, instr := i.instr, tile := T
    op := i.op, sizes := i.sizes, til := i.tiling, base := tileBase rn i T
    bank := fun n => bankFor wk (nth i.gens n) n, hlPage := heirloomPage rn.image (workerFrame s w) }

/-! ### The work of one tile -/

/-- The writes, the events and the row state that a tile leaves. `first` and `last` place it in its strip. -/
def tileWork (ctxOf : Nat → TileCtx) (i : Issued) (unit T : Nat) (first last : Bool) (rows : List RowEntry) :
    List EWrite × Ev × List RowEntry :=
  let c := ctxOf T
  let op := i.op
  let o := op.opcode
  let chain := runChain c
  if op.micro || o ≤ 0x1F || (0x40 ≤ o && o ≤ 0x50) then (chain.writes, chain.ev, [])
  else if 0x60 ≤ o && o ≤ 0x62 then let (ws, ev) := optTile c i.hyper; (ws, ev, [])
  else if o == 0x68 then let (ws, ev) := nwatchTile c; (ws, ev, [])
  else if o == 0x2E then let (ws, ev) := napplyTile c; (chain.writes ++ ws, chain.ev.add ev, [])
  else if o == 0x31 then let (ws, ev) := smaxApplyTile c chain; (chain.writes ++ ws, chain.ev.add ev, [])
  else if o == 0x33 then let (ws, ev) := smaxRescaleTile c; (chain.writes ++ ws, chain.ev.add ev, [])
  else if o == 0x35 then let (ws, ev) := smaxSeedApplyTile ctxOf c chain; (chain.writes ++ ws, chain.ev.add ev, [])
  else
    let (taps, e1) := tapsOf c chain
    let ev := chain.ev.add e1
    if o == 0x32 then let (ws, e2, rows) := smaxBlock c taps; (chain.writes ++ ws, ev.add e2, rows)
    else
      let rows := if first then setPivots op taps (List.replicate (keptCount op i.tiling) (entryInit o)) else rows
      let (rows, e2) := foldTile c taps rows
      if last then
        let (ws, e3, rows) := stripEnd ctxOf unit (unitTiles op i.tiling unit) rows
        (chain.writes ++ ws, (ev.add e2).add e3, rows)
      else (chain.writes, ev.add e2, rows)

/-- Is an instruction SMAX_SEED, whose sums stand in cell 2 (R212)? -/
def isSeedOp (op : PInstr) : Bool := !op.micro && op.opcode == 0x34

/-- The entries of the strip that a worker holds: its row-state memory, or its cell 2 (R190, R212). -/
def heldRows (x : Worker) (i : Issued) : List RowEntry :=
  if isSeedOp i.op then seedRows x.cells (keptCount i.op i.tiling) else x.rowState

/-- The entries that a tile leaves, in the worker. An instruction without entries leaves what stands there. -/
def keepRows (x : Worker) (i : Issued) (rows : List RowEntry) : Worker :=
  if rows.isEmpty then x
  else if isSeedOp i.op then { x with cells := memLay 0 seedCell (seedBytes rows) x.cells }
  else { x with rowState := rows }

/-- The once-per-instruction conversions, counted with the instruction's first tile (R155, R257). -/
def issueEvents (c : TileCtx) (i : Issued) : Ev :=
  if !i.op.micro && 0x60 ≤ i.op.opcode && i.op.opcode ≤ 0x62 then optIssueEvents c.md i.op i.hyper else immEvents c.md i.op

/-- Does a write go to an in-place home (R99, R459)? -/
def homeWrite (c : TileCtx) (w : EWrite) : Bool :=
  (roleDescs c.op 3).any (fun j =>
    let d := nth c.op.descs j
    match w with
    | .elem f b _ _ => (b == c.base j && f == d.fmt) || (d.scaled && d.separate && b == c.base d.scaleDesc)
    | .byte a _ => d.scaled && !d.separate && packedScale c j 0 ≤ a && a < packedScale c j 128)

/-- Is a written value non-finite (R271)? A block scale of 0xFF stands for NaN elements. -/
def nonFiniteWrite : EWrite → Bool
  | .elem f _ _ raw => (f ≤ 6 || f == 10) && !(decodeVal { fmt := f, raw := raw }).isFin
  | .byte _ v => v == 0xFF

/-! ### Words that a tile reads (R107, R108) -/

/-- Bytes of one element. -/
def elemAddrs (c : TileCtx) (j : Nat) (idx : List Nat) : List Nat :=
  let d := nth c.op.descs j
  let e := elemIndex d (nth c.sizes j) idx
  (elemBytes d.fmt (c.base j) e).map Int.toNat

/-- Bytes of one element with its scale; `p` is the position whose block serves it. -/
def elemReads (c : TileCtx) (j p : Nat) (idx : List Nat) : List Nat :=
  let d := nth c.op.descs j
  elemAddrs c j idx
    ++ (if !d.scaled then [] else if d.separate then elemAddrs c d.scaleDesc (scaleIdx idx) else [packedScale c j (p / 32)])

/-- The GATHER stages of a chain: descriptor and index source. -/
def gatherStages (op : PInstr) : List (Nat × Nat) :=
  ((effStages op).filter (fun s => s.op == 0x21)).map (fun s => (s.hi1 - 9, s.hi2 - 1))

/-- Comb bytes that a tile's gathers read, by issue slot: slot, address. -/
def gatherReads (c : TileCtx) (chain : ChainOut) : List (Nat × Nat) :=
  let inRow (j : Nat) (x : Int) : Bool := 0 ≤ x && x < ((nth (nth c.sizes j) 0 : Nat) : Int)
  chain.rows.flatMap (fun r =>
    let slot := r.pos.p % c.til.q
    (gatherStages c.op).flatMap (fun g =>
      let x := (nth r.res g.2).val.truncInt
      let idx := x.toNat :: r.pos.idx.drop 1
      if inRow g.1 x then (elemReads c g.1 (elemPos c.til idx) idx).map (fun a => (slot, a)) else [])
    ++ (if !c.op.micro && c.op.opcode == 0x50 then
        let x := toSigned 32 (readElem c.rd 11 (c.base 1)
          (elemIndex (nth c.op.descs 1) (nth c.sizes 1) [0, nth r.pos.idx 1, nth r.pos.idx 2, nth r.pos.idx 3, nth r.pos.idx 4]))
        if 0 ≤ x && x < ((nth (nth c.sizes 0) 1 : Nat) : Int)
          then
            let idx := [nth r.pos.idx 0, x.toNat, 0, 0, 0]
            (elemReads c 0 (elemPos c.til idx) idx).map (fun a => (slot, a))
          else []
      else [])
    ++ (if c.md.heirloom then
        (effStages c.op).flatMap (fun s =>
          if stageKind s.op == 3 && (s.lo2 == 3 || s.lo2 == 4) then
            match c.hlPage (s.op - 0x60) s.lo2 with
            | some pg =>
              let t := heirloomOperand c.md (srcConv c r s.hi1 s.lo2).1
              [(slot, pg + 2 * t.raw), (slot, pg + 2 * t.raw + 1)]
            | none => []
          else [])
      else []))

/-- Descriptors that a tile reads at its positions: all readers but those read only through a gather, the scales
that come with them, and ROW_GATHER's table. -/
def streamReaders (op : PInstr) : List Nat :=
  (readers op).filter (fun j => (nth op.descs j).role != 4 && !gatherOnly op j && !(!op.micro && op.opcode == 0x50 && j == 0))

/-- The index tuples of a descriptor that a position reads: its own; both moments of an optimizer's state (R254); mean
and rstd of packed statistics (R203). -/
def readIdx (op : PInstr) (sizes : List (List Nat)) (j : Nat) (idx : List Nat) : List (List Nat) :=
  let o := op.opcode
  let moment (m : Nat) : List Nat := [nth idx 0, nth idx 1, m, nth idx 3, nth idx 4]
  if !op.micro && 0x60 ≤ o && o ≤ 0x62 && j == 2 then (if o == 0x62 then [moment 0] else [moment 0, moment 1])
  else if !op.micro && o == 0x2E && j == 1 && nth (nth sizes 1) 0 != 1 then [0 :: idx.drop 1, 1 :: idx.drop 1]
  else [idx]

/-- Every comb byte that a tile reads. -/
def tileReads (c : TileCtx) (chain : ChainOut) : List Nat :=
  (streamReaders c.op).flatMap (fun j =>
    (positions c.til c.tile).flatMap (fun q => (readIdx c.op c.sizes j q.idx).flatMap (elemReads c j q.p)))
    ++ (gatherReads c chain).map Prod.snd

/-- The first poisoned word that a tile reads, or that one of its writes would merge into (R84, R107). -/
def poisonMet (s : State) (c : TileCtx) (chain : ChainOut) (ws : List (Nat × Byte)) : Option Nat :=
  if s.poison.isEmpty then none
  else
    match (tileReads c chain).find? (poisoned s) with
    | some a => some a
    | none =>
      let whole := wholeWords ws
      (ws.map Prod.fst).find? (fun a => poisoned s a && !whole.contains (a / 8))

/-! ### Cycles (R70, R174 to R178, Table 5.11, Table 8.3) -/

/-- Results per lane in 16 cycles at a format (Table 2.11). -/
def fmtRate (f : Nat) : Nat := if f == 0 then 4 else if f == 1 then 8 else if fmtBits f == 32 then 16 else if fmtBits f == 16 then 32 else 64

/-- Rate of a stage: the widest format that it reads, computes in or writes. -/
def stageRate (op : PInstr) (s : Stage) : Nat :=
  let k := stageKind s.op
  let full : PInstr := { op with stages := effStages op }
  let src (c : Nat) : List Nat :=
    if 1 ≤ c && c ≤ 8 then [heldFmt full 9 (c - 1)] else if 9 ≤ c && c ≤ 13 then [(nth op.descs (c - 9)).fmt] else []
  let srcs := if k == 1 then (if s.op == 0x20 || s.op == 0x21 then src s.hi1 else [])
    else if k == 7 then src s.hi1 ++ [(nth op.descs s.lo1).fmt]
    else if k == 3 then src s.hi1
    else if k == 6 || isCvt s.op then src s.hi1
    else src s.hi1 ++ src s.lo1 ++ src s.hi2
  ((srcs ++ (match s.wf with | some f => [f] | none => [])).map fmtRate).foldl min 64

/-- The formats that an apply opcode reads, computes in and writes without a chain (R203, R207, R209, R211). -/
def applyFormats (op : PInstr) : List Nat :=
  (usedDescs op).map (fun j => (nth op.descs j).fmt)
    ++ (if op.opcode == 0x2E then [if (nth op.descs 0).fmt == 1 then 1 else 2] else [1])

/-- What limits the rate of a tile's instruction: the lane rate in sixteenths of a result per cycle (R70, Table 8.3), and
the evaluator cycles of one element (R216, Table 7.2). -/
def chainRate (md : NumMode) (op : PInstr) : Nat × Nat :=
  let o := op.opcode
  let f0 := (nth op.descs 0).fmt
  if !op.micro && (o == 0x60 || o == 0x61) then (if f0 == 1 then 2 else 4, 0)
  else if !op.micro && o == 0x62 then (if f0 == 1 then 4 else 8, 0)
  else if !op.micro && o == 0x68 then (if f0 == 1 then 8 else fmtRate f0, 0)
  else
    let st := effStages op
    let base := (st.map (stageRate op)).foldl min 64
    let base := if !op.micro && isApplyOp o then (applyFormats op).foldl (fun n f => min n (fmtRate f)) base else base
    let sf := (st.filter (fun s => stageKind s.op == 3)).map (fun s => if s.lo2 == 2 then 1 else if md.heirloom then 2 else 0)
    let short := if sf.isEmpty then 64 else 16
    let wide := if !op.micro && isReduceOp o && md.heirloom && (isSumOp o || isSqOp o) then 8 else 64
    let ev := sf.foldl (· + ·) 0
      + (if op.micro then 0 else if o == 0x30 || o == 0x31 || o == 0x32 then 1 else if o == 0x34 || o == 0x35 then 2 else 0)
    (min (min base short) wide, ev)

/-- Cycles that the rate holds issue for a number of slots (R175, R176): an evaluator serves four lanes. -/
def rateCycles (r : Nat × Nat) (slots : Nat) : Nat := max (ceilDiv (slots * 16) (max 1 r.1)) (4 * r.2 * slots)

/-- The distinct index tuples of a descriptor that a tile reads (R176). -/
def readTuples (c : TileCtx) (j : Nat) : List (List Nat) :=
  let d := nth c.op.descs j
  let o := tileOrigin c.til c.tile
  let dim (k : Nat) : List Nat :=
    if nth (nth c.sizes j) k == 1 || nth d.strides k == 0 || (k == 0 && (readIdx c.op c.sizes j [0]).length == 2 && j == 1) then [nth o k]
    else (List.range (min (nth c.til.shape k) (nth c.til.ext k - nth o k))).map (nth o k + ·)
  ((dim 2).flatMap (fun z => (dim 1).flatMap (fun y => (dim 0).map (fun x => [x, y, z, nth o 3, nth o 4])))).flatMap
    (readIdx c.op c.sizes j)

/-- Bytes of a number of elements of a format, with grouped packing, from their element numbers (R46, R176). -/
def packedBytes (f : Nat) (es : List Int) : Nat :=
  if groupSize f == 1 then es.length * groupBytes f
  else ((es.map (fun (e : Int) => e / ((groupSize f : Nat) : Int))).eraseDups).length * groupBytes f

/-- Distinct bytes of a descriptor that a tile reads in frames for which `p` holds: elements and scales (R176). -/
def tileShare (c : TileCtx) (p : Nat → Bool) (j : Nat) : Nat :=
  let d := nth c.op.descs j
  let inFrame (a : Int) : Bool := p (a.toNat / 2 ^ 25)
  let tuples := readTuples c j
  let es := (tuples.map (elemIndex d (nth c.sizes j))).filter (fun e => inFrame ((elemBytes d.fmt (c.base j) e).headD 0))
  let scaleAt (idx : List Nat) : Nat :=
    if d.separate then (elemAddrs c d.scaleDesc (scaleIdx idx)).headD 0 else packedScale c j (elemPos c.til idx / 32)
  let scales := if d.scaled then (((tuples.map scaleAt).eraseDups).filter (fun a => inFrame (a : Int))).length else 0
  packedBytes d.fmt es + scales

/-- Bytes that a tile writes, scales included (R176). -/
def writtenBytes (ws : List EWrite) : Nat :=
  let kinds := (ws.filterMap (fun w => match w with | .elem f b _ _ => some (f, b) | .byte _ _ => none)).eraseDups
  kinds.foldl (fun n k =>
      n + packedBytes k.1 (ws.filterMap (fun w => match w with | .elem f b e _ => if f == k.1 && b == k.2 then some e else none | .byte _ _ => none)))
    (ws.countP (fun w => match w with | .byte _ _ => true | .elem _ _ _ _ => false))

/-- Does a tile read its positions twice, first for the maximum (R204, R208)? -/
def readsTwice (op : PInstr) : Bool := !op.micro && (op.opcode == 0x30 || op.opcode == 0x32)

/-- The bound of R176 on a tile's issue window: cycles that the chain's rate holds, and cycles beyond them that
the reads, the writes and the gathers take. A tile that is read twice has a window for each read: the first from the comb,
the second, with the exponentials, from a cell (R204). -/
def tileWindow (s : State) (w : Nat) (c : TileCtx) (chain : ChainOut) (ws : List EWrite) : Nat × Nat :=
  let slots := (positions c.til c.tile).foldl (fun n q => max n (q.p % c.til.q + 1)) 0
  let r := chainRate c.md c.op
  let first := rateCycles (if readsTwice c.op then (r.1, 0) else r) slots
  let second := if readsTwice c.op then rateCycles r slots else 0
  let mine := workerFrame s w
  let sum (p : Nat → Bool) : Nat := (streamReaders c.op).foldl (fun n j => n + tileShare c p j) 0
  let reads := ceilDiv (sum (· == mine)) 1024
  let far := ceilDiv (sum (· != mine)) 256
  let writes := ceilDiv (writtenBytes ws) 1024
  let lines := ((gatherReads c chain).map (fun g => (g.1, g.2 / 128))).eraseDups
  let near := lines.filter (fun l => l.2 * 128 / 2 ^ 25 == mine)
  let gathers := ceilDiv (near.length + 4 * (lines.length - near.length)) 8
  let all := [first, reads, far, if readsTwice c.op then 0 else writes, gathers].foldl max 0
  (first + second, all - first + (max second (if readsTwice c.op then writes else 0) - second))

/-- The extra slot in which the pivots of a strip are read, before its first tile's (R200). -/
def pivotSlot (c : TileCtx) : Nat :=
  if !c.op.micro && c.op.opcode == 0x2C && bit c.op.imm1.toNat 0 then rateCycles (chainRate c.md c.op) 1 else 0

/-- Fold wait of a unit's last tile (R192). DEDUCED: a Seedling strip waits as the soft-maximum kinds do,
notes/assumptions/82.md. -/
def foldWait (i : Issued) : Nat :=
  let o := i.op.opcode
  if i.op.micro || !isReduceOp o || isApplyOp o then 0
  else
    let k := keptCount i.op i.tiling
    (if o == 0x30 || o == 0x32 || o == 0x34 then 60 + ceilDiv k 4 else 48 + ceilDiv k 32)
      + (if o == 0x22 || o == 0x2C || o == 0x2D then 24 + ceilDiv k 4 else 0)

/-- Does a worker count the cycles of an instruction (R178)? -/
def cyclesCount (wk : Worker) (op : PInstr) : Bool := wk.cycTag == 0 || wk.cycTag.toNat == op.layerTag

/-! ### Counters -/

/-- Events entered into a worker's counters and flags (Tables 2.10, 6.7 and 7.9). -/
def countEvents (wk : Worker) (ev : Ev) : Worker :=
  { wk with
    numFlush := satAdd wk.numFlush ev.flushed, numSat := satAdd wk.numSat ev.saturated
    numNanLost := satAdd wk.numNanLost ev.nanLost, numCancel := satAdd wk.numCancel ev.cancel
    sfnZero := satAdd wk.sfnZero ev.thrZero, flagCancel := wk.flagCancel || decide (0 < ev.cancel)
    flagAllNeginf := wk.flagAllNeginf || ev.allNeginf }

/-! ### Health records (R264) -/

/-- Bytes 16 to 63 of a health record (Table 8.4). -/
def healthBody (order : BitVec 64) (instr tag : Nat) (payload : Bytes) : Bytes :=
  natLe 8 order.toNat ++ natLe 4 instr ++ natLe 2 tag ++ natLe 2 0 ++ payload

/-- A health record stamped at `t`. -/
def healthAt (s : State) (t kind : Nat) (order : BitVec 64) (instr tag : Nat) (payload : Bytes) : State × Bytes :=
  let rec_ := padTo 64 (logHeader t kind (orderSource order) ++ healthBody order instr tag payload)
  (pushLog s rec_, rec_)

/-! ### Guarded layers -/

/-- The first trip of a layer (R271, R273): its untaken units are discarded, and samples of the level are skipped. -/
def tripLayer (s : State) (r : Nat) (i : Issued) (T : Nat) (cause : BitVec 16) : State :=
  match getRun s r with
  | none => s
  | some rn =>
    match rn.trip, orderOf s rn with
    | none, some o =>
      match guardOf rn.image o.entry i.instr with
      | none => s
      | some g =>
        let inLayer (k : Nat) : Bool := g.firstInstr ≤ k && k < g.firstInstr + g.count
        let (s, t) := stamp s
        let s := setRun s r (fun rn =>
          { rn with trip := some { instr := i.instr, layerTag := g.layerTag, level := i.level, tile := T, cause := cause, stamp := t } })
        let s := dropUnits s r inLayer
        (runWorkers s r).foldl (fun s w => setWorker s w (fun x =>
          match x.sample with
          | some sm => if inLayer sm.instr then skipSample x else x
          | none => x)) s
    | _, _ => s

/-! ### TILE_ISSUE -/

/-- A unit ends in a worker: it holds nothing (R68, R97, R108, R193). The entries of its strip stay in the row-state
memory until another strip's take their place. -/
def dropHeld (s : State) (w : Nat) : State := setWorker s w (fun x => { x with held := [], wait := none })

/-- Has the guarded layer of an instruction tripped, so that its level is abandoned (R268, R273)? -/
def inTrippedLayer (s : State) (rn : Run) (i : Issued) : Bool :=
  match rn.trip, (orderOf s rn).bind (fun o => guardOf rn.image o.entry i.instr) with
  | some t, some g => t.layerTag == g.layerTag
  | _, _ => false

/-- A shadow sample of a tile that falls due (R266 to R268): its comparison, or a skip. -/
def sampleTile (s before : State) (rn : Run) (i : Issued) (w : Nat) (c : TileCtx) : State :=
  if i.op.micro || !isShadowed i.op then s
  else
    match (orderOf s rn).bind (fun o => rn.image.shadows.find? (fun x => x.entry == o.entry && x.instr == i.instr)) with
    | none => s
    | some sh =>
      if !sampled sh.log2N c.seed i.instr c.tile then s
      else if c.md.heirloom || (getWorker s w).sample.isSome || inTrippedLayer s rn i then setWorker s w (fun x => { x with sfnSkip := satAdd x.sfnSkip 1 })
      else
        let (m, n, d) := shadowCompare { c with rd := readComb before } (readComb s) sh.fmt
        setWorker s w (fun x =>
          { x with sample := some { run := (getWorker s w).run.getD 0, order := rn.order.getD 0, instr := i.instr, level := i.level
                                    layerTag := i.op.layerTag, tile := c.tile, fmt := sh.fmt, maxUlp := m, compared := n, differing := d } })

/-- A worker-domain fault while a unit runs (R108, R151, R464). -/
def workerFault (s : State) (w r : Nat) (ref : UnitRef) (code : BitVec 16) : State :=
  fenceWorker (runFault s r code ref.instr ref.unit 1 w) w code

/-- A fault of a worker's root store or row-state memory: the worker takes no such unit until the recovery has
ended, and the unit is redone (Table 14.1). -/
def partRedo (s : State) (w r : Nat) (ref : UnitRef) (domain : Nat) (code : BitVec 16) : State :=
  let s := beginRecovery (interruptUnit (runFault (dropHeld s w) r code ref.instr ref.unit domain w) r ref) domain w code
  phaseRecord s domain w 2 code (redone := 1) (instr := ref.instr) (unit := ref.unit)

/-- Slots that a tile has read become uncapped, and those it has written capped (R94). -/
def passSlots (s : State) (r : Nat) (reads writes : List (Nat × Nat)) : State :=
  let s := reads.foldl (fun s p => releaseSlot s r p.1 p.2) s
  writes.foldl (fun s p =>
    let s := fillSlot s r p.1 p.2 (some (crc32c (combBytes s (slotBase (getRing s r p.1) p.2) (getRing s r p.1).decl.slotSize)))
    grantLanding s r p.1) s

/-- The unit is over: its ring sequences count as consumed, and it commits (R458, R462). -/
def unitDone (s : State) (r w : Nat) (h : Held) : State :=
  commitUnit (dropHeld (consumeSeqs s r h.seqs) w) r h.ref.instr h.ref.unit

/-- Which bytes of the commit slot go where (R99): the outputs in order, the second of SMAX_BLOCK in the upper half. -/
def slotPlaces (homes : List (List (Nat × Byte))) : List (Nat × Nat × Byte) :=
  homes.zipIdx.flatMap (fun l => l.1.mapIdx (fun k b => (l.2 * 8192 + k, b.1, b.2)))

/-- First byte of the commit slot in a worker's cells: the upper 16 KiB of cell 3 (R99). -/
def commitSlot : Nat := 3 * 32768 + 16384

/-- Phase 2 of an in-place unit stops after `copied` bytes: the worker faults, and its commit slot stays for the drain
(R459). -/
def copyOutFault (s : State) (w r : Nat) (h : Held) (places : List (Nat × Nat × Byte)) (copied : Nat) (code : BitVec 16) : State :=
  let s := writeComb s ((places.take copied).map (fun p => (p.2.1, p.2.2)))
  let s := setWorker s w (fun x =>
    { x with cells := memSetMany 0 (places.map (fun p => (commitSlot + p.1, p.2.2))) x.cells
             held := [{ h with copyOut := true, homes := places.map (fun p => (p.1, p.2.1)), crc := crc32c (places.map (fun p => p.2.2)) }] })
  workerFault s w r h.ref code

/-- A tile that is read twice stands in a cell between the reads (R204): its elements, from cell 0 and cell 1 in turn. Which
cell and in what order is a DESIGN CHOICE, notes/assumptions/81.md. -/
def stageTile (c : TileCtx) (i : Issued) (x : Worker) : Worker :=
  if !readsTwice i.op then x
  else
    let bytes := (positions c.til c.tile).flatMap (fun q => (elemAddrs c i.op.shapeSrc q.idx).map c.rd)
    { x with cells := memLay 0 (c.tile % 2 * 32768) (bytes.take 32768) x.cells }

/-- The cycles of a tile's issue window, of its ring wait and of the turnaround (R150, R176, R177). The turnaround at the first
tile of every unit, and the window of a tile that faults, are a DESIGN CHOICE: notes/assumptions/83.md. -/
def countWindow (s : State) (w : Nat) (i : Issued) (h : Held) (c : TileCtx) (chain : ChainOut) (ws : List EWrite)
    (ringCycles conflictCycles : Nat) : State :=
  let (rate, comb) := tileWindow s w c chain ws
  let rate := rate + (if h.tile == 0 then pivotSlot c else 0)
  if cyclesCount (getWorker s w) i.op then
    setWorker s w (fun x => { x with cyc := x.cyc.mapIdx (fun k n =>
      wrapAdd n (if k == 0 then rate else if k == 1 then comb + conflictCycles else if k == 2 then ringCycles
        else if k == 3 && h.tile == 0 then 5 else 0)) })
  else s

/-- A ring slot that a tile reads and whose content is not what its tile CRC-32C covers (R36, R352). -/
def crcMismatch (s : State) (rn : Run) (reads : List (Nat × Nat)) : Option (Nat × Nat) :=
  reads.find? (fun p =>
    let rg := nth rn.rings p.1
    match (nth rg.tokens (p.2 % max 1 rg.decl.slotCount)).crc with
    | some x => crc32c (combBytes s (slotBase rg p.2) rg.decl.slotSize) != x
    | none => false)

/-- A tile whose work came out without a fault: its writes, its slots, its counters and, at the unit's last tile, the
commit (R94, R178, R458, R459). -/
def tileWritten (s : State) (w r : Nat) (rn : Run) (i : Issued) (h : Held) (c : TileCtx) (ws : List EWrite)
    (ev : Ev) (rows : List RowEntry) (last : Bool) (upset : Upset) : State :=
  let before := s
  let direct_ := flattenWrites c.rd (ws.filter (fun x => !homeWrite c x))
  let homes := (roleDescs i.op 3).map (fun j =>
    flattenWrites c.rd (ws.filter (homeWrite { c with op := { c.op with descs := c.op.descs.mapIdx (fun k d =>
      if d.role == 3 && k != j then { d with role := 1 } else d) } })))
  let places := slotPlaces homes
  let reads := tileReadSlots rn i c.tile
  let writes := tileWriteSlots rn i c.tile
  let s := writeComb s direct_
  let s := if upset == .commitSlotCrc || !(match upset with | .cellUncorrectableInCopyOut _ | .laneParityInCopyOut _ => true | _ => false)
    then writeComb s (places.map (fun p => (p.2.1, p.2.2))) else s
  let h := { h with tile := h.tile + 1, seqs := h.seqs ++ reads }
  let s := setWorker s w (fun x => { keepRows (stageTile c i (countEvents x ev)) i rows with held := [h], wait := none })
  let s := if last && cyclesCount (getWorker s w) i.op then addCyc s w 3 (foldWait i) else s
  let s := passSlots s r reads writes
  let s := sampleTile s before rn i w c
  let bad := ws.any nonFiniteWrite
  let s := if c.guarded && (bad || !ev.faults.isEmpty)
    then tripLayer s r i c.tile (if bad && ev.faults.isEmpty then 0 else ev.faults.headD 0) else s
  if !last then s
  else
    match upset with
    | .cellUncorrectableInCopyOut n => if inPlace i.op then copyOutFault s w r h places n 0x0223 else unitDone s r w h
    | .laneParityInCopyOut n => if inPlace i.op then copyOutFault s w r h places n 0x0241 else unitDone s r w h
    | .commitSlotCrc => if inPlace i.op then dropHeld (tearUnit none s h) w else unitDone s r w h
    | _ => unitDone s r w h

/-- Does an instruction evaluate a slot of the root store? -/
def namesSlot (op : PInstr) (n : Nat) : Bool := (effStages op).any (fun st => st.op == 0x60 + n)

/-- The tile of a held unit, its tokens free: it runs and is written, or it faults (R36, R68, R108, R151, R195, R247). The
flush, saturation and nan_lost events of a tile that faults are not counted: DESIGN CHOICE, notes/assumptions/83.md. -/
def runTile (s : State) (w r : Nat) (rn : Run) (i : Issued) (h : Held) (upset : Upset) (ringCycles conflictCycles : Nat) : State :=
  let tiles := unitTiles i.op i.tiling h.ref.unit
  let T := nth tiles h.tile
  let ref := h.ref
  let first := h.tile == 0
  let last := h.tile + 1 == tiles.length
  let ctxOf := tileCtx s rn i w
  let c := ctxOf T
  let chain := runChain c
  let (ws, ev, rows) := tileWork ctxOf i ref.unit T first last (heldRows (getWorker s w) i)
  let ev := if first && ref.unit == i.units.headD ref.unit then ev.add (issueEvents c i) else ev
  let stops := ev.faults.filter (fun f => !(c.guarded && (f == 0x0210 || f == 0x0211)))
  let finish (s : State) : State :=
    match poisonMet s c chain (flattenWrites c.rd ws) with
    | some a => combFault (dropHeld s w) r ref a
    | none =>
      match crcMismatch s rn (tileReadSlots rn i T) with
      | some p => lostData (dropHeld s w) r ref (slotBase (nth rn.rings p.1) p.2)
      | none =>
        match stops with
        | f :: _ => runFault (dropHeld s w) r f ref.instr ref.unit
        | [] => tileWritten s w r rn i h c ws ev rows last upset
  let s := countWindow s w i h c chain ws ringCycles conflictCycles
  let s := if !i.op.micro && (i.op.opcode == 0x34 || i.op.opcode == 0x35) then setWorker s w skipSample else s
  match upset with
  | .laneParity => workerFault s w r ref 0x0241
  | .cellUncorrectable => workerFault s w r ref 0x0223
  | .cellCorrected => finish (setFrame s (workerFrame s w) (fun f => { f with ceCount := satAdd f.ceCount 1 }))
  | .rowStateUncorrectable =>
    if entryNeed i.op == 0 then finish s
    else
      let s := partRedo s w r ref 3 0x0252
      setWorker s w (fun x => { x with rsState := .scrubbing })
  | .rowStateCorrected => finish (setWorker s w (fun x => { x with rsCe := satAdd x.rsCe 1 }))
  | .rootStoreUncorrectable n =>
    if !namesSlot i.op n then finish s
    else
      let s := partRedo s w r ref 2 0x0262
      setWorker s w (fun x => { x with sfnUe := satAdd x.sfnUe 1, rewrite := some n.val })
  | .rootStoreCorrected _ => finish (setWorker s w (fun x => { x with sfnCe := satAdd x.sfnCe 1 }))
  | .combUncorrectable a => combFault (dropHeld s w) r ref a.toNat
  | .combCorrected a => finish (countCorrected s a.toNat)
  | .tileCrc =>
    match tileReadSlots rn i T with
    | p :: _ => lostData (dropHeld s w) r ref (slotBase (nth rn.rings p.1) p.2)
    | [] => finish s
  | _ => finish s

/-- The first token, or window (R462), that does not yet allow a tile: ring, sequence, as producer. -/
def blockedSlot (rn : Run) (i : Issued) (T : Nat) : Option Wait :=
  let cons := (tileReadSlots rn i T).find? (fun p =>
    let rg := nth rn.rings p.1
    !(tokenFull rg p.2 && (rg.decl.producerKind < 2 || p.2 < rg.decl.slotCount || rg.consumed.contains (p.2 - rg.decl.slotCount))))
  match cons with
  | some p => some { ring := p.1, seq := p.2, producer := false }
  | none =>
    match (tileWriteSlots rn i T).find? (fun p => !tokenFree (nth rn.rings p.1) p.2) with
    | some p => some { ring := p.1, seq := p.2, producer := true }
    | none => none

/-- The issued instruction of a held unit that is no close unit. -/
def heldTile (s : State) (w : Nat) : Option (Held × Run × Issued) :=
  match (getWorker s w).held with
  | h :: _ =>
    match getRun s h.run with
    | some rn =>
      match findIssued rn h.ref.instr with
      | some i => if h.copyOut || !i.units.contains h.ref.unit then none else some (h, rn, i)
      | none => none
    | none => none
  | [] => none

/-- TILE_ISSUE (R95): the next tile of the unit that a worker holds, once every token allows it; otherwise the worker
waits, and `ringCycles` of its wait are counted. -/
def issueTile (s : State) (w : Nat) (upset : Upset) (ringCycles conflictCycles : Nat) : State :=
  match heldTile s w with
  | none => s
  | some (h, rn, i) =>
    if (getWorker s w).admission != .admitted || (getFrame s (workerFrame s w)).recovering then s
    else
      match blockedSlot rn i (nth (unitTiles i.op i.tiling h.ref.unit) h.tile) with
      | some wt =>
        let s := setWorker s w (fun x => { x with wait := some wt })
        if cyclesCount (getWorker s w) i.op then addCyc s w 2 ringCycles else s
      | none => runTile s w h.run rn i h upset ringCycles conflictCycles

def execTileIssue (w : Fin 68) (upset : Upset) (ringCycles conflictCycles : Nat) (s : State) : Host.Outcome State Fault Refusal :=
  clocked s (issueTile s w upset ringCycles conflictCycles)

/-! ### CLOSE_UNIT (R261 to R263) -/

/-- The close unit: the watch entries folded in tile order, the records of kind 1 or 6, and of kind 2 with its notice
when a threshold is crossed. -/
def closeUnit (s : State) (w : Nat) : State :=
  match (getWorker s w).held with
  | [] => s
  | h :: _ =>
    match getRun s h.run with
    | none => s
    | some rn =>
      match findIssued rn h.ref.instr with
      | none => s
      | some i =>
        if i.op.micro || !watchOn i.op || h.ref.unit != closeIndex i.tiling || i.units.contains h.ref.unit || h.copyOut then s
        else
          let base := i.op.imm1.toNat % 2 ^ 28
          let n := tileCount i.tiling
          match ((List.range (16 * n)).map (base + ·)).find? (poisoned s) with
          | some a => combFault (dropHeld s w) h.run h.ref a
          | none =>
            let entries := (List.range n).map (fun T => combBytes s (base + 16 * T) 16)
            let (pay, crossed) := closePayload i.op i.hyper entries (i.tiling.ext.foldl (· * ·) 1)
            let order := rn.order.getD 0
            let (s, t) := stamp s
            let (s, _) := healthAt s t (if i.op.opcode == 0x68 then 6 else 1) order i.instr i.op.layerTag pay
            let s := if crossed == 0 then s
              else
                let (s, t) := stamp s
                let (s, rec_) := healthAt s t 2 order i.instr i.op.layerTag pay
                sendNotice s 0x4021 (orderSource order) rec_
            let s := if cyclesCount (getWorker s w) i.op then addCyc s w 3 (5 + 48 + ceilDiv n 8) else s
            unitDone s h.run w h

def execCloseUnit (w : Fin 68) (s : State) : Host.Outcome State Fault Refusal := clocked s (closeUnit s w)

/-! ### SHADOW_SAMPLE_COMPUTE (R267, R268) -/

/-- The pending sample's record of kind 5; the sample of a run that has ended is skipped. -/
def computeSample (s : State) (w : Nat) : State :=
  match (getWorker s w).sample with
  | none => s
  | some sm =>
    if (getWorker s w).run != some sm.run then setWorker s w skipSample
    else
      let pay := natLe 8 sm.tile ++ natLe 2 sm.maxUlp ++ natLe 1 sm.fmt ++ natLe 1 0 ++ natLe 4 sm.compared ++ natLe 4 sm.differing
      let (s, t) := stamp s
      let (s, _) := healthAt s t 5 sm.order sm.instr sm.layerTag pay
      setWorker s w (fun x => { x with sample := none })

def execShadowSampleCompute (w : Fin 68) (s : State) : Host.Outcome State Fault Refusal := clocked s (computeSample s w)

/-! ### GUARD_LEVEL_ADVANCE (R273, R274) -/

/-- Payload of kinds 3 and 4 (Table 8.6). -/
def guardPayload (t : Trip) (next : Nat) : Bytes := natLe 1 t.level ++ natLe 1 next ++ natLe 2 t.cause.toNat ++ natLe 8 (t.tile % 2 ^ 40)

/-- Regions of the outgoing tensors of a layer: written by it and read by no later instruction of it (R269). -/
def outgoingRegions (im : Image) (ops : List PInstr) : List Nat :=
  ((List.range ops.length).flatMap (fun k =>
    (regionsWritten im (nth ops k)).filter (fun g => !(ops.drop (k + 1)).any (fun o => (regionsRead im o).contains g)))).eraseDups

/-- Once every unit of the tripping layer in flight has committed: the next level, or the guarded overflow. -/
def advanceGuard (s : State) (r : Nat) : State :=
  match getRun s r with
  | none => s
  | some rn =>
    match rn.trip, orderOf s rn with
    | some t, some o =>
      match rn.image.guards.find? (fun g => g.entry == o.entry && g.layerTag == t.layerTag) with
      | none => s
      | some g =>
        let inLayer (k : Nat) : Bool := g.firstInstr ≤ k && k < g.firstInstr + g.count
        let flying := (List.range 68).any (fun w => (getWorker s w).held.any (fun h => h.run == r && inLayer h.ref.instr))
          || (runFrames s r).any (fun f => (getFrame s f).replay.any (fun u => inLayer u.instr))
        if flying then s
        else if t.level < g.topLevel then
          let s := journal (dropUnits s r inLayer) 4 r o.number (orderSource o.number)
            (natLe 2 t.layerTag ++ natLe 1 (t.level + 1) ++ natLe 1 0 ++ natLe 4 g.firstInstr)
          let s := setOrder s o.number (fun o =>
            { o with levels := assocSet o.levels t.layerTag (t.level + 1), nextIssue := g.firstInstr
                     progress := o.progress.map (fun p => if inLayer p.instr then { p with live := [], durable := [], done := false, units := 0 } else p) })
          let s := setRun s r (fun rn => { rn with trip := none, issued := rn.issued.filter (fun i => !inLayer i.instr) })
          (healthAt s t.stamp 3 o.number t.instr t.layerTag (guardPayload t (t.level + 1))).1
        else
          let (s, _) := healthAt s t.stamp 4 o.number t.instr t.layerTag (guardPayload t t.level)
          let prog := orderProgram s rn o
          let ops := (List.range g.count).map (fun k => instrAt s rn o prog (g.firstInstr + k))
          let s := invalidate s r (outgoingRegions rn.image ops)
          runFault (setRun s r (fun rn => { rn with trip := none })) r 0x0271 t.instr t.tile
    | _, _ => s

def execGuardLevelAdvance (r : Fin 8) (s : State) : Host.Outcome State Fault Refusal := clocked s (advanceGuard s r)

/-! ### Ring timeouts (R96, R97) -/

/-- Is a port under recovery to which units of an issued FSEND or CSEND that consume a ring send (R96, R456)? -/
def consumerRecovers (s : State) (rn : Run) (g : Nat) : Bool :=
  rn.issued.any (fun i => !i.op.micro && (consumedRings rn.image i.op).contains g
    && ((i.op.opcode == 0x73 && (findRecovery s 7 (i.op.imm0.toNat % 8)).isSome) || (i.op.opcode == 0x80 && (findRecovery s 8 (linkOf i.op)).isSome)))

/-- Does the timer of a wait run: the run neither paused nor recovering, a waiting worker's frame `f` not gating, and no
port under recovery that is the ring's producer or consumer (R96)? -/
def waitTimed (s : State) (r : Nat) (f : Option Nat) (wt : Wait) : Bool :=
  match getRun s r with
  | none => false
  | some rn =>
    let d := (nth rn.rings wt.ring).decl
    timersRun rn && (match f with | some f => (getFrame s f).ungated && !(getFrame s f).gateRequested && !(getFrame s f).recovering | none => true)
      && !(d.producerKind == 2 && (findRecovery s 7 d.producerIndex).isSome)
      && !(d.producerKind == 3 && (findRecovery s 8 d.producerIndex).isSome) && !consumerRecovers s rn wt.ring

/-- A waiter whose wait has lasted as long as its ring allows: the run faults, and its tile or move is abandoned. -/
def ringTimeout (s : State) (who : Sys2Proof.Waiter) (producer : Bool) (code : BitVec 16) : State :=
  match who with
  | .worker w =>
    let wk := getWorker s w
    match wk.wait, wk.held with
    | some wt, h :: _ =>
      if wt.producer == producer && waitTimed s h.run (some (workerFrame s w)) wt then runFault (dropHeld s w) h.run code h.ref.instr h.ref.unit else s
    | _, _ => s
  | .forager g =>
    match (getForager s g).moves.find? (fun m => match m.wait with | some wt => wt.producer == producer && waitTimed s m.run none wt | none => false) with
    | some m => runFault (setForager s g (fun x => { x with moves := x.moves.filter (· != m) })) m.run code m.ref.instr m.ref.unit
    | none => s

/-- STARVE_TIMEOUT (R97). -/
def execStarveTimeout (waiter : Sys2Proof.Waiter) (s : State) : Host.Outcome State Fault Refusal := clocked s (ringTimeout s waiter false 0x0220)

/-- BLOCK_TIMEOUT (R97). -/
def execBlockTimeout (waiter : Sys2Proof.Waiter) (s : State) : Host.Outcome State Fault Refusal := clocked s (ringTimeout s waiter true 0x0221)

/-! ### Drains (R459) -/

/-- The worker whose cells hold an interrupted copy-out has finished with it: a spare goes on to step 1 (R465). -/
def afterDrain (s : State) (w : Nat) : State :=
  setWorker s w (fun x =>
    { x with held := x.held.filter (fun h => !h.copyOut), rsState := if x.admission == .notAdmitted then .testing else x.rsState
             admission := if x.admission == .notAdmitted then .scrubbing else x.admission })

/-- COMMIT_SLOT_DRAIN: the whole commit slot copied again and its CRC verified; the unit commits, or its tile is torn. -/
def drainSlot (s : State) (w : Nat) : State :=
  let wk := getWorker s w
  match wk.held.find? Held.copyOut with
  | none => s
  | some h =>
    if wk.admission == .fenced then s
    else
      let ws := h.homes.map (fun p => (p.2, memGet 0 wk.cells (commitSlot + p.1)))
      let s := afterDrain (writeComb s ws) w
      let s := if wk.admission == .admitted then addCyc s w 3 (ceilDiv ws.length 1024) else s
      if crc32c (ws.map Prod.snd) == h.crc then
        commitUnit (consumeSeqs s h.run h.seqs) h.run h.ref.instr h.ref.unit
      else tearUnit (some w) s h

def execCommitSlotDrain (w : Fin 68) (s : State) : Host.Outcome State Fault Refusal := clocked s (drainSlot s w)

/-- DRAIN_TIMEOUT: no drain has completed within 10 µs, and the tile is torn. -/
def execDrainTimeout (w : Fin 68) (s : State) : Host.Outcome State Fault Refusal :=
  clocked s (
    match (getWorker s w).held.find? Held.copyOut with
    | some h => tearUnit (some w) (afterDrain s w) h
    | none => s)

end Sys2Proof.Machine
end

