-- ==== Sys2Proof/Machine/Foragers.lean ====
section
/-!
DEFINITION. The foragers: move units of FCOPY, FLOAD, FSTORE, FSEND, FTRANS, FTRANS_STORE and CSEND (R366 to
R372, R403), the acknowledgements that complete them, and the forager domain (R452, R468).
-/

namespace Sys2Proof.Machine

/-! ### What a unit moves -/

/-- Source and destination index tuples of a unit's elements, in order (R366, R367). -/
def moveElems (i : Issued) (u : Nat) : List (List Nat × List Nat) :=
  let ext := i.tiling.ext
  if i.op.opcode == 0x74 || i.op.opcode == 0x75 then
    let n3 := max 1 (nth ext 3)
    (List.range (nth ext 0)).flatMap (fun c => (List.range (nth ext 1)).map (fun r =>
      ([c, r, 0, u % n3, u / n3], [r, c, 0, u % n3, u / n3])))
  else
    let n := moveChunk (nth i.op.descs 0).fmt
    let total := ext.foldl (· * ·) 1
    (List.range (min n (total - u * n))).map (fun e => (ordinalIdx ext (u * n + e), ordinalIdx ext (u * n + e)))

/-- Does descriptor `j` of a move address a stack (R365)? -/
def onStack (op : PInstr) (j : Nat) : Bool := j == 1 && (op.opcode == 0x71 || op.opcode == 0x72 || op.opcode == 0x75)

/-- Ring sequence of a unit on ring `g` (R93). -/
def moveSeq (rn : Run) (i : Issued) (produce : Bool) (u g : Nat) : Nat :=
  let rg := nth rn.rings g
  if rg.decl.tileMapped then nth i.ringBase g + u else if produce then rg.prodSeq else rg.consSeq

/-- Where element 0 of a descriptor lies for a unit: the stack base, the comb base, or so that a ring operand's
first element of the unit stands at the start of its slot. -/
def moveBase (rn : Run) (i : Issued) (u j : Nat) (first : List Nat) : Int :=
  let d := nth i.op.descs j
  if onStack i.op j then i.stackBase
  else
    match ringOf rn.image d with
    | none => d.base
    | some g =>
      (slotBase (nth rn.rings g) (moveSeq rn i (d.role == 2) u g) : Int)
        - (elemBytes d.fmt 0 (elemIndex d (nth i.sizes j) first)).headD 0

/-- Source and destination descriptor of a move. -/
def moveSrc (op : PInstr) : Nat := if op.opcode == 0x71 then 1 else 0
def moveDst (op : PInstr) : Nat := if op.opcode == 0x71 then 0 else 1

/-- Addresses of one side of a unit: comb addresses, or stack addresses of a stack operand. -/
def moveAddrs (rn : Run) (i : Issued) (u j : Nat) (idxs : List (List Nat)) : List Nat :=
  let d := nth i.op.descs j
  let b := moveBase rn i u j (idxs.headD [])
  idxs.flatMap (fun x => (elemBytes d.fmt b (elemIndex d (nth i.sizes j) x)).map Int.toNat)

/-- The byte writes of a unit: its bits copied unchanged (R364). -/
def moveWrites (s : State) (rn : Run) (i : Issued) (u : Nat) : List (Nat × Byte) :=
  let es := moveElems i u
  let sj := moveSrc i.op
  let dj := moveDst i.op
  let sd := nth i.op.descs sj
  let dd := nth i.op.descs dj
  let sb := moveBase rn i u sj ((es.map Prod.fst).headD [])
  let db := moveBase rn i u dj ((es.map Prod.snd).headD [])
  let srd := if onStack i.op sj then readStack s else readComb s
  let drd := if onStack i.op dj then readStack s else readComb s
  flattenWrites drd (es.map (fun e =>
    EWrite.elem dd.fmt db (elemIndex dd (nth i.sizes dj) e.2) (readElem srd sd.fmt sb (elemIndex sd (nth i.sizes sj) e.1))))

/-- Comb bytes that a unit reads: its comb source, or the slot or elements that it sends. -/
def moveReads (rn : Run) (i : Issued) (u : Nat) : List Nat :=
  let o := i.op.opcode
  if o == 0x71 then []
  else if o == 0x73 then
    match ringOf rn.image (nth i.op.descs 0) with
    | some g => (List.range (nth (nth i.sizes 0) 0)).map (slotBase (nth rn.rings g) (moveSeq rn i false u g) + ·)
    | none => []
  else if o == 0x80 then
    match ringOf rn.image (nth i.op.descs 0) with
    | some g => (List.range (chunkBytes i u)).map (slotBase (nth rn.rings g) (nth i.ringBase g + u) + ·)
    | none =>
      let d := nth i.op.descs 0
      (List.range (chunkCount i u)).flatMap (fun k =>
        (elemBytes d.fmt d.base (elemIndex d (nth i.sizes 0) (ordinalIdx i.tiling.ext (u * i.chunk + k)))).map Int.toNat)
  else moveAddrs rn i u 0 ((moveElems i u).map Prod.fst)

/-- Numbers in a list that differ from the one before. -/
def changes (l : List Nat) : List Nat :=
  (l.foldl (fun (acc : List Nat) a => match acc with | b :: _ => if a == b then acc else a :: acc | [] => [a]) []).reverse

/-- The 256-byte accesses that a unit makes to its stack (R361, R372). -/
def stackAccesses (rn : Run) (i : Issued) (u : Nat) : Nat :=
  (changes ((moveAddrs rn i u 1 ((moveElems i u).map (fun e => if i.op.opcode == 0x71 then e.1 else e.2))).map (· / 256))).length

/-- The stack that a move addresses. -/
def moveStack (i : Issued) : Nat := i.stackBase / 2 ^ 37

/-! ### Units in flight -/

def setMove (s : State) (g : Nat) (m : Move) (f : Move → Move) : State :=
  setForager s g (fun x => { x with moves := x.moves.map (fun y => if y.run == m.run && y.ref == m.ref then f y else y) })

def dropMove (s : State) (g : Nat) (m : Move) : State :=
  setForager s g (fun x => { x with moves := x.moves.filter (fun y => !(y.run == m.run && y.ref == m.ref)) })

/-- Slots that a unit reads and writes: ring, sequence. -/
def moveReadSlots (rn : Run) (i : Issued) (u : Nat) : List (Nat × Nat) :=
  match ringOf rn.image (nth i.op.descs (moveSrc i.op)) with
  | some g => if onStack i.op (moveSrc i.op) then [] else [(g, if i.op.opcode == 0x80 then nth i.ringBase g + u else moveSeq rn i false u g)]
  | none => []
def moveWriteSlots (rn : Run) (i : Issued) (u : Nat) : List (Nat × Nat) :=
  if i.op.opcode == 0x73 || i.op.opcode == 0x80 || onStack i.op (moveDst i.op) then []
  else match ringOf rn.image (nth i.op.descs (moveDst i.op)) with | some g => [(g, moveSeq rn i true u g)] | none => []

/-- Units of FLOAD whose data is still on its way into a ring numbered by its own writes: each takes a slot when it lands
(R93, R94). -/
def onTheWay (s : State) (r : Nat) (rn : Run) (g : Nat) : Nat :=
  if (nth rn.rings g).decl.tileMapped then 0
  else (s.foragers.flatMap Forager.moves).countP (fun m => m.run == r && m.stage == .reading
    && (match findIssued rn m.ref.instr with | some i => ringOf rn.image (nth i.op.descs 0) == some g | none => false))

/-- The token that does not yet allow a unit (R94, R95, R462). -/
def moveBlocked (s : State) (r : Nat) (rn : Run) (i : Issued) (u : Nat) : Option Wait :=
  match (moveReadSlots rn i u).find? (fun p =>
    let rg := nth rn.rings p.1
    !(tokenFull rg p.2 && (rg.decl.producerKind < 2 || p.2 < rg.decl.slotCount || rg.consumed.contains (p.2 - rg.decl.slotCount)))) with
  | some p => some { ring := p.1, seq := p.2, producer := false }
  | none =>
    match ((moveWriteSlots rn i u).map (fun p => (p.1, p.2 + onTheWay s r rn p.1))).find? (fun p => !tokenFree (nth rn.rings p.1) p.2) with
    | some p => some { ring := p.1, seq := p.2, producer := true }
    | none => none

/-- A unit leaves its forager and commits. -/
def commitMove (s : State) (g : Nat) (m : Move) : State :=
  commitUnit (consumeSeqs (dropMove s g m) m.run m.seqs) m.run m.ref.instr m.ref.unit

/-- The last read of a unit's slots: they become uncapped (R94). -/
def passReads (s : State) (g : Nat) (m : Move) (reads : List (Nat × Nat)) : State :=
  reads.foldl (fun s p => releaseSlot s m.run p.1 p.2) (setMove s g m (fun y => { y with seqs := reads }))

/-! ### One unit -/

/-- A unit whose data fails a check on the way: the run faults with 0x0222, and the unit is redone (R354, R363, Table 12.10). -/
def withheld (s : State) (g : Nat) (m : Move) : State :=
  interruptUnit (runFault (dropMove s g m) m.run 0x0222 m.ref.instr m.ref.unit (redone := 1)) m.run m.ref

/-- The first uncorrectable word that a unit reads stops it; otherwise it goes on with `f` (R108). -/
def readsClean (s : State) (g : Nat) (m : Move) (rn : Run) (i : Issued) (f : State → State) : State :=
  match if s.poison.isEmpty then none else (moveReads rn i m.ref.unit).find? (poisoned s) with
  | some a => combFault (dropMove s g m) m.run m.ref a
  | none => f s

/-- A unit of FSEND (R353, R354, R369, R372): it waits for its slot, for the partner ring and its credit, and for
buffer units and its share; its packets follow one another. A slot whose tile CRC-32C fails has its last packet withheld. -/
def sendSlot (s : State) (g : Nat) (m : Move) (rn : Run) (i : Issued) (bad : Bool) : State :=
  let p := i.op.imm0.toNat % 8
  let id := bits i.op.imm0.toNat 15 8
  let size := nth (nth i.sizes 0) 0
  match ringOf rn.image (nth i.op.descs 0) with
  | none => s
  | some ring =>
    let q := moveSeq rn i false m.ref.unit ring
    let port := getPartner s p
    match port.rings.find? (fun x => x.id == id) with
    | none => setMove s g m (fun m => { m with wait := none })
    | some pr =>
      if pr.slotSize < size then runFault (dropMove s g m) m.run 0x0413 i.instr m.ref.unit
      else if m.sent == 0 && !pr.credits.contains pr.nextSeq then setMove s g m (fun m => { m with wait := none })
      else readsClean s g m rn i (fun s =>
        let bytes := combBytes s (slotBase (nth rn.rings ring) q) size
        let parts := chunksOf 4096 (bytes.length + 1) bytes
        let sentTo (s : State) (n : Nat) : Bool := (getForager s g).moves.any (fun y => y.run == m.run && y.ref == m.ref && y.sent == 4096 * n)
        let s := (parts.zipIdx.drop (m.sent / 4096)).foldl (fun s k =>
          let port := getPartner s p
          let last := k.2 + 1 == parts.length
          if !(tspMay port k.1.length && port.waiting.isEmpty && sentTo s k.2) || (last && bad) then s
          else
            let s := tspSend s p 1 id (if last then 3 else 0) pr.nextSeq (4096 * k.2) (if last then crc32c bytes else 0) k.1 (some g)
            setMove s g m (fun y => { y with sent := 4096 * (k.2 + 1), packets := y.packets + 1, wait := none })) s
        if bad && sentTo s (parts.length - 1) then withheld s g m
        else if sentTo s parts.length then
          let s := setMove s g m (fun y => { y with stage := .writing })
          let s := setPartnerRings s p (fun gs => gs.map (fun x =>
            if x.id == id then { x with nextSeq := x.nextSeq + 1, credits := x.credits.filter (· != x.nextSeq) } else x))
          passReads s g m [(ring, q)]
        else s)

/-- A unit of CSEND (R399, R403): the frames of its chunk are handed to the link; it commits when the last stands in
the replay buffer. A chunk whose CRC-32C fails has its last frame withheld (Table 12.10). -/
def sendUnit (s : State) (g : Nat) (m : Move) (rn : Run) (i : Issued) (bad : Bool) : State :=
  let n := linkOf i.op
  match peerRing (getLink s n) (peerRingId i.op) with
  | none => setMove s g m (fun m => { m with wait := none })
  | some pr =>
    if i.chunk == 0 || !linkUp (getLink s n) || !pr.credits.contains pr.nextSeq then setMove s g m (fun m => { m with wait := none })
    else readsClean s g m rn i (fun s =>
      let reads := moveReadSlots rn i m.ref.unit
      let bytes := chunkSource s m.run rn i m.ref.unit
      if bad then
        withheld (((chunkFrames pr.id (planOf i.op) pr.nextSeq bytes).dropLast).foldl (fun s f => sendFrame s n 1 f.1 f.2) s) g m
      else
        let s := setMove s g m (fun y => { y with stage := .writing, wait := none })
        let s := setLink s n (fun l =>
          { l with peerRings := l.peerRings.map (fun x =>
                     if x.id == pr.id then { x with nextSeq := x.nextSeq + 1, credits := x.credits.filter (· != pr.nextSeq) } else x)
                   sentChunks := l.sentChunks ++ [{ ring := pr.id, seq := pr.nextSeq, instr := i.instr, chunk := m.ref.unit, plan := planOf i.op }] })
        let s := passReads s g m reads
        sendChunk s n pr.id (planOf i.op) pr.nextSeq bytes (some (g, m.ref)))

/-- A unit between comb and comb, or to or from a stack (R366 to R368, R372). A stack that is failed faults the run
(R362); one that is not up makes the unit wait, and so does a port whose share of 8,192 accesses is taken; a unit of more
accesses than the share holds all of it. -/
def copyUnit (s : State) (g : Nat) (m : Move) (rn : Run) (i : Issued) : State :=
  let u := m.ref.unit
  let o := i.op.opcode
  let reads := moveReadSlots rn i u
  if o == 0x70 || o == 0x74 then
    let ws := moveWrites s rn i u
    match mergePoison s ws with
    | some a => combFault (dropMove s g m) m.run m.ref a
    | none =>
      let s := passSlots (writeComb s ws) m.run reads (moveWriteSlots rn i u)
      commitMove s g { m with seqs := reads }
  else
    let st := moveStack i
    let port := getMemPort s st
    let n := min 8192 (stackAccesses rn i u)
    if port.state == 4#3 then runFault (dropMove s g m) m.run 0x0403 i.instr u 6 st
    else if !stackUp s st || 8192 < port.outstanding + n then setMove s g m (fun m => { m with wait := none })
    else
      let s := setMemPort s st (fun p => { p with outstanding := p.outstanding + n, powerDown := false })
      if o == 0x71 then setMove s g m (fun m => { m with stage := .reading, acks := n, wait := none })
      else
        let s := writeStack s (moveWrites s rn i u)
        let s := setMove s g m (fun m => { m with stage := .writing, acks := n, wait := none })
        passReads s g m reads

/-- Every unit that a forager holds goes back to the replay queues (R458). -/
def redoMoves (s : State) (g : Nat) : State :=
  let ms := (getForager s g).moves
  let s := ms.foldl (fun s m => interruptUnit s m.run m.ref) s
  setForager s g (fun x => { x with moves := [] })

/-- A forager fails (R452, R468): stopped until FORAGER_RESET; out of service when an escalated reset came less than
an hour before, and then every order that needs it loses it (0x0290). -/
def foragerFault (s : State) (g : Nat) (r : Nat) (ref : UnitRef) : State :=
  let again := resetBefore s 4 g
  let second := (findRecovery s 4 g).isSome
  let held := (getForager s g).moves.length
  let s := runFault s r 0 ref.instr ref.unit 4 g (redone := held)
  let s := redoMoves (beginRecovery s 4 g 0) g
  let s := setForager s g (fun x => { x with faulted := true })
  if again then
    let s := phaseRecord s 4 g 5 0
    let s := setKeeper s (fun k => { k with recoveries := k.recoveries.filter (fun x => !(x.domain == 4 && x.inst == g)) })
    let needs := match getRun s r with
      | some rn => rn.issued.any (fun i => !instrDone i && !i.op.micro
          && ((i.op.opcode == 0x73 && i.op.imm0.toNat % 4 == g % 4) || (i.op.opcode == 0x80 && linkOf i.op % 4 == g % 4)))
      | none => false
    if needs then runFault s r 0x0290 ref.instr ref.unit 4 g else s
  else if second then noteReset (phaseRecord s 4 g 4 0) 4 g else s

/-- Does a unit wait behind an earlier one of its instruction, whose units a forager executes in order (R369, R403)? -/
def behind (s : State) (g : Nat) (m : Move) (i : Issued) : Bool :=
  (i.op.opcode == 0x73 || i.op.opcode == 0x80)
    && ((getForager s g).moves.takeWhile (fun y => !(y.run == m.run && y.ref == m.ref))).any (fun y =>
      y.run == m.run && y.ref.instr == m.ref.instr && y.stage == .waiting)

/-- A unit that stands waiting in a forager is tried (R95, R107, R108, R354, R362, R363, R369, R403). -/
def tryMove (s : State) (g : Nat) (m : Move) (upset : Sys2Proof.MoveUpset) : State :=
  match getRun s m.run with
  | none => dropMove s g m
  | some rn =>
    match findIssued rn m.ref.instr with
    | none => dropMove s g m
    | some i =>
      if behind s g m i then s
      else
      match moveBlocked s m.run rn i m.ref.unit with
      | some wt => setMove s g m (fun m => { m with wait := some wt })
      | none =>
        let stack := onStack i.op 1
        let go (s : State) (bad : Bool) : State :=
          if i.op.opcode == 0x73 then sendSlot s g m rn i bad
          else if i.op.opcode == 0x80 then sendUnit s g m rn i bad
          else if bad then withheld s g m
          else readsClean s g m rn i (fun s => copyUnit s g m rn i)
        match upset with
        | .combUncorrectable a => combFault (dropMove s g m) m.run m.ref a.toNat
        | .combCorrected a => go (countCorrected s a.toNat) false
        | .dataCheck => go s true
        | .datapathParity => foragerFault s g m.run m.ref
        | .interfaceParity a =>
          if stack then
            let st := moveStack i
            interruptUnit (runFault (dropMove (markChannel s st a.toNat) g m) m.run 0x0402 i.instr m.ref.unit 6 st (redone := 1)) m.run m.ref
          else go s false
        | .none => go s false

/-! ### FORAGER_UNIT_TAKE (R368) -/

/-- May forager `g` take a unit queued in frame `f`? FSEND and CSEND belong to one forager of the frame (R369, R403). -/
def mayTake (s : State) (r g f : Nat) (u : UnitRef) : Bool :=
  match (getRun s r).bind (fun rn => findIssued rn u.instr) with
  | none => false
  | some i =>
    if i.op.opcode == 0x73 then g == 4 * f + i.op.imm0.toNat % 4
    else if i.op.opcode == 0x80 then g == 4 * f + linkOf i.op % 4
    else true

/-- A unit leaves the queues of a frame for a forager, and is tried. -/
def takeMove (s : State) (r g f : Nat) (u : UnitRef) (upset : Sys2Proof.MoveUpset) : State :=
  let s := setFrame s f (fun fr =>
    if fr.moveReplay.contains u then { fr with moveReplay := fr.moveReplay.erase u }
    else { fr with moves := fr.moves.erase u, granted := assocSet fr.granted u.instr (assocD fr.granted u.instr 0 + 1) })
  let m : Move := { run := r, ref := u, stage := .waiting, acks := 0, packets := 0, wait := none, sent := 0, seqs := [] }
  tryMove (setForager s g (fun x => { x with moves := x.moves ++ [m] })) g m upset

/-- The waiting units of a forager are tried in order until one goes on; the flag says that one has. -/
def retryMoves (s : State) (g : Nat) (upset : Sys2Proof.MoveUpset) : State × Bool :=
  ((getForager s g).moves.filter (fun m => m.stage == .waiting)).foldl (fun acc m =>
    if acc.2 then acc
    else
      let t := tryMove acc.1 g m upset
      (t, !(getForager t g).moves.any (fun y => y.run == m.run && y.ref == m.ref && y.stage == .waiting && y.sent == m.sent))) (s, false)

/-- The next unit for a forager: of its own frame, or of the first frame in steal order when its own has none; it holds up to
32 (R368). -/
def nextMove (s : State) (g : Nat) (upset : Sys2Proof.MoveUpset) : State :=
  let f := g / 4
  match (getFrame s f).run with
  | none => s
  | some r =>
    match getRun s r with
    | none => s
    | some rn =>
      if rn.recovering || rn.fault.isSome || 32 ≤ (getForager s g).moves.length then s
      else
        let queued (x : Nat) : List UnitRef := let fr := getFrame s x; fr.moveReplay ++ fr.moves
        if !(queued f).isEmpty then
          match (queued f).find? (mayTake s r g f) with
          | some u => takeMove s r g f u upset
          | none => s
        else
          let victims := ((List.range 8).drop 1).map (fun x => f ^^^ x)
          match victims.find? (fun x => (getFrame s x).run == some r && !(getFrame s x).recovering && !(queued x).isEmpty) with
          | none => s
          | some x =>
            match (queued x).find? (mayTake s r g x) with
            | some u => takeMove s r g x u upset
            | none => s

/-- FORAGER_UNIT_TAKE: a unit that waits goes on if its wait has ended; otherwise the forager takes the next one. While the
run of its frame is paused it does neither (R26). -/
def foragerTake (s : State) (g : Nat) (upset : Sys2Proof.MoveUpset) : State :=
  let paused := match (getFrame s (g / 4)).run.bind (getRun s) with | some rn => rn.paused | none => false
  if (getForager s g).faulted || (getFrame s (g / 4)).recovering || paused then s
  else
    let (t, went) := retryMoves s g upset
    if went then t else nextMove t g upset

def execForagerUnitTake (g : Fin 32) (upset : Sys2Proof.MoveUpset) (s : State) : Host.Outcome State Fault Refusal :=
  clocked s (foragerTake s g upset)

/-! ### Acknowledgements -/

/-- The unit of a forager that waits on a stack in a stage, oldest first. -/
def stackMove (s : State) (m g : Nat) (st : MoveStage) : Option (Move × Run × Issued) :=
  (getForager s g).moves.findSome? (fun mv =>
    if mv.stage != st then none
    else
      match getRun s mv.run with
      | none => none
      | some rn =>
        match findIssued rn mv.ref.instr with
        | some i => if onStack i.op 1 && moveStack i == m then some (mv, rn, i) else none
        | none => none)

/-- STACK_WRITE_ACK (R368): the memory port acknowledges the writes of a unit, which commits. -/
def execStackWriteAck (m : Fin 4) (g : Fin 32) (s : State) : Host.Outcome State Fault Refusal :=
  clocked s (
    match stackMove s m g .writing with
    | none => s
    | some (mv, _, _) =>
      commitMove (setMemPort s m (fun p => { p with outstanding := p.outstanding - mv.acks })) g mv)

/-- STACK_READ_RETURN (R362, R363): the data of an FLOAD's unit is written to the comb and the unit commits, or the
unit is abandoned. -/
def stackReturn (s : State) (m g : Nat) (res : Sys2Proof.StackRead) : State :=
  match stackMove s m g .reading with
  | none => s
  | some (mv, rn, i) =>
    let u := mv.ref.unit
    let s := setMemPort s m (fun p => { p with outstanding := p.outstanding - mv.acks })
    let land (s : State) : State :=
      let ws := moveWrites s rn i u
      match mergePoison s ws with
      | some a => combFault (dropMove s g mv) mv.run mv.ref a
      | none =>
        commitMove (passSlots (writeComb s ws) mv.run [] (moveWriteSlots rn i u)) g mv
    match res with
    | .good => land s
    | .corrected => land (setMemPort s m (fun p => { p with ceCount := satAdd p.ceCount 1 }))
    | .uncorrectable a =>
      let s := setMemPort s m (fun p =>
        { p with ueCount := satAdd p.ueCount 1, ueValid := true, ueAddr := if p.ueValid then p.ueAddr else a })
      runFault (dropMove s g mv) mv.run 0x0401 i.instr u 6 m
    | .interfaceParity a =>
      interruptUnit (runFault (dropMove (markChannel s m a.toNat) g mv) mv.run 0x0402 i.instr u 6 m (redone := 1)) mv.run mv.ref
    | .dataCheck => withheld s g mv

def execStackReadReturn (m : Fin 4) (g : Fin 32) (result : Sys2Proof.StackRead) (s : State) : Host.Outcome State Fault Refusal :=
  clocked s (stackReturn s m g result)

/-- ADAPTER_PACKET_ACK (R344, R369, R372): the adapter accepts the oldest unacknowledged packet of a port, after a number of
flit retries; an FSEND's unit commits with its last. -/
def packetAck (s : State) (p : Nat) (retries : BitVec 32) : State :=
  match (getPartner s p).unacked with
  | [] => s
  | who :: rest =>
    let s := tspPump (setPartner s p (fun q => { q with unacked := rest, retries := satAdd q.retries retries.toNat })) p
    match who with
    | none => s
    | some g =>
      match (getForager s g).moves.find? (fun m => 0 < m.packets && (match (getRun s m.run).bind (fun rn => findIssued rn m.ref.instr) with
          | some i => i.op.opcode == 0x73 && i.op.imm0.toNat % 8 == p | none => false)) with
      | none => s
      | some m =>
        let s := setMove s g m (fun m => { m with packets := m.packets - 1 })
        if m.packets == 1 && m.stage == .writing then commitMove s g m else s

def execAdapterPacketAck (p : Sys2Proof.PacketAck) (s : State) : Host.Outcome State Fault Refusal :=
  clocked s (packetAck s p.port p.retries)

/-! ### Timeouts (R369, R403) -/

/-- The unit of an opcode that waits in a forager on its partner or its peer, its slot being ready. -/
def creditWaiter (s : State) (g opcode : Nat) : Option (Move × Run × Issued) :=
  (getForager s g).moves.findSome? (fun m =>
    if m.stage != .waiting || m.wait.isSome then none
    else
      match getRun s m.run with
      | none => none
      | some rn =>
        match findIssued rn m.ref.instr with
        | some i => if !i.op.micro && i.op.opcode == opcode && timersRun rn then some (m, rn, i) else none
        | none => none)

/-- FSEND_CREDIT_TIMEOUT (R369): not timed while the partner port recovers (R96). -/
def execFsendCreditTimeout (g : Fin 32) (s : State) : Host.Outcome State Fault Refusal :=
  clocked s (
    match creditWaiter s g 0x73 with
    | some (m, _, i) =>
      let p := i.op.imm0.toNat % 8
      let ready := match (getPartner s p).rings.find? (fun x => x.id == bits i.op.imm0.toNat 15 8) with
        | some pr => pr.credits.contains pr.nextSeq | none => false
      if ready || m.sent != 0 || (findRecovery s 7 p).isSome then s else runFault (dropMove s g m) m.run 0x0414 i.instr m.ref.unit
    | none => s)

/-- CSEND_CREDIT_TIMEOUT (R403): not timed while the link recovers (R408). -/
def execCsendCreditTimeout (g : Fin 32) (s : State) : Host.Outcome State Fault Refusal :=
  clocked s (
    match creditWaiter s g 0x80 with
    | some (m, _, i) =>
      let l := getLink s (linkOf i.op)
      let ready := match peerRing l (peerRingId i.op) with | some pr => pr.credits.contains pr.nextSeq | none => false
      if ready || !linkUp l then s else runFault (dropMove s g m) m.run 0x0314 i.instr m.ref.unit
    | none => s)

/-- FORAGER_RESET (R452): the forager is reset, and its units resume from the replay queues. -/
def execForagerReset (g : Fin 32) (s : State) : Host.Outcome State Fault Refusal :=
  clocked s (
    if (getForager s g).faulted && (findRecovery s 4 g).isSome then endRecovery (setForager s g (fun x => { x with faulted := false })) 4 g else s)

end Sys2Proof.Machine
end

