-- ==== Sys2Proof/Machine/Transports.lean ====
section
/-!
DEFINITION. The transports of the mailboxes: the slots (R306, R307), TSP and Waggle carriage (R355,
R410), the I3C target (R309), the management Ethernet (R309, R310, R319), FORWARD (R316) and the replies
of other dies (R317).
-/

namespace Sys2Proof.Machine

/-! ### The outbound side -/

/-- A management frame's payload (Table 10.5) with its CRC-32C. -/
def mgmtBytes (kind target offset : Nat) (data : Bytes) : Bytes :=
  let k := natLe 1 kind ++ natLe 1 target ++ natLe 2 data.length ++ natLe 4 0 ++ natLe 8 offset ++ data
  overlay k 4 (natLe 4 (crc32c k).toNat)

/-- A datagram leaves to a session's peer: its address and port in network byte order (R8; the address registers hold the
first byte lowest), and the payload. -/
def sendMgmt (s : State) (k : Nat) (payload : Bytes) : State :=
  { s with mgmt := { s.mgmt with sent := s.mgmt.sent
      ++ [natLe 16 (sessionAddr s k).toNat ++ natBe 2 (nth s.keeper.sessPort k).toNat ++ payload] } }

/-- The transport takes a message that stands in the outbound slot: a TSP packet to the partner, which clears
out_full by MBX_ACK (R355); over Ethernet and Waggle the transport logic sends it and clears out_full itself
(R306, R310, R333). -/
def carryOut (s : State) (n : Nat) : State :=
  let b := getMailbox s n
  if !b.outFull then s
  else if 9 ≤ n && n ≤ 13 then
    if nth s.keeper.sessEnable (n - 9) then clearOut (sendMgmt s (n - 9) (mgmtBytes 1 n 0 b.outbound)) n else s
  else if 14 ≤ n then sendRemote (clearOut s n) (field b.outbound 8 4 / 64 % 65536) b.outbound
  else s

/-- The Keeper moves the head of the outbound queue into the empty slot and sets out_full (R306, R307): the
I3C interrupt of mailbox 0, unless disabled (R309), or the transport of the mailbox follows. -/
def fillOut (s : State) (n : Nat) : State :=
  let b := getMailbox s n
  match b.queue with
  | m :: rest =>
    if b.outFull then carryOut s n
    else
      let s := setMailbox s n (fun b =>
        { putOut b (rest ++ b.unsent) with outbound := padTo 256 m.bytes, outFull := true, outCompletion := m.completion })
      if n == 0 then (if s.i3c.ibiEnabled then { s with i3c := { s.i3c with ibiRaised := true } } else s)
      else if n ≤ 8 then tspSend s (n - 1) 3 0 0 0 0 0 (padTo 256 m.bytes)
      else carryOut s n
  | [] => carryOut s n

/-! ### The slots -/

/-- MBX_INBOUND_WRITE (R306). -/
def execMbxInboundWrite (n : Fin 16) (offset : Nat) (data : List (BitVec 8)) (s : State) : Host.Outcome State Fault Refusal :=
  clocked s (slotWrite s n offset data)

/-- MBX_POST (R306). -/
def execMbxPost (n : Fin 16) (s : State) : Host.Outcome State Fault Refusal := clocked s (slotPost s n)

/-- MBX_OUT_ACK (R306, R333). -/
def execMbxOutAck (n : Fin 16) (s : State) : Host.Outcome State Fault Refusal := clocked s (clearOut s n)

/-- OUTBOUND_SLOT_FILL (R307). -/
def execOutboundSlotFill (n : Fin 16) (s : State) : Host.Outcome State Fault Refusal := clocked s (fillOut s n)

/-! ### Other dies (R316, R317) -/

/-- The check of an inner message (R315 but for the mailbox): its code, or 0. Of a fragment (R313) the header is checked;
the destination checks the body that it assembles. -/
def innerCode (s : State) (m : Bytes) : BitVec 16 :=
  let t := msgType m
  let body := (m.drop 32).take (msgLength m)
  if !msgCrcOk m || 224 < msgLength m || !knownRequest t then 0x0501
  else if msgIndex m != 0 || !msgLast m then (if headerReserved m then 0x0502 else stateRefusal s t 0)
  else if !bodyLengthOk s t body then 0x0501
  else if headerReserved m || bodyReserved t body then 0x0502
  else stateRefusal s t 0

/-- FORWARD (R316): the reply follows when the frame has entered the replay buffer. -/
def execForward (n : Fin 16) (s : State) : Host.Outcome State Fault Refusal :=
  clocked s (onRequest s n (isType 0x0003) (fun s p =>
    let dst := field p.body 0 2
    let inner := p.body.drop 8
    let code := innerCode s inner
    let out := routeOf s dst
    if code != 0 then reject s p code
    else if dst == s.life.dieId.toNat || 24 ≤ out || !linkUp (getLink s out) then reject s p 0x0507
    else
      let inner := overlay inner 8 (natLe 4 (s.life.dieId.toNat * 64 + mailboxSource p.mailbox))
      let inner := overlay inner 24 (natLe 4 (crc32c (zeroField inner 24 4)).toNat)
      sendRouted s out dst s.life.dieId.toNat 64 false inner (some p)))

/-- MAILBOX_REMOTE_REPLY (R317): to the queue of the mailbox bound to its source here, or dropped and counted. -/
def execMailboxRemoteReply (n : Fin 16) (s : State) : Host.Outcome State Fault Refusal :=
  clocked s (
    match takeMessage s n with
    | .done t => t
    | .foreign t m =>
      let src := field m 8 4 % 2 ^ 22
      match sourceMailbox (src % 64) with
      | some b =>
        if src / 64 == t.life.dieId.toNat then enqueue t b [{ bytes := m, completion := none }]
        else setKeeper t (fun k => { k with fwdDrop := satAdd k.fwdDrop 1 })
      | none => setKeeper t (fun k => { k with fwdDrop := satAdd k.fwdDrop 1 })
    | _ => s)

/-! ### I3C (R309) -/

/-- The static address that STRAP[2] gives (Table 16.2). -/
def i3cStatic (s : State) : Nat := if bit s.pins.straps.toNat 2 then 0x3B else 0x3A

/-- May a private write reach a register? -/
def i3cWritable (off : Nat) : Bool :=
  (0x8000 ≤ off && off < 0x8100) || off == 0x1104 || off == 0x1100 || sessionReg off || off == 0x4108

/-- I3C_PRIVATE_WRITE: an offset, then data for consecutive registers, all of them or none. -/
def i3cWrite (s : State) (data : Bytes) : State :=
  let off := field data 0 4
  let words := (data.length - 4) / 4
  let bad := data.length < 4 || off % 4 != 0 || data.length % 4 != 0
    || (List.range words).any (fun i => !i3cWritable (off + 4 * i))
  if bad then
    { setKeeper s (fun k => { k with i3cErr := satAdd k.i3cErr 1 }) with i3c := { s.i3c with refused := true } }
  else
    (List.range words).foldl (fun s i => writePage s (off + 4 * i) (field data (4 + 4 * i) 4))
      { s with i3c := { s.i3c with offset := off, refused := false } }

def execI3cPrivateWrite (data : List (BitVec 8)) (s : State) : Host.Outcome State Fault Refusal := clocked s (i3cWrite s data)

/-- I3C_PRIVATE_READ: `count` registers from the offset, which advances; zeros after a refused write. -/
def execI3cPrivateRead (count : Nat) (s : State) : Host.Outcome State Fault Refusal :=
  clocked s (
    if s.i3c.refused then { s with i3c := { s.i3c with readData := List.replicate (4 * count) 0 } }
    else
      let (t, ws) := readMany readPage s s.i3c.offset count
      { t with i3c := { t.i3c with offset := s.i3c.offset + 4 * count, readData := ws.flatMap (fun w => natLe 4 w.toNat) } })

/-- SETDASA: a dynamic address for the target with this static address. -/
def execSetdasa (staticAddr dynamicAddr : BitVec 7) (s : State) : Host.Outcome State Fault Refusal :=
  clocked s (if staticAddr.toNat == i3cStatic s then { s with i3c := { s.i3c with dynamic := some dynamicAddr } } else s)

/-- ENTDAA: a target without a dynamic address takes part and is given one. -/
def execEntdaa (dynamicAddr : BitVec 7) (s : State) : Host.Outcome State Fault Refusal :=
  clocked s (if s.i3c.dynamic.isNone then { s with i3c := { s.i3c with dynamic := some dynamicAddr } } else s)

/-- RSTDAA. -/
def execRstdaa (s : State) : Host.Outcome State Fault Refusal := clocked s { s with i3c := { s.i3c with dynamic := none } }

/-- ENEC. -/
def execEnec (s : State) : Host.Outcome State Fault Refusal := clocked s { s with i3c := { s.i3c with ibiEnabled := true } }

/-- DISEC. -/
def execDisec (s : State) : Host.Outcome State Fault Refusal := clocked s { s with i3c := { s.i3c with ibiEnabled := false } }

/-- What the target returns to the controller. -/
def i3cAnswer (s : State) (b : Bytes) : State := { s with i3c := { s.i3c with readData := b } }

/-- GETPID: the high byte first, as the I3C standard sends it (R8). The value is the die's own, which the manual does not state. -/
def execGetpid (s : State) : Host.Outcome State Fault Refusal := clocked s (i3cAnswer s (natBe 6 Config.i3cPid.toNat))

/-- GETBCR. -/
def execGetbcr (s : State) : Host.Outcome State Fault Refusal := clocked s (i3cAnswer s [Config.i3cBcr])

/-- GETDCR. -/
def execGetdcr (s : State) : Host.Outcome State Fault Refusal := clocked s (i3cAnswer s [Config.i3cDcr])

/-- GETSTATUS: a status word whose value the manual does not state. -/
def execGetstatus (s : State) : Host.Outcome State Fault Refusal :=
  clocked s (i3cAnswer { s with draws := s.draws + 1 } (natBe 2 (Config.i3cStatus s.draws).toNat))

/-! ### Management Ethernet (R309, R310, R319) -/

/-- The enabled session that a datagram comes from. -/
def sessionOf (s : State) (addr : BitVec 128) (port : BitVec 16) : Option Nat :=
  (List.range 5).find? (fun k => nth s.keeper.sessEnable k && sessionAddr s k == addr && nth s.keeper.sessPort k == port)

/-- A frame dropped and counted. -/
def dropMgmt (s : State) : State := setKeeper s (fun k => { k with mgmtDrop := satAdd k.mgmtDrop 1 })

/-- A management frame of a kind: R310's checks, then `f` on its session. A frame of the other row's kind is left to
that row; an acknowledgement of kind 3 that passes the checks changes nothing. -/
def mgmtReceive (s : State) (addr : BitVec 128) (port : BitVec 16) (k : Bytes) (kind : Nat) (f : Nat → State) : State :=
  let t := field k 0 1
  if (t == 2 && kind == 1) || ((t == 1 || t == 3) && kind == 2) then s
  else
    match sessionOf s addr port with
    | none => dropMgmt s
    | some ses =>
      if (crc32c (zeroField k 4 4)).toNat != field k 4 4 || !(t == kind || t == 3) || k.length != 16 + field k 2 2
          || (t == 1 && (field k 1 1 != 9 + ses || field k 2 2 != 256))
          || (t == 2 && !(1 ≤ field k 2 2 && field k 2 2 ≤ 8192)) then dropMgmt s
      else if t == 3 then s
      else f ses

/-- MGMT_MESSAGE_FRAME (R310): the message is written into its inbound slot and posted. -/
def execMgmtMessageFrame (addr : BitVec 128) (port : BitVec 16) (payload : List (BitVec 8)) (s : State) :
    Host.Outcome State Fault Refusal :=
  clocked s (mgmtReceive s addr port payload 1 (fun ses => slotPost (slotWrite s (9 + ses) 0 (payload.drop 16)) (9 + ses)))

/-- Is an image store slot busy (R318): a load from it in progress, or an image loaded from it resident? -/
def slotBusy (s : State) (slot : Nat) : Bool :=
  s.keeper.loads.any (fun j => j.slot == slot) || s.runs.any (fun r => match r with | some rn => rn.slot == slot | none => false)

/-- Image bytes written into both copies of a slot, or the code of the refusal (R319). A stack that is down misses the write
(its copy is made whole when it returns), and with both down the write fails: notes/assumptions/86.md. -/
def writeImage (s : State) (slot off : Nat) (data : Bytes) : State × BitVec 16 :=
  if 7 < slot || 2 ^ 31 < off + data.length then (s, 0x0550)
  else if slotBusy s slot then (s, 0x0551)
  else
    let up := [1, 3].filter (stackUp s)
    if up.isEmpty then (s, 0x0402)
    else
      let s := ([1, 3].filter (fun m => !up.contains m)).foldl (fun s m => setMemPort s m (fun p => { p with imageStale := true })) s
      (up.foldl (fun s m => writeStack s (bytesAt (imageAddr s m slot off) data)) s, 0)

/-- MGMT_IMAGE_DATA (R310, R319): answered by a frame of kind 3 with the code. -/
def execMgmtImageData (addr : BitVec 128) (port : BitVec 16) (payload : List (BitVec 8)) (s : State) :
    Host.Outcome State Fault Refusal :=
  clocked s (mgmtReceive s addr port payload 2 (fun ses =>
    if s.keeper.state == .rom then s else
    let slot := field payload 1 1
    let off := field payload 8 8
    let (t, code) := writeImage s slot off (payload.drop 16)
    sendMgmt t ses (mgmtBytes 3 slot off (natLe 2 code.toNat))))

/-- IMAGE_WRITE (R319). -/
def execImageWrite (n : Fin 16) (s : State) : Host.Outcome State Fault Refusal :=
  clocked s (onRequest s n (isType 0x0010) (fun s p =>
    let (t, code) := writeImage s (field p.body 0 1) (field p.body 8 8) (p.body.drop 16)
    reply t p code []))

/-- The die's own IPv6 address (Table 10.4). -/
def ownAddr (s : State) : BitVec 128 := BitVec.ofNat 128 (s.keeper.netAddr.foldr (fun w acc => w.toNat + 2 ^ 32 * acc) 0)

/-- NEIGHBOUR_REQUEST (R309): answered for the die's own address and for no other. -/
def execNeighbourRequest (addr : BitVec 128) (fromAddr : BitVec 128) (s : State) : Host.Outcome State Fault Refusal :=
  clocked s (
    if addr == ownAddr s then
      { s with mgmt := { s.mgmt with sent := s.mgmt.sent ++ [natLe 16 fromAddr.toNat ++ natLe 16 addr.toNat] } }
    else s)

end Sys2Proof.Machine
end

