-- ==== Sys2Proof/Machine/Loading.lean ====
section
/-!
DEFINITION. Images and tables come and go: keys (R480), the load of an image (R293 to R299), its unload and
kill (R321, Table 3.3), scrubs (R104), and the table archive with loads in service (R235 to R238, R243, R322,
R323).
-/

namespace Sys2Proof.Machine

/-! ### Keys for images and tables (Table 15.3) -/

/-- The public key that a key index selects: one of the site record's, or the ROM's copy of the
release key. -/
def imageKey (s : State) (k : Nat) : Option Bytes :=
  match s.life.imageKeys.find? (fun e => e.1 == k) with
  | some e => some e.2
  | none => if k == 16 then some Config.romReleaseKey else none

/-- Does a signature over a digest verify with a key that the life-cycle state accepts for it (R480)? -/
def imageSigOk (s : State) (forTable : Bool) (k : Nat) (digest : BitVec 384) (sig : Bytes) : Bool :=
  let st := s.life.state
  match imageKey s k with
  | none => false
  | some key =>
    (if k == 16 then
      (if forTable then st != .retired else st == .blank || st == .returned) && Config.sha384 key == Config.fuseRel
    else
      k < 4 && (st == .provisioned || st == .inService) && !(imageRevoked s.life.fuses).getLsbD k
        && (match s.life.fuses.banks.getLast? with | some b => Config.sha384 key == nth b.images k | none => false))
      && Config.ecdsaValid key digest sig

/-! ### Scrubs (R102, R104, Table 3.4) -/

/-- What of a range is left when others are taken out of it. -/
def gapsOf (lo hi : Nat) (taken : List (Nat × Nat)) : List (Nat × Nat) :=
  let r := (taken.mergeSort (fun a b => decide (a.1 ≤ b.1))).foldl
    (fun (acc : Nat × List (Nat × Nat)) t => (max acc.1 (t.1 + t.2), if acc.1 < t.1 then acc.2 ++ [(acc.1, t.1 - acc.1)] else acc.2)) (lo, [])
  if r.1 < hi then r.2 ++ [(r.1, hi - r.1)] else r.2

/-- Lines of the bank that ranges of one frame use most (R72, R104): a whole block of 32 KiB is one line in
every bank. -/
def scrubLines (ranges : List (Nat × Nat)) : Nat :=
  let blocks := ranges.foldl (fun n r => n + ((r.1 + r.2) / 32768 - ceilDiv r.1 32768)) 0
  let parts := (ranges.flatMap (fun r =>
    let lines (a b : Nat) : List Nat := (List.range (ceilDiv b 128 - a / 128)).map (· + a / 128)
    if (r.1 + r.2) / 32768 < ceilDiv r.1 32768 then lines r.1 (r.1 + r.2)
    else lines r.1 (roundUp r.1 32768) ++ lines ((r.1 + r.2) / 32768 * 32768) (r.1 + r.2))).eraseDups
  let bank (l : Nat) : Nat := (l % 256) ^^^ (l / 256 % 256)
  let most := ((List.range 256).map (fun b => parts.countP (fun l => bank l == b))).foldl max 0
  blocks + most

/-- A scrub of ranges of a frame begins. -/
def beginScrub (s : State) (f : Nat) (ranges : List (Nat × Nat)) : State :=
  if ranges.isEmpty then s
  else setFrame s f (fun x =>
    let todo := x.scrubTodo ++ ranges
    { x with scrubBusy := true, scrubTodo := todo, scrubLeft := BitVec.ofNat 11 (min 1024 (scrubLines todo)) })

/-- The part of a frame below its heirloom region, outside the resident regions of the residency table. -/
def nonResident (s : State) (f : Nat) : List (Nat × Nat) :=
  gapsOf (f * 2 ^ 25) (f * 2 ^ 25 + 0x1F00000)
    ((s.keeper.residency.filter (fun e => e.base / 2 ^ 25 == f)).map (fun e => (e.base, e.size)))

/-- SCRUB_COMPLETE (R104, R105). -/
def execScrubComplete (f : Fin 8) (s : State) : Host.Outcome State Fault Refusal :=
  clocked s (
    let fr := getFrame s f
    if !fr.scrubBusy then s
    else
      let s := fr.scrubTodo.foldl (fun s r => scrubComb s r.1 r.2) s
      setFrame s f (fun x => { x with scrubBusy := false, scrubLeft := 0, scrubTodo := [] }))

/-! ### The end of a run (R297, R321, Table 3.3) -/

/-! ### What a run knows of its orders (R336) -/

/-- The resident run that an order belongs to. -/
def runOf (s : State) (o : Order) : Option Run :=
  match getRun s o.run with
  | some rn => if rn.image.imageId == o.imageId then some rn else none
  | none => none

/-- A ring with its tokens reset (R98). -/
def freshRing (d : RingDecl) : Ring :=
  { decl := d, tokens := List.replicate d.slotCount { capped := false, lap := 0, crc := none }, prodSeq := 0, consSeq := 0
    prodBase := 0, consBase := 0, passes := [], consumed := [], opened := false, credits := [], partials := [], armed := []
    armedCount := 0 }

/-- A run of an image from a slot, before it is ready. -/
def freshRun (slot : Nat) (im : Image) : Run :=
  { image := im, slot := slot, ready := false, root := List.replicate 16 RootSlot.reset, rings := im.rings.map freshRing, order := none, orderSeeds := [], issued := []
    trip := none, fault := none, paused := false, recovering := false, counted := [], savedGens := [], replayReady := false
    checkWait := none, checkCounts := [] }

/-- The program of an order for QUERY (R336): its resident run; after a reset, when nothing was kept of it, its image as an
image store slot still holds it. -/
def knownRun (s : State) (o : Order) : Option Run :=
  match runOf s o with
  | some rn => some rn
  | none =>
    if o.ended.isSome then none
    else (List.range 8).findSome? (fun slot =>
      let rd := imageByte s slot
      let im := parseImage rd
      if im.imageId == o.imageId && (imageRefusal rd (Config.pellisSupported s.life.fwRelease) (imageSigOk s false) (userEnd s)).isNone
      then some (freshRun slot im) else none)

/-- The first instruction of an order that has not committed. -/
def instrNext (s : State) (o : Order) : Nat :=
  let len := match knownRun s o with
    | some rn => (orderProgram s rn o).length
    | none => match o.ended with | some e => e.1 | none => o.progress.length
  if o.state == .complete || (runOf s o).isNone && o.ended.isSome then len
  else ((List.range len).find? (fun k => !o.progress.any (fun p => p.instr == k && p.done))).getD len

/-- The progress of an instruction of an order. -/
def progressOf (o : Order) (k : Nat) : Progress :=
  (o.progress.find? (fun p => p.instr == k)).getD { instr := k, live := [], durable := [], done := false, units := 0, recordedAt := 0 }

/-- Committed units, as far as the Keeper knows them. -/
def knownUnits (p : Progress) : List Nat := p.live ++ p.durable.filter (fun u => !p.live.contains u)

/-- Level of the guarded layer that holds an instruction (R273). -/
def levelAt (s : State) (o : Order) (k : Nat) : Nat := match knownRun s o with | some rn => instrLevel rn.image o k | none => 0

/-- Regions that the program writes, and those of them that are valid (R336). -/
def regionMaps (s : State) (o : Order) : Nat × Nat :=
  match knownRun s o with
  | none => match o.ended with | some e => e.2 | none => (0, 0)
  | some rn =>
    let prog := orderProgram s rn o
    let writes := (List.range prog.length).map (fun k => (k, regionsWritten rn.image (instrAt s rn o prog k)))
    let mask (l : List Nat) : Nat := l.foldl (fun m i => m ||| 2 ^ i) 0
    let written := (writes.flatMap Prod.snd).eraseDups
    let done (k : Nat) : Bool := o.state == .complete || (progressOf o k).done
    (mask written, mask (written.filter (fun g => !o.invalid.contains g && writes.all (fun w => !w.2.contains g || done w.1))))

/-- What QUERY tells of the orders of a run is kept when its image leaves (R336, R449). -/
def keepMaps (s : State) (r : Nat) : State :=
  setKeeper s (fun k => { k with orders := k.orders.map (fun o =>
    if o.run == r && (runOf s o).isSome then { o with ended := some (instrNext s o, regionMaps s o) } else o) })

/-- A run lets go of its frames, workers, foragers and ports; the comb outside resident regions is scrubbed, and
what still waited for the run is answered: a SUBMIT of it with 0x0510, and one of the same source whose sequence this
leaves behind a gap with 0x0515 (R328). -/
def releaseRun (s : State) (r : Nat) : State :=
  let s := keepMaps s r
  let frames := runFrames s r
  let stuck := frames.filter (fun f => (getFrame s f).recovering && !(getFrame s f).rebuild.isEmpty)
  let jobs := s.keeper.tableJobs.filter (fun j => j.run == r)
  let accepts := s.keeper.accept.filter (fun j => j.order.run == r)
  let broken := s.keeper.accept.filter (fun j => j.order.run != r && accepts.any (fun a =>
    orderSource a.order.number == orderSource j.order.number && orderSeq a.order.number < orderSeq j.order.number))
  let s := closeLanding (tspCloseAll s r) r
  let s := { s with
    workers := s.workers.map (fun w =>
      if w.run != some r then w
      else { skipSample w with run := none, held := [], wait := none, rowState := [], cells := []
                               admission := if w.admission == .admitted then .notAdmitted else w.admission })
    foragers := s.foragers.map (fun g => { g with moves := g.moves.filter (fun m => m.run != r) })
    partners := s.partners.map (fun p => if p.run == some r then { p with run := none } else p)
    links := s.links.map (fun l =>
      if l.run == some r then { l with run := none, sentChunks := [], checksIn := [], checksOut := [], lostAt := none } else l)
    frames := s.frames.map (fun f =>
      if f.run == some r then { f with run := none, tally := [], replay := [], moves := [], moveReplay := [], granted := [], rebuild := [] } else f)
    runs := updAt s.runs r (fun _ => none) }
  let s := stuck.foldl (fun s f => endRecovery (setFrame s f (fun x => { x with recovering := false })) 5 f) s
  let s := setKeeper s (fun k =>
    { k with tableJobs := k.tableJobs.filter (fun j => j.run != r), accept := k.accept.filter (fun j => j.order.run != r && !broken.contains j) })
  let s := jobs.foldl (fun s j => reply s j.req 0x0521 []) s
  let s := accepts.foldl (fun s j => reply s j.req 0x0510 []) s
  let s := broken.foldl (fun s j => reply s j.req 0x0515 []) s
  frames.foldl (fun s f => beginScrub s f (nonResident s f)) s

/-- The IMAGE record of the journal (Table 10.18). -/
def imageRecord (s : State) (r action slot : Nat) (imageId : Nat) (src : BitVec 22) : State :=
  journal s 10 r 0 src (natLe 1 action ++ natLe 1 slot ++ natLe 6 0 ++ natLe 8 imageId)

/-! ### Loading (R293 to R299) -/

/-- Bytes 0 to 31 of the reply (Table 10.9), and the residency entries. -/
def loadReply (l : LoadRefusal) (run holder holderImage : Nat) (residency : List Nat) : Bytes :=
  natLe 2 l.section_ ++ natLe 2 0 ++ natLe 4 l.record ++ natLe 1 l.entry ++ natLe 1 (l.stage % 16 + 16 * (l.desc % 16))
    ++ natLe 2 residency.length ++ natLe 4 l.instr ++ natLe 1 run ++ natLe 1 holder ++ natLe 6 0 ++ natLe 8 holderImage
    ++ residency.flatMap (natLe 2)

/-- The first run that a list of holders names. -/
def firstHolder (hs : List (Option Nat)) : Option Nat := hs.findSome? id

/-- Who holds the frames and the ports that an image claims (R295). -/
def frameHolder (s : State) (im : Image) : Option Nat := firstHolder ((maskList 8 im.frameMask.toNat).map (fun f => (getFrame s f).run))
def portHolder (s : State) (im : Image) : Option Nat :=
  firstHolder ((maskList 8 im.partnerMask.toNat).map (fun p => (getPartner s p).run)
    ++ (maskList 24 im.linkMask.toNat).map (fun n => (getLink s n).run))

/-- Is a port that an image names absent (R285)? -/
def portAbsent (s : State) (im : Image) : Bool :=
  (maskList 8 im.partnerMask.toNat).any (fun p => (getPartner s p).state == 0)
    || (maskList 24 im.linkMask.toNat).any (fun n => (getLink s n).state == 0)

/-- The free run number that a load takes: the lowest. -/
def freeRun (s : State) : Option Nat := (List.range 8).find? (fun r => (getRun s r).isNone)

/-- Phase 6 (Table 9.13, in the order of its rows): the code of a refusal with the run that it names, or 0. -/
def claimRefusal (s : State) (im : Image) : BitVec 16 × Option Nat :=
  if (freeRun s).isNone then (0x0112, none)
  else if s.runs.any (fun r => match r with | some rn => rn.image.imageId == im.imageId | none => false) then (0x0115, none)
  else
    match frameHolder s im with
    | some h => (0x0111, some h)
    | none =>
      if (maskList 8 im.frameMask.toNat).any (fun f => (getFrame s f).outOfService || (getFrame s f).recovering) then (0x0116, none)
      else
        match portHolder s im with
        | some h => (0x0113, some h)
        | none => if portAbsent s im then (0x0113, none) else (0, none)

/-- Step 1 of R296: run number, frames, workers and ports are claimed together. -/
def claimRun (s : State) (r slot : Nat) (im : Image) : State :=
  let own (i : Nat) : Bool := im.frameMask.getLsbD i
  { s with
    runs := updAt s.runs r (fun _ => some (freshRun slot im))
    frames := s.frames.mapIdx (fun f x => if own f then { x with run := some r } else x)
    workers := s.workers.map (fun w => match w.serves with | some n => if own (n / 8) then { w with run := some r } else w | none => w)
    partners := s.partners.mapIdx (fun p x => if im.partnerMask.getLsbD p then { x with run := some r } else x)
    links := s.links.mapIdx (fun n x => if im.linkMask.getLsbD n then { x with run := some r, checksIn := [], checksOut := [] } else x) }

/-- A load is taken up: refused under phases 1 to 6 with no effect on the die (R294), or claimed. -/
def beginLoad (s : State) (p : Pending) : State :=
  let slot := field p.body 0 1
  let none_ := refuseAt 0 0
  if 7 < slot then reject s p 0x0550
  else
    let rd := imageByte s slot
    match imageRefusal rd (Config.pellisSupported s.life.fwRelease) (imageSigOk s false) (userEnd s) with
    | some l => reply s p l.code (loadReply l 0xFF 0xFF 0 [])
    | none =>
      let im := parseImage rd
      let (code, holder) := claimRefusal s im
      match freeRun s with
      | some r =>
        if code != 0 then
          let (h, hi) := match holder with
            | some h => (h, match getRun s h with | some rn => rn.image.imageId | none => 0)
            | none => (0xFF, 0)
          reply s p code (loadReply none_ 0xFF h hi [])
        else
          setKeeper (claimRun s r slot im) (fun k => { k with loads := [{ req := p, run := r, slot := slot }] })
      | none => reply s p code (loadReply none_ 0xFF 0xFF 0 [])

/-- Waiting loads are taken up in their order until one is under way (R297; `fuel` bounds their number). -/
def nextLoads : (fuel : Nat) → State → State
  | 0, s => s
  | fuel + 1, s =>
    match s.keeper.waitingLoads with
    | [] => s
    | p :: rest =>
      if !s.keeper.loads.isEmpty then s
      else nextLoads fuel (beginLoad (setKeeper s (fun k => { k with waitingLoads := rest })) p)

/-- IMAGE_LOAD (R297, R320): one load at a time. -/
def execImageLoad (n : Fin 16) (s : State) : Host.Outcome State Fault Refusal :=
  clocked s (onRequest s n (isType 0x0011) (fun s p =>
    if s.keeper.loads.isEmpty then beginLoad s p
    else setKeeper s (fun k => { k with waitingLoads := k.waitingLoads ++ [p] })))

/-! ### After the claim (R296, R298) -/

/-- The declared resident regions with their indices. -/
def residentRegions (im : Image) : List (Region × Nat) := im.regions.zipIdx.filter (fun g => g.1.kind == 3)

/-- Is an entry of the residency table the declared region? -/
def sameResident (e : Resident) (g : Region) : Bool := e.base == g.base && e.size == g.size && e.lineage == g.lineage

/-- Step 3 (R102): entries of the run's frames that no region matches are scrubbed and leave the table, before step 4;
the residency result of each declared region: 0 new, 1 mapped, 2 scrubbed. -/
def matchResident (s : State) (im : Image) : State × List Nat :=
  let gs := residentRegions im
  let mine (e : Resident) : Bool := im.frameMask.getLsbD (e.base / 2 ^ 25)
  let gone := s.keeper.residency.filter (fun e => mine e && !gs.any (fun g => sameResident e g.1))
  let result := gs.map (fun g =>
    let how := if s.keeper.residency.any (fun e => sameResident e g.1) then 1
      else if gone.any (fun e => rangesMeet (e.base, e.base + e.size) (g.1.base, g.1.base + g.1.size)) then 2 else 0
    g.2 % 1024 + how * 4096)
  let s := gone.foldl (fun s e => scrubComb s e.base e.size) s
  (setKeeper s (fun k => { k with residency := k.residency.filter (fun e => !gone.contains e) }), result)

/-- The archive stacks that are up: where new copies go (R243; one that is down gets its copy when it returns:
DESIGN CHOICE, notes/assumptions/85.md). -/
def archiveStacks (s : State) : List Nat := [0, 2].filter (stackUp s)

/-- Tables written into the archive, each into its lowest free entry (R243, Table 11.5; notes/assumptions/85.md). -/
def archiveTables (s : State) (banks : List Bank) : State :=
  let free (es : List ArchiveEntry) : Nat := ((List.range 4096).find? (fun i => !es.any (fun e => e.place == i))).getD 0
  let put (es : List ArchiveEntry) (b : Bank) : List ArchiveEntry :=
    es ++ [{ gen := b.gen, file := b.file, copies := archiveStacks s, place := free es }]
  setKeeper s (fun k => { k with archive := banks.foldl put k.archive })

/-- The generations of `n` tables have been issued (R219). -/
def issueGens (s : State) (n : Nat) : State := setKeeper s (fun k => { k with lastGen := k.lastGen + BitVec.ofNat 32 n })

/-- A new generation for a table file, archived (R219, R235). -/
def archiveTable (s : State) (file : Bytes) : State × BitVec 32 :=
  let gen := s.keeper.lastGen + 1
  (archiveTables (issueGens s 1) [{ gen := gen, file := file }], gen)

/-- The embedded tables of an image with their slots and the generations that they get (R219, R235). -/
def embeddedBanks (s : State) (im : Image) (rd : Nat → Byte) : List (Nat × Bank) :=
  (im.slots.filter (fun sl => sl.kind == 0)).zipIdx.map (fun (sl, i) =>
    (sl.slot, { gen := s.keeper.lastGen + 1 + BitVec.ofNat 32 i, file := tableFile rd im sl }))

/-- The root tables at the end of step 4, when the banks of these tables have been written; other banks are empty. -/
def loadedRoot (banks : List (Nat × Bank)) : List RootSlot :=
  (List.range 16).map (fun n =>
    match banks.find? (fun b => b.1 == n) with
    | some b => { RootSlot.reset with a := b.2 }
    | none => RootSlot.reset)

/-- Step 4 (R235): embedded tables into the archive and bank A of every worker of the run; other banks empty. -/
def writeBanks (s : State) (r : Nat) (im : Image) (rd : Nat → Byte) : State :=
  let banks := embeddedBanks s im rd
  setRoots (archiveTables (issueGens s banks.length) (banks.map Prod.snd)) r (fun _ => loadedRoot banks)

/-- Frames of a run that do not yet hold the Heirloom set of its image (R250). -/
def framesWithoutSet (s : State) (r : Nat) (im : Image) : List Nat :=
  if im.numericMode == 1 then (runFrames s r).filter (fun f => (getFrame s f).heirloom != im.heirloom) else []

/-- Step 5 (R250): the Heirloom set laid into frames. -/
def laySet (s : State) (im : Image) (frames : List Nat) : State :=
  frames.foldl (fun s f => setFrame (layPages s f im.heirloom) f (fun x => { x with heirloom := im.heirloom })) s

/-- Step 6 for a worker: it is admitted, its cells scrubbed and its counters cleared (R69, R100, R177, R464); one
that is gated goes through re-admission, and one that is fenced, under test or out of service stays so. -/
def joinRun (im : Image) (ungated : Bool) (w : Worker) : Worker :=
  let heirloom := im.numericMode == 1
  let w := { w with flushA := if heirloom then 0 else im.flushA, flushB := if heirloom then 0 else im.flushB }
  if w.admission == .notAdmitted || w.admission == .admitted || w.admission == .waiting then
    if ungated then { clearCounters w with admission := .admitted, epoch := w.epoch + 1, cells := [], rowState := [] }
    else startAdmission w
  else w

/-- Steps 3 to 6, for a claimed run whose scrubs have ended, and the openings of its rings (R347, R393): the
residency results. -/
def settleRun (s : State) (r : Nat) (rn : Run) : State × List Nat :=
  let im := rn.image
  let (s, residency) := matchResident s im
  let s := writeBanks s r im (runImage s rn)
  let frames := runFrames s r
  let s := laySet s im (framesWithoutSet s r im)
  let s := (runWorkers s r).foldl (fun s w => setWorker s w (joinRun im (getFrame s (workerFrame s w)).ungated)) s
  let s := setRun s r (fun rn => { rn with ready := true, rings := im.rings.map freshRing, paused := frames.all (fun f => !(getFrame s f).ungated), counted := counterSums s r })
  let s := setKeeper s (fun k =>
    { k with orders := k.orders.map (fun o => if o.imageId == im.imageId && o.state != .complete && o.state != .abandoned then { o with run := r } else o)
             residency := k.residency ++ ((residentRegions im).filter (fun g => !k.residency.any (fun e => sameResident e g.1))).map
               (fun g => { base := g.1.base, size := g.1.size, lineage := g.1.lineage }) })
  ((maskList 24 im.linkMask.toNat).foldl openLanding (tspOpenAll s r), residency)

/-- Step 7: the IMAGE record and the reply. -/
def finishLoad (s : State) (j : LoadJob) (rn : Run) : State :=
  let (s, residency) := settleRun s j.run rn
  let s := setKeeper s (fun k => { k with loads := [] })
  reply (imageRecord s j.run 1 j.slot rn.image.imageId j.req.source) j.req 0 (loadReply (refuseAt 0 0) j.run 0xFF 0 residency)

/-- What steps 3 to 5 have done when one of them fails (R298). -/
def stepsBefore (s : State) (j : LoadJob) (rn : Run) (failure : LoadFailure) : State :=
  let im := rn.image
  let (s, _) := matchResident s im
  let banks := embeddedBanks s im (runImage s rn)
  let all := banks.map Prod.snd
  match failure with
  | .none => s
  | .archiveWrite done => archiveTables (issueGens s banks.length) (all.take done)
  | .bankCrc done => setRoots (archiveTables (issueGens s banks.length) all) j.run (fun _ => loadedRoot (banks.take done))
  | .combUncorrectable done =>
    let s := setRoots (archiveTables (issueGens s banks.length) all) j.run (fun _ => loadedRoot banks)
    laySet s im ((framesWithoutSet s j.run im).take done)

/-- A step after the claim fails (R298): the run counts as unloaded; what the steps before did stays so. -/
def failLoad (s : State) (j : LoadJob) (rn : Run) (failure : LoadFailure) (code : BitVec 16) : State :=
  let s := stepsBefore s j rn failure
  let s := setKeeper (releaseRun s j.run) (fun k => { k with loads := [] })
  reply s j.req code (loadReply (refuseAt 0 0) 0xFF 0xFF 0 [])

/-- IMAGE_LOAD_PROCEED: it waits for the scrubs due on the frames, then loads, or fails with the code of the failing
part: the archive's 4,096 generations, a stack write (with M0 and M2 down none can be made), a root store, the comb. -/
def execImageLoadProceed (failure : LoadFailure) (s : State) : Host.Outcome State Fault Refusal :=
  clocked s (
    match s.keeper.loads with
    | [] => s
    | j :: _ =>
      match getRun s j.run with
      | none => s
      | some rn =>
        if (runFrames s j.run).any (fun f => (getFrame s f).scrubBusy) then s
        else
          let n := rn.image.slots.countP (fun x => x.kind == 0)
          let s :=
            if 4096 < s.keeper.archive.length + n then failLoad s j rn .none 0x0533
            else if n != 0 && (archiveStacks s).isEmpty then failLoad s j rn (.archiveWrite 0) 0x0402
            else match failure with
              | .none => finishLoad s j rn
              | .archiveWrite _ => failLoad s j rn failure 0x0402
              | .bankCrc _ => failLoad s j rn failure 0x0262
              | .combUncorrectable _ => failLoad s j rn failure 0x0222
          nextLoads s.keeper.waitingLoads.length s)

/-! ### Unload and kill (R321) -/

/-- The run that a request names, when its image is the resident one. -/
def namedRun (s : State) (p : Pending) : Option (Nat × Run) :=
  let r := field p.body 0 1
  match getRun s r with
  | some rn => if rn.ready && rn.image.imageId == field p.body 8 8 then some (r, rn) else none
  | none => none

/-- Work orders of a run that are neither complete nor abandoned. -/
def openOrders (s : State) (r : Nat) : List Order :=
  (ordersOf s r).filter (fun o => o.state != .complete && o.state != .abandoned)

/-- IMAGE_UNLOAD. -/
def execImageUnload (n : Fin 16) (s : State) : Host.Outcome State Fault Refusal :=
  clocked s (onRequest s n (isType 0x0012) (fun s p =>
    match namedRun s p with
    | none => reject s p 0x0521
    | some (r, rn) =>
      if !(openOrders s r).isEmpty then reject s p 0x0560
      else reply (imageRecord (releaseRun s r) r 2 rn.slot rn.image.imageId p.source) p 0 []))

/-- KILL: the run stops at once, and its open orders are abandoned with 0x0561. -/
def execKill (n : Fin 16) (s : State) : Host.Outcome State Fault Refusal :=
  clocked s (onRequest s n (isType 0x0013) (fun s p =>
    match namedRun s p with
    | none => reject s p 0x0521
    | some (r, rn) =>
      let s := (openOrders s r).foldl (fun s o => abandonOrder s o.number 0x0561) s
      reply (imageRecord (releaseRun s r) r 3 rn.slot rn.image.imageId p.source) p 0 []))

/-! ### Tables in service (R236 to R238, R243, R322, R323) -/

/-- Does a table file lack a path that an image needs from a slot (R234, R236)? -/
def lacksPath (im : Image) (slot : Nat) (file : Bytes) (prog : List PInstr) : Bool :=
  let has (path : Nat) : Bool := (pathOffsets file).any (fun p => p.2 == path)
  let declared := match im.slots.find? (fun x => x.slot == slot) with | some x => x.paths | none => 0
  (bit declared 0 && !has 1) || (bit declared 1 && !has 2)
    || prog.any (fun op => (effStages op).any (fun st => st.op == 0x60 + slot && !has (if st.lo2 == 3 || st.lo2 == 4 then 1 else 2)))

/-- Every instruction of an image, guard variants included. -/
def wholeProgram (rd : Nat → Byte) (im : Image) : List PInstr :=
  (List.range im.entries.length).flatMap (fun e => programOf rd im e ++ (variantsOf rd im e).map Prod.snd)

/-- TABLE_LOAD (R236, R322): checks, then a generation and its archive copies; the reply waits for the banks. -/
def execTableLoad (n : Fin 16) (s : State) : Host.Outcome State Fault Refusal :=
  clocked s (onRequest s n (isType 0x0030) (fun s p =>
    let r := field p.body 0 1
    let slot := field p.body 1 1
    let file := p.body.drop 104
    match getRun s r with
    | none => reject s p 0x0521
    | some rn =>
      if !rn.ready then reject s p 0x0521
      else if rn.image.numericMode == 1 then reject s p 0x0530
      else if !imageSigOk s true (field p.body 4 4) (Config.sha384 file) ((p.body.drop 8).take 96) then reject s p 0x0102
      else
        match tableRefusal file with
        | some c => reject s p c
        | none =>
          if 15 < slot then reject s p 0x0174
          else if lacksPath rn.image slot file (wholeProgram (runImage s rn) rn.image) then reject s p 0x0175
          else if 4096 ≤ s.keeper.archive.length then reject s p 0x0533
          else if (archiveStacks s).isEmpty then reject s p 0x0402
          else
            let (s, gen) := archiveTable s file
            setKeeper s (fun k => { k with tableJobs := k.tableJobs ++ [{ req := p, run := r, slot := slot, gen := gen, file := file }] })))

/-- Is the generation in a shadow bank bound by a unit of its run that has not yet committed (R237)? -/
def shadowBound (s : State) (r slot : Nat) : Bool :=
  match getRun s r with
  | some rn =>
    let gen := (shadowBank (nth rn.root slot)).gen
    gen != 0 && rn.issued.any (fun i => nth i.gens slot == gen && !instrDone i)
  | none => false

/-- A shadow bank written in every worker of a run, and marked pending (R236). -/
def writeShadow (s : State) (r slot : Nat) (b : Bank) : State :=
  setRoots s r (fun root => updAt root slot (fun sl => if sl.activeB then { sl with a := b, pending := true } else { sl with b := b, pending := true }))

/-- A shadow bank that mismatched twice stays empty, in no worker pending (notes/assumptions/85.md). -/
def emptyShadow (s : State) (r slot : Nat) : State :=
  let none_ : Bank := { gen := 0, file := [] }
  setRoots s r (fun root => updAt root slot (fun sl => if sl.activeB then { sl with a := none_, pending := false } else { sl with b := none_, pending := false }))

/-- TABLE_SHADOW_WRITE (R236, R237): the first load in service whose shadow bank no unit in flight reads. A bank
whose CRC-32C mismatches is written once more; a second mismatch answers 0x0262 (Table 14.5). How often it mismatches is a
free value. -/
def execTableShadowWrite (s : State) : Host.Outcome State Fault Refusal :=
  clocked s (
    match s.keeper.tableJobs.find? (fun j => !shadowBound s j.run j.slot) with
    | none => s
    | some j =>
      let done (s : State) : State := { setKeeper s (fun k => { k with tableJobs := k.tableJobs.erase j }) with draws := s.draws + 1 }
      if 2 ≤ Config.bankMismatches s.draws then reply (done (emptyShadow s j.run j.slot)) j.req 0x0262 []
      else reply (done (writeShadow s j.run j.slot { gen := j.gen, file := j.file })) j.req 0 (natLe 4 j.gen.toNat))

/-- Does a bank of any worker hold a generation, is it about to be written, or does it come back after a replay (R243,
R244)? -/
def generationHeld (s : State) (gen : BitVec 32) : Bool :=
  s.workers.any (fun w => w.root.any (fun sl => sl.a.gen == gen || sl.b.gen == gen)) || s.keeper.tableJobs.any (fun j => j.gen == gen)
    || s.runs.any (fun r => match r with | some rn => rn.savedGens.any (fun g => g.1 == gen || g.2 == gen) | none => false)

/-- Does a journal record of an open work order name a generation (R243)? -/
def generationNamed (s : State) (gen : BitVec 32) : Bool :=
  s.keeper.orders.any (fun o => o.state != .complete && o.state != .abandoned
    && (o.startGens.contains gen || o.fenceGens.any (fun f => f.2.contains gen)))

/-- A generation leaves the archive. -/
def dropGeneration (s : State) (gen : BitVec 32) : State :=
  setKeeper s (fun k => { k with archive := k.archive.filter (fun e => e.gen != gen) })

/-- TABLE_RETIRE (R323). -/
def execTableRetire (n : Fin 16) (s : State) : Host.Outcome State Fault Refusal :=
  clocked s (onRequest s n (isType 0x0031) (fun s p =>
    let gen := BitVec.ofNat 32 (field p.body 0 4)
    if !s.keeper.archive.any (fun e => e.gen == gen) then reject s p 0x0531
    else if generationHeld s gen || (!bit (field p.body 4 1) 0 && generationNamed s gen) then reject s p 0x0532
    else reply (dropGeneration s gen) p 0 []))

/-- ARCHIVE_RELEASE (R243). -/
def execArchiveRelease (generation : BitVec 32) (s : State) : Host.Outcome State Fault Refusal :=
  clocked s (if generationHeld s generation || generationNamed s generation then s else dropGeneration s generation)

end Sys2Proof.Machine
end

