-- ==== Sys2Proof/Machine/Orders.lean ====
section
/-!
DEFINITION. Work orders: acceptance (R326 to R330), queries (R336, R472), completions (R333, R511), the end of an
order at a fault (R455, R457), its resolution and replay (R244, R466, R467), and the journal's own records
(R339, R340, R460).
-/

namespace Sys2Proof.Machine

/-! ### Acceptance (Tables 10.12 and 10.13) -/

/-- The order that a SUBMIT body describes. -/
def orderFrom (number : BitVec 64) (b : Bytes) (run acceptStamp : Nat) : Order :=
  { number := number, state := .accepted, run := run, imageId := field b 0 8, entry := field b 16 1, params := b.drop 600
    shapes := (List.range 128).map (fun i => BitVec.ofNat 32 (field b (88 + 4 * i) 4)), seedsPresent := bit (field b 17 1) 0
    seeds := (List.range 8).map (fun i => BitVec.ofNat 64 (field b (24 + 8 * i) 8)), acceptStamp := acceptStamp, endStamp := 0, code := 0
    notice := 0, noticeSentAt := 0, nextIssue := 0, progress := [], levels := [], startGens := [], fenceGens := [], invalid := []
    awaiting := false, redoneAt := [], acceptLost := false, fromJournal := false, ended := none }

/-- The value of an order's state (Table 10.14). -/
def orderCode : OrderState → Nat
  | .accepted => 1 | .running => 2 | .partial_ => 3 | .complete => 4 | .abandoned => 5

/-- The SUBMIT reply (R327). -/
def submitReply (number : BitVec 64) (acceptStamp duplicate state : Nat) : Bytes :=
  natLe 8 number.toNat ++ stampNs acceptStamp ++ stampFrac acceptStamp ++ natLe 1 duplicate ++ natLe 1 state ++ natLe 4 0

/-- The last sequence of a source that has been accepted or whose ACCEPT record is being written; none for a
source without an entry (R330). -/
def lastSequence (s : State) (src : BitVec 22) : Option Nat :=
  let held := (s.keeper.sources.filter (fun e => e.source == src)).map SourceEntry.last
    ++ (s.keeper.accept.filter (fun j => j.req.source == src)).map (fun j => orderSeq j.order.number)
  if held.isEmpty then none else some (held.foldl max 0)

/-- A duplicate is answered with the order as it is (R328). -/
def replyDuplicate (s : State) (p : Pending) (number : BitVec 64) : State :=
  match findOrder s number with
  | some o => reply s p 0 (submitReply number o.acceptStamp 1 (orderCode o.state))
  | none => reply s p 0 (submitReply number 0 1 0)

/-- Steps 5 to 10 of Table 10.13 for an image: the code of the first that fails, or 0. ACCEPT records that are being
written count as written. -/
def submitCode (s : State) (rn : Run) (o : Order) (known : Bool) : BitVec 16 :=
  let im := rn.image
  if im.entries.length ≤ o.entry then 0x0511
  else if o.params.length != (nth im.entries o.entry).paramLength then 0x0512
  else if (List.range 128).any (fun i =>
      let d := nth im.shapes i
      let v := (nth o.shapes i).toNat
      if d.1 then d.2 < v else v != 0) then 0x0513
  else if !o.seedsPresent && (programOf (runImage s rn) im o.entry ++ (variantsOf (runImage s rn) im o.entry).map Prod.snd).any
      (fun op => draws op && 8 ≤ op.seedIndex) then 0x0514
  else if !known && 4096 ≤ (s.keeper.sources.map SourceEntry.source ++ s.keeper.accept.map (fun j => j.req.source)).eraseDups.length then 0x0518
  else if journalFree s < 73792 + (s.keeper.accept.map (fun (j : AcceptJob) => recordLength j.req.body.length)).foldl (· + ·) 0 then 0x0516
  else 0

/-- SUBMIT (R328): the checks from the sequence on; then the ACCEPT record begins. -/
def submitOrder (s : State) (p : Pending) : State :=
  let seq := field p.body 8 8
  let number := orderNumber p.source seq
  let last := lastSequence s p.source
  let fresh := match last with | some l => seq == l + 1 | none => 1 ≤ seq
  let duplicate := match last with | some l => 1 ≤ seq && seq ≤ l | none => false
  if duplicate then
    match s.keeper.accept.find? (fun j => j.order.number == number) with
    | some j => setKeeper s (fun k => { k with accept := k.accept ++ [{ req := p, order := j.order }] })
    | none => replyDuplicate s p number
  else if !fresh then reject s p 0x0515
  else
    match (List.range 8).find? (fun r => match getRun s r with | some rn => rn.ready && rn.image.imageId == field p.body 0 8 | none => false) with
    | none => reject s p 0x0510
    | some r =>
      match getRun s r with
      | none => reject s p 0x0510
      | some rn =>
        let (t, at_) := stamp s
        let o := orderFrom number p.body r at_
        let code := submitCode s rn o last.isSome
        if code != 0 then reject s p code
        else setKeeper t (fun k => { k with accept := k.accept ++ [{ req := p, order := o }] })

def execSubmit (n : Fin 16) (s : State) : Host.Outcome State Fault Refusal := clocked s (onRequest s n (isType 0x0020) submitOrder)

/-- May an ACCEPT record count as written: into a stack of the active pair and at least one more (R329, R337), which
journal hold excludes (R341)? -/
def acceptWritable (s : State) : Bool :=
  !s.journal.hold && (pairStacks s.journal.activePair).any (stackUp s) && 2 ≤ (journalTargets s).length

/-- ACCEPT_RECORD_WRITTEN (R329): the oldest ACCEPT record stands in both stacks; the order is accepted, the source
table holds its sequence, and the reply is sent. A SUBMIT repeated meanwhile is answered as a duplicate. -/
def execAcceptRecordWritten (s : State) : Host.Outcome State Fault Refusal :=
  clocked s (
    match s.keeper.accept with
    | [] => s
    | j :: rest =>
      if !acceptWritable s then s else
      let s := setKeeper s (fun k => { k with accept := rest })
      let o := j.order
      if (findOrder s o.number).isSome then replyDuplicate s j.req o.number
      else
        let src := j.req.source
        let s := setKeeper s (fun k =>
          { k with orders := k.orders ++ [o]
                   sources := k.sources.filter (fun e => e.source != src) ++ [{ source := src, last := orderSeq o.number, ackedAt := s.wall }] })
        let s := journalAt s o.acceptStamp 1 o.run o.number src j.req.body
        reply s j.req 0 (submitReply o.number o.acceptStamp 0 1))

/-! ### Queries -/

/-- QUERY (R336, Table 10.16). -/
def queryReply (s : State) (o : Order) : Bytes :=
  let k := instrNext s o
  let p := progressOf o k
  let (w, v) := regionMaps s o
  natLe 8 o.number.toNat ++ natLe 1 (orderCode o.state) ++ natLe 1 o.run
    ++ natLe 2 (if o.state == .partial_ || o.state == .abandoned then o.code.toNat else 0)
    ++ natLe 1 (if o.state == .complete then 0 else levelAt s o k) ++ natLe 1 (min 2 o.notice) ++ natLe 2 0
    ++ natLe 4 k ++ natLe 4 0 ++ natLe 8 p.units ++ natLe 8 (knownUnits p).length
    ++ stampNs o.acceptStamp ++ stampFrac o.acceptStamp ++ natLe 6 0 ++ natLe 128 w ++ natLe 128 v

def execQuery (n : Fin 16) (s : State) : Host.Outcome State Fault Refusal :=
  clocked s (onRequest s n (isType 0x0021) (fun s p =>
    let number := BitVec.ofNat 64 (field p.body 0 8)
    match findOrder s number with
    | some o => reply s p 0 (queryReply s o)
    | none => reply s p 0x0520 (padTo 312 (natLe 8 number.toNat))))

/-- PROGRESS_MAP (R472): live while the Keeper state survives, durable after a reset. -/
def execProgressMap (n : Fin 16) (s : State) : Host.Outcome State Fault Refusal :=
  clocked s (onRequest s n (isType 0x0401) (fun s p =>
    let number := BitVec.ofNat 64 (field p.body 0 8)
    let k := field p.body 8 4
    let count := field p.body 12 4
    let first := field p.body 16 8
    match findOrder s number with
    | none => reject s p 0x0520
    | some o =>
      let g := progressOf o k
      if count == 0 || 524288 < count || (g.units != 0 && g.units ≤ first) then reject s p 0x02F0
      else
        let us := (knownUnits g).filter (fun u => first ≤ u && u < first + count)
        let map := if g.done || o.state == .complete then 2 ^ count - 1 else us.foldl (fun m u => m ||| 2 ^ (u - first)) 0
        reply s p 0 (natLe 8 number.toNat ++ natLe 4 k ++ natLe 1 (levelAt s o k) ++ natLe 1 (b2n o.fromJournal) ++ natLe 2 0 ++ natLe 8 first
          ++ natLe 4 count ++ natLe 4 0 ++ natLe (ceilDiv count 8) map)))

/-! ### Completions (R333, R511) -/

/-- NOTICE_ACK: no reply, whatever it names. -/
def execNoticeAck (n : Fin 16) (s : State) : Host.Outcome State Fault Refusal :=
  clocked s (onRequest s n (isType 0x0022) (fun s p => ackNotice s (BitVec.ofNat 64 (field p.body 0 8))))

/-- COMPLETION (Table 10.15). -/
def completionBody (o : Order) : Bytes :=
  natLe 8 o.number.toNat ++ natLe 1 (orderCode o.state) ++ natLe 1 o.run ++ natLe 2 (if o.state == .abandoned then o.code.toNat else 0)
    ++ natLe 4 0 ++ stampNs o.acceptStamp ++ stampFrac o.acceptStamp ++ natLe 6 0 ++ stampNs o.endStamp ++ stampFrac o.endStamp ++ natLe 6 0

/-- The order of a source with the lowest sequence whose notice has not been acknowledged. -/
def firstUnacked (s : State) (src : BitVec 22) : Option Order :=
  ((s.keeper.orders.filter (fun o => orderSource o.number == src && o.notice < 2)).mergeSort
    (fun a b => decide (a.number.toNat ≤ b.number.toNat))).head?

/-- The notice of an order is sent. -/
def sendCompletion (s : State) (o : Order) : State :=
  let s := setOrder s o.number (fun o => { o with notice := 1, noticeSentAt := s.wall })
  sendNotice s 0x4020 (orderSource o.number) (completionBody o) (some o.number)

/-- COMPLETION_NOTICE_SEND: in ascending sequence, each after the acknowledgement of those before it, and none while a
guarded layer holds the source (R275). -/
def execCompletionNoticeSend (source : BitVec 22) (s : State) : Host.Outcome State Fault Refusal :=
  clocked s (
    match firstUnacked s source with
    | some o => if ended o && o.notice == 0 && !sourceHeld s source then sendCompletion s o else s
    | none => s)

/-- NOTICE_RETRANSMIT: over UDP, while the session is enabled and the notice sent before has left its mailbox. -/
def execNoticeRetransmit (source : BitVec 22) (s : State) : Host.Outcome State Fault Refusal :=
  clocked s (
    let m := replyMailbox s source
    match firstUnacked s source with
    | some o =>
      if o.notice == 1 && 9 ≤ m && m ≤ 13 && nth s.keeper.sessEnable (m - 9)
          && !(outgoing (getMailbox s m)).any (fun q => q.completion == some o.number) then sendCompletion s o
      else s
    | none => s)

/-- After a Keeper pair switch the oldest unacknowledged notice of each source is sent again, unless it still waits in its
mailbox (R333). -/
def resendNotices (s : State) : State :=
  ((s.keeper.orders.map (fun o => orderSource o.number)).eraseDups).foldl (fun s src =>
    match firstUnacked s src with
    | some o =>
      if o.notice == 1 && !(outgoing (getMailbox s (replyMailbox s src))).any (fun q => q.completion == some o.number) then sendCompletion s o
      else s
    | none => s) s

/-! ### The end of an order at a fault (R455, R457) -/

/-- Is nothing of a run in flight but what waits on a slot, a credit or a stack? -/
def quietRun (s : State) (r : Nat) : Bool :=
  s.workers.all (fun w => w.held.all (fun h => h.run != r || w.wait.isSome))
    && s.foragers.all (fun g => g.moves.all (fun m => m.run != r || m.stage == .waiting))

/-- What waits in workers and foragers of a run is given up. -/
def dropWaiting (s : State) (r : Nat) : State :=
  { s with
    workers := s.workers.map (fun w => if w.held.any (fun h => h.run == r) then { w with held := [], wait := none, rowState := [] } else w)
    foragers := s.foragers.map (fun g => { g with moves := g.moves.filter (fun m => m.run != r) }) }

/-- RUN_FAULT_ABANDON (R455): class A; the order is abandoned with the code, and the run is free for its next. -/
def execRunFaultAbandon (r : Fin 8) (s : State) : Host.Outcome State Fault Refusal :=
  clocked s (
    match getRun s r with
    | some rn =>
      match rn.fault, rn.order with
      | some f, some n => if faultClass f.code == 1 && quietRun s r then abandonOrder (dropWaiting s r) n f.code else s
      | _, _ => s
    | none => s)

/-- RUN_FAULT_STOP (R457): class C; the order is partial and awaits its source. A partner port that the fault came
from is thereby contained (Table 14.1). -/
def execRunFaultStop (r : Fin 8) (s : State) : Host.Outcome State Fault Refusal :=
  clocked s (
    match getRun s r with
    | some rn =>
      match rn.fault, orderOf s rn with
      | some f, some o =>
        if faultClass f.code == 3 && o.state == .running && quietRun s r then
          let s := dropUnits (dropWaiting s r) r (fun _ => true)
          let s := setOrder s o.number (fun o => { o with state := .partial_, code := f.code, awaiting := true })
          (s.keeper.recoveries.filter (fun x => x.domain == 7 && x.code == f.code && (getPartner s x.inst).run == some r.val)).foldl
            (fun s x => phaseRecord s 7 x.inst 2 x.code) s
        else s
      | _, _ => s
    | none => s)

/-! ### Restart and resumption (R244, R458, R466, R467) -/

/-- Ring kinds 2 and 3 among the operands of an instruction. -/
def usesPorts (im : Image) (op : PInstr) : Bool :=
  (List.range op.descs.length).any (fun j =>
    match ringOf im (nth op.descs j) with | some g => 2 ≤ (nth im.rings g).producerKind | none => false)

/-- Does a store to a stack and a load from one share a byte, sizes at their bounds? -/
def storeLoadMeet (a b : PInstr) : Bool :=
  let base (op : PInstr) : Nat := op.imm0.toNat + 2 ^ 32 * (op.imm1.toNat % 128)
  shareByte { nth a.descs 1 with base := base a } { nth b.descs 1 with base := base b } (nth (boundSizes a) 1) (nth (boundSizes b) 1)

/-- Is an entry point restartable (R467)? -/
def restartable (rd : Nat → Byte) (im : Image) (e : Nat) : Bool :=
  let ops := programOf rd im e ++ (variantsOf rd im e).map Prod.snd
  let isStore (op : PInstr) : Bool := !op.micro && (op.opcode == 0x72 || op.opcode == 0x75)
  !ops.any (fun op =>
    usesPorts im op || (!op.micro && (op.opcode == 0x73 || isCollective op))
      || (touched im op (List.range op.descs.length)).any (fun g => (nth im.regions g).kind == 3)
      || (!op.micro && stackDesc op 1 && bit op.imm1.toNat 31))
    && !(ops.filter isStore).any (fun a => ops.any (fun b => !b.micro && b.opcode == 0x71 && storeLoadMeet a b))

/-- The generations recorded for a point of an order: START's, and those of the fences before it (R244). -/
def gensAt (o : Order) (k : Nat) : List (BitVec 32) :=
  (List.range 16).map (fun n =>
    ((o.fenceGens.filter (fun f => f.1 < k && nth f.2 n != 0)).getLast?.map (fun f => nth f.2 n)).getD (nth o.startGens n))

/-- Has a recorded generation other than the one in force to be installed? -/
def gensMissing (s : State) (r : Nat) (gens : List (BitVec 32)) : Bool :=
  (List.range 16).any (fun n => nth gens n != 0 && nth gens n != genInForce s r n)

/-- Has a generation that the journal records for an order from instruction `k` on left the archive (R244)? -/
def recordedGone (s : State) (o : Order) (k : Nat) : Bool :=
  (gensAt o k ++ (o.fenceGens.filter (fun f => k ≤ f.1)).flatMap Prod.snd).any (fun g => g != 0 && (archiveEntry s g).isNone)

/-- An order runs again from instruction 0, or from its progress. It skips every durable unit of a stack-writing
instruction, and each guarded layer begins at its journaled level. -/
def replayOrder (s : State) (r : Nat) (rn : Run) (o : Order) (fromStart : Bool) : State :=
  let prog := orderProgram s rn o
  let again (k : Nat) : Progress :=
    let p := progressOf o k
    let op := nth prog k
    let keep := !fromStart || (!op.micro && (op.opcode == 0x72 || op.opcode == 0x75))
    if keep then { p with instr := k, live := p.durable, units := 0, recordedAt := s.wall }
    else { p with instr := k, live := [], durable := [], done := false, units := 0, recordedAt := s.wall }
  let next := if fromStart then 0 else instrNext s o
  let missing := gensMissing s r (gensAt o next) || recordedGone s o next
  let s := setRun s r (fun rn =>
    if !fromStart then rn
    else { rn with rings := rn.rings.map (fun g =>
      if 2 ≤ g.decl.producerKind then g
      else { g with tokens := List.replicate g.decl.slotCount { capped := false, lap := 0, crc := none }, prodSeq := 0, consSeq := 0
                    prodBase := 0, consBase := 0, passes := [], consumed := [] }) })
  let s := setOrder s o.number (fun o =>
    { o with state := .running, awaiting := false, code := 0, fromJournal := false, nextIssue := next, redoneAt := []
             invalid := if fromStart then [] else o.invalid, progress := (List.range prog.length).map again })
  let s := (runFrames s r).foldl (fun s f => setFrame s f (fun f => { f with granted := [] })) s
  let s := loadOrder s r rn o
  let saved := gensOf s r
  finishOrder (setRun s r (fun rn => { rn with savedGens := saved, replayReady := !missing })) r

/-- REPLAY_TABLE_INSTALL (R244): the recorded generations become active in the run's root stores; when one that the
replay will need is no longer in the archive, it faults with 0x0261 before its first unit. -/
def execReplayTableInstall (r : Fin 8) (s : State) : Host.Outcome State Fault Refusal :=
  clocked s (
    match getRun s r with
    | none => s
    | some rn =>
      match orderOf s rn with
      | none => s
      | some o =>
        if rn.savedGens.isEmpty || rn.replayReady then s
        else if recordedGone s o o.nextIssue then runFault s r 0x0261 o.nextIssue 0
        else
          let gens := gensAt o o.nextIssue
          let s := setRun s r (fun rn => { rn with replayReady := true })
          replayFence s r o.nextIssue 0xFFFF gens)

/-- A stopped order goes on from its progress: units that have not committed enter their queues again (R457, R458),
but for those of a layer that has tripped (R273). -/
def resumeOrder (s : State) (r : Nat) (rn : Run) (o : Order) : State :=
  let s := setOrder s o.number (fun o => { o with state := .running, awaiting := false, code := 0 })
  let s := setRun s r (fun rn => { rn with fault := none })
  let left (k : Nat) : Bool := match rn.trip with
    | some t => (match guardOf rn.image o.entry k with | some g => g.layerTag == t.layerTag | none => false)
    | none => false
  let s := rn.issued.foldl (fun s i =>
    let owed := i.units.filter (fun u => !i.committed.contains u)
    if (!i.op.micro && i.op.opcode == 0x81) || left i.instr then s
    else
      let s := placeUnits s r rn.image { i with units := owed }
      if owed.isEmpty && i.closing && !i.committed.contains (closeIndex i.tiling) then
        setFrame s (i.op.imm1.toNat % 2 ^ 28 / 2 ^ 25) (fun f => { f with tally := f.tally ++ [{ instr := i.instr, unit := closeIndex i.tiling }] })
      else s) s
  finishOrder s r

/-- RESOLVE with an action that its row names: the checks of R473, then `act` on the order. -/
def resolveRow (s : State) (n : Nat) (action : Nat) (act : State → Pending → Order → State) : State :=
  onRequest s n (isAction 0x0402 8 action [1, 2, 3]) (fun s p =>
    let number := BitVec.ofNat 64 (field p.body 0 8)
    if field p.body 8 1 != action then reject s p 0x0502
    else
      match findOrder s number with
      | none => reject s p 0x0520
      | some o => if o.state == .partial_ && o.awaiting then act s p o else reject s p 0x02F1)

/-- Is the run of an order resident and free for it? -/
def readyRun (s : State) (o : Order) : Option Run :=
  match runOf s o with
  | some rn => if rn.ready && (rn.order == none || rn.order == some o.number) then some rn else none
  | none => none

/-- RESOLVE_RESUME (R457). -/
def execResolveResume (n : Fin 16) (s : State) : Host.Outcome State Fault Refusal :=
  clocked s (resolveRow s n 1 (fun s p o =>
    match readyRun s o with
    | none => reject s p 0x02F1
    | some rn =>
      let s := reply s p 0 []
      if rn.order == some o.number then resumeOrder s o.run rn o else replayOrder s o.run rn o false))

/-- RESOLVE_RESTART (R466, R467). -/
def execResolveRestart (n : Fin 16) (s : State) : Host.Outcome State Fault Refusal :=
  clocked s (resolveRow s n 2 (fun s p o =>
    match readyRun s o with
    | none => reject s p 0x02F1
    | some rn =>
      if restartable (runImage s rn) rn.image o.entry then
        replayOrder (clearRunOrder (reply s p 0 []) o.run) o.run rn o true
      else reject s p 0x02F2))

/-- RESOLVE_ABANDON (R457): ABANDON with the order's fault code. -/
def execResolveAbandon (n : Fin 16) (s : State) : Host.Outcome State Fault Refusal :=
  clocked s (resolveRow s n 3 (fun s p o => abandonOrder (reply s p 0 []) o.number o.code))

/-! ### The journal's own records (R339, R460) -/

/-- PROGRESS_RECORD (R460): for every issued instruction whose units write a stack or send, one record of the units
committed since the last. -/
def execProgressRecord (s : State) : Host.Outcome State Fault Refusal :=
  clocked s ((List.range 8).foldl (fun s r =>
    match getRun s r with
    | none => s
    | some rn =>
      match orderOf s rn with
      | none => s
      | some o =>
        (rn.issued.filter (fun i => !i.op.micro && [0x72, 0x73, 0x75, 0x80].contains i.op.opcode)).foldl (fun s i =>
          let p := progressOf o i.instr
          let fresh := p.live.filter (fun u => !p.durable.contains u)
          if p.done || fresh.isEmpty then s
          else
            let lo := fresh.foldl min (fresh.headD 0)
            let hi := fresh.foldl max 0
            let s := progressRecord s r i.instr lo (hi + 1 - lo) fresh
            setProgress s r i.instr (fun p => { p with durable := p.durable ++ fresh, recordedAt := s.wall })) s) s)

/-- DELIVERED_BATCH (R339). -/
def execDeliveredBatch (s : State) : Host.Outcome State Fault Refusal := clocked s (writeDelivered s)

/-- JOURNAL_CHECKPOINT (R339): every 1 ms; the one after 4,096 records comes by itself. -/
def execJournalCheckpoint (s : State) : Host.Outcome State Fault Refusal :=
  clocked s (if !s.journal.scanned then s else checkpoint s)

/-- SOURCE_TABLE_EXPIRY (R330): 60 s after the last acknowledgement, with no completion unacknowledged. -/
def execSourceTableExpiry (source : BitVec 22) (s : State) : Host.Outcome State Fault Refusal :=
  clocked s (
    if s.keeper.orders.any (fun o => orderSource o.number == source && o.notice < 2) || s.keeper.accept.any (fun j => j.req.source == source) then s
    else setKeeper s (fun k => { k with sources := k.sources.filter (fun e => e.source != source) }))

/-! ### The scan after a reset (R340, R416, R466) -/

/-- The copies of a record that are complete and pass their CRC-32C, in the stacks of the active pair; `failed` names the
records and stacks whose copies do not (R340). -/
def wholeCopies (s : State) (failed : List (Nat × Nat)) (r : JRecord) : List Nat :=
  r.copies.filter (fun m => (pairStacks s.journal.activePair).contains m && stackUp s m && !failed.contains (r.lsn, m))

/-- The records that are read, in lsn order: from the head that the last CHECKPOINT that counts names, up to the first lsn
that counts in neither stack of the active pair (R340). -/
def countingRecords (s : State) (failed : List (Nat × Nat)) : List JRecord :=
  let counts (r : JRecord) : Bool := !(wholeCopies s failed r).isEmpty
  let from_ : List JRecord := match (s.journal.records.filter (fun r => r.kind == 9 && counts r)).getLast? with
    | some c => s.journal.records.filter (fun (r : JRecord) => field c.body 0 8 ≤ r.lsn)
    | none => s.journal.records
  from_.takeWhile counts

/-- Are the journal stacks readable: each of the active pair is up, or has failed, and one is up? -/
def journalReadable (s : State) : Bool :=
  let pair := pairStacks s.journal.activePair
  pair.any (stackUp s) && pair.all (fun m => stackUp s m || (getMemPort s m).state == 4#3)

/-- A set of units recorded for an instruction. -/
def recordedUnits (b : Bytes) : List Nat :=
  let first := field b 8 8
  let count := field b 16 8
  (maskList count (field b 24 (ceilDiv count 8))).map (· + first)

/-- What one record tells about its order (Table 10.18). -/
def replayRecord (r : JRecord) (o : Order) : Order :=
  let b := r.body
  let put (k : Nat) (f : Progress → Progress) : List Progress := o.progress.filter (fun p => p.instr != k) ++ [f (progressOf o k)]
  match r.kind with
  | 2 => { o with state := .running, startGens := (List.range 16).map (fun i => BitVec.ofNat 32 (field b (4 * i) 4)) }
  | 3 => { o with fenceGens := o.fenceGens.filter (fun f => f.1 != field b 0 4)
                    ++ [(field b 0 4, (List.range 16).map (fun i => BitVec.ofNat 32 (field b (8 + 4 * i) 4)))] }
  | 4 => { o with levels := assocSet o.levels (field b 0 2) (field b 2 1)
                  progress := o.progress.map (fun p => if field b 4 4 ≤ p.instr then { p with live := [], durable := [], done := false } else p) }
  | 5 =>
    if field b 16 8 == 0 then { o with progress := put (field b 0 4) (fun p => { p with done := true }) }
    else { o with progress := put (field b 0 4) (fun p =>
      { p with durable := p.durable ++ (recordedUnits b).filter (fun u => !p.durable.contains u) }) }
  | 6 => { o with state := .complete, endStamp := field b 0 8 * 65536 + field b 8 2 }
  | 7 => { o with state := .abandoned, code := BitVec.ofNat 16 (field b 0 2), endStamp := field b 8 8 * 65536 + field b 16 2 }
  | _ => o

/-- The orders that a journal holds. -/
def rebuildOrders (rs : List JRecord) : List Order :=
  rs.foldl (fun os r =>
    if r.kind == 1 then os.filter (fun o => o.number != r.order) ++ [{ orderFrom r.order r.body r.run r.stamp with fromJournal := true }]
    else if r.kind == 8 then
      let acks := (List.range (field r.body 0 4)).map (fun i => BitVec.ofNat 64 (field r.body (8 + 8 * i) 8))
      os.map (fun o => if acks.contains o.number then { o with notice := 3 } else o)
    else os.map (fun o => if o.number == r.order then replayRecord r o else o)) []

/-- The source table that a journal holds: the last CHECKPOINT's, and the acceptances since. -/
def rebuildSources (wall : Nat) (rs : List JRecord) : List SourceEntry :=
  rs.foldl (fun es r =>
    let put (es : List SourceEntry) (src : BitVec 22) (last : Nat) : List SourceEntry :=
      es.filter (fun e => e.source != src) ++ [{ source := src, last := last, ackedAt := wall }]
    if r.kind == 9 then
      (List.range (field r.body 8 4)).map (fun i =>
        { source := BitVec.ofNat 22 (field r.body (16 + 16 * i) 4), last := field r.body (24 + 16 * i) 8, ackedAt := wall })
    else if r.kind == 1 then put es r.source (orderSeq r.order)
    else es) []

/-- The runs whose images stood loaded: run, slot, image. -/
def journaledRuns (rs : List JRecord) : List (Nat × Nat × Nat) :=
  rs.foldl (fun l r =>
    if r.kind != 10 then l
    else
      let rest := l.filter (fun x => x.1 != r.run)
      if field r.body 0 1 == 1 then rest ++ [(r.run, field r.body 1 1, field r.body 8 8)] else rest) []

/-- A journaled image is loaded again into its run, under the checks of an image but without new claims on ports. -/
def reloadImage (s : State) (j : Nat × Nat × Nat) : State :=
  let (r, slot, id) := j
  let rd := imageByte s slot
  let im := parseImage rd
  if (getRun s r).isSome || im.imageId != id
      || (imageRefusal rd (Config.pellisSupported s.life.fwRelease) (imageSigOk s false) (userEnd s)).isSome then s
  else
    let s := claimRun s r slot im
    match getRun s r with
    | some rn => (settleRun s r rn).1
    | none => s

/-- RECOVERY_AFTER_RESET (R453, R466): an order that was running becomes partial with 0x0293 and, if its entry point is
restartable, runs again at once. -/
def recoverOrder (s : State) (o : Order) : State :=
  if o.state != .running then s
  else
    let s := setOrder s o.number (fun o => { o with state := .partial_, code := 0x0293, awaiting := true })
    match findOrder s o.number with
    | none => s
    | some o =>
      let again := (readyRun s o).filter (fun rn => restartable (runImage s rn) rn.image o.entry)
      let s := faultRecord s { code := 0x0293, domain := 0, inst := 0xFF, phase := 1, run := o.run, order := o.number, instr := 0xFFFFFFFF
                               redone := 0, unit := 0, duration := 0 } (if again.isSome then none else some o.number)
      match again with
      | some rn => replayOrder s o.run rn o true
      | none => s

/-- The highest time found in the journal and in the telemetry log (R416), in 2^−16 ns. -/
def highestTime (s : State) (rs : List JRecord) : Nat :=
  let logs := s.telem.records.map (fun x => field x.2 0 8 * 65536 + field x.2 8 2)
  (rs.map JRecord.stamp ++ logs).foldl max 0

/-- JOURNAL_SCAN (R340, R416, R466): once the stacks of the active pair are readable in state boot. A record that counts is
written into a stack where it failed; those that do not count are overwritten. -/
def scanJournal (s : State) (failed : List (Nat × Nat)) : State :=
  let up := (pairStacks s.journal.activePair).filter (stackUp s)
  if s.keeper.state != .boot || s.journal.scanned || !journalReadable s then s
  else
    let rs := countingRecords s failed
    let head := match rs.head? with | some r => r.lsn | none => s.journal.nextLsn
    let next := match rs.getLast? with | some r => r.lsn + 1 | none => s.journal.nextLsn
    let top := highestTime s rs
    let s := setJournal s (fun j =>
      { j with records := rs.map (fun r => { r with copies := up ++ r.copies.filter (fun m => !up.contains m) }), nextLsn := next, head := head
               nextPos := match rs.getLast? with | some r => (r.pos + recordLength r.body.length) % 2 ^ 30 | none => j.nextPos
               scanned := true, copying := up.length == 1, checkpointAt := s.wall })
    let s := setTime s (fun t =>
      { t with now := if top != 0 && t.now < top + 1000 * 65536 then top + 1000 * 65536 else t.now, lastStamp := top, scanAt := some s.wall })
    let s := { s with draws := s.draws + 1 }
    let s := setKeeper s (fun k =>
      { k with state := .recover, orders := rebuildOrders rs, sources := rebuildSources s.wall rs
               lastGen := (k.archive.map ArchiveEntry.gen).foldl (fun a b => if a.toNat < b.toNat then b else a) k.lastGen })
    let s := (journaledRuns rs).foldl reloadImage s
    enterReady (s.keeper.orders.foldl recoverOrder s)

/-- The copies that fail are a free value: nothing in the state spoils a record's bytes. -/
def execJournalScan (s : State) : Host.Outcome State Fault Refusal := clocked s (scanJournal s (Config.failedCopies s.draws))

end Sys2Proof.Machine
end

