-- ==== Sys2Proof/Machine/Tsp.lean ====
section
/-!
DEFINITION. Partner ports: the packets received, the port's faults and its training (R343 to R355).
-/

namespace Sys2Proof.Machine

/-! ### The port's fault domain (Table 14.1) -/

/-- A partner port leaves service for its training: packets on the way are lost and their units redone, partly
landed tiles stay uncapped, and its rings open again with the port (R344, Table 14.1). -/
def portDown (s : State) (p : Nat) (state : BitVec 3) : State :=
  let q := getPartner s p
  let s := setPartner s p (fun q =>
    { q with state := state, modules := 0, rate := 0, unacked := [], waiting := [], rings := []
             reopened := q.reopened ++ (q.rings.map PartnerRing.id).filter (fun i => !q.reopened.contains i) })
  let s := (List.range 32).foldl (fun s g =>
    ((getForager s g).moves.filter (fun m => 0 < m.packets && (match (getRun s m.run).bind (fun rn => findIssued rn m.ref.instr) with
      | some i => i.op.opcode == 0x73 && i.op.imm0.toNat % 8 == p | none => false))).foldl (fun s m => interruptUnit (dropMove s g m) m.run m.ref) s) s
  match q.run with
  | some r => setRun s r (fun rn => { rn with rings := rn.rings.map (fun g =>
      if g.decl.producerKind == 2 && g.decl.producerIndex == p then { g with partials := [], credits := [], opened := false } else g) })
  | none => s

/-- A partner port is trained again on request (Table 15.7). -/
def retrainPartner (s : State) (p : Nat) : State := portDown (beginRecovery s 7 p 0) p 1

/-- A fault of a partner port (R344, R351, R352): the record of its detection, the fault of the holding run, and the
recovery of Table 14.1. It is contained when the order that uses the port has stopped; where no order
stops, at once. -/
def portFault (s : State) (p : Nat) (state : BitVec 3) (code : BitVec 16) : State :=
  let r := (getPartner s p).run
  let s := match r with
    | some r => runFault s r code 0xFFFFFFFF 0 7 p
    | none => faultRecord s { code := code, domain := 7, inst := p, phase := 1, run := 0xFF, order := 0, instr := 0xFFFFFFFF
                              redone := 0, unit := 0, duration := 0 } none
  let s := beginRecovery s 7 p code
  let stops := faultClass code == 3 && (match r with | some r => runOrder s r != 0 | none => false)
  portDown (if stops then s else phaseRecord s 7 p 2 code) p state

/-- PARTNER_LINK_LOSS (R344): the port fails, and a run that holds it faults. -/
def execPartnerLinkLoss (p : Fin 8) (s : State) : Host.Outcome State Fault Refusal :=
  clocked s (if portUp (getPartner s p) then portFault s p 4 0x0410 else s)

/-! ### Reception -/

/-- A packet dropped and counted, with a bit of PRT_ERR (R351, R352); `code` faults the holding run. -/
def tspDrop (s : State) (p bitNo : Nat) (code : Option (BitVec 16)) : State :=
  let s := setPartner s p (fun q => { q with err := q.err ||| BitVec.ofNat 6 (2 ^ bitNo), errCount := satAdd q.errCount 1 })
  match code with
  | some c => if (getPartner s p).run.isSome then portFault s p 1 c else s
  | none => s

/-- The payload length that a type prescribes (Table 11.3). -/
def tspLength (type len : Nat) : Bool :=
  match type with
  | 1 => 64 ≤ len && len ≤ 4096 && len % 64 == 0
  | 2 => len == 16
  | 3 => len == 256
  | 6 => len == 8
  | _ => len == 0

/-- Has a packet a reserved type or a nonzero reserved field (R345, R346)? -/
def tspReserved (k : Bytes) : Bool :=
  let t := field k 0 1
  let flags := field k 2 2
  t == 0 || t > 8 || flags >>> 2 != 0 || field k 8 8 >>> 40 != 0 || field k 26 2 != 0 || field k 1 1 > 63 || ((t == 3 || t == 4 || t == 5) && field k 1 1 != 0)
    || (t != 1 && flags != 0) || (flags % 4 != 3 && field k 20 4 != 0)
    || (t == 6 && field k 38 2 != 0)

/-- Has a packet a length that its type does not prescribe (R346)? -/
def tspLengthBad (k : Bytes) : Bool := field k 4 4 + 32 != k.length || !tspLength (field k 0 1) (field k 4 4)

/-- Does the packet check hold? -/
def tspCheck (k : Bytes) : Bool := (crc32c (zeroField k 28 4)).toNat == field k 28 4

/-- Buffer units: a packet takes units that the partner holds, and they are freed as it drains; a NOP's
units never cause a NOP (R349). -/
def tspDrain (s : State) (p : Nat) (k : Bytes) : State :=
  let c := tspCost (k.length - 32)
  setPartner s p (fun q =>
    if field k 0 1 == 8 then { q with rxFree := q.rxFree - c, owedNop := q.owedNop + c }
    else { q with rxFree := q.rxFree - c, owed := q.owed + c })

/-- The buffer units that a packet returns: packets that waited for them leave (R349). -/
def takeUnits (s : State) (p : Nat) (k : Bytes) : State :=
  tspPump (setPartner s p (fun q => { q with txUnits := q.txUnits + field k 24 2 })) p

/-- A packet of type `t` from partner `p`: what is common to every type, then `f` (R345, R346, R349, R351,
R352, R355: a MAILBOX of another length than 256 faults no run). A packet of another valid type belongs to that type's command and has no effect here. -/
def tspReceive (s : State) (p t : Nat) (k : Bytes) (f : State → State) : State :=
  let q := getPartner s p
  let ty := field k 0 1
  if !portUp q || (1 ≤ ty && ty ≤ 8 && ty != t) then s
  else if q.rxFree < tspCost (k.length - 32) then tspDrop s p 5 (some 0x0411)
  else
    let s := tspDrain s p k
    if tspReserved k || tspLengthBad k then tspDrop s p 1 (if tspReserved k || ty != 3 then some 0x0411 else none)
    else if ty == 1 then f s
    else if !tspCheck k then tspDrop s p 2 (if ty == 3 || ty == 4 || ty == 5 then none else some 0x0412)
    else f (takeUnits s p k)

/-- The receive ring that a ring id names on a port: its run and its index (R347). -/
def receiveRing (s : State) (p id : Nat) : Option (Nat × Nat) :=
  match (getPartner s p).run with
  | none => none
  | some r =>
    match getRun s r with
    | none => none
    | some rn =>
      match (receiveRings rn.image p)[id]? with
      | some g => if (nth rn.rings g).opened then some (r, g) else none
      | none => none

/-- A DATA packet landed (R350 to R352). -/
def tspLand (s : State) (p : Nat) (k : Bytes) : State :=
  match receiveRing s p (field k 1 1) with
  | none => tspDrop (if tspCheck k then takeUnits s p k else s) p 4 none
  | some (r, g) =>
    let rg := getRing s r g
    let q := field k 8 5
    let off := field k 16 4
    let pay := k.drop 32
    let flags := field k 2 2
    let part := rg.partials.find? (fun x => x.seq == q)
    let next := match part with | some x => x.next | none => 0
    if !rg.credits.contains q then tspDrop s p 0 (some 0x0411)
    else if off != next || off + pay.length > rg.decl.slotSize then tspDrop s p 1 (some 0x0411)
    else
      let s := writeComb s (bytesAt (slotBase rg q + off) pay)
      if !tspCheck k then
        tspDrop (setRing s r g (fun rg => { rg with partials := rg.partials.filter (fun x => x.seq != q) })) p 2 (some 0x0412)
      else
        let s := takeUnits s p k
        let crc := crcMore (match part with | some x => x.crc | none => 0) pay
        if !bit flags 0 then
          setRing s r g (fun rg =>
            { rg with partials := { seq := q, next := off + pay.length, crc := crc } :: rg.partials.filter (fun x => x.seq != q) })
        else
          let s := setRing s r g (fun rg => { rg with partials := rg.partials.filter (fun x => x.seq != q) })
          if bit flags 1 && crc.toNat != field k 20 4 then tspDrop s p 3 (some 0x0412)
          else
            let s := setRing s r g (fun rg => { rg with credits := rg.credits.filter (· != q) })
            fillSlot s r g q (some crc)

/-- TSP_DATA (R350). -/
def execTspData (p : Fin 8) (k : List (BitVec 8)) (s : State) : Host.Outcome State Fault Refusal :=
  clocked s (tspReceive s p 1 k (fun s => tspLand s p k))

/-- TSP_CREDIT (R348, R353): sequences of a partner ring; after a repeated RING_OPEN the next slot sent
carries the first of them. -/
def execTspCredit (p : Fin 8) (k : List (BitVec 8)) (s : State) : Host.Outcome State Fault Refusal :=
  clocked s (tspReceive s p 2 k (fun s =>
    let id := field k 1 1
    if !(getPartner s p).rings.any (fun g => g.id == id) then tspDrop s p 4 none
    else
      let base := field k 32 8
      let qs := (maskList 64 (field k 40 8)).map (fun i => base + i)
      setPartnerRings s p (fun gs => gs.map (fun g =>
        if g.id != id then g
        else
          { g with credits := g.credits ++ qs.filter (fun q => !g.credits.contains q)
                   nextSeq := if g.fresh then qs.headD g.nextSeq else g.nextSeq
                   fresh := g.fresh && qs.isEmpty }))))

/-- TSP_RING_OPEN (R353): slots, and sequences from 0 or, for a ring opened before, from the first credit. -/
def execTspRingOpen (p : Fin 8) (k : List (BitVec 8)) (s : State) : Host.Outcome State Fault Refusal :=
  clocked s (tspReceive s p 6 k (fun s =>
    let id := field k 1 1
    let again := (getPartner s p).rings.any (fun g => g.id == id) || (getPartner s p).reopened.contains id
    let next := match (getPartner s p).rings.find? (fun g => g.id == id) with | some g => g.nextSeq | none => 0
    let s := setPartner s p (fun q => { q with reopened := q.reopened.filter (· != id) })
    setPartnerRings s p (fun gs =>
      gs.filter (fun g => g.id != id) ++
        [{ id := id, slotSize := field k 32 4, slotCount := field k 36 2, credits := [], nextSeq := next, fresh := again }])))

/-- TSP_RING_CLOSE (R348): the partner ring is closed and its credits end. -/
def execTspRingClose (p : Fin 8) (k : List (BitVec 8)) (s : State) : Host.Outcome State Fault Refusal :=
  clocked s (tspReceive s p 7 k (fun s =>
    let id := field k 1 1
    let s := setPartner s p (fun q => { q with reopened := q.reopened.filter (· != id) })
    if !(getPartner s p).rings.any (fun g => g.id == id) then s
    else setPartnerRings s p (fun gs => gs.filter (fun g => g.id != id))))

/-- TSP_NOP (R349): it returns units only. -/
def execTspNop (p : Fin 8) (k : List (BitVec 8)) (s : State) : Host.Outcome State Fault Refusal := clocked s (tspReceive s p 8 k id)

/-- TSP_MAILBOX (R355): the message is written and posted, or answered with MBX_BUSY. -/
def execTspMailbox (p : Fin 8) (k : List (BitVec 8)) (s : State) : Host.Outcome State Fault Refusal :=
  clocked s (tspReceive s p 3 k (fun s =>
    let n := p.val + 1
    if (getMailbox s n).inFull then tspSend s p 5 0 0 0 0 0 []
    else slotPost (slotWrite s n 0 (k.drop 32)) n))

/-- TSP_MBX_ACK (R355): it clears out_full; while out_full is 0 it is a violation that faults no run. -/
def execTspMbxAck (p : Fin 8) (k : List (BitVec 8)) (s : State) : Host.Outcome State Fault Refusal :=
  clocked s (tspReceive s p 4 k (fun s =>
    if (getMailbox s (p.val + 1)).outFull then clearOut s (p.val + 1) else tspDrop s p 1 none))

/-- TSP_MBX_BUSY (R355): only Aethesh sends it, so it is dropped and counted. -/
def execTspMbxBusy (p : Fin 8) (k : List (BitVec 8)) (s : State) : Host.Outcome State Fault Refusal :=
  clocked s (tspReceive s p 5 k (fun s => tspDrop s p 1 none))

/-- TSP_NOP_SEND (R349): the port returns units that packets other than NOPs have freed. -/
def execTspNopSend (p : Fin 8) (s : State) : Host.Outcome State Fault Refusal :=
  clocked s (if (getPartner s p).owed == 0 || !(getPartner s p).waiting.isEmpty then s else tspSend s p 8 0 0 0 0 0 [])

/-- PARTNER_TRAINING_DONE (R342, R343): up at 32 GT/s on four modules, degraded on fewer or at the lower
rate, absent when the partner offers no combination. Both buffers start empty, the rings of a run that
holds the port are opened (again), and a message that stands in the outbound slot is sent (again) (R355). -/
def execPartnerTrainingDone (p : Fin 8) (answered : Bool) (modules : BitVec 4) (rate32 : Bool) (s : State) :
    Host.Outcome State Fault Refusal :=
  clocked s (
    let q := getPartner s p
    let ok := answered && (modules == 15#4 || modules == 3#4)
    if portUp q || !portsOpen s then s
    else if !ok then setPartner s p (fun q => { q with state := 0, modules := 0, rate := 0 })
    else
      let s := setPartner s p (fun q =>
        { q with state := if modules == 15#4 && rate32 then 2 else 3, modules := modules, rate := if rate32 then 2 else 1
                 rxFree := 256, owed := 0, owedNop := 0, txUnits := 256, unacked := [], waiting := [], rings := [] })
      let s := match q.run with
        | some r =>
          match getRun s r with
          | some rn => if rn.ready then (receiveRings rn.image p).zipIdx.foldl (fun s gk => tspOpen s r p gk.2 gk.1) s else s
          | none => s
        | none => s
      let s := if (getMailbox s (p + 1)).outFull then tspSend s p 3 0 0 0 0 0 (getMailbox s (p + 1)).outbound else s
      endRecovery s 7 p)

end Sys2Proof.Machine
end

