-- ==== Sys2Proof/Machine/Recovery.lean ====
section
/-!
DEFINITION. The recoveries of frames, rings, memory stacks and Keeper pairs (Table 14.1, R452, R456, R461, R468), the
journal's stacks (R337, R341, R469, R494), the stack rows (R356, R362, R475) and the requests that begin a recovery
(SERVICE, R493; RESET of class 2 and 3, R476).
-/

namespace Sys2Proof.Machine

/-! ### Rings (R461) -/

/-- The lowest sequence whose consuming unit has not committed. -/
def ringLow (g : Ring) : Nat :=
  ((List.range (g.consumed.length + 1)).find? (fun n => !g.consumed.contains n)).getD 0

/-- A ring's state after its rebuild: every slot accepts the first sequence from `low` up that it is to hold, and committed
sequences pass. -/
def rebuiltRing (g : Ring) : Ring :=
  let low := ringLow g
  let n := max 1 g.decl.slotCount
  { g with tokens := (List.range g.decl.slotCount).map (fun k =>
             { capped := false, lap := lapOf n (low + (k + n - low % n) % n), crc := none })
           prodSeq := low, consSeq := low, passes := g.consumed.filter (fun q => low ≤ q), partials := [], credits := [] }

/-- Ring sequences that a unit of an instruction writes or reads (R93). -/
def unitSeqs (i : Issued) (g u : Nat) : List Nat :=
  if i.op.micro || isTiled i.op then (unitTiles i.op i.tiling u).map (nth i.ringBase g + ·) else [nth i.ringBase g + u]

/-- Units of a run's instructions that workers and foragers hold and that `p` names go back to their replay queues; rings other
than `g` whose slots such a unit has passed are delivered again too (R461). -/
def dropHeldWhere (s : State) (r g : Nat) (p : UnitRef → Bool) : State :=
  let again (s : State) (ref : UnitRef) (seqs : List (Nat × Nat)) : State :=
    (seqs.filter (fun q => q.1 != g)).foldl (fun s q => askRebuild s r q.1) (redoUnit s r ref)
  let s := (List.range 32).foldl (fun s x =>
    let mine := (getForager s x).moves.filter (fun m => m.run == r && p m.ref)
    if mine.isEmpty then s
    else mine.foldl (fun s m => again s m.ref m.seqs) (setForager s x (fun y => { y with moves := y.moves.filter (fun m => !mine.contains m) }))) s
  (List.range 68).foldl (fun s w =>
    let mine := (getWorker s w).held.filter (fun h => h.run == r && !h.copyOut && p h.ref)
    if mine.isEmpty then s
    else
      mine.foldl (fun s h => again s h.ref h.seqs)
        (setWorker s w (fun x => { x with held := x.held.filter (fun h => !mine.contains h), wait := none, rowState := [] }))) s

/-- The producer delivers again from `low` (R461): a chain or a forager runs its taken units again, a partner is sent
RING_OPEN and credits, a link's session ends and RESUME names `low`. -/
def redeliver (s : State) (r g low : Nat) : State :=
  match getRun s r with
  | none => s
  | some rn =>
    let d := (nth rn.rings g).decl
    if d.producerKind == 2 then
      match indexWhere (receiveRings rn.image d.producerIndex) (· == g) with
      | some id => tspOpen s r d.producerIndex id g
      | none => s
    else if d.producerKind == 3 then
      let armed := rn.issued.flatMap (fun i =>
        if !i.op.micro && i.op.opcode == 0x81 && ringOf rn.image (nth i.op.descs 0) == some g then
          i.units.map (fun u => ({ seq := nth i.ringBase g + u, instr := i.instr, chunk := u, plan := planOf i.op } : Armed))
        else [])
      retrainLink (setRing s r g (fun x =>
        { x with armed := x.armed ++ armed.filter (fun a => low ≤ a.seq && !x.armed.any (fun b => b.seq == a.seq)) })) d.producerIndex
    else
      rn.issued.foldl (fun s i =>
        if !(producedRings rn.image i.op).contains g then s
        else
          let again := i.units.filter (fun u => (unitSeqs i g u).any (fun q => low ≤ q))
          let queued (u : Nat) : Bool := (runFrames s r).any (fun f =>
            let x := getFrame s f
            (x.tally ++ x.moves).contains { instr := i.instr, unit := u })
          (again.filter (fun u => !queued u)).foldl (fun s u => redoUnit s r { instr := i.instr, unit := u }) s) s

/-- The rebuild of a ring. -/
def rebuildRing (s : State) (r g : Nat) : State :=
  match getRun s r with
  | none => s
  | some rn =>
    let uses (u : UnitRef) : Bool := match findIssued rn u.instr with
      | some i => (consumedRings rn.image i.op ++ producedRings rn.image i.op).contains g | none => false
    let s := dropHeldWhere s r g uses
    let low := ringLow (nth rn.rings g)
    redeliver (setRing s r g rebuiltRing) r g low

/-! ### Frames (R452, R456, R468) -/

/-- The recovery of a frame has ended; when it was the last of its run, the order goes on. -/
def endFrame (s : State) (f : Nat) : State :=
  let s := endRecovery (setFrame s f (fun x => { x with recovering := false })) 5 f
  match (getFrame s f).run with
  | none => s
  | some r =>
    if (runFrames s r).any (fun g => (getFrame s g).recovering) then s
    else
      let s := setRun s r (fun rn => { rn with recovering := false })
      let s := setOrder s (runOrder s r) (fun o => if o.state == .partial_ && !o.awaiting then { o with state := .running, code := 0 } else o)
      finishOrder s r

/-- A second fault of a frame under recovery takes it out of service (R468). -/
def frameOut (s : State) (f : Nat) : State :=
  let s := faultRecord s { code := 0, domain := 5, inst := f, phase := 1, run := partRun s 5 f, order := runOrder s (partRun s 5 f)
                           instr := 0xFFFFFFFF, redone := 0, unit := 0, duration := 0 } none
  let s := match (getFrame s f).run with
    | some r => runFault s r 0x0290 0xFFFFFFFF 0 5 f (phase := 4)
    | none => phaseRecord s 5 f 4 0x0290
  let s := phaseRecord s 5 f 5 0x0290
  let s := setKeeper s (fun k => { k with recoveries := k.recoveries.filter (fun x => !(x.domain == 5 && x.inst == f)) })
  let s := setFrame s f (fun x => { x with outOfService := true, recovering := false, ungated := false, gateRequested := false, rebuild := [] })
  let s := (frameWorkers s f).foldl (fun s w => setWorker s w (fun x => { x with admission := .notAdmitted })) s
  match (getFrame s f).run with
  | none => s
  | some r =>
    let alone := !(runFrames s r).any (fun g => (getFrame s g).recovering)
    let s := setRun s r (fun rn =>
      { rn with recovering := if alone then false else rn.recovering, paused := rn.paused || (runFrames s r).all (fun g => !(getFrame s g).ungated) })
    setOrder s (runOrder s r) (fun o => if o.state == .partial_ && !o.awaiting then { o with state := .running } else o)

/-- The reset of a frame (Table 15.1): copy-outs are drained first (R459), open units are placed in the replay queues,
workers and foragers are reset, and the rings that lie in the frame wait for their rebuild. -/
def frameReset (s : State) (f : Nat) (code : BitVec 16) : State :=
  let r := (getFrame s f).run
  let order := match r with | some r => if runOrder s r == 0 then none else some (runOrder s r) | none => none
  let s := setFrame (beginRecovery s 5 f code) f (fun x => { x with recovering := true, gateRequested := false })
  let s := faultRecord s { code := code, domain := 5, inst := f, phase := 1, run := r.getD 0xFF, order := order.getD 0, instr := 0xFFFFFFFF
                           redone := 0, unit := 0, duration := 0 } order
  let s := match r with
    | some r =>
      setOrder (setRun s r (fun rn => { rn with recovering := true })) (runOrder s r) (fun o =>
        if o.state == .running then { o with state := .partial_, code := code } else o)
    | none => s
  let ws := frameWorkers s f
  let s := ws.foldl drainSlot s
  let s := ws.foldl (fun s w => (getWorker s w).held.foldl (fun s h => interruptUnit s h.run h.ref) s) s
  let s := ws.foldl (fun s w => setWorker s w (fun x =>
    let y := { wipeWorker x with held := [], wait := none }
    if x.admission == .admitted || x.admission == .waiting || x.admission == .scrubbing then startAdmission y else y)) s
  let s := ((List.range 4).map (· + 4 * f)).foldl (fun s g => setForager (redoMoves s g) g (fun x => { x with faulted := false })) s
  let rings := match r.bind (getRun s) with
    | some rn => (List.range rn.rings.length).filter (fun g => (nth rn.rings g).decl.base / 2 ^ 25 == f)
    | none => []
  let s := phaseRecord (setFrame s f (fun x => { x with rebuild := rings })) 5 f 2 code
  if rings.isEmpty then endFrame s f else s

/-- FRAME_DOMAIN_RESET: a frame fault; during the frame's own recovery, a second one. -/
def execFrameDomainReset (f : Fin 8) (s : State) : Host.Outcome State Fault Refusal :=
  clocked s (
    if (getFrame s f).outOfService then s
    else if (getFrame s f).recovering then frameOut s f
    else frameReset s f 0)

/-- RING_REBUILD (R461): a ring that waits for it after a reset of its frame or an interrupted consumer unit. -/
def execRingRebuild (r : Fin 8) (ring : Nat) (s : State) : Host.Outcome State Fault Refusal :=
  clocked s (
    match (runFrames s r).find? (fun f => (getFrame s f).rebuild.contains ring) with
    | none => s
    | some f =>
      let s := setFrame (rebuildRing s r ring) f (fun x => { x with rebuild := x.rebuild.erase ring })
      if (getFrame s f).rebuild.isEmpty && (getFrame s f).recovering then endFrame s f else s)

/-! ### Keeper pairs (R37, R452, R477, R492) -/

/-- The fault of one Keeper pair: isolated; when it was the active one, the other becomes active (R37, R333). Its fault record
carries code 0x0000: DESIGN CHOICE, no rule names one, notes/assumptions/87.md. -/
def pairFault (s : State) (p : Nat) : State :=
  let s := faultRecord (beginRecovery s 9 p 0) { code := 0, domain := 9, inst := p, phase := 1, run := 0xFF, order := 0, instr := 0xFFFFFFFF
                                                 redone := 0, unit := 0, duration := 0 } none
  let switches := s.keeper.activePair == p
  let s := setKeeper s (fun k => { k with activePair := if k.activePair == p then 1 - p else k.activePair, standbyOk := false })
  let s := phaseRecord s 9 p 2 0
  if switches then resendNotices s else s

/-- KEEPER_PAIR_RESYNC: the failed pair is reset and rejoins as standby. -/
def execKeeperPairResync (s : State) : Host.Outcome State Fault Refusal :=
  clocked s (
    if s.keeper.standbyOk || s.life.activating.isSome then s
    else endRecovery (setKeeper s (fun k => { k with standbyOk := true })) 9 (1 - s.keeper.activePair))

/-! ### The journal's stacks (R337, R341, R469, R494) -/

/-- Accepted orders whose ACCEPT record lies in no stack that is up: they do not start while the die is in hold. -/
def markLost (s : State) : State :=
  let lost (n : BitVec 64) : Bool :=
    !s.journal.records.any (fun r => r.kind == 1 && r.order == n && r.copies.any (stackUp s))
  setKeeper s (fun k => { k with orders := k.orders.map (fun o => if o.state == .accepted then { o with acceptLost := lost o.number } else o) })

/-- Journal hold begins (R341). -/
def enterHold (s : State) : State :=
  let s := setJournal s (fun j => { j with hold := true, copying := false })
  let s := setKeeper s (fun k => if k.state == .ready || k.state == .recover then { k with state := .hold, code := 0x0517 } else k)
  markLost s

/-- Journal hold ends: two stacks hold the whole live journal. The Keeper enters ready, or recover before hive time is joined
(Table 10.2). -/
def leaveHold (s : State) : State :=
  let s := setJournal s (fun j => { j with hold := false })
  setKeeper s (fun k =>
    { k with state := if k.state == .hold then (if s.time.joined then .ready else .recover) else k.state, code := if k.state == .hold then 0 else k.code
             orders := k.orders.map (fun o => { o with acceptLost := false }) })

/-- A stack of the active pair has become unavailable: with `copy`, the copy of R337 begins; without the other stack, or
before a copy in progress has ended, the die enters hold. -/
def journalStackGone (s : State) (m : Nat) (copy : Bool) : State :=
  let mine := pairStacks s.journal.activePair
  if !mine.contains m || !s.journal.scanned then s
  else if mine.any (stackUp s) then (if copy then setJournal s (fun j => { j with copying := true }) else s)
  else if s.journal.hold then s else enterHold s

/-- In hold, both stacks of the active pair hold the whole live journal: the hold ends (R341). -/
def leaveIfWhole (s : State) : State :=
  let whole (m : Nat) : Bool := stackUp s m && s.journal.records.all (fun r => r.copies.contains m)
  if s.journal.hold && (pairStacks s.journal.activePair).all whole then leaveHold (setJournal s (fun j => { j with copying := false })) else s

/-- A stack of the active pair is up again: it is given the live records that another stack holds; in hold, its own are
then copied to the other pair, unless the pair is whole again. -/
def journalStackBack (s : State) (m : Nat) : State :=
  let mine := pairStacks s.journal.activePair
  if !mine.contains m || !s.journal.scanned then s
  else
    let s := setJournal s (fun j =>
      { j with records := j.records.map (fun r => if r.copies.any (fun c => c != m && stackUp s c) && !r.copies.contains m then { r with copies := r.copies ++ [m] } else r)
               copying := j.copying || j.hold })
    if s.journal.hold then leaveIfWhole (markLost s) else s

/-- JOURNAL_COPY_COMPLETE (R337, R469): the other pair holds the live records and becomes active; a hold ends. -/
def execJournalCopyComplete (s : State) : Host.Outcome State Fault Refusal :=
  clocked s (
    let old := pairStacks s.journal.activePair
    let other := pairStacks (1 - s.journal.activePair)
    if !s.journal.copying || !old.any (stackUp s) || !other.all (stackUp s) then s
    else
      let s := setJournal s (fun j =>
        { j with records := j.records.map (fun r => { r with copies := r.copies ++ other.filter (fun m => !r.copies.contains m) })
                 activePair := 1 - j.activePair, copying := false })
      let s := if s.journal.hold then leaveHold s else s
      (old.filter (fun m => (getMemPort s m).state == 4#3)).foldl (fun s m => endRecovery s 6 m) s)

/-- The orders whose ACCEPT record is lost are abandoned with 0x0294 (R469), and the journal goes on in the other pair; the
hold ends when both stacks of that pair hold it. -/
def giveUpLost (s : State) : State :=
  let s := (s.keeper.orders.filter (fun o => o.state == .accepted && o.acceptLost)).foldl (fun s o => abandonOrder s o.number 0x0294) s
  let s := setJournal s (fun j =>
    { j with records := (j.records.filter (fun r => r.copies.any (stackUp s))).map (fun r =>
               { r with copies := r.copies ++ (pairStacks (1 - j.activePair)).filter (fun m => stackUp s m && !r.copies.contains m) })
             activePair := 1 - j.activePair, copying := false })
  leaveIfWhole s

/-! ### Memory stacks (R356, R357, R362, R475, R494) -/

/-- Every move unit that addresses a stack and is in flight, with its forager. -/
def movesOn (s : State) (m : Nat) : List (Nat × Move × Issued) :=
  (List.range 32).flatMap (fun g => (getForager s g).moves.filterMap (fun mv =>
    match (getRun s mv.run).bind (fun rn => findIssued rn mv.ref.instr) with
    | some i => if onStack i.op 1 && moveStack i == m then some (g, mv, i) else none
    | none => none))

/-- STACK_FAILURE (R362, R469): the stack's state becomes failed. -/
def stackFailed (s : State) (m : Nat) : State :=
  let was := (getMemPort s m).state
  if was == 4#3 then s
  else
    let comes (x : Nat) : Bool := x != m && (getMemPort s x).state != 4#3
    let repairLost := s.journal.hold && (pairStacks s.journal.activePair).contains m && !(pairStacks s.journal.activePair).any comes
    let s := setMemPort s m (fun p => { p with state := 4, outstanding := 0, powerDown := false })
    let hit := movesOn s m
    let s := beginRecovery s 6 m 0x0403
    let s := hit.foldl (fun s x => runFault (dropMove s x.1 x.2.1) x.2.1.run 0x0403 x.2.2.instr x.2.1.ref.unit 6 m) s
    let s := if hit.isEmpty then
        faultRecord s { code := 0x0403, domain := 6, inst := m, phase := 1, run := 0xFF, order := 0, instr := 0xFFFFFFFF
                        redone := 0, unit := 0, duration := 0 } none
      else s
    let s := phaseRecord s 6 m 2 0x0403
    let s := if repairLost then giveUpLost s else journalStackGone s m true
    if s.journal.copying || s.journal.hold then s else endRecovery s 6 m

def execStackFailure (m : Fin 4) (s : State) : Host.Outcome State Fault Refusal := clocked s (stackFailed s m)

/-- A capacity and a height that the die takes (R357). -/
def stackShapeOk (capacity height : Nat) : Bool := 32 ≤ capacity && capacity ≤ 128 && capacity % 16 == 0 && (height == 12 || height == 16)

/-- The image store of one stack written over by that of another (R319). -/
def copyStore (s : State) (src dst : Nat) : State :=
  let u := userEnd s src
  let a (m : Nat) : Nat := m * 2 ^ 37 + u
  let cells := (s.stackMem.filter (fun c => a src ≤ c.1 && c.1 < a src + 2 ^ 34)).map (fun c => (c.1 - a src + a dst, c.2))
  setMemPort (writeStack { s with stackMem := memClear s.stackMem (a dst) (2 ^ 34) } cells) dst (fun p => { p with imageStale := false })

/-- What a stack that is up again has missed is copied from the other: the archive (R243), and the image store (R319):
DESIGN CHOICE, notes/assumptions/86.md. -/
def mirrorStack (s : State) (m : Nat) : State :=
  if m % 2 == 0 then
    setKeeper s (fun k => { k with archive := k.archive.map (fun e =>
      if !e.copies.contains m && e.copies.any (stackUp s) then { e with copies := e.copies ++ [m] } else e) })
  else
    let o := 4 - m
    let stale (x : Nat) : Bool := (getMemPort s x).imageStale
    if !stackUp s o || stale m == stale o then s
    else if stale m then copyStore s o m else copyStore s m o

/-- A stack is up again: for its copies and for the journal. -/
def stackBack (s : State) (m : Nat) : State := journalStackBack (mirrorStack s m) m

/-- STACK_TRAINING_DONE (R357). -/
def execStackTrainingDone (m : Fin 4) (trained : Bool) (capacity : BitVec 8) (height : BitVec 5) (spareLanes : BitVec 8) (s : State) :
    Host.Outcome State Fault Refusal :=
  clocked s (
    let p := getMemPort s m
    if !(p.state == 0#3 || p.state == 1#3) || !portsOpen s then s
    else if trained && stackShapeOk capacity.toNat height.toNat then
      let s := setMemPort s m (fun p => { p with state := 2, capacity := capacity, height := height, stackGiB := capacity, spareLeft := spareLanes, repaired := 0, marked := [] })
      endRecovery (stackBack s m) 6 m
    else stackFailed s m)

/-- STACK_REFRESH (R356, R475): it runs through every reset; its interval follows the temperature readout. -/
def execStackRefresh (m : Fin 4) (s : State) : Host.Outcome State Fault Refusal :=
  .next { setMemPort s m (fun p => { p with refreshes := p.refreshes + 1, temp := Config.stackTemp s.draws }) with draws := s.draws + 1 }

/-- STACK_RFM_REQUEST (R356). -/
def execStackRfmRequest (m : Fin 4) (s : State) : Host.Outcome State Fault Refusal :=
  clocked s (if stackUp s m then setMemPort s m (fun p => { p with rfm := satAdd p.rfm 1 }) else s)

/-- STACK_POWER_DOWN (R356): an idle port. -/
def execStackPowerDown (m : Fin 4) (s : State) : Host.Outcome State Fault Refusal :=
  clocked s (if stackUp s m && (getMemPort s m).outstanding == 0 then setMemPort s m (fun p => { p with powerDown := true }) else s)

/-- STACK_SUPPLY_LOSS (R475): what the stacks held is lost. -/
def execStackSupplyLoss (s : State) : Host.Outcome State Fault Refusal :=
  .next (
    let s := setKeeper (setJournal { s with stackMem := [], mems := s.mems.map (fun m => { m with imageStale := false }) } (fun j => { j with records := [] })) (fun k => { k with archive := [] })
    { s with telem := { s.telem with records := [] } })

/-- A lane repair begins (R494). -/
def beginRepair (s : State) (m : Nat) : State :=
  let s := setMemPort (beginRecovery s 6 m 0) m (fun p => { p with state := 3, repairSince := s.wall, powerDown := false })
  journalStackGone s m false

/-- LANE_REPAIR_COMPLETE (R494): marked lanes are assigned, and the stack counts again once it holds the records written
meanwhile. -/
def execLaneRepairComplete (m : Fin 4) (s : State) : Host.Outcome State Fault Refusal :=
  clocked s (
    if (getMemPort s m).state != 3#3 then s
    else
      let s := setMemPort s m (fun p =>
        let n := min p.marked.length p.spareLeft.toNat
        { p with state := 2, repaired := satAdd p.repaired n, spareLeft := BitVec.ofNat 8 (p.spareLeft.toNat - n)
                 marked := p.marked.drop n })
      endRecovery (stackBack s m) 6 m)

/-- LANE_REPAIR_TIMEOUT (R494): a repair that has not ended within 10 ms starts the copy of R337. -/
def execLaneRepairTimeout (m : Fin 4) (s : State) : Host.Outcome State Fault Refusal :=
  clocked s (if (getMemPort s m).state == 3#3 then journalStackGone s m true else s)

/-! ### SERVICE (R493, Table 15.7) -/

/-- A SERVICE of one action. -/
def service (s : State) (n action : Nat) (act : State → Pending → Nat → State) : State :=
  onRequest s n (isAction 0x0550 0 action [1, 2, 3, 4, 5]) (fun s p =>
    if field p.body 0 1 != action then reject s p 0x0502 else act s p (field p.body 1 1))

/-- A worker's number is given to its pair's spare once that has passed steps 1 to 4. -/
def substitute (s : State) (p : Pending) (w : Nat) (withdraw : Bool) : State :=
  if 63 < w || (getWorker s w).admission == .outOfService then reject s p 0x0742
  else if !spareFree s (spareOf w) || (getWorker s w).serves != some w then reject s p 0x0740
  else
    let s := setWorker (askSpare s w withdraw false) (64 + spareOf w) (fun x => if x.admission == .waiting then x else startAdmission x)
    reply s p 0 []

/-- SERVICE_SUBSTITUTE. -/
def execServiceSubstitute (n : Fin 16) (s : State) : Host.Outcome State Fault Refusal :=
  clocked s (service s n 1 (fun s p w => substitute s p w false))

/-- SERVICE_RELEASE: the replaced worker begins re-admission; IDENTITY_RETURN ends it. -/
def execServiceRelease (n : Fin 16) (s : State) : Host.Outcome State Fault Refusal :=
  clocked s (service s n 2 (fun s p k =>
    match if k < 4 then (getWorker s (64 + k)).serves else none with
    | none => reject s p 0x0742
    | some w =>
      let s := setKeeper s (fun kp => { kp with releases := if kp.releases.contains k then kp.releases else kp.releases ++ [k] })
      reply (setWorker s w (fun x => if x.admission == .notAdmitted then startAdmission x else x)) p 0 []))

/-- SERVICE_RETRAIN. -/
def execServiceRetrain (n : Fin 16) (s : State) : Host.Outcome State Fault Refusal :=
  clocked s (service s n 3 (fun s p k =>
    if 7 < k || (getPartner s k).state == 0#3 || (findRecovery s 7 k).isSome then reject s p 0x0742
    else reply (retrainPartner s k) p 0 []))

/-- SERVICE_REPAIR. -/
def execServiceRepair (n : Fin 16) (s : State) : Host.Outcome State Fault Refusal :=
  clocked s (service s n 4 (fun s p k =>
    let q := getMemPort s k
    if 3 < k || !(q.state == 2#3 || q.state == 4#3) then reject s p 0x0742
    else if q.spareLeft == 0 then reject s p 0x0741
    else reply (beginRepair s k) p 0 []))

/-- SERVICE_WITHDRAW: a worker as action 1, then out of service; a spare, numbered 64 to 67, at once. -/
def execServiceWithdraw (n : Fin 16) (s : State) : Host.Outcome State Fault Refusal :=
  clocked s (service s n 5 (fun s p w =>
    if w < 64 then substitute s p w true
    else
      let x := getWorker s w
      if 67 < w || x.serves.isSome || x.admission == .outOfService || s.keeper.substitutions.any (fun y => y.1 + 64 == w) then reject s p 0x0742
      else
        let s := setWorker s w (fun x => { x with admission := .outOfService })
        reply (setKeeper s (fun k => { k with oosWorker := if k.oosWorker.contains w then k.oosWorker else k.oosWorker ++ [w] })) p 0 []))

/-! ### RESET of class 2 and 3 (R476) -/

/-- A row-state memory is scrubbed and its strip redone from the first tile (Table 14.1). -/
def scrubRowState (s : State) (w : Nat) : State :=
  let s := (getWorker s w).held.foldl (fun s h => if h.copyOut then s else interruptUnit s h.run h.ref) (beginRecovery s 3 w 0)
  setWorker s w (fun x => { x with rsState := .scrubbing, rowState := [], held := x.held.filter Held.copyOut, wait := none })

/-- May a domain instance be recovered: present, in service, and not already recovering? -/
def resettable (s : State) (d i : Nat) : Bool :=
  (findRecovery s d i).isNone &&
    match d with
    | 1 => i < 68 && (getWorker s i).admission != .outOfService
    | 2 => i < 68 && (getWorker s i).admission != .outOfService
    | 3 => i < 68 && (getWorker s i).admission != .outOfService && (getWorker s i).rsState != .testing && (getWorker s i).rsState != .scrubbing
    | 4 => i < 32 && !(getForager s i).faulted
    | 5 => i < 8 && !(getFrame s i).outOfService && !(getFrame s i).recovering
    | 6 => i < 4 && ((getMemPort s i).state == 2#3 || (getMemPort s i).state == 4#3)
    | 7 => i < 8 && (getPartner s i).state != 0#3
    | 8 => i < 24 && (getLink s i).state != 0#3 && (getLink s i).state != 5#3
    | 9 => i < 2 && s.keeper.standbyOk && s.life.activating.isNone
    | _ => false

/-- The frame in which a worker, root store, row-state memory or forager lies. -/
def homeFrame (s : State) (d i : Nat) : Option Nat :=
  if d == 4 then some (i / 4) else if 1 ≤ d && d ≤ 3 then (if i < 64 || (getWorker s i).serves.isSome then some (workerFrame s i) else none) else none

/-- The recovery of a domain instance as after a fault of class B without a code; a part of a frame under recovery joins that
frame's recovery, which has reset it (R468). -/
def resetDomain (s : State) (d i : Nat) : State :=
  if (homeFrame s d i).any (fun f => (getFrame s f).recovering) then s
  else
  match d with
  | 1 => fenceWorker s i 0
  | 2 => endRecovery (reloadRoot (beginRecovery s 2 i 0) i) 2 i
  | 3 => scrubRowState s i
  | 4 => setForager (redoMoves (beginRecovery s 4 i 0) i) i (fun x => { x with faulted := true })
  | 5 => frameReset s i 0
  | 6 =>
    let s := (movesOn s i).foldl (fun s x => interruptUnit (dropMove s x.1 x.2.1) x.2.1.run x.2.1.ref) (beginRecovery s 6 i 0)
    journalStackGone (setMemPort s i (fun p => { MemPort.reset with state := 1, stackGiB := p.stackGiB, imageStale := p.imageStale, refreshes := p.refreshes })) i true
  | 7 => setPartner (retrainPartner s i) i (fun q => { q with err := 0, errCount := 0, retries := 0 })
  | 8 =>
    let s := retrainLink (beginRecovery s 8 i 0) i
    setLink s i (fun l => { l with cause := 0, err := 0, malCount := 0, fecCe := 0, fecUe := 0, replayed := 0, drop := 0, nonfinite := 0
                                   flushed := 0, delay := 0, quarCount := 0, malTimes := [], quarTimes := [] })
  | _ => pairFault s i

/-- RESET of class 2, and of class 3 as the worker domain. -/
def resetRow (s : State) (n cls : Nat) : State :=
  onRequest s n (isAction 0x0500 0 cls [1, 2, 3]) (fun s p =>
    if field p.body 0 1 != cls then reject s p 0x0502
    else
      let d := if cls == 3 then 1 else field p.body 1 1
      let i := field p.body 2 1
      if !resettable s d i then reject s p 0x0742 else resetDomain (reply s p 0 []) d i)

/-- RESET_DOMAIN_REQUEST. -/
def execResetDomainRequest (n : Fin 16) (s : State) : Host.Outcome State Fault Refusal := clocked s (resetRow s n 2)

/-- RESET_WORKER_REQUEST. -/
def execResetWorkerRequest (n : Fin 16) (s : State) : Host.Outcome State Fault Refusal := clocked s (resetRow s n 3)

end Sys2Proof.Machine
end

