-- ==== Sys2Proof/Machine/Boot.lean ====
section
/-!
DEFINITION. The flash (R486, R487), the resets and what each clears (R474, R475, R506, R507, R509, Table 15.1), the choice of
a firmware bank (R300, R301, R488), the site record, the trial of a bank (R489), and the watchdogs and switches of the
Keeper pairs (R37, R477, R492).
-/

namespace Sys2Proof.Machine

/-! ### Flash (Table 15.5) -/

def bootRecordAt (b : Nat) : Nat := if b == 0 then 0 else 0x1000
def bankAt (b : Nat) : Nat := if b == 0 then 0x10000 else 0x410000
def siteAt (c : Nat) : Nat := if c == 0 then 0x810000 else 0x850000
def bankSize : Nat := 0x400000
def siteSize : Nat := 0x40000

/-- An area is erased to all ones. -/
def flashErase (s : State) (a n : Nat) : State := { s with flash := memClear s.flash a n }

/-- Programming only clears bits (R487). -/
def flashProgram (s : State) (ws : List (Nat × Byte)) : State :=
  { s with flash := memSetMany flashDefault (ws.map (fun w => (w.1, w.2 &&& memGet flashDefault s.flash w.1))) s.flash }

/-! ### Boot records (Table 15.6) -/

def bootRecord (s : State) (b : Nat) : Bytes := flashBytes s (bootRecordAt b) 192
def recFormat (r : Bytes) : Nat := field r 6 2
def recRelease (r : Bytes) : Nat := field r 8 4
def recRollback (r : Bytes) : Nat := field r 12 1
def recKeySlot (r : Bytes) : Nat := field r 13 1
def recLength (r : Bytes) : Nat := field r 24 4
def recStatus (r : Bytes) : Nat := field r 176 1
def recAttempts (r : Bytes) : Nat := field r 177 1
def recSequence (r : Bytes) : Nat := field r 184 8

/-- The record's sequence has been programmed (R487). -/
def recCommitted (r : Bytes) : Bool := field r 0 4 == 0x57464841 && recSequence r != 2 ^ 64 - 1

/-- Magic and version. -/
def recKnown (r : Bytes) : Bool := field r 0 4 == 0x57464841 && field r 4 2 == 1

/-- Every field of a record within what Table 15.6 gives it. -/
def recWellFormed (r : Bytes) : Bool :=
  recKnown r && recRollback r ≤ 64 && recKeySlot r < 2 && field r 14 2 == 0 && field r 16 8 == 0 && field r 28 4 == 0
    && 1 ≤ recLength r && recLength r ≤ 3 * 2 ^ 20

/-- The signature of bytes 0 to 79 under the firmware key that the record names (R480, R487). -/
def recSigned (s : State) (b : Nat) (r : Bytes) : Bool :=
  let k := recKeySlot r
  let key := Config.firmwareKey k b
  k < 2 && !s.life.fuses.fwRevoke.getLsbD k && Config.sha384 key == Config.fuseFw k
    && Config.ecdsaValid key (Config.sha384 (r.take 80)) ((r.drop 80).take 96)

/-- The firmware's SHA-384 is the record's digest. -/
def firmwareWhole (s : State) (b : Nat) (r : Bytes) : Bool :=
  recLength r ≤ bankSize
    && Config.sha384 (flashBytes s (bankAt b) (recLength r)) == BitVec.ofNat 384 (leNat ((r.drop 32).take 48))

/-- A candidate of R488. -/
def candidate (s : State) (b : Nat) : Bool :=
  let r := bootRecord s b
  recKnown r && recSigned s b r && recStatus r != 0 && recSequence r != 2 ^ 64 - 1 && rollbackLevel s.life.fuses ≤ recRollback r

/-- A committed bank whose status is still trial. -/
def trialCommitted (s : State) (b : Nat) : Bool := candidate s b && recStatus (bootRecord s b) == 0xFF

/-- The candidates, the higher sequence first. -/
def bootOrder (s : State) : List Nat :=
  let cs := [0, 1].filter (candidate s)
  if cs.length == 2 && recSequence (bootRecord s 0) < recSequence (bootRecord s 1) then [1, 0] else cs

def setStatus (s : State) (b v : Nat) : State := flashProgram s [(bootRecordAt b + 176, BitVec.ofNat 8 v)]

/-- A bank is tried (R488): a trial bank uses up one attempt; a bank that fails is rejected for good. -/
def tryBank (s : State) (b : Nat) : State × Bool :=
  let r := bootRecord s b
  let a := recAttempts r
  if recStatus r == 0xFF && a % 8 == 0 then (setStatus s b 0, false)
  else
    let s := if recStatus r == 0xFF then flashProgram s [(bootRecordAt b + 177, BitVec.ofNat 8 (a &&& (a - 1)))] else s
    if firmwareWhole s b r then (s, true) else (setStatus s b 0, false)

/-- The first bank of several that is loaded and verified. -/
def selectBank (s : State) : List Nat → State × Option Nat
  | [] => (s, none)
  | b :: rest => match tryBank s b with | (t, true) => (t, some b) | (t, false) => selectBank t rest

/-! ### The site record (R488) -/

/-- The entries of a site record, as far as their lengths are sound; and whether all of them are. -/
def siteEntries : (fuel : Nat) → Bytes → List (Nat × Bytes) × Bool
  | 0, b => ([], b.isEmpty)
  | fuel + 1, b =>
    if b.isEmpty then ([], true)
    else if b.length < 4 || b.length < 4 + field b 2 2 then ([], false)
    else
      let rest := siteEntries fuel (b.drop (4 + field b 2 2))
      ((field b 0 2, (b.drop 4).take (field b 2 2)) :: rest.1, rest.2)

def siteCopy (s : State) (c : Nat) : Bytes := flashBytes s (siteAt c) siteSize

/-- The entries of a copy whose header is right. -/
def siteParsed (s : State) (c : Nat) : List (Nat × Bytes) × Bool :=
  match Config.siteHeader (siteCopy s c) with
  | some (len, _) => if siteSize < 32 + len then ([], false) else siteEntries len (flashBytes s (siteAt c + 32) len)
  | none => ([], false)

/-- The copy that boot applies: of those whose header is right, the higher sequence. -/
def siteChosen (s : State) : Option Nat :=
  match Config.siteHeader (siteCopy s 0), Config.siteHeader (siteCopy s 1) with
  | some (_, a), some (_, b) => some (if a < b then 1 else 0)
  | some _, none => some 0
  | none, some _ => some 1
  | none, none => none

/-- A register that a type-1 entry may write: of the external page, outside the mailboxes. -/
def siteRegister (off : Nat) : Bool := off % 4 == 0 && off < 0x8000 && !(0x1100 ≤ off && off < 0x1200)

/-- A type-4 entry's key index and its public key of 97 bytes. -/
def siteKey (d : Bytes) : Nat × Bytes := (leNat (d.take (d.length - 97)), d.drop (d.length - 97))

/-- An entry of a known type whose data has its form (R490). -/
def siteEntryOk (e : Nat × Bytes) : Bool :=
  match e.1 with
  | 1 => e.2.length == 8 && siteRegister (field e.2 0 4)
  | 2 => match Config.siteRoutes e.2 with | some (first, es) => first + es.length ≤ 65536 && !es.any routeBad | none => false
  | 3 => !e.2.isEmpty
  | 4 => 97 < e.2.length && ((siteKey e.2).1 < 4 || (siteKey e.2).1 == 16)
  | 5 => !e.2.isEmpty
  | _ => false

/-- An entry is applied. -/
def applySite (s : State) (e : Nat × Bytes) : State :=
  if !siteEntryOk e then s
  else
    match e.1 with
    | 1 => writePage s (field e.2 0 4) (field e.2 4 4)
    | 2 => match Config.siteRoutes e.2 with | some (first, es) => writeRoutes s first es | none => s
    | 3 => setLife s (fun l => { l with chain := e.2 })
    | 4 => setLife s (fun l => { l with imageKeys := assocSet l.imageKeys (siteKey e.2).1 (siteKey e.2).2 })
    | _ => setLife s (fun l => { l with anchor := e.2 })

/-! ### Resets (Table 15.1) -/

/-- What a cold reset leaves: all at its reset value but the latches and contents that it keeps. -/
def afterReset (s : State) : State :=
  { State.reset with
    wall := s.wall
    pins := { s.pins with coldOrdered := false }
    life := { Life.reset with fuses := s.life.fuses, state := s.life.state, dieId := s.life.dieId, draws := s.life.draws }
    flash := s.flash
    keeper := { Keeper.reset with archive := s.keeper.archive }
    mgmt := s.mgmt
    journal := { Journal.reset with activePair := s.journal.activePair, records := s.journal.records }
    partners := s.partners.map (fun p => { PartnerPort.reset with sent := p.sent })
    mems := s.mems.map (fun m => { MemPort.reset with imageStale := m.imageStale, refreshes := m.refreshes })
    stackMem := s.stackMem
    links := s.links.map (fun l => { Link.reset with wire := l.wire })
    power := { Power.reset with alertPinLow := s.power.alertPinLow }
    telem := { s.telem with buffer := [], dropped := 0, last := [] }
    draws := s.draws
    readBack := s.readBack
    pending := s.pending }

/-- The life-cycle state that the fuses give (R479). -/
def lcsOf (f : Fuses) : Lcs :=
  if f.retired then .retired
  else if f.returned then .returned
  else if f.banks.isEmpty then .blank
  else if f.decommissions < f.commissions then .inService
  else .provisioned

/-- The die identifier of the bank in force. -/
def dieIdOf (f : Fuses) : BitVec 16 := match f.banks.getLast? with | some b => b.dieId | none => 0

/-- The life-cycle state and the die identifier are latched from the fuses. -/
def latchFuses (s : State) : State := setLife s (fun l => { l with state := lcsOf l.fuses, dieId := dieIdOf l.fuses })

/-- POWER_ON_RESET: fuses and straps are read again; RST_N low holds the die (R507). -/
def execPowerOnReset (straps : BitVec 4) (s : State) : Host.Outcome State Fault Refusal :=
  .next (latchFuses { afterReset s with
    pins := { straps := straps, porstLow := false, rstLow := s.pins.rstLow, tripped := false, coldOrdered := false } })

/-- PORST_LOW: it ends a thermal trip too (R509). -/
def execPorstLow (s : State) : Host.Outcome State Fault Refusal :=
  .next { afterReset s with pins := { s.pins with porstLow := true, tripped := false, coldOrdered := false } }

/-- COLD_RESET: the one that has been ordered (R476), or RST_N's, which holds the die until its release. -/
def execColdReset (s : State) : Host.Outcome State Fault Refusal :=
  .next (
    if s.pins.porstLow || s.pins.tripped then s
    else
      let t := afterReset s
      if s.pins.coldOrdered then t else { t with pins := { t.pins with rstLow := true } })

/-- RST_N_RELEASE: the ROM starts. -/
def execRstNRelease (s : State) : Host.Outcome State Fault Refusal := .next { s with pins := { s.pins with rstLow := false } }

/-- THERMAL_TRIP (R509). -/
def execThermalTrip (s : State) : Host.Outcome State Fault Refusal :=
  .next (if s.pins.porstLow then s else { s with pins := { s.pins with tripped := true } })

/-- TEMP_SENSOR_UPDATE (Table 16.5). -/
def execTempSensorUpdate (hottest : BitVec 8) (s : State) : Host.Outcome State Fault Refusal :=
  clocked s (setPower s (fun p =>
    { p with tempNow := hottest, tempPeak := if p.tempPeak < hottest then hottest else p.tempPeak
             tempWarn := p.tempWarn || 105 ≤ hottest.toNat }))

/-! ### The start of the firmware -/

/-- The firmware of a bank runs on both pairs: state boot, the site record applied, then the ports train (none in Retired)
and every row-state memory is tested (R196, R488). -/
def startFirmware (s : State) (b : Nat) (fallback : Bool) : State :=
  let r := bootRecord s b
  let s := setLife s (fun l =>
    { l with bank := b, fwRelease := BitVec.ofNat 32 (recRelease r), stateFormat := BitVec.ofNat 16 (recFormat r)
             trial := recStatus r == 0xFF, fallback := fallback, startedAt := s.wall, readyAt := none, site := siteChosen s })
  let s := setKeeper s (fun k => { k with state := .boot, code := 0 })
  let s := match s.life.site with | some c => (siteParsed s c).1.foldl applySite s | none => s
  let s := if !portsOpen s then s
    else { s with partners := s.partners.map (fun p => { p with state := 1 }), mems := s.mems.map (fun m => { m with state := 1 }) }
  let s := if !linksOpen s then s
    else { s with links := s.links.map (fun l => if bit l.cfg.toNat 10 then { l with state := 1 } else l) }
  let s := { s with workers := s.workers.map (fun w => { w with rsState := .testing }) }
  if s.power.alertPinLow then setAlert s true else s

/-- FIRMWARE_START: the ROM selects, loads and verifies a bank; STRAP[3] keeps it in state rom (Table 16.2). -/
def firmwareStart (s : State) : State :=
  if s.keeper.state != .rom || bit s.pins.straps.toNat 3 then s
  else
    let order := bootOrder s
    match selectBank s order with
    | (t, some b) => startFirmware t b (order.head? != some b)
    | (t, none) => setKeeper t (fun k => { k with state := .failed, code := if order.isEmpty then 0x0710 else 0x0711 })

def execFirmwareStart (s : State) : Host.Outcome State Fault Refusal := clocked s (firmwareStart s)

/-- TRIAL_WATCHDOG_EXPIRY: a trial firmware that has not left state boot. -/
def execTrialWatchdogExpiry (s : State) : Host.Outcome State Fault Refusal :=
  clocked s (if s.life.trial && s.keeper.state == .boot then afterReset s else s)

/-- TRIAL_BANK_GOOD: the bank's status, then the rollback level, which never falls. -/
def execTrialBankGood (s : State) : Host.Outcome State Fault Refusal :=
  clocked s (
    if !s.life.trial || s.life.readyAt.isNone || s.keeper.state != .ready then s
    else
      let level := min 64 (recRollback (bootRecord s s.life.bank))
      setLife (setStatus s s.life.bank 0x0F) (fun l =>
        { l with trial := false, fuses := { l.fuses with fwRollback := max l.fuses.fwRollback level } }))

/-! ### Keeper pairs -/

/-- A fault of the active pair (R37, R492): the other becomes active; before an activation's handover, or without a standby
pair, the die takes a cold reset; after the handover it ends the activation. -/
def activePairFault (s : State) : State :=
  match s.life.activating with
  | some (_, false) => afterReset s
  | some (_, true) =>
    pairFault (setLife (endRecovery s 9 (1 - s.keeper.activePair)) (fun l => { l with activating := none })) s.keeper.activePair
  | none => if s.keeper.standbyOk then pairFault s s.keeper.activePair else afterReset s

/-- KEEPER_PAIR_SWITCH. -/
def execKeeperPairSwitch (s : State) : Host.Outcome State Fault Refusal := clocked s (activePairFault s)

/-- KEEPER_WATCHDOG_EXPIRY: of the active pair, or of both; the firmware runs it. -/
def execKeeperWatchdogExpiry (both : Bool) (s : State) : Host.Outcome State Fault Refusal :=
  clocked s (
    if s.keeper.state == .rom || s.keeper.state == .failed then s
    else if both then afterReset s
    else activePairFault s)

end Sys2Proof.Machine
end

