-- ==== Sys2Proof/Machine/Comb.lean ====
section
/-!
DEFINITION. The comb's own work (R78, R107, R109) and the telemetry and debug port (R80).
-/

namespace Sys2Proof.Machine

/-- NARROW_FORCED_GRANT (R78): the pending narrow request is granted after at most 64 cycles; the longest wait is kept. -/
def execNarrowForcedGrant (f : Fin 8) (bank : Fin 256) (waited : BitVec 7) (s : State) : Host.Outcome State Fault Refusal :=
  clocked s (
    let w := min 64 waited.toNat
    setFrame s f (fun x =>
      setBank { x with narrowMax := BitVec.ofNat 7 (max x.narrowMax.toNat w) } bank (fun b => (b.1, b.2.1, max b.2.2 w))))

/-- The comb address of a 64-bit word of a bank's line (R72). -/
def bankWordAddr (f bank line word : Nat) : Nat := f * 2 ^ 25 + (line * 256 + (bank ^^^ (line % 256))) * 128 + word * 8

/-- PATROL_READ (R109): no fault is raised. -/
def execPatrolRead (f : Fin 8) (bank : Fin 256) (line : Fin 1024) (finding : PatrolFinding) (s : State) :
    Host.Outcome State Fault Refusal :=
  clocked s (
    let addr (w : Nat) : Nat := bankWordAddr f bank line w
    let found (s : State) (a : Nat) : State := mendPage (markPoison s a) a
    let old := (List.range 16).filter (fun w => poisoned s (addr w))
    let s := old.foldl (fun s w => found s (addr w)) s
    match finding with
    | .clean => s
    | .corrected w => if old.contains w.val then s else countCorrected s (addr w)
    | .uncorrectable w => if old.contains w.val then s else found s (addr w))

/-- A word as the two registers that deliver it. -/
def wordRegs (b : Bytes) : List Reg := [BitVec.ofNat 32 (field b 0 4), BitVec.ofNat 32 (field b 4 4)]

/-- TELEMETRY_DEBUG_PORT_ACCESS (R80): bank status always; comb words only while debug is permitted, and a poisoned word
delivers nothing. -/
def execTelemetryDebugPortAccess (access : DebugAccess) (s : State) : Host.Outcome State Fault Refusal :=
  match access with
  | .bankStatus f bank =>
    let w := assocD (getFrame s f).bankStatus bank.val (0, 0, 0)
    clocked s { s with readBack := [BitVec.ofNat 32 w.1, BitVec.ofNat 32 w.2.1, BitVec.ofNat 32 w.2.2] }
  | .readComb addr =>
    if 2 ^ 28 ≤ addr then .fault (.addressOutside addr)
    else
      let a := addr / 8 * 8
      clocked s (
        if !debugPermitted s then { s with readBack := [] }
        else if poisoned s a then { markPoison s a with readBack := [] }
        else { s with readBack := wordRegs (combBytes s a 8) })
  | .writeComb addr data =>
    if 2 ^ 28 ≤ addr then .fault (.addressOutside addr)
    else clocked s (if debugPermitted s then writeComb s (bytesAt (addr / 8 * 8) (natLe 8 data.toNat)) else s)

end Sys2Proof.Machine
end

