-- ==== Sys2Proof/Machine/LifeCycle.lean ====
section
/-!
DEFINITION. The life cycle (R478 to R484), debug (R485), firmware and the site record in service (R490, R491), and RESET of
class 1 (R476).
-/

namespace Sys2Proof.Machine

/-! ### Challenge and authorisation -/

/-- RESET_COLD_REQUEST: the reply goes first; COLD_RESET then carries it out. -/
def execResetColdRequest (n : Fin 16) (s : State) : Host.Outcome State Fault Refusal :=
  clocked s (onRequest s n (isAction 0x0500 0 1 [1, 2, 3]) (fun s p =>
    if field p.body 0 1 != 1 then reject s p 0x0502
    else if field p.body 4 2 != s.life.dieId.toNat then reject s p 0x0750
    else
      let s := reply s p 0 []
      { s with pins := { s.pins with coldOrdered := true } }))

/-- LC_CHALLENGE. -/
def execLcChallenge (n : Fin 16) (s : State) : Host.Outcome State Fault Refusal :=
  clocked s (onRequest s n (isType 0x0510) (fun s p =>
    let nonce := padTo 32 (Config.randomBytes s.life.draws 32)
    let s := setLife s (fun l => { l with nonce := some (nonce, s.wall), draws := l.draws + 1 })
    reply s p 0 (nonce ++ natLe 1 (lcsCode s.life.state))))

/-- LC_NONCE_EXPIRY. -/
def execLcNonceExpiry (s : State) : Host.Outcome State Fault Refusal := clocked s (setLife s (fun l => { l with nonce := none }))

/-- A message that needs a nonce uses it up, whatever else becomes of it. -/
def withNonce (s : State) (p : Pending) (act : State → Bytes → State) : State :=
  match s.life.nonce with
  | none => reject s p 0x0702
  | some (nonce, _) => act (setLife s (fun l => { l with nonce := none })) nonce

/-- Die identifier, as two bytes. -/
def idBytes (s : State) : Bytes := natLe 2 s.life.dieId.toNat

/-- The signer and the signature of a message (Table 15.8). -/
def signerOf (b : Bytes) : Bytes := (b.drop 8).take 97
def signatureOf (b : Bytes) : Bytes := (b.drop 105).take 96

/-- The keys of Table 15.3 that travel with the message: the digest of the one named matches its fuse, and the life-cycle
state is one of its own. -/
def isOwner (s : State) (key : Bytes) : Bool :=
  (s.life.state == .provisioned || s.life.state == .inService)
    && (match s.life.fuses.banks.getLast? with | some b => Config.sha384 key == b.owner | none => false)
def isProvisioner (s : State) (key : Bytes) : Bool :=
  (s.life.state == .blank || s.life.state == .returned) && Config.sha384 key == Config.fuseProv
def isDebugKey (s : State) (key : Bytes) : Bool :=
  s.life.state == .provisioned && (match s.life.fuses.banks.getLast? with | some b => Config.sha384 key == b.debug | none => false)

/-- The signature of a message over a string of bytes. -/
def signedOver (p : Pending) (what : Bytes) : Bool := Config.ecdsaValid (signerOf p.body) (Config.sha384 what) (signatureOf p.body)

/-! ### Transitions (Table 15.4) -/

def changeAllowed (st : Lcs) (target : Nat) : Bool :=
  match st with
  | .blank => target == 1 || target == 4
  | .provisioned => target == 1 || target == 2 || target == 3 || target == 4
  | .inService => target == 1 || target == 3 || target == 4
  | .returned => target == 4
  | .retired => false

/-- The key that a transition requires. -/
def changeKey (s : State) (key : Bytes) : Bool :=
  if s.life.state == .blank || s.life.state == .returned then isProvisioner s key else isOwner s key

/-- No fuse is left for a transition. -/
def fusesSpent (f : Fuses) (st : Lcs) (target : Nat) : Bool :=
  (st == .provisioned && target == 1 && 4 ≤ f.banks.length) || (st == .provisioned && target == 2 && 16 ≤ f.commissions)

/-- The full wipe (R483); the site record goes too unless the die moves between Provisioned and In-Service. -/
def wipe (s : State) (keepSite : Bool) : State :=
  let k := s.keeper
  let s := { s with
    comb := [], poison := [], stackMem := [], runs := List.replicate 8 none
    mems := s.mems.map (fun m => { m with imageStale := false })
    workers := s.workers.map (fun w => { skipSample w with cells := [], rowState := [], root := List.replicate 16 RootSlot.reset })
    frames := s.frames.map (fun f => { f with heirloom := [], scrubBusy := false, scrubLeft := 0, scrubTodo := [] })
    keeper := { Keeper.reset with
                state := k.state, code := k.code, fwdDrop := k.fwdDrop, i3cErr := k.i3cErr, mgmtDrop := k.mgmtDrop, sessAddr := k.sessAddr
                sessEnable := k.sessEnable, sessPort := k.sessPort, netAddr := k.netAddr, activePair := k.activePair, standbyOk := k.standbyOk }
    journal := { Journal.reset with scanned := s.journal.scanned }
    telem := { s.telem with next := 0, records := [] } }
  if keepSite then s else flashErase (flashErase s (siteAt 0) siteSize) (siteAt 1) siteSize

/-- LC_CHANGE. -/
def execLcChange (n : Fin 16) (s : State) : Host.Outcome State Fault Refusal :=
  clocked s (onRequest s n (isType 0x0511) (fun s p => withNonce s p (fun s nonce =>
    let target := field p.body 0 1
    let st := s.life.state
    let what := idBytes s ++ natLe 1 (lcsCode st) ++ natLe 1 target ++ nonce ++ p.body.drop 201
    if !changeAllowed st target then reject s p 0x0703
    else if !changeKey s (signerOf p.body) || !signedOver p what then reject s p 0x0701
    else if anyResident s then reject s p 0x0704
    else if fusesSpent s.life.fuses st target then reject s p 0x0706
    else
      let keep := (st == .provisioned && target == 2) || (st == .inService && target == 1)
      setLife (wipe s keep) (fun l => { l with change := some (p, BitVec.ofNat 8 target) }))))

/-- Digest `i` of a provisioning record (R483, Table 15.2). -/
def recordDigest (b : Bytes) (i : Nat) : BitVec 384 := BitVec.ofNat 384 (field b (201 + 16 + 48 * i) 48)

/-- The bank that a provisioning record programs. -/
def bankOfRecord (b : Bytes) (seed : BitVec 384) : ProvBank :=
  { dieId := BitVec.ofNat 16 (field b 201 2), owner := recordDigest b 0, debug := recordDigest b 1, anchor := recordDigest b 2
    images := (List.range 4).map (fun i => recordDigest b (3 + i)), seed := seed, revoke := 0 }

/-- Every device key seed set to all ones. -/
def burnSeeds (f : Fuses) : Fuses := { f with banks := f.banks.map (fun b => { b with seed := BitVec.allOnes 384 }) }

/-- The fuses that a transition programs (Table 15.4). -/
def programFuses (f : Fuses) (st : Lcs) (target : Nat) (body : Bytes) (seed : BitVec 384) : Fuses :=
  if target == 4 then { burnSeeds f with retired := true }
  else if target == 3 then { burnSeeds f with returned := true }
  else if target == 2 then { f with commissions := f.commissions + 1 }
  else if st == .inService then { f with decommissions := f.decommissions + 1 }
  else { f with banks := f.banks ++ [bankOfRecord body seed] }

/-- LC_WIPE_COMPLETE: the fuses, the reply, and the cold reset that follows. -/
def execLcWipeComplete (programmed : Bool) (s : State) : Host.Outcome State Fault Refusal :=
  clocked s (
    match s.life.change with
    | none => s
    | some (p, target) =>
      let st := s.life.state
      let seed := Config.deviceSeed s.life.draws
      let newKey := target == 1 && (st == .blank || st == .provisioned)
      let s := setLife s (fun l => { l with change := none })
      let s :=
        if !programmed then reply s p 0x0705 []
        else
          let s := setLife s (fun l => { l with fuses := programFuses l.fuses st target.toNat p.body seed, draws := l.draws + 1 })
          latchFuses (reply s p 0 (if newKey then padTo 97 (Config.devicePublic seed) else []))
      { s with pins := { s.pins with coldOrdered := true } })

/-- The firmware-key revocation bits after key `k` is revoked. -/
def revokeFirmware (f : Fuses) (k : Nat) : Fuses := { f with fwRevoke := f.fwRevoke ||| BitVec.ofNat 2 (2 ^ k) }

/-- The fuses after image key `k` of the bank in force is revoked. -/
def revokeImage (f : Fuses) (k : Nat) : Fuses :=
  { f with banks := updAt f.banks (f.banks.length - 1) (fun b => { b with revoke := b.revoke ||| BitVec.ofNat 4 (2 ^ k) }) }

/-- KEY_REVOKE (R481). -/
def execKeyRevoke (n : Fin 16) (s : State) : Host.Outcome State Fault Refusal :=
  clocked s (onRequest s n (isType 0x0512) (fun s p => withNonce s p (fun s nonce =>
    let k := field p.body 0 1
    if !(k < 4 || k == 0x10 || k == 0x11) then reject s p 0x0502
    else if !isOwner s (signerOf p.body) || !signedOver p (idBytes s ++ nonce ++ natLe 1 k) then reject s p 0x0701
    else if k < 4 then reply (setLife s (fun l => { l with fuses := revokeImage l.fuses k })) p 0 []
    else if s.life.fuses.fwRevoke.getLsbD (0x11 - k) then reject s p 0x0703
    else reply (setLife s (fun l => { l with fuses := revokeFirmware l.fuses (k - 0x10) })) p 0 [])))

/-! ### Debug (R485) -/

/-- The comb is scrubbed and the residency table emptied. -/
def scrubForDebug (s : State) : State :=
  setKeeper ((List.range 8).foldl (fun s f => scrubComb s (f * 2 ^ 25) 0x1F00000) s) (fun k => { k with residency := [] })

/-- A DEBUG of one action. -/
def debugRow (s : State) (n action : Nat) (act : State → Pending → Bytes → State) : State :=
  onRequest s n (isAction 0x0520 0 action [1, 2]) (fun s p =>
    if field p.body 0 1 != action then reject s p 0x0502
    else withNonce s p (fun s nonce =>
      if s.life.state == .inService || s.life.state == .retired then reject s p 0x0720
      else if anyResident s then reject s p 0x0704
      else act s p nonce))

/-- DEBUG_UNLOCK. -/
def execDebugUnlock (n : Fin 16) (s : State) : Host.Outcome State Fault Refusal :=
  clocked s (debugRow s n 1 (fun s p nonce =>
    let key := signerOf p.body
    let mine := isDebugKey s key || (s.life.state == .returned && isProvisioner s key)
    if !mine || !signedOver p (idBytes s ++ nonce ++ natLe 1 1) then reject s p 0x0701
    else reply (setLife (scrubForDebug s) (fun l => { l with debug := true })) p 0 []))

/-- DEBUG_LOCK: no signature is checked. -/
def execDebugLock (n : Fin 16) (s : State) : Host.Outcome State Fault Refusal :=
  clocked s (debugRow s n 2 (fun s p _ => reply (setLife (scrubForDebug s) (fun l => { l with debug := false })) p 0 []))

/-! ### Firmware in service (R490, R491) -/

/-- The bank other than the running one. -/
def otherBank (s : State) : Nat := 1 - s.life.bank

/-- Where byte `a` of a firmware bank's write lands: in the boot record up to its signature, in the bank, or nowhere. -/
def fwTarget (b a : Nat) : Option Nat :=
  let r := Config.fwRecordOffset
  if r ≤ a && a < r + 0x1000 then (if a < r + 176 then some (bootRecordAt b + (a - r)) else none)
  else if a < bankSize then some (bankAt b + a)
  else none

/-- FW_WRITE. -/
def execFwWrite (n : Fin 16) (s : State) : Host.Outcome State Fault Refusal :=
  clocked s (onRequest s n (isType 0x0530) (fun s p =>
    let off := field p.body 4 4
    let data := p.body.drop 8
    let b := otherBank s
    if field p.body 0 1 != 1 then reject s p 0x0502
    else if max bankSize (Config.fwRecordOffset + 0x1000) < off + data.length then reject s p 0x0710
    else
      let s := if off == 0 then flashErase (flashErase s (bankAt b) bankSize) (bootRecordAt b) 0x1000 else s
      reply (flashProgram s ((bytesAt off data).filterMap (fun w => (fwTarget b w.1).map (fun a => (a, w.2))))) p 0 []))

/-- FW_COMMIT. -/
def execFwCommit (n : Fin 16) (s : State) : Host.Outcome State Fault Refusal :=
  clocked s (onRequest s n (isType 0x0531) (fun s p =>
    let b := otherBank s
    let r := bootRecord s b
    let run := bootRecord s s.life.bank
    if !recWellFormed r || recSequence r != 2 ^ 64 - 1 then reject s p 0x0710
    else if !recSigned s b r || !firmwareWhole s b r then reject s p 0x0711
    else if recRollback r < rollbackLevel s.life.fuses then reject s p 0x0712
    else
      let seq := if recCommitted run then recSequence run + 1 else 1
      reply (flashProgram s (bytesAt (bootRecordAt b + 184) (natLe 8 seq))) p 0 []))

/-- A FW_ACTIVATE of one action. -/
def activateRow (s : State) (n action : Nat) (act : State → Pending → State) : State :=
  onRequest s n (isAction 0x0532 0 action [1, 2]) (fun s p =>
    if field p.body 0 1 != action then reject s p 0x0502
    else if !trialCommitted s (otherBank s) then reject s p 0x0714
    else act s p)

/-- FW_ACTIVATE_NOW: the reply follows the handover. -/
def execFwActivateNow (n : Fin 16) (s : State) : Host.Outcome State Fault Refusal :=
  clocked s (activateRow s n 1 (fun s p =>
    if s.life.activating.isSome || !s.keeper.standbyOk then reject s p 0x0715
    else if recFormat (bootRecord s (otherBank s)) != s.life.stateFormat.toNat then reject s p 0x0713
    else setLife s (fun l => { l with activating := some (p, false) })))

/-- FW_ACTIVATE_AT_RESET. -/
def execFwActivateAtReset (n : Fin 16) (s : State) : Host.Outcome State Fault Refusal :=
  clocked s (activateRow s n 2 (fun s p => reply (setLife s (fun l => { l with activateAtReset := true })) p 0 []))

/-- FW_ACTIVATE_HANDOVER: the standby pair, with the verified firmware, becomes active. -/
def execFwActivateHandover (s : State) : Host.Outcome State Fault Refusal :=
  clocked s (
    match s.life.activating with
    | some (p, false) =>
      let b := otherBank s
      let r := bootRecord s b
      if !trialCommitted s b || !firmwareWhole s b r then reply (setLife s (fun l => { l with activating := none })) p 0x0711 []
      else
        let was := s.keeper.activePair
        let s := setKeeper s (fun k => { k with activePair := 1 - was })
        let s := setLife s (fun l =>
          { l with bank := b, fwRelease := BitVec.ofNat 32 (recRelease r), stateFormat := BitVec.ofNat 16 (recFormat r), trial := true
                   fallback := false, startedAt := s.wall, readyAt := if s.keeper.state == .ready then some s.wall else none
                   activating := some (p, true) })
        reply (resendNotices (beginRecovery s 9 was 0)) p 0 []
    | _ => s)

/-- FW_ACTIVATE_REJOIN: the former active pair is the standby pair in lockstep. -/
def execFwActivateRejoin (s : State) : Host.Outcome State Fault Refusal :=
  clocked s (
    match s.life.activating with
    | some (_, true) =>
      endRecovery (setKeeper (setLife s (fun l => { l with activating := none })) (fun k => { k with standbyOk := true })) 9 (1 - s.keeper.activePair)
    | _ => s)

/-! ### The site record in service (R490) -/

/-- The copy that boot did not apply. -/
def otherSite (s : State) : Nat := match s.life.site with | some c => 1 - c | none => 0

/-- A SITE_WRITE of one action. -/
def siteRow (s : State) (n action : Nat) (act : State → Pending → State) : State :=
  onRequest s n (isAction 0x0540 0 action [1, 2]) (fun s p => if field p.body 0 1 != action then reject s p 0x0502 else act s p)

/-- SITE_WRITE_DATA. -/
def execSiteWriteData (n : Fin 16) (s : State) : Host.Outcome State Fault Refusal :=
  clocked s (siteRow s n 1 (fun s p =>
    let off := field p.body 4 4
    let data := p.body.drop 8
    if siteSize < off + data.length then reject s p 0x0730
    else reply { s with flash := memSetMany flashDefault (bytesAt (siteAt (otherSite s) + off) data) s.flash } p 0 []))

/-- SITE_WRITE_COMMIT: a copy that passes is the one that the next boot compares. -/
def execSiteWriteCommit (n : Fin 16) (s : State) : Host.Outcome State Fault Refusal :=
  clocked s (siteRow s n 2 (fun s p =>
    let e := siteParsed s (otherSite s)
    if (Config.siteHeader (siteCopy s (otherSite s))).isNone || !e.2 || !e.1.all siteEntryOk then reject s p 0x0730
    else reply s p 0 []))

end Sys2Proof.Machine
end

