-- ==== Sys2Proof/Machine/Dispatch.lean ====
section
/-!
DEFINITION. The meaning of every command: one arm for each row of the table.
-/

namespace Sys2Proof.Machine

def exec (i : Instr) (s : State) : Host.Outcome State Fault Refusal :=
  match i with
  | .powerOnReset straps => Sys2Proof.Machine.execPowerOnReset straps s
  | .coldReset => Sys2Proof.Machine.execColdReset s
  | .porstLow => Sys2Proof.Machine.execPorstLow s
  | .firmwareStart => Sys2Proof.Machine.execFirmwareStart s
  | .stackTrainingDone m trained capacity height spareLanes => Sys2Proof.Machine.execStackTrainingDone m trained capacity height spareLanes s
  | .journalScan => Sys2Proof.Machine.execJournalScan s
  | .partnerTrainingDone p answered modules rate32 => Sys2Proof.Machine.execPartnerTrainingDone p answered modules rate32 s
  | .linkTrainingDone n signal lanes => Sys2Proof.Machine.execLinkTrainingDone n signal lanes s
  | .freeRunningJoin => Sys2Proof.Machine.execFreeRunningJoin s
  | .keeperWatchdogExpiry both => Sys2Proof.Machine.execKeeperWatchdogExpiry both s
  | .trialWatchdogExpiry => Sys2Proof.Machine.execTrialWatchdogExpiry s
  | .trialBankGood => Sys2Proof.Machine.execTrialBankGood s
  | .thermalTrip => Sys2Proof.Machine.execThermalTrip s
  | .tempSensorUpdate hottest => Sys2Proof.Machine.execTempSensorUpdate hottest s
  | .pmbAlertAssert => Sys2Proof.Machine.execPmbAlertAssert s
  | .pmbAlertRelease => Sys2Proof.Machine.execPmbAlertRelease s
  | .flowStepEdge highNs => Sys2Proof.Machine.execFlowStepEdge highNs s
  | .syncPpsPulse highNs => Sys2Proof.Machine.execSyncPpsPulse highNs s
  | .syncRefLoss => Sys2Proof.Machine.execSyncRefLoss s
  | .railCurrentSample rail sample => Sys2Proof.Machine.execRailCurrentSample rail sample s
  | .messageFragment n => Sys2Proof.Machine.execMessageFragment n s
  | .status n => Sys2Proof.Machine.execStatus n s
  | .forward n => Sys2Proof.Machine.execForward n s
  | .imageWrite n => Sys2Proof.Machine.execImageWrite n s
  | .imageLoad n => Sys2Proof.Machine.execImageLoad n s
  | .imageLoadProceed failure => Sys2Proof.Machine.execImageLoadProceed failure s
  | .imageUnload n => Sys2Proof.Machine.execImageUnload n s
  | .kill n => Sys2Proof.Machine.execKill n s
  | .submit n => Sys2Proof.Machine.execSubmit n s
  | .acceptRecordWritten => Sys2Proof.Machine.execAcceptRecordWritten s
  | .query n => Sys2Proof.Machine.execQuery n s
  | .noticeAck n => Sys2Proof.Machine.execNoticeAck n s
  | .tableLoad n => Sys2Proof.Machine.execTableLoad n s
  | .tableShadowWrite => Sys2Proof.Machine.execTableShadowWrite s
  | .tableRetire n => Sys2Proof.Machine.execTableRetire n s
  | .archiveRelease generation => Sys2Proof.Machine.execArchiveRelease generation s
  | .regReadPage n => Sys2Proof.Machine.execRegReadPage n s
  | .regReadWorker n => Sys2Proof.Machine.execRegReadWorker n s
  | .regWritePage n => Sys2Proof.Machine.execRegWritePage n s
  | .regWriteWorker n => Sys2Proof.Machine.execRegWriteWorker n s
  | .regWriteFrame n => Sys2Proof.Machine.execRegWriteFrame n s
  | .regWriteGroup n => Sys2Proof.Machine.execRegWriteGroup n s
  | .regWriteAll n => Sys2Proof.Machine.execRegWriteAll n s
  | .groupSet n => Sys2Proof.Machine.execGroupSet n s
  | .bist n => Sys2Proof.Machine.execBist n s
  | .bistStart w => Sys2Proof.Machine.execBistStart w s
  | .rowStateTestDone w pass => Sys2Proof.Machine.execRowStateTestDone w pass s
  | .rowStateScrubDone w => Sys2Proof.Machine.execRowStateScrubDone w s
  | .portStatus n => Sys2Proof.Machine.execPortStatus n s
  | .linkStatus n => Sys2Proof.Machine.execLinkStatus n s
  | .linkRoute n => Sys2Proof.Machine.execLinkRoute n s
  | .linkCtlRetrain n => Sys2Proof.Machine.execLinkCtlRetrain n s
  | .linkCtlEndQuarantine n => Sys2Proof.Machine.execLinkCtlEndQuarantine n s
  | .linkCtlDisable n => Sys2Proof.Machine.execLinkCtlDisable n s
  | .linkCtlEnable n => Sys2Proof.Machine.execLinkCtlEnable n s
  | .timeStatus n => Sys2Proof.Machine.execTimeStatus n s
  | .timeCfgSetMode n => Sys2Proof.Machine.execTimeCfgSetMode n s
  | .timeCfgSetEpoch n => Sys2Proof.Machine.execTimeCfgSetEpoch n s
  | .timeCfgSetPpsSecond n => Sys2Proof.Machine.execTimeCfgSetPpsSecond n s
  | .timeCfgRejoin n => Sys2Proof.Machine.execTimeCfgRejoin n s
  | .flowSet n => Sys2Proof.Machine.execFlowSet n s
  | .flowStatus n => Sys2Proof.Machine.execFlowStatus n s
  | .telemStreamOpen n => Sys2Proof.Machine.execTelemStreamOpen n s
  | .telemStreamClose n => Sys2Proof.Machine.execTelemStreamClose n s
  | .telemRead n => Sys2Proof.Machine.execTelemRead n s
  | .timeMark n => Sys2Proof.Machine.execTimeMark n s
  | .timeMarkFire c => Sys2Proof.Machine.execTimeMarkFire c s
  | .faultStatus n => Sys2Proof.Machine.execFaultStatus n s
  | .progressMap n => Sys2Proof.Machine.execProgressMap n s
  | .resolveResume n => Sys2Proof.Machine.execResolveResume n s
  | .resolveRestart n => Sys2Proof.Machine.execResolveRestart n s
  | .resolveAbandon n => Sys2Proof.Machine.execResolveAbandon n s
  | .resetColdRequest n => Sys2Proof.Machine.execResetColdRequest n s
  | .resetDomainRequest n => Sys2Proof.Machine.execResetDomainRequest n s
  | .resetWorkerRequest n => Sys2Proof.Machine.execResetWorkerRequest n s
  | .lcChallenge n => Sys2Proof.Machine.execLcChallenge n s
  | .lcNonceExpiry => Sys2Proof.Machine.execLcNonceExpiry s
  | .lcChange n => Sys2Proof.Machine.execLcChange n s
  | .lcWipeComplete programmed => Sys2Proof.Machine.execLcWipeComplete programmed s
  | .keyRevoke n => Sys2Proof.Machine.execKeyRevoke n s
  | .debugUnlock n => Sys2Proof.Machine.execDebugUnlock n s
  | .debugLock n => Sys2Proof.Machine.execDebugLock n s
  | .fwWrite n => Sys2Proof.Machine.execFwWrite n s
  | .fwCommit n => Sys2Proof.Machine.execFwCommit n s
  | .fwActivateNow n => Sys2Proof.Machine.execFwActivateNow n s
  | .fwActivateHandover => Sys2Proof.Machine.execFwActivateHandover s
  | .fwActivateRejoin => Sys2Proof.Machine.execFwActivateRejoin s
  | .fwActivateAtReset n => Sys2Proof.Machine.execFwActivateAtReset n s
  | .siteWriteData n => Sys2Proof.Machine.execSiteWriteData n s
  | .siteWriteCommit n => Sys2Proof.Machine.execSiteWriteCommit n s
  | .serviceSubstitute n => Sys2Proof.Machine.execServiceSubstitute n s
  | .serviceRelease n => Sys2Proof.Machine.execServiceRelease n s
  | .serviceRetrain n => Sys2Proof.Machine.execServiceRetrain n s
  | .serviceRepair n => Sys2Proof.Machine.execServiceRepair n s
  | .serviceWithdraw n => Sys2Proof.Machine.execServiceWithdraw n s
  | .spareHandover k => Sys2Proof.Machine.execSpareHandover k s
  | .identityReturn k => Sys2Proof.Machine.execIdentityReturn k s
  | .mbxInboundWrite n offset data => Sys2Proof.Machine.execMbxInboundWrite n offset data s
  | .mbxPost n => Sys2Proof.Machine.execMbxPost n s
  | .mbxOutAck n => Sys2Proof.Machine.execMbxOutAck n s
  | .outboundSlotFill n => Sys2Proof.Machine.execOutboundSlotFill n s
  | .completionNoticeSend source => Sys2Proof.Machine.execCompletionNoticeSend source s
  | .noticeRetransmit source => Sys2Proof.Machine.execNoticeRetransmit source s
  | .mailboxRemoteReply n => Sys2Proof.Machine.execMailboxRemoteReply n s
  | .i3cPrivateWrite data => Sys2Proof.Machine.execI3cPrivateWrite data s
  | .i3cPrivateRead count => Sys2Proof.Machine.execI3cPrivateRead count s
  | .setdasa staticAddr dynamicAddr => Sys2Proof.Machine.execSetdasa staticAddr dynamicAddr s
  | .entdaa dynamicAddr => Sys2Proof.Machine.execEntdaa dynamicAddr s
  | .rstdaa => Sys2Proof.Machine.execRstdaa s
  | .enec => Sys2Proof.Machine.execEnec s
  | .disec => Sys2Proof.Machine.execDisec s
  | .getpid => Sys2Proof.Machine.execGetpid s
  | .getbcr => Sys2Proof.Machine.execGetbcr s
  | .getdcr => Sys2Proof.Machine.execGetdcr s
  | .getstatus => Sys2Proof.Machine.execGetstatus s
  | .mgmtMessageFrame addr port payload => Sys2Proof.Machine.execMgmtMessageFrame addr port payload s
  | .mgmtImageData addr port payload => Sys2Proof.Machine.execMgmtImageData addr port payload s
  | .neighbourRequest addr fromAddr => Sys2Proof.Machine.execNeighbourRequest addr fromAddr s
  | .ptpMessage addr message => Sys2Proof.Machine.execPtpMessage addr message s
  | .tspData p packet => Sys2Proof.Machine.execTspData p packet s
  | .tspCredit p packet => Sys2Proof.Machine.execTspCredit p packet s
  | .tspMailbox p packet => Sys2Proof.Machine.execTspMailbox p packet s
  | .tspMbxAck p packet => Sys2Proof.Machine.execTspMbxAck p packet s
  | .tspMbxBusy p packet => Sys2Proof.Machine.execTspMbxBusy p packet s
  | .tspRingOpen p packet => Sys2Proof.Machine.execTspRingOpen p packet s
  | .tspRingClose p packet => Sys2Proof.Machine.execTspRingClose p packet s
  | .tspNop p packet => Sys2Proof.Machine.execTspNop p packet s
  | .tspNopSend p => Sys2Proof.Machine.execTspNopSend p s
  | .partnerLinkLoss p => Sys2Proof.Machine.execPartnerLinkLoss p s
  | .waggleData n frame fec => Sys2Proof.Machine.execWaggleData n frame fec s
  | .waggleMailbox n frame fec => Sys2Proof.Machine.execWaggleMailbox n frame fec s
  | .linkMailboxDeliver n => Sys2Proof.Machine.execLinkMailboxDeliver n s
  | .waggleRingOpen n frame fec => Sys2Proof.Machine.execWaggleRingOpen n frame fec s
  | .waggleRingClose n frame fec => Sys2Proof.Machine.execWaggleRingClose n frame fec s
  | .rcredit n frame fec => Sys2Proof.Machine.execRcredit n frame fec s
  | .check n frame fec => Sys2Proof.Machine.execCheck n frame fec s
  | .timeReq n frame fec => Sys2Proof.Machine.execTimeReq n frame fec s
  | .waggleTimeResp n frame fec => Sys2Proof.Machine.execWaggleTimeResp n frame fec s
  | .hello n frame fec => Sys2Proof.Machine.execHello n frame fec s
  | .cert n frame fec => Sys2Proof.Machine.execCert n frame fec s
  | .prove n frame fec => Sys2Proof.Machine.execProve n frame fec s
  | .finish n frame fec => Sys2Proof.Machine.execFinish n frame fec s
  | .resume n frame fec => Sys2Proof.Machine.execResume n frame fec s
  | .quarantine n frame fec => Sys2Proof.Machine.execQuarantine n frame fec s
  | .ack n frame fec => Sys2Proof.Machine.execAck n frame fec s
  | .nak n frame fec => Sys2Proof.Machine.execNak n frame fec s
  | .ackTimer n => Sys2Proof.Machine.execAckTimer n s
  | .replayTimeout n => Sys2Proof.Machine.execReplayTimeout n s
  | .linkFail n => Sys2Proof.Machine.execLinkFail n s
  | .handshakeTimeout n => Sys2Proof.Machine.execHandshakeTimeout n s
  | .handshakeRetry n => Sys2Proof.Machine.execHandshakeRetry n s
  | .quarantineExpiry n => Sys2Proof.Machine.execQuarantineExpiry n s
  | .sessionResumeTimeout n => Sys2Proof.Machine.execSessionResumeTimeout n s
  | .timeReqLaunch => Sys2Proof.Machine.execTimeReqLaunch s
  | .sourceLoss source => Sys2Proof.Machine.execSourceLoss source s
  | .sourceChange => Sys2Proof.Machine.execSourceChange s
  | .timeFaultExclusionEnd source => Sys2Proof.Machine.execTimeFaultExclusionEnd source s
  | .governorPeriod sample => Sys2Proof.Machine.execGovernorPeriod sample s
  | .flowPointBegin => Sys2Proof.Machine.execFlowPointBegin s
  | .flowLead => Sys2Proof.Machine.execFlowLead s
  | .frameGated f => Sys2Proof.Machine.execFrameGated f s
  | .vclkSwitch => Sys2Proof.Machine.execVclkSwitch s
  | .telemStreamPeriod c => Sys2Proof.Machine.execTelemStreamPeriod c s
  | .logWrite => Sys2Proof.Machine.execLogWrite s
  | .timNowLoRead => Sys2Proof.Machine.execTimNowLoRead s
  | .wrkCycLoRead w k => Sys2Proof.Machine.execWrkCycLoRead w k s
  | .pwrFrameEnergyLoRead f => Sys2Proof.Machine.execPwrFrameEnergyLoRead f s
  | .registerWrite target offset value => Sys2Proof.Machine.execRegisterWrite target offset value s
  | .workOrderStart r => Sys2Proof.Machine.execWorkOrderStart r s
  | .microVectorOp r => Sys2Proof.Machine.execMicroVectorOp r s
  | .chain r => Sys2Proof.Machine.execChain r s
  | .convert r => Sys2Proof.Machine.execConvert r s
  | .rowGather r => Sys2Proof.Machine.execRowGather r s
  | .rsum r => Sys2Proof.Machine.execRsum r s
  | .rsumsq r => Sys2Proof.Machine.execRsumsq r s
  | .rmean r => Sys2Proof.Machine.execRmean r s
  | .rsum2 r => Sys2Proof.Machine.execRsum2 r s
  | .rmax r => Sys2Proof.Machine.execRmax r s
  | .rmin r => Sys2Proof.Machine.execRmin r s
  | .ramax r => Sys2Proof.Machine.execRamax r s
  | .rargmax r => Sys2Proof.Machine.execRargmax r s
  | .rargmin r => Sys2Proof.Machine.execRargmin r s
  | .nstats r => Sys2Proof.Machine.execNstats r s
  | .rmsstats r => Sys2Proof.Machine.execRmsstats r s
  | .napply r => Sys2Proof.Machine.execNapply r s
  | .smaxStats r => Sys2Proof.Machine.execSmaxStats r s
  | .smaxApply r => Sys2Proof.Machine.execSmaxApply r s
  | .smaxBlock r => Sys2Proof.Machine.execSmaxBlock r s
  | .smaxRescale r => Sys2Proof.Machine.execSmaxRescale r s
  | .smaxSeed r => Sys2Proof.Machine.execSmaxSeed r s
  | .smaxSeedApply r => Sys2Proof.Machine.execSmaxSeedApply r s
  | .adamw r => Sys2Proof.Machine.execAdamw r s
  | .adamL2 r => Sys2Proof.Machine.execAdamL2 r s
  | .momentum r => Sys2Proof.Machine.execMomentum r s
  | .nwatch r => Sys2Proof.Machine.execNwatch r s
  | .fcopy r => Sys2Proof.Machine.execFcopy r s
  | .fload r => Sys2Proof.Machine.execFload r s
  | .fstore r => Sys2Proof.Machine.execFstore r s
  | .fsend r => Sys2Proof.Machine.execFsend r s
  | .ftrans r => Sys2Proof.Machine.execFtrans r s
  | .ftransStore r => Sys2Proof.Machine.execFtransStore r s
  | .csend r => Sys2Proof.Machine.execCsend r s
  | .cland r => Sys2Proof.Machine.execCland r s
  | .ccheck r => Sys2Proof.Machine.execCcheck r s
  | .tfence r => Sys2Proof.Machine.execTfence r s
  | .unitGrant w idleCycles => Sys2Proof.Machine.execUnitGrant w idleCycles s
  | .unitSteal w idleCycles => Sys2Proof.Machine.execUnitSteal w idleCycles s
  | .tileIssue w upset ringCycles conflictCycles => Sys2Proof.Machine.execTileIssue w upset ringCycles conflictCycles s
  | .closeUnit w => Sys2Proof.Machine.execCloseUnit w s
  | .shadowSampleCompute w => Sys2Proof.Machine.execShadowSampleCompute w s
  | .guardLevelAdvance r => Sys2Proof.Machine.execGuardLevelAdvance r s
  | .starveTimeout waiter => Sys2Proof.Machine.execStarveTimeout waiter s
  | .blockTimeout waiter => Sys2Proof.Machine.execBlockTimeout waiter s
  | .foragerUnitTake g upset => Sys2Proof.Machine.execForagerUnitTake g upset s
  | .stackWriteAck m g => Sys2Proof.Machine.execStackWriteAck m g s
  | .stackReadReturn m g result => Sys2Proof.Machine.execStackReadReturn m g result s
  | .fsendCreditTimeout g => Sys2Proof.Machine.execFsendCreditTimeout g s
  | .csendCreditTimeout g => Sys2Proof.Machine.execCsendCreditTimeout g s
  | .landingTimeout n => Sys2Proof.Machine.execLandingTimeout n s
  | .checkpointTimeout r => Sys2Proof.Machine.execCheckpointTimeout r s
  | .narrowForcedGrant f bank waited => Sys2Proof.Machine.execNarrowForcedGrant f bank waited s
  | .scrubComplete f => Sys2Proof.Machine.execScrubComplete f s
  | .patrolRead f bank line finding => Sys2Proof.Machine.execPatrolRead f bank line finding s
  | .stackRefresh m => Sys2Proof.Machine.execStackRefresh m s
  | .stackRfmRequest m => Sys2Proof.Machine.execStackRfmRequest m s
  | .stackPowerDown m => Sys2Proof.Machine.execStackPowerDown m s
  | .stackFailure m => Sys2Proof.Machine.execStackFailure m s
  | .journalCopyComplete => Sys2Proof.Machine.execJournalCopyComplete s
  | .laneRepairComplete m => Sys2Proof.Machine.execLaneRepairComplete m s
  | .laneRepairTimeout m => Sys2Proof.Machine.execLaneRepairTimeout m s
  | .journalCheckpoint => Sys2Proof.Machine.execJournalCheckpoint s
  | .deliveredBatch => Sys2Proof.Machine.execDeliveredBatch s
  | .progressRecord => Sys2Proof.Machine.execProgressRecord s
  | .sourceTableExpiry source => Sys2Proof.Machine.execSourceTableExpiry source s
  | .runFaultAbandon r => Sys2Proof.Machine.execRunFaultAbandon r s
  | .runFaultStop r => Sys2Proof.Machine.execRunFaultStop r s
  | .commitSlotDrain w => Sys2Proof.Machine.execCommitSlotDrain w s
  | .drainTimeout w => Sys2Proof.Machine.execDrainTimeout w s
  | .readmissionStepDone w pass => Sys2Proof.Machine.execReadmissionStepDone w pass s
  | .workerAdmit w => Sys2Proof.Machine.execWorkerAdmit w s
  | .frameDomainReset f => Sys2Proof.Machine.execFrameDomainReset f s
  | .ringRebuild r ring => Sys2Proof.Machine.execRingRebuild r ring s
  | .foragerReset g => Sys2Proof.Machine.execForagerReset g s
  | .keeperPairSwitch => Sys2Proof.Machine.execKeeperPairSwitch s
  | .keeperPairResync => Sys2Proof.Machine.execKeeperPairResync s
  | .replayTableInstall r => Sys2Proof.Machine.execReplayTableInstall r s
  | .rstNRelease => Sys2Proof.Machine.execRstNRelease s
  | .syncRefLock => Sys2Proof.Machine.execSyncRefLock s
  | .stackSupplyLoss => Sys2Proof.Machine.execStackSupplyLoss s
  | .telemetryDebugPortAccess access => Sys2Proof.Machine.execTelemetryDebugPortAccess access s
  | .adapterPacketAck p => Sys2Proof.Machine.execAdapterPacketAck p s

end Sys2Proof.Machine
end

