-- ==== Sys2Proof/Safety.lean ====
section
/-!
DEFINITION. What counts as a safe step, and the terms in which the statements speak.
-/

namespace Sys2Proof.Machine

/-! ### Outcomes -/

/-- A step that goes on: neither a fault nor a refusal. -/
def Completes (o : Host.Outcome State Fault Refusal) : Prop := ∃ t, o = .next t

/-- A command completes, in a state of which `P` holds. -/
def Gives (c : Instr) (s : State) (P : State → Prop) : Prop := ∃ t, exec c s = .next t ∧ P t

/-! ### The shape of the state -/

/-- The memories of the die stand in their canonical form. -/
def MemoriesCanonical (s : State) : Prop :=
  memWf combDefault s.comb = true ∧ memWf stackDefault s.stackMem = true ∧ memWf flashDefault s.flash = true

/-- The die has the parts that the manual gives it: 16 mailboxes of 256-byte slots (R303), 8 resident runs
(R284), 8 frames, 68 workers and 32 foragers (R13, R16), 8 partner ports, 4 memory ports and 24 link ports,
and a log buffer of 4,096 records (R447). -/
def Whole (s : State) : Prop :=
  s.mailboxes.length = 16 ∧ (∀ b ∈ s.mailboxes, b.inbound.length = 256) ∧ s.runs.length = 8 ∧ s.frames.length = 8
    ∧ s.workers.length = 68 ∧ s.foragers.length = 32 ∧ s.partners.length = 8 ∧ s.mems.length = 4 ∧ s.links.length = 24
    ∧ s.telem.buffer.length ≤ 4096

/-- A state that any run can reach has its memories in canonical form and all its parts. -/
def Sound (s : State) : Prop := MemoriesCanonical s ∧ Whole s

/-! ### Frames -/

/-- Nothing but mailbox `n` differs. -/
def OnlyMailbox (s t : State) (n : Nat) : Prop := ∃ b, t = setMailbox s n (fun _ => b)

/-- No link's waiting frame is held by a used-up share of R411, so the end of a session or an acknowledgement on one link
moves nothing on another. -/
def NothingWaits (s : State) : Prop := shareFull s = false ∨ ∀ k, (getLink s k).txQueue = []

/-! ### Faults of a run -/

/-- A run has the fault of a code at a unit. -/
def FaultedAt (u : State) (r : Nat) (code : BitVec 16) (x : UnitRef) : Prop :=
  (getRun u r).bind Run.fault = some { code := code, instr := x.instr, unit := x.unit }

/-- A run executes an order and has no fault: the next fault of class A or C is the order's. -/
def Faultable (s : State) (r : Nat) : Prop := ∃ rn, getRun s r = some rn ∧ rn.fault = none ∧ rn.order.isSome = true

/-! ### Messages -/

/-- The die is clocked, and the message in the inbound slot of mailbox `n` completes a request `p` of type
`ty` that passes every check of R315; `t` is the state in which the Keeper has taken it. -/
def Heard (s : State) (n : Fin 16) (ty : BitVec 16) (t : State) (p : Pending) : Prop :=
  standing s = false ∧ takeMessage s n = .request t p ∧ p.type = ty

/-- The same for a request whose body names action `act` at byte `off`. -/
def HeardAction (s : State) (n : Fin 16) (ty : BitVec 16) (off act : Nat) (t : State) (p : Pending) : Prop :=
  Heard s n ty t p ∧ field p.body off 1 = act

/-- The messages of the reply to a request (R312, R313). -/
def replyOf (t : State) (p : Pending) (status : BitVec 16) (body : Bytes) : List OutMsg :=
  (fragments (p.type ||| 0x8000) p.tag p.source status (t.time.now / 65536) body).map (fun b => { bytes := b, completion := none })

/-- Between two states a mailbox has been given exactly the reply to a request, which it stores for a repeated
tag (R314). -/
def Answered (t u : State) (p : Pending) (status : BitVec 16) (body : Bytes) : Prop :=
  getMailbox u p.mailbox =
    { getMailbox t p.mailbox with
        queue := (outgoing (getMailbox t p.mailbox) ++ replyOf t p status body).take 64
        unsent := (outgoing (getMailbox t p.mailbox) ++ replyOf t p status body).drop 64
        lastTag := some p.tag
        lastReply := replyOf t p status body }

/-- The reply is all that a request brings about. -/
def OnlyAnswers (t u : State) (p : Pending) (status : BitVec 16) (body : Bytes) : Prop :=
  Answered t u p status body ∧ OnlyMailbox t u p.mailbox

/-! ## The terms of single statements -/

/-! ### The die that stands still -/

/-- The commands that act on more than the clocked parts: the reset inputs and the trip (R507, R509), the
refresh and the supply of the stacks (R475), the level of PMB_ALERT_N. -/
def outsideClocks : Instr → Bool
  | .powerOnReset _ | .porstLow | .coldReset | .rstNRelease | .thermalTrip => true
  | .stackRefresh _ | .stackSupplyLoss | .pmbAlertAssert | .pmbAlertRelease => true
  | _ => false

/-- The commands that end a thermal trip (R509). -/
def endsTrip : Instr → Bool
  | .powerOnReset _ | .porstLow => true
  | _ => false

/-- No programmed fuse is taken back (R478). -/
def FusesGrow (f g : Fuses) : Prop :=
  (f.returned = true → g.returned = true) ∧ (f.retired = true → g.retired = true) ∧ f.commissions ≤ g.commissions
    ∧ f.decommissions ≤ g.decommissions ∧ f.banks.length ≤ g.banks.length ∧ f.fwRollback ≤ g.fwRollback
    ∧ ∀ k, f.fwRevoke.getLsbD k = true → g.fwRevoke.getLsbD k = true

/-! ### Rows that read a mailbox -/

/-- The mailbox that a message row reads. -/
def rowMailbox : Instr → Option (Fin 16)
  | .messageFragment n | .status n | .forward n | .imageWrite n | .imageLoad n | .imageUnload n | .kill n | .submit n
  | .query n | .noticeAck n | .tableLoad n | .tableRetire n | .regReadPage n | .regReadWorker n | .regWritePage n
  | .regWriteWorker n | .regWriteFrame n | .regWriteGroup n | .regWriteAll n | .groupSet n | .bist n | .portStatus n
  | .linkStatus n | .linkRoute n | .linkCtlRetrain n | .linkCtlEndQuarantine n | .linkCtlDisable n | .linkCtlEnable n
  | .timeStatus n | .timeCfgSetMode n | .timeCfgSetEpoch n | .timeCfgSetPpsSecond n | .timeCfgRejoin n | .flowSet n
  | .flowStatus n | .telemStreamOpen n | .telemStreamClose n | .telemRead n | .timeMark n | .faultStatus n | .progressMap n
  | .resolveResume n | .resolveRestart n | .resolveAbandon n | .resetColdRequest n | .resetDomainRequest n
  | .resetWorkerRequest n | .lcChallenge n | .lcChange n | .keyRevoke n | .debugUnlock n | .debugLock n | .fwWrite n
  | .fwCommit n | .fwActivateNow n | .fwActivateAtReset n | .siteWriteData n | .siteWriteCommit n | .serviceSubstitute n
  | .serviceRelease n | .serviceRetrain n | .serviceRepair n | .serviceWithdraw n | .mailboxRemoteReply n => some n
  | _ => none

/-- The Keeper can take the message that stands in the inbound slot of mailbox `n` (R302, R306, R307). -/
def Takes (s : State) (n : Fin 16) : Prop :=
  standing s = false ∧ (getMailbox s n).inFull = true ∧ s.keeper.state ≠ .rom ∧ s.life.change = none
    ∧ (getMailbox s n).queue.length < 64

/-- Bytes of an image store slot have been written into each copy whose stack is up, or nothing has been, with a code (R319;
0x0402 and the mark of a copy that misses the write: notes/assumptions/86.md). -/
def ImageWritten (s u : State) (slot off : Nat) (data : Bytes) (code : BitVec 16) : Prop :=
  (code = if 7 < slot ∨ 2 ^ 31 < off + data.length then 0x0550 else if slotBusy s slot = true then 0x0551
      else if stackUp s 1 = false ∧ stackUp s 3 = false then 0x0402 else 0)
    ∧ (code ≠ 0 → u.stackMem = s.stackMem ∧ u.mems = s.mems)
    ∧ (code = 0 → u.stackMem = ([1, 3].filter (stackUp s)).foldl (fun m k =>
          memSetMany stackDefault (bytesAt (imageAddr s k slot off) data) m) s.stackMem
        ∧ ∀ m, getMemPort u m = if (m = 1 ∨ m = 3) ∧ stackUp s m = false then { getMemPort s m with imageStale := true } else getMemPort s m)

/-! ### The register window -/

/-- The worker numbers that an alias of REG_WRITE addresses (Table 10.11); none where its index names nothing. -/
def aliasNumbers (s : State) (p : Pending) : Option (List Nat) :=
  let i := field p.body 1 1
  match field p.body 0 1 with
  | 1 => some [i]
  | 2 => if i < 8 then some ((List.range 8).map (fun w => w + 8 * i)) else none
  | 3 => if i < 8 then some (maskList 68 (nth s.keeper.groups i).toNat) else none
  | 4 => some (everyNumber s)
  | _ => none

/-- The REG_WRITE row of an alias of workers. -/
def workerWriteRow (a : Nat) (n : Fin 16) : Instr :=
  if a = 1 then .regWriteWorker n else if a = 2 then .regWriteFrame n else if a = 3 then .regWriteGroup n else .regWriteAll n

/-- May a REG_WRITE not touch a worker now (R29, Table 14.5)? -/
def untouchable (s : State) (w : Nat) : Bool := (getWorker s w).run.isSome || inReadmission (getWorker s w)

/-- The state after REGISTER_WRITE of a register of the page. -/
def pageWritten (s : State) (off v : Nat) : State :=
  match exec (.registerWrite none (BitVec.ofNat 32 off) (BitVec.ofNat 32 v)) s with
  | .next t => t
  | _ => s

/-! ### Hive time -/

/-- Nothing but time, the records and the Keeper's state that joining brings differs. -/
def OnlyTime (s t : State) : Prop := t = { s with time := t.time, telem := t.telem, keeper := { s.keeper with state := t.keeper.state, code := t.keeper.code }, life := { s.life with readyAt := t.life.readyAt } }

/-- The best of the sources but one that the die may follow (R419). -/
def bestBut (s : State) (src : TimeSource) : Option SourceState :=
  bestOf ((s.time.sources.filter (fun y => !(y.source == src))).filter (followable s))

/-- While the log's buffer has room, its next record is of a kind and names an event (Table 13.6). -/
def EventLogged (s u : State) (kind event : Nat) : Prop :=
  s.telem.buffer.length < 4096 → ∃ x rest, u.telem.buffer = s.telem.buffer ++ x :: rest ∧ field x 10 1 = kind ∧ field x 16 1 = event

/-- A source stands as it was measured, but for an exclusion that follows. -/
def Measured (u : State) (x : SourceState) : Prop :=
  findSource u x.source = { x with excludedUntil := (findSource u x.source).excludedUntil }

/-- What the measurement of a source, which stands as `x` after it, brings about (R413, R416, R419, R422, R424): nothing while
the source has not qualified, is not allowed or is excluded; it is joined by a step forward or a slew back; beyond 1 ms it
is a fault; within, a source in force is slewed to, and one comes into force where none is. -/
def Disciplined (s u : State) (x : SourceState) : Prop :=
  let may : Prop := x.qualified = true ∧ modeAllows (bits s.time.cfg.toNat 1 0) x.source = true ∧ x.excludedUntil = none
  let kept : Prop := u.time.now = s.time.now ∧ u.time.inForce = s.time.inForce ∧ u.time.slew = s.time.slew ∧ u.time.joined = s.time.joined
  (¬ may → kept)
    ∧ (may → s.time.joined = false → u.time.joined = true ∧ u.time.inForce = some x.source ∧ u.time.holdover = false
        ∧ (0 < x.offset → (u.time.now : Int) = s.time.now + psUnits x.offset ∧ u.time.slew = 0)
        ∧ (x.offset ≤ 0 → u.time.now = s.time.now ∧ u.time.slew = psUnits x.offset))
    ∧ (may → s.time.joined = true → 10 ^ 9 < x.offset.natAbs → u.time.now = s.time.now ∧ u.time.fault = true ∧ u.time.inForce ≠ some x.source
        ∧ (findSource u x.source).excludedUntil = some (s.wall + 60 * 10 ^ 9) ∧ EventLogged s u 35 3)
    ∧ (may → s.time.joined = true → x.offset.natAbs ≤ 10 ^ 9 → u.time.now = s.time.now
        ∧ (s.time.inForce = some x.source ∨ s.time.inForce = none → u.time.inForce = some x.source ∧ u.time.slew = psUnits x.offset)
        ∧ (s.time.inForce = none → u.time.holdover = false)
        ∧ (s.time.inForce ≠ some x.source → s.time.inForce ≠ none → kept))

/-! ### Packets of a partner -/

/-- The row of a type of TSP packet (Table 11.3). -/
def tspRow (ty : Nat) (p : Fin 8) (k : Bytes) : Instr :=
  if ty = 1 then .tspData p k else if ty = 2 then .tspCredit p k else if ty = 3 then .tspMailbox p k
  else if ty = 4 then .tspMbxAck p k else if ty = 5 then .tspMbxBusy p k else if ty = 6 then .tspRingOpen p k
  else if ty = 7 then .tspRingClose p k else .tspNop p k

/-- Does a packet break the layout or the length of its type (R345, R346)? -/
def tspMalformed (k : Bytes) : Bool := tspReserved k || tspLengthBad k

/-- A packet of a type that the port takes: it is up, its buffer has the units, and the packet is well formed (R346,
R349, R351). -/
def TspTakes (s : State) (p : Fin 8) (ty : Nat) (k : Bytes) : Prop :=
  standing s = false ∧ portUp (getPartner s p) = true ∧ field k 0 1 = ty ∧ tspCost (k.length - 32) ≤ (getPartner s p).rxFree
    ∧ tspMalformed k = false

/-- The port after a packet that has been taken whole: its units freed again, and the units that it returns, for which waiting
packets leave (R349). -/
def tspTaken (s : State) (p : Nat) (k : Bytes) : State :=
  let c := tspCost (k.length - 32)
  tspPump (setPartner s p (fun q => { q with
    rxFree := q.rxFree - c, owed := if field k 0 1 = 8 then q.owed else q.owed + c,
    owedNop := if field k 0 1 = 8 then q.owedNop + c else q.owedNop, txUnits := q.txUnits + field k 24 2 })) p

/-- A violation that faults no run: it is counted, and sets a bit of PRT_ERR (R351, R355). -/
def tspCounted (s : State) (p bitNo : Nat) : State :=
  setPartner s p (fun q => { q with err := q.err ||| BitVec.ofNat 6 (2 ^ bitNo), errCount := satAdd q.errCount 1 })

/-- A packet without payload of a type has been handed to a port whose state was `q`: it has left when units and share allow
and none waits, else it waits (R349, R372). -/
def HandedOver (u : State) (p : Nat) (q : PartnerPort) (ty : Nat) : Prop :=
  (q.waiting = [] → tspMay q 0 = true → (getPartner u p).waiting = [] ∧ ∃ x : Bytes, (getPartner u p).sent = q.sent ++ [x] ∧ field x 0 1 = ty)
    ∧ (q.waiting ≠ [] ∨ tspMay q 0 = false → (getPartner u p).sent = q.sent
        ∧ ∃ k, (getPartner u p).waiting = q.waiting ++ [k] ∧ k.type = ty ∧ k.payload = [])

/-! ### Frames of a Waggle link -/

/-- The row of a frame type (Table 12.3). -/
def frameRow (ty : Nat) (n : Fin 24) (k : Bytes) (fec : FecReport) : Instr :=
  match ty with
  | 1 => .waggleData n k fec | 2 => .waggleMailbox n k fec | 3 => .waggleRingOpen n k fec | 4 => .waggleRingClose n k fec
  | 5 => .rcredit n k fec | 6 => .check n k fec | 7 => .timeReq n k fec | 8 => .waggleTimeResp n k fec | 9 => .hello n k fec
  | 10 => .cert n k fec | 11 => .prove n k fec | 12 => .finish n k fec | 13 => .resume n k fec | 14 => .quarantine n k fec
  | 15 => .ack n k fec | _ => .nak n k fec

/-- A link that listens (R375, R380). -/
def Listening (s : State) (n : Nat) : Prop :=
  standing s = false ∧ (getLink s n).lanes ≠ 0 ∧ (getLink s n).state ≠ 0#3 ∧ (getLink s n).state ≠ 1#3 ∧ (getLink s n).state ≠ 5#3

/-- The frame check of a whole frame without uncorrectable codewords holds (R376, R380). -/
def wholeFrame (k : Bytes) (fec : FecReport) : Bool :=
  fec.uncorrected == 0 && 36 ≤ k.length && (crc32c (k.take (k.length - 4))).toNat == leNat (k.drop (k.length - 4))

/-- The form of a frame is not that of its type (R390), its tag counted where it has one. -/
def badForm (s : State) (n : Nat) (k : Bytes) : Bool :=
  frameMalformed k (if protectedFrame (getLink s n) (field k 0 1) then 16 else 0)

/-- A frame that passes every check of its reception (R378, R380, R390), its payload in clear; nothing waits to be sent. -/
def FrameTaken (s : State) (n : Fin 24) (ty : Nat) (k : Bytes) (fec : FecReport) (pay : Bytes) : Prop :=
  let l := getLink s n
  Listening s n ∧ wholeFrame k fec = true ∧ field k 0 1 = ty ∧ openFrame s l k = some pay ∧ badForm s n k = false
    ∧ l.txQueue = [] ∧ NothingWaits s
    ∧ (isAckNak ty = false → field k 4 4 = l.rxSeq ∧ strayRoute k = false ∧ frameUnits k.length ≤ nth l.rxGranted (frameVc ty))

/-- What the reception of any good frame changes (R378 to R380): the frames that it acknowledges leave the replay buffer, the
units that it returns are held, every frame but ACK and NAK moves the expected number on and makes an acknowledgement due;
beside these, the counts of the FEC, the units granted to the peer and the time of the acknowledgement. -/
def AfterFrame (s u : State) (n : Nat) (k : Bytes) : Prop :=
  let x := getLink s n
  let l := getLink u n
  u = setLink s n (fun x => { x with
      fecCe := l.fecCe, fecUe := l.fecUe, rxSeq := l.rxSeq, rxCount := l.rxCount, ackDue := l.ackDue, lastNak := l.lastNak,
      replay := l.replay, ackedAt := l.ackedAt, txUnits := l.txUnits, rxGranted := l.rxGranted, rxUsed := l.rxUsed })
    ∧ l.replay = x.replay.drop (match indexWhere x.replay (fun f => f.seq == field k 8 4) with | some i => i + 1 | none => 0)
    ∧ l.txUnits = updAt x.txUnits (bits (field k 12 2) 13 12) (· + bits (field k 12 2) 11 0)
    ∧ (isAckNak (field k 0 1) = true → l.rxSeq = x.rxSeq ∧ l.ackDue = x.ackDue)
    ∧ (isAckNak (field k 0 1) = false → l.rxSeq = seqNext x.rxSeq ∧ l.ackDue = true)

/-- One more malformed frame is no quarantine yet (R391). -/
def UnderLimit (s : State) (n : Nat) : Prop :=
  ((getLink s n).malTimes.filter (fun t => s.wall < t + 10 ^ 7)).length + 1 < bits (getLink s n).cfg.toNat 23 16

/-- A malformed frame has been dropped: a bit of LNK_ERR, LNK_MAL_COUNT, and no more of the session (R390). -/
def FrameRefused (s u : State) (n b : Nat) : Prop :=
  u = { s with links := u.links } ∧ (∀ m, m ≠ n → getLink u m = getLink s m)
    ∧ (getLink u n).err = (getLink s n).err ||| BitVec.ofNat 8 (2 ^ b) ∧ (getLink u n).malCount = satAdd (getLink s n).malCount 1
    ∧ (getLink u n).state = (getLink s n).state ∧ (getLink u n).handshake = (getLink s n).handshake
    ∧ (getLink u n).session = (getLink s n).session ∧ (getLink u n).peerRings = (getLink s n).peerRings

/-- The receiver has sent NAK, unless it has done so for this number within the last 10 us (R380). -/
def Nakked (s u : State) (n : Nat) : Prop :=
  let l := getLink s n
  (getLink u n).rxSeq = l.rxSeq
    ∧ ((∃ t, l.lastNak = some (l.rxSeq, t) ∧ s.wall < t + 10000) → (getLink u n).wire = l.wire)
    ∧ (¬ (∃ t, l.lastNak = some (l.rxSeq, t) ∧ s.wall < t + 10000) → (getLink u n).lastNak = some (l.rxSeq, s.wall)
        ∧ ∃ b, (getLink u n).wire = l.wire ++ [b] ∧ field b 0 1 = 16 ∧ field b 8 4 = lastInOrder l % 2 ^ 32)

/-- The link is in quarantine (R391): one QUARANTINE frame has left, the session has ended, its run has faulted, and the
period doubles with each quarantine of the last hour. -/
def Quarantined (s u : State) (n : Nat) : Prop :=
  let k := ((getLink s n).quarTimes.filter (fun t => s.wall < t + 3600 * 10 ^ 9)).length
  (getLink u n).state = 5 ∧ (getLink u n).cause = 0x0312 ∧ (getLink u n).session = none
    ∧ (getLink u n).quarUntil = s.wall + min 256 (2 ^ k) * 10 ^ 9 ∧ (getLink u n).quarCount = satAdd (getLink s n).quarCount 1
    ∧ (∃ b, (getLink u n).wire = (getLink s n).wire ++ [b] ∧ field b 0 1 = 14)
    ∧ (∀ r, (getLink s n).run = some r → Faultable s r → FaultedAt u r 0x0312 { instr := 0xFFFFFFFF, unit := 0 })

/-- A frame that the die has sent by a port with an empty queue: it waits there alone, or is the last to have left. -/
def SentOn (s u : State) (n ty : Nat) (land pay : Bytes) : Prop :=
  (∃ q, (getLink u n).txQueue = [q] ∧ q.type = ty ∧ q.land = land ∧ q.payload = pay)
    ∨ ∃ b, (getLink u n).wire = (getLink s n).wire ++ [b] ∧ field b 0 1 = ty ∧ (b.drop 16).take 16 = padTo 16 land

/-- A message of another die has come to a Waggle mailbox (R306, R410): behind the others where a message stands in the
inbound slot, into the slot where it is empty. -/
def MailIn (s u : State) (m : Nat) (msg : Bytes) (src : Nat) : Prop :=
  let b := getMailbox s m
  (b.inFull = true → getMailbox u m = { b with arrived := b.arrived ++ [(msg, BitVec.ofNat 16 src)] })
    ∧ (b.inFull = false → b.arrived = [] → getMailbox u m =
        { b with origin := BitVec.ofNat 16 src, inbound := padTo 256 (overlay b.inbound 0 msg), inFull := true })

/-- A handshake has failed with a code (R386, R389): state 6, and a retry after a wait that doubles up to 64 s. -/
def HandshakeFailed (s u : State) (n : Nat) (code : BitVec 16) : Prop :=
  u = { s with links := u.links, mailboxes := u.mailboxes } ∧ (∀ m, m ≠ n → getLink u m = getLink s m)
    ∧ (getLink u n).state = 6 ∧ (getLink u n).cause = code ∧ (getLink u n).handshake = none ∧ (getLink u n).txQueue = []
    ∧ (getLink u n).retryAt = some (s.wall + (getLink s n).retryWait * 10 ^ 9)
    ∧ (getLink u n).retryWait = min 64 (2 * (getLink s n).retryWait)

/-- A link that has lost its session and trains again (R381, R391, R406): off where the links are not to be opened. -/
def Retrains (s u : State) (n : Nat) : Prop :=
  (getLink u n).session = none ∧ (getLink u n).state = (if linksOpen s then 1 else 0) ∧ (getLink u n).lanes = 0
    ∧ (getLink u n).replay = [] ∧ (getLink u n).retryAt = none ∧ (getLink u n).retryWait = 1

/-! ### Resets -/

/-- What a power-on or cold reset clears, and what it keeps (Table 15.1). -/
def Cleared (s u : State) : Prop :=
  u.comb = [] ∧ u.poison = [] ∧ u.runs = State.reset.runs ∧ u.frames = State.reset.frames ∧ u.workers = State.reset.workers
    ∧ u.foragers = State.reset.foragers ∧ u.mailboxes = State.reset.mailboxes ∧ u.routes = [] ∧ u.time = TimeUnit.reset
    ∧ u.keeper = { Keeper.reset with archive := s.keeper.archive } ∧ u.life.fuses = s.life.fuses ∧ u.life.debug = false
    ∧ u.life.nonce = none ∧ (∀ l ∈ u.links, l.session = none ∧ l.cfg = Link.reset.cfg ∧ l.state = 0)
    ∧ (∀ p ∈ u.partners, p.state = 0 ∧ p.rings = []) ∧ (∀ m ∈ u.mems, m.state = 0)
    ∧ u.flash = s.flash ∧ u.stackMem = s.stackMem ∧ u.journal.records = s.journal.records ∧ u.telem.records = s.telem.records
    ∧ u.pending = s.pending

/-! ### Life-cycle messages -/

/-- The nonce is used up. -/
def nonceSpent (t : State) : State := setLife t (fun l => { l with nonce := none })

/-- The first code that rejects an LC_CHANGE (R482), or 0. -/
def changeRefusal (t : State) (p : Pending) (nonce : Bytes) : BitVec 16 :=
  let target := field p.body 0 1
  let what := idBytes t ++ natLe 1 (lcsCode t.life.state) ++ natLe 1 target ++ nonce ++ p.body.drop 201
  if changeAllowed t.life.state target = false then 0x0703
  else if changeKey t (signerOf p.body) = false ∨ signedOver p what = false then 0x0701
  else if anyResident t = true then 0x0704
  else if fusesSpent t.life.fuses t.life.state target = true then 0x0706
  else 0

/-- The first code that rejects a KEY_REVOKE (R481), or 0. -/
def revokeRefusal (t : State) (p : Pending) (nonce : Bytes) : BitVec 16 :=
  let k := field p.body 0 1
  if ¬ (k < 4 ∨ k = 0x10 ∨ k = 0x11) then 0x0502
  else if isOwner t (signerOf p.body) = false ∨ signedOver p (idBytes t ++ nonce ++ natLe 1 k) = false then 0x0701
  else if 4 ≤ k ∧ t.life.fuses.fwRevoke.getLsbD (0x11 - k) = true then 0x0703
  else 0

/-- The first code that rejects a DEBUG unlock (R485), or 0. -/
def unlockRefusal (t : State) (p : Pending) (nonce : Bytes) : BitVec 16 :=
  if t.life.state = .inService ∨ t.life.state = .retired then 0x0720
  else if anyResident t = true then 0x0704
  else if ¬ (isDebugKey t (signerOf p.body) = true ∨ (t.life.state = .returned ∧ isProvisioner t (signerOf p.body) = true))
      ∨ signedOver p (idBytes t ++ nonce ++ natLe 1 1) = false then 0x0701
  else 0

/-- The first code that rejects a FW_COMMIT (R490), or 0. -/
def commitRefusal (t : State) : BitVec 16 :=
  let r := bootRecord t (otherBank t)
  if recWellFormed r = false ∨ recSequence r ≠ 2 ^ 64 - 1 then 0x0710
  else if recSigned t (otherBank t) r = false ∨ firmwareWhole t (otherBank t) r = false then 0x0711
  else if recRollback r < rollbackLevel t.life.fuses then 0x0712
  else 0

/-! ### Loads -/

/-- The last thing that a mailbox has been given is the reply to a request, which it stores for a repeated tag. -/
def AnsweredLast (s u : State) (p : Pending) (status : BitVec 16) (body : Bytes) : Prop :=
  (getMailbox u p.mailbox).lastTag = some p.tag ∧ (getMailbox u p.mailbox).lastReply = replyOf s p status body
    ∧ ∃ pre, outgoing (getMailbox u p.mailbox) = pre ++ replyOf s p status body

/-- Code with which a load fails after its claim (R298). -/
def loadFailureCode : LoadFailure → BitVec 16
  | .none => 0 | .archiveWrite _ => 0x0402 | .bankCrc _ => 0x0262 | .combUncorrectable _ => 0x0222

/-- Tables that have been archived when a load fails in a step, of `n` embedded ones (R298). -/
def archivedBefore (n : Nat) : LoadFailure → Nat
  | .none => 0 | .archiveWrite done => min done n | .bankCrc _ => n | .combUncorrectable _ => n

/-- No frame waits on a link of a run. -/
def LinksIdle (s : State) (r : Nat) : Prop := ∀ n < 24, (getLink s n).run = some r → (getLink s n).txQueue = []

/-- The die has let go of a run: its number is free, and its frames are free and to be scrubbed (R297, R321). -/
def Released (t u : State) (r : Nat) : Prop :=
  getRun u r = none ∧ (∀ f ∈ runFrames t r, (getFrame u f).run = none ∧ ((getFrame u f).scrubBusy = true ∨ nonResident t f = []))
    ∧ (∀ w ∈ runWorkers t r, (getWorker u w).run = none ∧ (getWorker u w).held = [] ∧ (getWorker u w).cells = [])
    ∧ (∀ q < 8, (getPartner t q).run = some r → (getPartner u q).run = none)
    ∧ (∀ n < 24, (getLink t n).run = some r → (getLink u n).run = none)

/-- The first code that rejects a TABLE_LOAD (R236, R322), or 0. -/
def tableLoadRefusal (t : State) (p : Pending) : BitVec 16 :=
  let file := p.body.drop 104
  let slot := field p.body 1 1
  match getRun t (field p.body 0 1) with
  | none => 0x0521
  | some rn =>
    if rn.ready = false then 0x0521
    else if rn.image.numericMode = 1 then 0x0530
    else if imageSigOk t true (field p.body 4 4) (Config.sha384 file) ((p.body.drop 8).take 96) = false then 0x0102
    else
      match tableRefusal file with
      | some c => c
      | none =>
        if 15 < slot then 0x0174
        else if lacksPath rn.image slot file (wholeProgram (runImage t rn) rn.image) = true then 0x0175
        else if 4096 ≤ t.keeper.archive.length then 0x0533
        else if archiveStacks t = [] then 0x0402
        else 0

/-! ### Work orders -/

/-- A SUBMIT's sequence and order number (R326, Table 10.12). -/
def submitSeq (p : Pending) : Nat := field p.body 8 8
def submitNumber (p : Pending) : BitVec 64 := orderNumber p.source (submitSeq p)

/-- Has a source's sequence been used (R328)? -/
def seqUsed (t : State) (p : Pending) : Prop := ∃ l, lastSequence t p.source = some l ∧ 1 ≤ submitSeq p ∧ submitSeq p ≤ l

/-- Is it the next one, or any for a source without an entry (R328)? -/
def seqNextOne (t : State) (p : Pending) : Prop :=
  (lastSequence t p.source = none ∧ 1 ≤ submitSeq p) ∨ ∃ l, lastSequence t p.source = some l ∧ submitSeq p = l + 1

/-- The run that a SUBMIT's image stands in (R299). -/
def submitRun (t : State) (p : Pending) (r : Nat) (rn : Run) : Prop :=
  let named (r : Nat) : Prop := ∃ rn, getRun t r = some rn ∧ rn.ready = true ∧ rn.image.imageId = field p.body 0 8
  getRun t r = some rn ∧ named r ∧ ∀ r' < r, ¬ named r'

/-- Records of the journal in lsn order, all below the next (R338). -/
def JournalAscending (s : State) : Prop :=
  s.journal.records.Pairwise (fun a b => a.lsn < b.lsn) ∧ ∀ r ∈ s.journal.records, r.lsn < s.journal.nextLsn

/-! ### The issue of instructions -/

/-- The rows that issue an instruction, and the instructions that each issues (R113). -/
def issueRows : List ((Fin 8 → Instr) × (PInstr → Bool)) :=
  [(.microVectorOp, PInstr.micro), (.chain, macroOp 0x00 0x1F), (.convert, macroOp 0x40 0x4F), (.rowGather, macroOp 0x50 0x50),
   (.rsum, macroOp 0x20 0x20), (.rsumsq, macroOp 0x21 0x21), (.rmean, macroOp 0x22 0x22), (.rsum2, macroOp 0x23 0x23),
   (.rmax, macroOp 0x24 0x24), (.rmin, macroOp 0x25 0x25), (.ramax, macroOp 0x26 0x26), (.rargmax, macroOp 0x27 0x27),
   (.rargmin, macroOp 0x28 0x28), (.nstats, macroOp 0x2C 0x2C), (.rmsstats, macroOp 0x2D 0x2D), (.napply, macroOp 0x2E 0x2E),
   (.smaxStats, macroOp 0x30 0x30), (.smaxApply, macroOp 0x31 0x31), (.smaxBlock, macroOp 0x32 0x32)]
  ++ [(.smaxRescale, macroOp 0x33 0x33), (.smaxSeed, macroOp 0x34 0x34), (.smaxSeedApply, macroOp 0x35 0x35),
   (.adamw, macroOp 0x60 0x60), (.adamL2, macroOp 0x61 0x61), (.momentum, macroOp 0x62 0x62), (.nwatch, macroOp 0x68 0x68),
   (.fcopy, macroOp 0x70 0x70), (.fload, macroOp 0x71 0x71), (.fstore, macroOp 0x72 0x72), (.fsend, macroOp 0x73 0x73),
   (.ftrans, macroOp 0x74 0x74), (.ftransStore, macroOp 0x75 0x75), (.csend, macroOp 0x80 0x80), (.cland, macroOp 0x81 0x81),
   (.ccheck, macroOp 0x82 0x82), (.tfence, macroOp 0x98 0x98)]

/-- The issue-time checks that an instruction fails (R125, R256, R371), with the chunk size of a CSEND whose peer ring is
open (R399). -/
def issueFailures (s : State) (rn : Run) (op : PInstr) : List (BitVec 16) :=
  issueCodes s rn.image op (resolve s rn.image op)
    ++ (if op.micro = false ∧ op.opcode = 0x80 then
          match peerRing (getLink s (linkOf op)) (peerRingId op) with
          | some p =>
            let c := chunkElems (nth op.descs 0).fmt p.slotSize
            if c = 0 ∨ c % groupSize (nth op.descs 0).fmt ≠ 0 then ([0x0313] : List (BitVec 16)) else []
          | none => []
        else [])

/-- The iteration domain that an instruction issues with, and its units (R123, R132, R367, R399). -/
def issuedTiling (s : State) (rn : Run) (op : PInstr) : Tiling :=
  let v := resolve s rn.image op
  tilingOf op (extentsOf op v.sizes v.n3 v.n4)
def issuedUnits (s : State) (rn : Run) (op : PInstr) : List Nat :=
  instrUnits op (issuedTiling s rn op) (issueChunk s rn.image op)

/-- The units of an instruction that the order still owes (R458); a CSEND whose peer ring is not open yet owes the one unit that
stands for them (R399). -/
def issuedOwed (s : State) (rn : Run) (o : Order) (k : Nat) (op : PInstr) : List Nat :=
  if op.micro = false ∧ op.opcode = 0x80 ∧ issueChunk s rn.image op = 0 ∧ (∀ g ∈ o.progress, g.instr = k → g.done = false)
  then issuedUnits s rn op else owedUnits o k (issuedUnits s rn op)

/-- No word that the walkers read to issue an instruction is poisoned (R107). -/
def CleanIssue (s : State) (rn : Run) (op : PInstr) : Prop := ∀ a ∈ issueReads rn.image op, poisoned s a = false

/-- The units of an instruction that the order still owes and whose home is frame `f`, in order (R137, R458). -/
def owedAt (s : State) (rn : Run) (o : Order) (k : Nat) (op : PInstr) (f : Nat) : List UnitRef :=
  ((issuedOwed s rn o k op).filter (fun x =>
      unitHome rn.image op (resolve s rn.image op).sizes (issuedTiling s rn op) (issueChunk s rn.image op) x == f)).map
    (fun x => { instr := k, unit := x })

/-- The order has gone past instruction `k`, which counts as committed (R113, R460): its PROGRESS record is the `j`-th of the
journal. -/
def PastInstr (u : State) (o : Order) (k j : Nat) : Prop :=
  (∃ o', findOrder u o.number = some o' ∧ o'.nextIssue = k + 1 ∧ ∀ g ∈ o'.progress, g.instr = k → g.done = true)
    ∧ ∃ x, u.journal.records[j]? = some x ∧ x.kind = 5 ∧ x.order = o.number ∧ field x.body 0 4 = k % 2 ^ 32 ∧ field x.body 16 8 = 0

/-! ### Units -/

/-- The last fault record of the Keeper names a code, a domain, an instance and a phase (Table 14.6). -/
def FaultTold (u : State) (code domain inst phase : Nat) : Prop :=
  field u.keeper.lastFault 16 2 = code ∧ field u.keeper.lastFault 18 1 = domain ∧ field u.keeper.lastFault 19 1 = inst
    ∧ field u.keeper.lastFault 20 1 = phase

/-- A worker begins a unit, at the level at which its instruction issued, and counts the cycles that it was idle (R138). -/
def BeginsUnit (s u : State) (w r : Nat) (x : UnitRef) (idle : Nat) : Prop :=
  (∃ rn i, getRun s r = some rn ∧ findIssued rn x.instr = some i ∧ (getWorker u w).held =
      [{ run := r, ref := x, level := i.level, tile := 0, seqs := [], copyOut := false, homes := [], crc := 0 }])
    ∧ (getWorker u w).rewrite = none ∧ (getWorker u w).cyc = updAt (getWorker s w).cyc 4 (fun c => wrapAdd c idle)
    ∧ (∀ v, v ≠ w → getWorker u v = getWorker s v) ∧ u.comb = s.comb ∧ u.runs = s.runs

/-- Unit `x` has left the queues of frame `g`: the replay queue where it stood there, else the tally, whose grant is
counted (R138, R458). -/
def QueueWithout (s : State) (g : Nat) (x : UnitRef) : Frame :=
  let fr := getFrame s g
  if x ∈ fr.replay then { fr with replay := fr.replay.erase x }
  else { fr with tally := fr.tally.erase x, granted := assocSet fr.granted x.instr (assocD fr.granted x.instr 0 + 1) }

/-- Nothing of a worker but its IDLE counter differs. -/
def OnlyIdles (s u : State) (w idle : Nat) : Prop :=
  u = { s with workers := u.workers } ∧ (∀ v, v ≠ w → getWorker u v = getWorker s v)
    ∧ getWorker u w = { getWorker s w with cyc := updAt (getWorker s w).cyc 4 (fun c => wrapAdd c idle) }

/-- The order, and the run while it executes the order, hold a unit as committed (R458). -/
def UnitCommitted (u : State) (r : Nat) (n : BitVec 64) (x : UnitRef) : Prop :=
  (∃ o', findOrder u n = some o' ∧ ∀ g ∈ o'.progress, g.instr = x.instr → x.unit ∈ g.live)
    ∧ ∀ rn', getRun u r = some rn' → rn'.order = some n → ∀ i ∈ rn'.issued, i.instr = x.instr → x.unit ∈ i.committed

/-- A unit is one of an instruction in issue whose order stands, and has not committed; the records of its commit make no
CHECKPOINT due, which could forget an order (R339). -/
def Owes (s : State) (r : Nat) (rn : Run) (i : Issued) (n : BitVec 64) (x : UnitRef) : Prop :=
  getRun s r = some rn ∧ findIssued rn x.instr = some i ∧ rn.order = some n ∧ (findOrder s n).isSome = true ∧ x.unit ∉ i.committed
    ∧ s.journal.sinceCheckpoint + 2 < 4096

/-- No frame waits to be sent, so a credit that a slot returns brings no CSEND to its end. -/
def QuietLinks (s : State) : Prop := ∀ n < 24, (getLink s n).txQueue = []

/-- A unit of a move within the die: FCOPY, FLOAD, FSTORE, FTRANS or FTRANS_STORE (R364 to R367). -/
def plainMove (op : PInstr) : Bool := op.opcode == 0x70 || op.opcode == 0x71 || op.opcode == 0x72 || op.opcode == 0x74 || op.opcode == 0x75

/-- A unit that a forager has just taken. -/
def freshMove (r : Nat) (x : UnitRef) : Move :=
  { run := r, ref := x, stage := .waiting, acks := 0, packets := 0, wait := none, sent := 0, seqs := [] }

/-- Forager `g` has taken unit `x` out of the queues of frame `f`: the replay queue where it stood there, else the moves, whose
grant is counted (R368). -/
def takenBy (s : State) (g f r : Nat) (x : UnitRef) : State :=
  setForager (setFrame s f (fun fr =>
    if x ∈ fr.moveReplay then { fr with moveReplay := fr.moveReplay.erase x }
    else { fr with moves := fr.moves.erase x, granted := assocSet fr.granted x.instr (assocD fr.granted x.instr 0 + 1) })) g
    (fun y => { y with moves := y.moves ++ [freshMove r x] })

/-- A forager holds a unit no more. -/
def MoveGone (u : State) (g : Nat) (m : Move) : Prop := ∀ y ∈ (getForager u g).moves, y.run = m.run → y.ref ≠ m.ref

/-- A unit of a move waits in its home frame's replay queue (R458). -/
def MoveAgain (u : State) (rn : Run) (i : Issued) (m : Move) : Prop :=
  i.op.micro = false → homeOf rn.image i m.ref.unit < 8 → m.ref ∈ (getFrame u (homeOf rn.image i m.ref.unit)).moveReplay

/-- The accesses that a unit holds of its port's share (R372). -/
def moveShare (rn : Run) (i : Issued) (u : Nat) : Nat := min 8192 (stackAccesses rn i u)

/-- Nothing stands in the queues from which a forager takes, or it may take no unit now (R368). -/
def NothingToTake (s : State) (g : Nat) : Prop :=
  ∀ r rn, (getFrame s (g / 4)).run = some r → getRun s r = some rn →
    rn.recovering = true ∨ rn.fault.isSome = true ∨ 32 ≤ (getForager s g).moves.length
      ∨ ∀ x < 8, (getFrame s x).moveReplay = [] ∧ (getFrame s x).moves = []

/-- Does a tried unit go on: its tokens are free, and its stack, unless failed, is up with room for its accesses? A parity error
in the forager, or on a stack's interface, needs no room. -/
def goesOn (s : State) (m : Move) (rn : Run) (i : Issued) (up : Sys2Proof.MoveUpset) : Prop :=
  moveBlocked s m.run rn i m.ref.unit = none
    ∧ (up ≠ .none ∨ i.op.opcode = 0x70 ∨ i.op.opcode = 0x74 ∨ (getMemPort s (moveStack i)).state = 4#3
        ∨ (stackUp s (moveStack i) = true ∧ (getMemPort s (moveStack i)).outstanding + moveShare rn i m.ref.unit ≤ 8192))

/-- What the trial of a waiting unit of a plain move brings about (R95, R362 to R364, R366 to R368, R372, R452). -/
def MoveTried (s : State) (g : Nat) (m : Move) (rn : Run) (i : Issued) (up : Sys2Proof.MoveUpset) (u : State) : Prop :=
  let stands (p : Move → Prop) : Prop := ∀ y ∈ (getForager u g).moves, y.run = m.run → y.ref = m.ref → p y
  let ws := moveWrites s rn i m.ref.unit
  let st := moveStack i
  let onStk : Prop := i.op.opcode = 0x71 ∨ i.op.opcode = 0x72 ∨ i.op.opcode = 0x75
  let kept : Prop := u.comb = s.comb ∧ u.stackMem = s.stackMem ∧ MoveGone u g m
  (∀ wt, moveBlocked s m.run rn i m.ref.unit = some wt →
      u = { s with foragers := u.foragers } ∧ stands (fun y => y.wait = some wt) ∧ ∀ k, k ≠ g → getForager u k = getForager s k)
    ∧ (moveBlocked s m.run rn i m.ref.unit = none →
      (up = .none → ¬ onStk →
          u.comb = memSetMany combDefault ws s.comb ∧ u.stackMem = s.stackMem ∧ (∀ a, (∀ b ∈ ws, b.1 ≠ a) → readComb u a = readComb s a)
            ∧ MoveGone u g m ∧ (QuietLinks s → ∀ n, Owes s m.run rn i n m.ref → UnitCommitted u m.run n m.ref))
      ∧ (up = .none → onStk →
          let k := moveShare rn i m.ref.unit
          let port := getMemPort s st
          (port.state = 4#3 → kept ∧ FaultTold u 0x0403 6 st 1 ∧ (Faultable s m.run → FaultedAt u m.run 0x0403 m.ref))
          ∧ (port.state ≠ 4#3 → stackUp s st = false ∨ 8192 < port.outstanding + k →
              u = { s with foragers := u.foragers } ∧ stands (fun y => y.wait = none))
          ∧ (stackUp s st = true → port.outstanding + k ≤ 8192 →
              getMemPort u st = { port with outstanding := port.outstanding + k, powerDown := false } ∧ u.comb = s.comb
              ∧ (i.op.opcode = 0x71 → u.stackMem = s.stackMem ∧ stands (fun y => y.stage = .reading ∧ y.acks = k)
                  ∧ u = { s with foragers := u.foragers, mems := u.mems })
              ∧ (i.op.opcode ≠ 0x71 → u.stackMem = memSetMany stackDefault ws s.stackMem
                  ∧ (∀ a, (∀ b ∈ ws, b.1 ≠ a) → readStack u a = readStack s a)
                  ∧ stands (fun y => y.stage = .writing ∧ y.acks = k))))
      ∧ (up = .dataCheck → kept ∧ u.runs = s.runs ∧ FaultTold u 0x0222 0 0xFF 1 ∧ MoveAgain u rn i m)
      ∧ (∀ a, up = .interfaceParity a → onStk → kept ∧ u.runs = s.runs ∧ MoveAgain u rn i m
            ∧ (st < 4 → FaultTold u 0x0402 6 st 1 ∧ pseudoChannel (a.toNat % 2 ^ 37) ∈ (getMemPort u st).marked))
      ∧ (up = .datapathParity → u.comb = s.comb ∧ u.stackMem = s.stackMem ∧ MoveAgain u rn i m
            ∧ (g < 32 → (getForager u g).faulted = true ∧ (getForager u g).moves = [])
            ∧ (resetBefore s 4 g = false → (findRecovery u 4 g).isSome = true)))

/-- The queues of a frame after the units of some instructions have been discarded. -/
def WithoutUnits (fr : Frame) (gone : Nat → Bool) : Frame :=
  { fr with tally := fr.tally.filter (fun x => !gone x.instr), replay := fr.replay.filter (fun x => !gone x.instr)
            moves := fr.moves.filter (fun x => !gone x.instr), moveReplay := fr.moveReplay.filter (fun x => !gone x.instr) }

/-- A torn tile: the regions that the unit writes in place are reported invalid (R459). -/
def RegionsTorn (s u : State) (h : Held) : Prop :=
  ∀ rn i o, getRun s h.run = some rn → findIssued rn h.ref.instr = some i → orderOf s rn = some o →
    ∃ o', findOrder u o.number = some o' ∧ ∀ j ∈ roleDescs i.op 3, ∀ g ∈ reachedRegions rn.image (nth i.op.descs j) (nth i.sizes j), g ∈ o'.invalid

/-- Windows of an issue of a tile: what enters the ISSUE, COMB, RING and TURN counters of a worker that counts the unit's cycles
(R176 to R178; the turnaround at every unit's first tile: notes/assumptions/83.md). -/
def WindowsCounted (s : State) (w : Nat) (i : Issued) (first last : Bool) (win : Nat × Nat) (pivots ring conflict : Nat) (u : State) : Prop :=
  let x := getWorker s w
  let added (k : Nat) : Nat := if k = 0 then win.1 + (if first then pivots else 0) else if k = 1 then win.2 + conflict
    else if k = 2 then ring else if k = 3 ∧ first = true then 5 else 0
  let one := x.cyc.mapIdx (fun k n => wrapAdd n (added k))
  (cyclesCount x i.op = false → (getWorker u w).cyc = x.cyc)
    ∧ (cyclesCount x i.op = true → (getWorker u w).cyc = if last then updAt one 3 (fun n => wrapAdd n (foldWait i)) else one)

/-- Log records are appended, the first of them of a kind. -/
def LoggedNext (s u : State) (kind : Nat) (x : Bytes) : Prop :=
  u.telem.buffer[s.telem.buffer.length]? = some x ∧ field x 10 1 = kind

/-! ### Workers, recoveries and stacks -/

/-- The reply to a request stands among the messages of its mailbox. -/
def RepliedAmong (t u : State) (p : Pending) (status : BitVec 16) (body : Bytes) : Prop :=
  ∃ pre post, outgoing (getMailbox u p.mailbox) = pre ++ replyOf t p status body ++ post

/-- The step of re-admission after one that passes (Table 14.3). -/
def nextAdmission : AdmitState → Option AdmitState
  | .scrubbing => some .reloading
  | .reloading => some .resync
  | .resync => some .selfTest
  | .selfTest => some .waiting
  | .notAdmitted | .waiting | .admitted | .fenced | .outOfService => none

/-- A substitution has been asked for: the spare, the number, whether the worker is withdrawn, and whether it returns by
itself (R465, R493). -/
def Asked (u : State) (k n : Nat) (withdraw byItself : Bool) : Prop := (k, n, withdraw, byItself) ∈ u.keeper.substitutions

/-- The generations and marks of a worker's root store are those of a run, all of which the archive still gives (R245). -/
def RootsReloaded (s u : State) (rn : Run) (w : Nat) : Prop :=
  (∀ sl ∈ rn.root, ∀ b, b = sl.a ∨ b = sl.b → b.gen = 0 ∨ (archiveEntry s b.gen).isSome = true) →
    (getWorker u w).root.map (fun x => (x.a.gen, x.b.gen, x.activeB, x.pending)) = rn.root.map (fun x => (x.a.gen, x.b.gen, x.activeB, x.pending))

/-- What the reset of a domain instance leaves (R476, Table 14.1). -/
def DomainReset (t u : State) (d i : Nat) : Prop :=
  (d ≠ 2 → d ≠ 5 → (d = 1 → resetBefore t 1 i = false) → (findRecovery u d i).isSome = true)
    ∧ (d = 1 → (getWorker u i).epoch = (getWorker t i).epoch + 1 ∧ (getWorker u i).admission ≠ .admitted)
    ∧ (d = 2 → findRecovery u 2 i = none ∧ ∀ r rn, (getWorker t i).run = some r → getRun t r = some rn → RootsReloaded t u rn i)
    ∧ (d = 3 → (getWorker u i).rsState = .scrubbing ∧ (getWorker u i).rowState = [] ∧ ∀ h ∈ (getWorker u i).held, h.copyOut = true)
    ∧ (d = 4 → (getForager u i).faulted = true ∧ (getForager u i).moves = [])
    ∧ (d = 5 → ∀ w ∈ frameWorkers t i, (getWorker u w).held = [])
    ∧ (d = 6 → getMemPort u i = { MemPort.reset with
        state := 1, stackGiB := (getMemPort t i).stackGiB, imageStale := (getMemPort t i).imageStale, refreshes := (getMemPort t i).refreshes })
    ∧ (d = 7 → (getPartner u i).state = 1 ∧ (getPartner u i).rings = [] ∧ (getPartner u i).err = 0 ∧ (getPartner u i).errCount = 0
        ∧ (getPartner u i).retries = 0)
    ∧ (d = 8 → (getLink u i).session = none ∧ (getLink u i).err = 0 ∧ (getLink u i).cause = 0)
    ∧ (d = 9 → u.keeper.standbyOk = false ∧ u.keeper.activePair ≠ i)

end Sys2Proof.Machine
end

