-- ==== Sys2Proof/Certificates/Slice0/Obligations.lean ====
section
/-! DEFINITION. The statements for the provers. -/

open Sys2Proof Sys2Proof.Machine

/-- A step takes the command at the front of the queue and runs it on the state that holds the rest. -/
def Obligations.StepTakesFront : Prop :=
  ∀ (c : Instr) (rest : List Instr) (s : State), step { s with pending := c :: rest } = exec c { s with pending := rest }

/-- With no command waiting one nanosecond passes (the model's choice, notes/assumptions/5.md): the counter goes on at a
rate between 0.999 and 1.001 (R413) while the die is clocked, and nothing else changes. -/
def Obligations.IdleNanosecond : Prop :=
  ∀ s : State, s.pending = [] → ∃ t, step s = .next t ∧ t = { s with wall := s.wall + 1, time := t.time }
    ∧ (standing s = true → t.time = s.time)
    ∧ (standing s = false → t.time = { s.time with now := t.time.now, slew := t.time.slew }
        ∧ s.time.now + 65536 - 65 ≤ t.time.now ∧ t.time.now ≤ s.time.now + 65536 + 65
        ∧ (s.time.steer = 0 → (t.time.now : Int) + t.time.slew = s.time.now + 65536 + s.time.slew))

/-- No command is refused; the one fault is that of a comb address wider than 28 bits (R71) at the debug port. -/
def Obligations.EveryCommandAnswers : Prop :=
  ∀ (c : Instr) (s : State), Completes (exec c s)
    ∨ ∃ addr, 2 ^ 28 ≤ addr ∧ exec c s = .fault (.addressOutside addr)
        ∧ (c = .telemetryDebugPortAccess (.readComb addr) ∨ ∃ v, c = .telemetryDebugPortAccess (.writeComb addr v))

/-- While the die stands still (R507, R509) only the commands of `outsideClocks` have an effect. -/
def Obligations.StandingDieIgnores : Prop :=
  ∀ (c : Instr) (s : State), standing s = true → outsideClocks c = false →
    exec c s = .next s ∨ ∃ addr, 2 ^ 28 ≤ addr ∧ exec c s = .fault (.addressOutside addr)

/-- R509: after a thermal trip every clock but the refresh sequencers' stands, and only PORST_N or a power-on reset ends that. -/
def Obligations.TrippedDieStaysStopped : Prop :=
  ∀ s t : State, s.pins.tripped = true → (∀ c ∈ s.pending, endsTrip c = false) → step s = .next t →
    t.pins.tripped = true ∧ (∀ c ∈ t.pending, endsTrip c = false)
      ∧ t.keeper = { s.keeper with archive := t.keeper.archive } ∧ t.mailboxes = s.mailboxes ∧ t.runs = s.runs
      ∧ t.workers = s.workers ∧ t.frames = s.frames ∧ t.foragers = s.foragers ∧ t.comb = s.comb ∧ t.poison = s.poison
      ∧ t.partners = s.partners ∧ t.links = s.links ∧ t.routes = s.routes ∧ t.time = s.time ∧ t.life = s.life ∧ t.flash = s.flash
      ∧ t.power = { s.power with alertPinLow := t.power.alertPinLow }
      ∧ (Instr.stackSupplyLoss ∉ s.pending → t.stackMem = s.stackMem ∧ t.journal = s.journal ∧ t.telem = s.telem)

/-- The state after reset is sound and holds the values that the manual's tables state for reset. -/
def Obligations.SoundAfterReset : Prop :=
  Sound State.reset
    ∧ State.reset.keeper.state = .rom ∧ State.reset.keeper.activePair = 0 ∧ State.reset.keeper.code = 0
    ∧ (∀ n < 16, getMailbox State.reset n = Mailbox.reset) ∧ (∀ r, getRun State.reset r = none)
    ∧ (∀ f < 8, (getFrame State.reset f).ungated = true ∧ (getFrame State.reset f).patrolMs = 10)
    ∧ (∀ i < 68, (getWorker State.reset i).serves = if i < 64 then some i else none)
    ∧ State.reset.time.cfg = 0x8#32 ∧ State.reset.power.vclk = 3 ∧ State.reset.power.sched = 1440
    ∧ (∀ n < 24, (getLink State.reset n).cfg = 0x00400400#32) ∧ State.reset.pending = []

/-- Soundness (canonical memories, all parts present) is kept by every step, from every sound state. -/
def Obligations.SoundStep : Prop := ∀ s t : State, Sound s → step s = .next t → Sound t

/-- No command adds to or takes from the commands that wait. -/
def Obligations.QueueIsTheSenders : Prop := ∀ (c : Instr) (s t : State), exec c s = .next t → t.pending = s.pending

/-- OTP fuses are programmed once (R478): what is set stays set, and no count falls. -/
def Obligations.FusesOnlyGrow : Prop :=
  ∀ s t : State, step s = .next t → FusesGrow s.life.fuses t.life.fuses

/-- R306: the transport writes and posts its inbound slot while in_full is 0; otherwise overrun is set. R306, R307: messages leave the queue in order through the slot, and each transport takes them as Table 10.3 has it. -/
def Obligations.MailboxSlots : Prop :=
  (
  ∀ (s : State) (n : Fin 16), Whole s → standing s = false →
    ((getMailbox s n).inFull = false →
        (∀ off data, off + data.length ≤ 256 → Gives (.mbxInboundWrite n off data) s (fun t =>
          OnlyMailbox s t n ∧ getMailbox t n = { getMailbox s n with inbound := (getMailbox t n).inbound }
            ∧ ∀ i < 256, (getMailbox t n).inbound[i]?
                = if off ≤ i ∧ i < off + data.length then data[i - off]? else (getMailbox s n).inbound[i]?))
        ∧ Gives (.mbxPost n) s (fun t => OnlyMailbox s t n ∧ getMailbox t n = { getMailbox s n with inFull := true }))
    ∧ ((getMailbox s n).inFull = true →
        (∀ off data, Gives (.mbxInboundWrite n off data) s (fun t =>
          OnlyMailbox s t n ∧ getMailbox t n = { getMailbox s n with overrun := true }))
        ∧ Gives (.mbxPost n) s (fun t => OnlyMailbox s t n ∧ getMailbox t n = { getMailbox s n with overrun := true }))
  ) ∧ (
  ∀ (s : State) (n : Fin 16), Whole s → standing s = false →
    (∀ m rest, (getMailbox s n).outFull = false → (getMailbox s n).queue = m :: rest →
      (n.val ≤ 8 → Gives (.outboundSlotFill n) s (fun t =>
        getMailbox t n = { putOut (getMailbox s n) (rest ++ (getMailbox s n).unsent) with
              outbound := padTo 256 m.bytes, outFull := true, outCompletion := m.completion }
          ∧ (∀ k, k ≠ n.val → getMailbox t k = getMailbox s k)
          ∧ (n = 0 → t = { s with mailboxes := t.mailboxes, i3c := { s.i3c with ibiRaised := s.i3c.ibiEnabled || s.i3c.ibiRaised } })
          ∧ (n ≠ 0 → t = { s with mailboxes := t.mailboxes, partners := t.partners }
              ∧ (portUp (getPartner s (n - 1)) = false → t.partners = s.partners)
              ∧ (portUp (getPartner s (n - 1)) = true → (getPartner s (n - 1)).waiting = [] →
                  (tspMay (getPartner s (n - 1)) 256 = true → (getPartner t (n - 1)).waiting = []
                    ∧ ∃ x : Bytes, (getPartner t (n - 1)).sent = (getPartner s (n - 1)).sent ++ [x] ∧ field x 0 1 = 3
                        ∧ x.drop 32 = padTo 256 m.bytes)
                  ∧ (tspMay (getPartner s (n - 1)) 256 = false → (getPartner t (n - 1)).sent = (getPartner s (n - 1)).sent
                    ∧ ∃ k, (getPartner t (n - 1)).waiting = [k] ∧ k.type = 3 ∧ k.payload = padTo 256 m.bytes)))))
      ∧ (9 ≤ n.val → n.val ≤ 13 → nth s.keeper.sessEnable (n - 9) = true → Gives (.outboundSlotFill n) s (fun t =>
          getMailbox t n = { putOut (getMailbox s n) (rest ++ (getMailbox s n).unsent) with
                outbound := padTo 256 m.bytes, outFull := false, outCompletion := none }
            ∧ t = { s with mailboxes := t.mailboxes, mgmt := t.mgmt }
            ∧ t.mgmt.sent = s.mgmt.sent ++ [natLe 16 (sessionAddr s (n - 9)).toNat ++ natBe 2 (nth s.keeper.sessPort (n - 9)).toNat
                ++ mgmtBytes 1 n 0 (padTo 256 m.bytes)]))
      ∧ (9 ≤ n.val → n.val ≤ 13 → nth s.keeper.sessEnable (n - 9) = false → Gives (.outboundSlotFill n) s (fun t =>
          OnlyMailbox s t n ∧ getMailbox t n
            = { putOut (getMailbox s n) (rest ++ (getMailbox s n).unsent) with
                outbound := padTo 256 m.bytes, outFull := true, outCompletion := m.completion }))
      ∧ (14 ≤ n.val → (∀ k, linkUp (getLink s k) = false) → Gives (.outboundSlotFill n) s (fun t =>
          OnlyMailbox s t n ∧ getMailbox t n
            = { putOut (getMailbox s n) (rest ++ (getMailbox s n).unsent) with
                outbound := padTo 256 m.bytes, outFull := false, outCompletion := none })))
    ∧ ((getMailbox s n).outFull = true → Gives (.mbxOutAck n) s (fun t =>
        getMailbox t n = { getMailbox s n with outFull := false, outCompletion := none }
          ∧ (∀ k, k ≠ n.val → getMailbox t k = getMailbox s k)
          ∧ (n = 0 → t.i3c = { s.i3c with ibiRaised := false }) ∧ (n ≠ 0 → t.i3c = s.i3c)
          ∧ t = { s with mailboxes := t.mailboxes, i3c := t.i3c, keeper := t.keeper, journal := t.journal
                         time := { s.time with lastStamp := t.time.lastStamp } }
          ∧ (s.journal.pendingAcks.length < 255 → t.time = s.time)
          ∧ ((getMailbox s n).outCompletion = none ∨ 8 < n.val → t.keeper = s.keeper ∧ t.journal = s.journal ∧ t.time = s.time)))
  )

/-- R313, R315: fragments are joined in order; a bad message or an unexpected fragment is answered and discarded. -/
def Obligations.FragmentsJoin : Prop :=
  ∀ (s : State) (n : Fin 16) (m : Bytes), Takes s n → n.val ≤ 13 → (getMailbox s n).inbound = m → (getMailbox s n).arrived = [] →
    let src := requestSource s n m
    let first : Assembly := { type := BitVec.ofNat 16 (msgType m), tag := msgTag m, next := 1, body := (m.drop 32).take (msgLength m)
                              reserved := headerReserved m, source := src }
    let told (a : Assembly) : List OutMsg :=
      [{ bytes := messageBytes (a.type ||| 0x8000) a.tag a.source 0x0503 0 true (s.time.now / 65536) [], completion := none }]
    (msgCrcOk m = true → msgLength m ≤ 224 → knownRequest (msgType m) = true → msgLast m = false →
      ((getMailbox s n).assembly = none → msgIndex m = 0 → Gives (.messageFragment n) s (fun t => OnlyMailbox s t n ∧
        getMailbox t n = { getMailbox s n with inFull := false, assembly := some first }))
      ∧ (∀ a, (getMailbox s n).assembly = some a → msgIndex m = a.next → BitVec.ofNat 16 (msgType m) = a.type → msgTag m = a.tag → src = a.source →
          a.next < 330 → a.body.length + 224 ≤ 73728 → Gives (.messageFragment n) s (fun t => OnlyMailbox s t n ∧
            getMailbox t n = { getMailbox s n with inFull := false, assembly := some { a with next := a.next + 1, body := a.body ++ (m.drop 32).take (msgLength m), reserved := a.reserved || headerReserved m } }))
      ∧ (∀ a, (getMailbox s n).assembly = some a →
          msgIndex m ≠ a.next ∨ BitVec.ofNat 16 (msgType m) ≠ a.type ∨ msgTag m ≠ a.tag ∨ src ≠ a.source →
          Gives (.messageFragment n) s (fun t => OnlyMailbox s t n ∧ (getMailbox t n).inFull = false
            ∧ (getMailbox t n).assembly = (if msgIndex m = 0 then some first else none)
            ∧ outgoing (getMailbox t n) = outgoing (getMailbox s n) ++ (if a.type = 0x0022 then [] else told a))))
    ∧ (msgCrcOk m = false ∨ 224 < msgLength m → BitVec.ofNat 16 (msgType m) ≠ 0x0022 →
        Gives (.messageFragment n) s (fun t => OnlyMailbox s t n ∧ (getMailbox t n).inFull = false
          ∧ (getMailbox t n).assembly = (getMailbox s n).assembly
          ∧ outgoing (getMailbox t n) = outgoing (getMailbox s n) ++
              [{ bytes := messageBytes (BitVec.ofNat 16 (msgType m) ||| 0x8000) (msgTag m) src 0x0501 0 true (s.time.now / 65536) [], completion := none }]))

/-- R315: a rejected request has no effect; and a message row without a message has none either. -/
def Obligations.RejectionHasNoEffect : Prop :=
  ∀ (c : Instr) (n : Fin 16) (s : State), rowMailbox c = some n → standing s = false →
    (∀ t, takeMessage s n = .done t → exec c s = .next t ∧ OnlyMailbox s t n)
    ∧ ((getMailbox s n).inFull = false ∨ s.keeper.state = .rom ∨ 64 ≤ (getMailbox s n).queue.length → exec c s = .next s)

/-- R309: what the common command codes do to the I3C target. The values that the GET codes return are left open. R309: private writes reach the offset and the registers it allows, or nothing; private reads go on from the offset. -/
def Obligations.I3cTransport : Prop :=
  (
  ∀ s : State, standing s = false →
    (∀ a d : BitVec 7, a.toNat = i3cStatic s → exec (.setdasa a d) s = .next { s with i3c := { s.i3c with dynamic := some d } })
    ∧ (∀ a d : BitVec 7, a.toNat ≠ i3cStatic s → exec (.setdasa a d) s = .next s)
    ∧ (∀ d : BitVec 7, s.i3c.dynamic = none → exec (.entdaa d) s = .next { s with i3c := { s.i3c with dynamic := some d } })
    ∧ (∀ d : BitVec 7, s.i3c.dynamic ≠ none → exec (.entdaa d) s = .next s)
    ∧ exec .rstdaa s = .next { s with i3c := { s.i3c with dynamic := none } }
    ∧ exec .enec s = .next { s with i3c := { s.i3c with ibiEnabled := true } }
    ∧ exec .disec s = .next { s with i3c := { s.i3c with ibiEnabled := false } }
    ∧ Gives .getpid s (fun t => t = { s with i3c := { s.i3c with readData := t.i3c.readData } } ∧ t.i3c.readData.length = 6)
    ∧ Gives .getbcr s (fun t => t = { s with i3c := { s.i3c with readData := t.i3c.readData } } ∧ t.i3c.readData.length = 1)
    ∧ Gives .getdcr s (fun t => t = { s with i3c := { s.i3c with readData := t.i3c.readData } } ∧ t.i3c.readData.length = 1)
    ∧ Gives .getstatus s (fun t =>
        t = { s with i3c := { s.i3c with readData := t.i3c.readData }, draws := t.draws } ∧ t.i3c.readData.length = 2)
  ) ∧ (
  ∀ s : State, standing s = false →
    (∀ d : Bytes, d.length = 4 → field d 0 4 % 4 = 0 →
        exec (.i3cPrivateWrite d) s = .next { s with i3c := { s.i3c with offset := field d 0 4, refused := false } })
    ∧ (∀ d : Bytes, d.length < 4 ∨ d.length % 4 ≠ 0 ∨ field d 0 4 % 4 ≠ 0 ∨ (8 ≤ d.length ∧ i3cWritable (field d 0 4) = false) →
        exec (.i3cPrivateWrite d) s = .next { s with keeper := { s.keeper with i3cErr := satAdd s.keeper.i3cErr 1 }
                                                     i3c := { s.i3c with refused := true } })
    ∧ (∀ (d : Bytes) (j : Fin 4), d.length = 8 → field d 0 4 = 0x1300 + 4 * j.val → Gives (.i3cPrivateWrite d) s (fun t =>
        t.keeper = { s.keeper with netAddr := updAt s.keeper.netAddr j (fun _ => BitVec.ofNat 32 (field d 4 4)) }
          ∧ t = { s with keeper := t.keeper, i3c := { s.i3c with offset := 0x1300 + 4 * j.val, refused := false } }))
    ∧ (∀ k, s.i3c.refused = true → exec (.i3cPrivateRead k) s
        = .next { s with i3c := { s.i3c with readData := List.replicate (4 * k) 0 } })
    ∧ (∀ k, s.i3c.refused = false → Gives (.i3cPrivateRead k) s (fun t =>
        t.i3c = { s.i3c with offset := s.i3c.offset + 4 * k, readData := t.i3c.readData } ∧ t.i3c.readData.length = 4 * k
          ∧ t = { s with i3c := t.i3c, time := t.time, power := t.power }
          ∧ (∀ i < k, (t.i3c.readData.drop (4 * i)).take 4 = natLe 4 (pageWord s (s.i3c.offset + 4 * i)).toNat
              ∨ ∃ j < i, s.i3c.offset + 4 * j = 0x4000 ∨ (0x4140 ≤ s.i3c.offset + 4 * j ∧ s.i3c.offset + 4 * j < 0x4180))))
  )

/-- R309, R310, R319: what arrives on the management Ethernet, and IMAGE_WRITE. -/
def Obligations.ManagementFrames : Prop :=
  ∀ s : State, Whole s → standing s = false →
    (∀ addr port (b : Bytes) k, sessionOf s addr port = some k → (crc32c (zeroField b 4 4)).toNat = field b 4 4 → field b 0 1 = 1 →
        field b 1 1 = 9 + k → field b 2 2 = 256 → b.length = 272 → (getMailbox s (9 + k)).inFull = false →
        Gives (.mgmtMessageFrame addr port b) s (fun t => OnlyMailbox s t (9 + k)
          ∧ getMailbox t (9 + k) = { getMailbox s (9 + k) with inbound := b.drop 16, inFull := true }))
    ∧ (∀ addr port (b : Bytes),
        let dropped : State := { s with keeper := { s.keeper with mgmtDrop := satAdd s.keeper.mgmtDrop 1 } }
        let stranger : Prop := sessionOf s addr port = none ∨ (crc32c (zeroField b 4 4)).toNat ≠ field b 4 4
        (field b 0 1 ≠ 2 → stranger ∨ (field b 0 1 ≠ 1 ∧ field b 0 1 ≠ 3)
            ∨ (field b 0 1 = 1 ∧ ∃ k, sessionOf s addr port = some k ∧ field b 1 1 ≠ 9 + k) →
          exec (.mgmtMessageFrame addr port b) s = .next dropped)
        ∧ (field b 0 1 = 2 → stranger → exec (.mgmtImageData addr port b) s = .next dropped)
        ∧ (field b 0 1 = 3 → ¬ stranger → b.length = 16 + field b 2 2 → exec (.mgmtMessageFrame addr port b) s = .next s)
        ∧ (field b 0 1 = 2 → ¬ stranger → 1 ≤ field b 2 2 → field b 2 2 ≤ 8192 → b.length = 16 + field b 2 2 → s.keeper.state = .rom →
          exec (.mgmtImageData addr port b) s = .next s))
    ∧ (∀ addr port (b : Bytes) k, s.keeper.state ≠ .rom → sessionOf s addr port = some k →
        (crc32c (zeroField b 4 4)).toNat = field b 4 4 → field b 0 1 = 2 → 1 ≤ field b 2 2 → field b 2 2 ≤ 8192 → b.length = 16 + field b 2 2 →
        Gives (.mgmtImageData addr port b) s (fun t => t = { s with stackMem := t.stackMem, mems := t.mems, mgmt := t.mgmt }
          ∧ ∃ code : BitVec 16, t.mgmt.sent = s.mgmt.sent ++ [natLe 16 (sessionAddr s k).toNat ++ natBe 2 (nth s.keeper.sessPort k).toNat
                ++ mgmtBytes 3 (field b 1 1) (field b 8 8) (natLe 2 code.toNat)]
            ∧ ImageWritten s t (field b 1 1) (field b 8 8) (b.drop 16) code))
    ∧ (∀ n t p, Heard s n 0x0010 t p → Gives (.imageWrite n) s (fun u => ∃ code : BitVec 16,
          ImageWritten s u (field p.body 0 1) (field p.body 8 8) (p.body.drop 16) code
          ∧ Answered t u p code []
          ∧ u = { s with mailboxes := u.mailboxes, stackMem := u.stackMem, mems := u.mems }
          ∧ (MemoriesCanonical s → ∀ a, (∀ m ∈ [1, 3], stackUp s m = true →
                a < imageAddr s m (field p.body 0 1) (field p.body 8 8)
                  ∨ imageAddr s m (field p.body 0 1) (field p.body 8 8) + (p.body.drop 16).length ≤ a) →
              readStack u a = readStack s a)))
    ∧ (∀ addr fromAddr, addr = ownAddr s → exec (.neighbourRequest addr fromAddr) s
        = .next { s with mgmt := { s.mgmt with sent := s.mgmt.sent ++ [natLe 16 fromAddr.toNat ++ natLe 16 addr.toNat] } })
    ∧ (∀ addr fromAddr, addr ≠ ownAddr s → exec (.neighbourRequest addr fromAddr) s = .next s)

/-- R316, R317: requests to other dies, and their replies. -/
def Obligations.OtherDiesMessages : Prop :=
  ∀ (s : State) (n : Fin 16), Whole s →
    (∀ t p, Heard s n 0x0003 t p →
      (innerCode t (p.body.drop 8) ≠ 0 → Gives (.forward n) s (fun u => OnlyAnswers t u p (innerCode t (p.body.drop 8)) []))
      ∧ (innerCode t (p.body.drop 8) = 0 →
          field p.body 0 2 = s.life.dieId.toNat ∨ 24 ≤ routeOf s (field p.body 0 2) ∨ linkUp (getLink s (routeOf s (field p.body 0 2))) = false →
          Gives (.forward n) s (fun u => OnlyAnswers t u p 0x0507 []))
      ∧ (∀ out, innerCode t (p.body.drop 8) = 0 → field p.body 0 2 ≠ s.life.dieId.toNat → routeOf s (field p.body 0 2) = out → out < 24 →
          linkUp (getLink s out) = true → (getLink s out).txQueue = [] →
          Gives (.forward n) s (fun u => u = { s with mailboxes := u.mailboxes, links := u.links }
            ∧ (∀ k, k ≠ out → getLink u k = getLink s k)
            ∧ (let q : TxReq := { type := 2, ctl := 0, land := [], payload := List.replicate 256 0, last := none, forward := none }
              (mayLeave (shareFull s) (getLink s out) q = false → (getLink u out).txQueue.length = 1 ∧ u.mailboxes = t.mailboxes
                ∧ (getLink u out).wire = (getLink s out).wire)
              ∧ (mayLeave (shareFull s) (getLink s out) q = true → Answered t u p 0 [] ∧ (getLink u out).txQueue = []
                  ∧ (∃ x : Bytes, (getLink u out).wire = (getLink s out).wire ++ [x])
                  ∧ (getLink u out).replay.length = (getLink s out).replay.length + 1)))))
    ∧ (∀ t m, standing s = false → takeMessage s n = .foreign t m →
        (∀ b, sourceMailbox (field m 8 4 % 2 ^ 22 % 64) = some b → field m 8 4 % 2 ^ 22 / 64 = s.life.dieId.toNat →
          exec (.mailboxRemoteReply n) s = .next (setMailbox t b (fun x => putOut x (outgoing x ++ [{ bytes := m, completion := none }]))))
        ∧ (sourceMailbox (field m 8 4 % 2 ^ 22 % 64) = none ∨ field m 8 4 % 2 ^ 22 / 64 ≠ s.life.dieId.toNat →
          exec (.mailboxRemoteReply n) s
            = .next { t with keeper := { t.keeper with fwdDrop := satAdd t.keeper.fwdDrop 1 } }))

/-- R415, and the like for R177 and R442: a read of a low half delivers it and latches the other half of the same value. -/
def Obligations.LatchedReads : Prop :=
  ∀ s : State, standing s = false →
    exec .timNowLoRead s = .next { s with
        readBack := [BitVec.ofNat 32 (s.time.now / 65536)]
        time := { s.time with hi := BitVec.ofNat 32 (s.time.now / 65536 / 2 ^ 32), frac := BitVec.ofNat 16 (s.time.now % 65536) } }
    ∧ Gives .timNowLoRead s (fun t => pageWord t 0x4004 = BitVec.ofNat 32 (s.time.now / 65536 / 2 ^ 32)
        ∧ pageWord t 0x4008 = BitVec.ofNat 32 (s.time.now % 65536))
    ∧ (∀ (w : Fin 68) (k : Fin 5), Gives (.wrkCycLoRead w k) s (fun t =>
        t.readBack = [BitVec.ofNat 32 (nth (getWorker s w).cyc k).toNat]
          ∧ t = { s with readBack := t.readBack, workers := updAt s.workers w (fun x =>
              { x with cycHi := updAt x.cycHi k (fun _ => BitVec.ofNat 32 ((nth (getWorker s w).cyc k).toNat / 2 ^ 32)) }) }))
    ∧ (∀ f : Fin 8, Gives (.pwrFrameEnergyLoRead f) s (fun t =>
        t.readBack = [BitVec.ofNat 32 (nth s.power.energy f).toNat]
          ∧ t = { s with readBack := t.readBack, power := { s.power with
              energyHi := updAt s.power.energyHi f (fun _ => BitVec.ofNat 32 ((nth s.power.energy f).toNat / 2 ^ 32)) } }))

/-- R10: RW fields store, W1C fields clear, RO fields ignore a write; and R29, R49, R308. -/
def Obligations.RegisterWrites : Prop :=
  ∀ (s : State) (v : BitVec 32), standing s = false →
    (∀ target (o : BitVec 32), o.toNat % 4 ≠ 0 → exec (.registerWrite target o v) s = .next s)
    ∧ (∀ (w : Fin 68) (o : BitVec 32), (getWorker s w).run.isSome = true → exec (.registerWrite (some w) o v) s = .next s)
    ∧ (∀ o : BitVec 32, sessionReg o.toNat = true → exec (.registerWrite none o v) s = .next s)
    ∧ (∀ w : Fin 68, s.workers.length = 68 → (getWorker s w).run = none →
        Gives (.registerWrite (some w) 0x180#32 v) s (fun t => t = setWorker s w (fun x => { x with flushA := (getWorker t w).flushA })
          ∧ ∀ i < 5, bits (getWorker t w).flushA.toNat (6 * i + 5) (6 * i) = min (nth [52, 28, 23, 7, 10] i) (bits v.toNat (6 * i + 5) (6 * i)))
        ∧ Gives (.registerWrite (some w) 0x184#32 v) s (fun t => t = setWorker s w (fun x => { x with flushB := (getWorker t w).flushB })
          ∧ ∀ i < 5, bits (getWorker t w).flushB.toNat (6 * i + 5) (6 * i) = min (nth [3, 2, 2, 3, 1] i) (bits v.toNat (6 * i + 5) (6 * i))))
    ∧ (∀ o : BitVec 32, o.toNat < 0x1100 → exec (.registerWrite none o v) s = .next s)
    ∧ (∀ (w : Fin 68) (o : BitVec 32), o.toNat ∉ [0x180, 0x184, 0x228, 0x248] → exec (.registerWrite (some w) o v) s = .next s)
    ∧ (∀ w : Fin 68, (getWorker s w).run = none →
        exec (.registerWrite (some w) 0x228#32 v) s = .next (setWorker s w (fun x => { x with cycTag := BitVec.ofNat 16 v.toNat }))
        ∧ exec (.registerWrite (some w) 0x248#32 v) s = .next (setWorker s w (fun x =>
            { x with flagAllNeginf := x.flagAllNeginf && !v.getLsbD 1, flagCancel := x.flagCancel && !v.getLsbD 0 })))
    ∧ exec (.registerWrite none 0x4108#32 v) s = .next { s with power := { s.power with
        alertCap := BitVec.ofNat 16 (min 1440 (v.toNat / 2 ^ 16)), boardCap := BitVec.ofNat 16 (min 1440 (v.toNat % 2 ^ 16)) } }
    ∧ (∀ p : Fin 8, exec (.registerWrite none (BitVec.ofNat 32 (0x3008 + 64 * p.val)) v) s
        = .next (setPartner s p (fun x => { x with err := x.err &&& ~~~ BitVec.ofNat 6 v.toNat })))

/-- Tables 10.8 and 14.7, R373, R412, R448: the status requests. -/
def Obligations.StatusReplies : Prop :=
  ∀ (s t : State) (n : Fin 16) (p : Pending),
    (Heard s n 0x0001 t p → Gives (.status n) s (fun u => OnlyAnswers t u p 0
      (natLe 1 (keeperCode s.keeper.state) ++ natLe 1 (((List.range 8).filter (isResident s)).foldl (fun m r => m + 2 ^ r) 0)
        ++ natLe 2 s.keeper.code.toNat ++ natLe 4 (64 * s.life.dieId.toNat) ++ natLe 8 (s.time.now / 65536) ++ natLe 2 (s.time.now % 65536)
        ++ natLe 2 0 ++ natLe 4 (journalFree s / 1024) ++ natLe 4 s.life.fwRelease.toNat ++ natLe 4 0
        ++ (List.range 8).flatMap (fun r => natLe 8 (match getRun s r with | some x => if x.ready then x.image.imageId else 0 | none => 0)))))
    ∧ (Heard s n 0x0400 t p → Gives (.faultStatus n) s (fun u => OnlyAnswers t u p 0
        (wordBytes (faultWords s) ++ natLe 4 0 ++ padTo 64 s.keeper.lastFault)))
    ∧ (Heard s n 0x0100 t p → ∀ i, field p.body 1 1 = i →
        (field p.body 0 1 = 0 → i < 8 → Gives (.portStatus n) s (fun u => OnlyAnswers t u p 0
          (natLe 1 0 ++ natLe 1 i ++ natLe 6 0 ++ wordBytes (partnerWords (getPartner s i)))))
        ∧ (field p.body 0 1 = 1 → i < 4 → Gives (.portStatus n) s (fun u => OnlyAnswers t u p 0
          (natLe 1 1 ++ natLe 1 i ++ natLe 6 0 ++ wordBytes (memWords (getMemPort s i)))))
        ∧ (1 < field p.body 0 1 ∨ (field p.body 0 1 = 0 ∧ 8 ≤ i) ∨ (field p.body 0 1 = 1 ∧ 4 ≤ i) →
            Gives (.portStatus n) s (fun u => OnlyAnswers t u p 0x0420 [])))
    ∧ (Heard s n 0x0200 t p →
        (field p.body 0 1 < 24 → Gives (.linkStatus n) s (fun u => OnlyAnswers t u p 0
          (padTo 8 p.body ++ wordBytes (linkWords s (getLink s (field p.body 0 1))))))
        ∧ (24 ≤ field p.body 0 1 → Gives (.linkStatus n) s (fun u => OnlyAnswers t u p 0x0330 [])))
    ∧ (Heard s n 0x0300 t p → Gives (.timeStatus n) s (fun u => OnlyAnswers t u p 0
        (natLe 8 (s.time.now / 65536) ++ natLe 2 (s.time.now % 65536)
          ++ natLe 1 (b2n s.time.joined + 2 * b2n s.time.holdover + 4 * b2n s.time.fault)
          ++ natLe 1 (sourceKind s.time.inForce) ++ natLe 1 (sourcePort s.time.inForce) ++ natLe 1 s.time.distance.toNat
          ++ natLe 2 0 ++ signed64 s.time.offsetPs)))
    ∧ (Heard s n 0x0311 t p → Gives (.flowStatus n) s (fun u => OnlyAnswers t u p 0 (wordBytes (powerWords s))))

/-- R324: the register window's reads; R415, R177: what they latch. -/
def Obligations.WindowReads : Prop :=
  ∀ (s t : State) (n : Fin 16) (p : Pending) (cnt off : Nat), field p.body 2 2 = cnt → field p.body 4 4 = off →
    (HeardAction s n 0x0040 0 0 t p →
      (cnt = 0 ∨ 48 < cnt ∨ pageRangeBad off cnt = true → Gives (.regReadPage n) s (fun u => OnlyAnswers t u p 0x0541 []))
      ∧ (1 ≤ cnt → cnt ≤ 48 → pageRangeBad off cnt = false → (∀ i < cnt, off + 4 * i ≠ 0x4000 ∧ (off + 4 * i < 0x4140 ∨ 0x4180 ≤ off + 4 * i)) →
          Gives (.regReadPage n) s (fun u => OnlyAnswers t u p 0
            ((List.range cnt).flatMap (fun i => natLe 4 (pageWord t (off + 4 * i)).toNat))))
      ∧ (cnt = 3 → off = 0x4000 → Gives (.regReadPage n) s (fun u =>
          Answered t u p 0 (natLe 4 (s.time.now / 65536) ++ natLe 4 (s.time.now / 65536 / 2 ^ 32) ++ natLe 4 (s.time.now % 65536))
            ∧ u = { s with mailboxes := u.mailboxes, time := u.time })))
    ∧ (HeardAction s n 0x0040 0 1 t p →
      (cnt = 0 ∨ 48 < cnt ∨ workerRangeBad off cnt = true ∨ windowWorker s (field p.body 1 1) = none →
        Gives (.regReadWorker n) s (fun u => OnlyAnswers t u p 0x0541 []))
      ∧ (∀ w, windowWorker s (field p.body 1 1) = some w → 1 ≤ cnt → cnt ≤ 48 → workerRangeBad off cnt = false →
          (∀ i < cnt, off + 4 * i < 0x200 ∨ 0x228 ≤ off + 4 * i) →
          Gives (.regReadWorker n) s (fun u => OnlyAnswers t u p 0
            ((List.range cnt).flatMap (fun i => natLe 4 (workerWord (getWorker s w) (off + 4 * i)).toNat))))
      ∧ (∀ w k, windowWorker s (field p.body 1 1) = some w → cnt = 1 → off = 0x200 + 8 * k → k < 5 →
          Gives (.regReadWorker n) s (fun u => Answered t u p 0 (natLe 4 (nth (getWorker s w).cyc k).toNat)
            ∧ u = { setWorker s w (fun x => { x with cycHi := updAt x.cycHi k (fun _ =>
                      BitVec.ofNat 32 ((nth (getWorker s w).cyc k).toNat / 2 ^ 32)) }) with mailboxes := u.mailboxes })))

/-- R324: the register window's writes reach every addressed register file, or nothing is written. -/
def Obligations.WindowWrites : Prop :=
  ∀ (s t : State) (n : Fin 16) (p : Pending) (cnt off : Nat), field p.body 2 2 = cnt → field p.body 4 4 = off →
    (HeardAction s n 0x0041 0 0 t p →
      (cnt = 0 ∨ 48 < cnt ∨ pageRangeBad off cnt = true ∨ (∃ k < cnt, off + 4 * k = 0x4108) →
        Gives (.regWritePage n) s (fun u => OnlyAnswers t u p 0x0541 []))
      ∧ (1 ≤ cnt → cnt ≤ 48 → pageRangeBad off cnt = false → (∀ k < cnt, off + 4 * k ≠ 0x4108) → Gives (.regWritePage n) s (fun u =>
          u = reply ((List.range cnt).foldl (fun v i => pageWritten v (off + 4 * i) (field p.body (8 + 4 * i) 4)) t) p 0 [])))
    ∧ (∀ a ∈ [1, 2, 3, 4], HeardAction s n 0x0041 0 a t p →
      (cnt = 0 ∨ 48 < cnt ∨ workerRangeBad off cnt = true ∨ (aliasNumbers s p).bind (reachAll s) = none →
        Gives (workerWriteRow a n) s (fun u => OnlyAnswers t u p 0x0541 []))
      ∧ (∀ ws, 1 ≤ cnt → cnt ≤ 48 → workerRangeBad off cnt = false → (aliasNumbers s p).bind (reachAll s) = some ws →
          ((∃ w ∈ ws, untouchable s w = true) → Gives (workerWriteRow a n) s (fun u => OnlyAnswers t u p 0x0540 []))
          ∧ ((∀ w ∈ ws, untouchable s w = false) → Gives (workerWriteRow a n) s (fun u =>
              Answered t u p 0 [] ∧ u = { s with mailboxes := u.mailboxes, workers := u.workers }
                ∧ (∀ w, w ∉ ws → getWorker u w = getWorker s w)
                ∧ (cnt = 1 → ∀ w ∈ ws, getWorker u w = getWorker (writeWorkerReg s w off (field p.body 8 4)) w)))))

/-- R324, R325: worker groups and built-in self-test requests. R382, R412: routes, and the control of links. -/
def Obligations.GroupsTestsLinks : Prop :=
  (
  ∀ (s t : State) (n : Fin 16) (p : Pending),
    (Heard s n 0x0042 t p →
      (field p.body 0 1 < 8 → Gives (.groupSet n) s (fun u => Answered t u p 0 [] ∧ u = { s with mailboxes := u.mailboxes, keeper := { s.keeper with groups := updAt s.keeper.groups (field p.body 0 1) (fun _ => BitVec.ofNat 68 (field p.body 8 9)) } }))
      ∧ (8 ≤ field p.body 0 1 → Gives (.groupSet n) s (fun u => OnlyAnswers t u p 0x0541 [])))
    ∧ (Heard s n 0x0050 t p →
      (windowWorker s (field p.body 1 1) = none → Gives (.bist n) s (fun u => OnlyAnswers t u p 0x0541 []))
      ∧ (∀ w, windowWorker s (field p.body 1 1) = some w →
          ((getWorker s w).rsState = .testing ∨ (getWorker s w).bist.isSome = true →
            Gives (.bist n) s (fun u => OnlyAnswers t u p 0x0542 []))
          ∧ ((getWorker s w).rsState ≠ .testing → (getWorker s w).bist = none →
            Gives (.bist n) s (fun u => u = setWorker t w (fun x => { x with bist := some p })))))
  ) ∧ (
  ∀ (s t : State) (n : Fin 16) (p : Pending), Whole s →
    (Heard s n 0x0201 t p → ∀ first es, field p.body 0 2 = first → p.body.drop 8 = es →
      (es = [] ∨ 65536 < first + es.length ∨ (∃ e ∈ es, 24 ≤ e.toNat ∧ e ≠ 0x1E) →
        Gives (.linkRoute n) s (fun u => OnlyAnswers t u p 0x0332 []))
      ∧ (es ≠ [] → first + es.length ≤ 65536 → (∀ e ∈ es, e.toNat < 24 ∨ e = 0x1E) →
          Gives (.linkRoute n) s (fun u => Answered t u p 0 [] ∧ u = { s with mailboxes := u.mailboxes, routes := u.routes }
            ∧ ∀ d, routeOf u d = if first ≤ d ∧ d < first + es.length then (nth es (d - first)).toNat else routeOf s d)))
    ∧ (∀ i, field p.body 0 1 = i →
        (24 ≤ i → (HeardAction s n 0x0202 1 1 t p → Gives (.linkCtlRetrain n) s (fun u => OnlyAnswers t u p 0x0330 []))
          ∧ (HeardAction s n 0x0202 1 2 t p → Gives (.linkCtlEndQuarantine n) s (fun u => OnlyAnswers t u p 0x0330 []))
          ∧ (HeardAction s n 0x0202 1 3 t p → Gives (.linkCtlDisable n) s (fun u => OnlyAnswers t u p 0x0330 []))
          ∧ (HeardAction s n 0x0202 1 4 t p → Gives (.linkCtlEnable n) s (fun u => OnlyAnswers t u p 0x0330 [])))
        ∧ (i < 24 →
          (HeardAction s n 0x0202 1 1 t p →
            ((getLink s i).state = 5#3 ∨ bit (getLink s i).cfg.toNat 10 = false → Gives (.linkCtlRetrain n) s (fun u => OnlyAnswers t u p 0 []))
            ∧ ((getLink s i).state ≠ 5#3 → bit (getLink s i).cfg.toNat 10 = true → Gives (.linkCtlRetrain n) s (fun u =>
                AnsweredLast t u p 0 [] ∧ (getLink u i).state = (if linksOpen s then 1 else 0) ∧ (getLink u i).session = none
                  ∧ (getLink u i).lanes = 0 ∧ (NothingWaits s → u.comb = s.comb ∧ u.stackMem = s.stackMem ∧ u.workers = s.workers))))
          ∧ (HeardAction s n 0x0202 1 2 t p →
            ((getLink s i).state ≠ 5#3 → Gives (.linkCtlEndQuarantine n) s (fun u => OnlyAnswers t u p 0 []))
            ∧ ((getLink s i).state = 5#3 → Gives (.linkCtlEndQuarantine n) s (fun u =>
                AnsweredLast t u p 0 [] ∧ (getLink u i).state = (if linksOpen s then 1 else 0) ∧ (getLink u i).session = none)))
          ∧ (HeardAction s n 0x0202 1 3 t p →
            ((getLink s i).run.isSome = true → Gives (.linkCtlDisable n) s (fun u => OnlyAnswers t u p 0x0331 []))
            ∧ ((getLink s i).run = none → Gives (.linkCtlDisable n) s (fun u =>
                AnsweredLast t u p 0 [] ∧ (getLink u i).state = 0 ∧ bit (getLink u i).cfg.toNat 10 = false ∧ (getLink u i).session = none
                  ∧ (getLink u i).retryAt = none)))
          ∧ (HeardAction s n 0x0202 1 4 t p → Gives (.linkCtlEnable n) s (fun u => AnsweredLast t u p 0 [] ∧ bit (getLink u i).cfg.toNat 10 = true
              ∧ ((getLink s i).state = 0#3 → (getLink u i).state = (if linksOpen s then 1 else 0))
              ∧ ((getLink s i).state ≠ 0#3 → (getLink u i).state = (getLink s i).state)))))
  )

/-- R419 to R421, R424: the four actions of TIME_CFG. -/
def Obligations.TimeRequests : Prop :=
  ∀ (s t : State) (n : Fin 16) (p : Pending),
    (HeardAction s n 0x0301 0 1 t p →
      (3 < field p.body 1 1 → Gives (.timeCfgSetMode n) s (fun u => OnlyAnswers t u p 0x0630 []))
      ∧ (field p.body 1 1 ≤ 3 → Gives (.timeCfgSetMode n) s (fun u => ∃ v, OnlyAnswers v u p 0 [] ∧ OnlyTime t v ∧
          bits v.time.cfg.toNat 1 0 = field p.body 1 1 ∧ bits v.time.cfg.toNat 15 8 = field p.body 2 1
            ∧ bits v.time.cfg.toNat 7 2 = bits s.time.cfg.toNat 7 2 ∧ v.time.now = s.time.now
            ∧ (bits s.time.cfg.toNat 15 8 ≠ field p.body 2 1 → (findSource v .ptp).qualified = false)
            ∧ (∀ src, v.time.inForce = some src → modeAllows (field p.body 1 1) src = true))))
    ∧ (HeardAction s n 0x0301 0 2 t p → Gives (.timeCfgSetEpoch n) s (fun u => Answered t u p 0 []
        ∧ u = { s with mailboxes := u.mailboxes, time := { s.time with epoch := BitVec.ofNat 48 (field p.body 8 8) } }))
    ∧ (HeardAction s n 0x0301 0 3 t p → Gives (.timeCfgSetPpsSecond n) s (fun u => Answered t u p 0 []
        ∧ u = { s with mailboxes := u.mailboxes, time := { s.time with nextPpsSecond := some (field p.body 8 8) } }))
    ∧ (HeardAction s n 0x0301 0 4 t p → ∀ best, best = bestOf (s.time.sources.filter (fun x =>
          x.qualified && modeAllows (bits s.time.cfg.toNat 1 0) x.source)) →
        (best = none ∨ anyResident s = true ∨ (∃ x, best = some x ∧ x.offset < 0) →
          Gives (.timeCfgRejoin n) s (fun u => OnlyAnswers t u p 0x0631 []))
        ∧ (∀ x, best = some x → anyResident s = false → 0 ≤ x.offset → Gives (.timeCfgRejoin n) s (fun u => ∃ v, OnlyAnswers v u p 0 [] ∧ OnlyTime t v ∧
            (v.time.now : Int) = s.time.now + psUnits x.offset ∧ v.time.inForce = some x.source ∧ v.time.holdover = false
              ∧ v.time.slew = 0 ∧ (findSource v x.source).excludedUntil = none ∧ v.time.joined = s.time.joined)))

/-- R426, R427, R445, R448: time marks and telemetry streams. R443, R447, R448, R505: the log and the rail samples. -/
def Obligations.StreamsAndLog : Prop :=
  (
  ∀ (s t : State) (n : Fin 16) (p : Pending),
    (Heard s n 0x0330 t p →
      (∀ c, freeComparator s = some c → Gives (.timeMark n) s (fun u => Answered t u p 0 [] ∧ u = { s with mailboxes := u.mailboxes, time := { s.time with comps := updAt s.time.comps c (fun _ =>
          .mark (field p.body 0 8 * 65536 + field p.body 8 2) (BitVec.ofNat 32 (field p.body 12 4)) p.source) } }))
      ∧ (freeComparator s = none → Gives (.timeMark n) s (fun u => ∃ body, OnlyAnswers t u p 0x0620 body ∧ body.take 8 = natLe 8 (holderCodes s))))
    ∧ (∀ (c : Fin 16), standing s = false →
        (∀ time tag source, nth s.time.comps c = .mark time tag source → Gives (.timeMarkFire c) s (fun u =>
          u = { s with mailboxes := u.mailboxes, time := { s.time with comps := updAt s.time.comps c (fun _ => .free) } }
            ∧ u.mailboxes = (enqueue s (replyMailbox s source) ((fragments 0x4330 0 source 0 (s.time.now / 65536)
                (natLe 8 (time / 65536) ++ natLe 2 (time % 65536) ++ natLe 2 0 ++ natLe 4 tag.toNat)).map
                  (fun b => { bytes := b, completion := none }))).mailboxes))
        ∧ ((∀ time tag source, nth s.time.comps c ≠ .mark time tag source) → exec (.timeMarkFire c) s = .next s)
        ∧ ((∀ k kind period, nth s.time.comps c ≠ .stream k kind period) → exec (.telemStreamPeriod c) s = .next s))
    ∧ (HeardAction s n 0x0320 0 1 t p → ∀ st kind period, field p.body 1 1 = st → field p.body 2 1 = kind → field p.body 4 4 = period →
        (12 < st ∨ kind < 16 ∨ 19 < kind ∨ period < 10 ∨ 1000000 < period ∨ (∃ k d, CompHolder.stream st k d ∈ s.time.comps) →
          Gives (.telemStreamOpen n) s (fun u => OnlyAnswers t u p 0x0621 []))
        ∧ (∀ c, st ≤ 12 → 16 ≤ kind → kind ≤ 19 → 10 ≤ period → period ≤ 1000000 → (∀ k d, CompHolder.stream st k d ∉ s.time.comps) →
            freeComparator s = some c → Gives (.telemStreamOpen n) s (fun u => Answered t u p 0 []
              ∧ u = { s with mailboxes := u.mailboxes, telem := { s.telem with last := u.telem.last }, time := { s.time with comps := updAt s.time.comps c (fun _ => .stream st kind period) } })))
    ∧ (HeardAction s n 0x0320 0 2 t p → ∀ st, field p.body 1 1 = st →
        (12 < st → Gives (.telemStreamClose n) s (fun u => OnlyAnswers t u p 0x0621 []))
        ∧ (st ≤ 12 → (∀ k d, CompHolder.stream st k d ∉ s.time.comps) → Gives (.telemStreamClose n) s (fun u => OnlyAnswers t u p 0 []))
        ∧ (∀ c k d, st ≤ 12 → s.time.comps[c]? = some (.stream st k d) → (∀ b < c, ∀ k d, s.time.comps[b]? ≠ some (.stream st k d)) →
            Gives (.telemStreamClose n) s (fun u => Answered t u p 0 []
              ∧ u = { s with mailboxes := u.mailboxes, telem := { s.telem with last := u.telem.last }, time := { s.time with comps := updAt s.time.comps c (fun _ => .free) } })))
    ∧ (∀ (c : Fin 16) k kind period, standing s = false → nth s.time.comps c = .stream k kind period → kind ∈ [16, 17, 18, 19] →
        s.telem.buffer.length + 3 ≤ 4096 → Gives (.telemStreamPeriod c) s (fun u =>
          u = { s with telem := u.telem, time := { s.time with lastStamp := u.time.lastStamp } }
            ∧ ∃ rs : List Bytes, u.telem.buffer = s.telem.buffer ++ rs ∧ rs.length = (if kind = 18 then 3 else 1)
                ∧ ∀ r ∈ rs, r.length = 64 ∧ field r 10 1 = kind))
  ) ∧ (
  ∀ s : State, Whole s →
    (standing s = false →
      (s.telem.buffer = [] ∨ s.journal.scanned = false ∨ (stackUp s 0 = false ∧ stackUp s 2 = false) → exec .logWrite s = .next s)
      ∧ (∀ r rest, s.telem.buffer = r :: rest → s.journal.scanned = true → stackUp s 0 = true ∨ stackUp s 2 = true →
          (∀ x ∈ s.telem.records, s.telem.next < x.1 + 2 ^ 26) → Gives .logWrite s (fun u =>
            u.telem.records = s.telem.records ++ [(s.telem.next, r)] ∧ u.telem.next = s.telem.next + 1 ∧ u.telem.dropped = 0
              ∧ u = { s with telem := u.telem, time := { s.time with lastStamp := u.time.lastStamp } }
              ∧ (s.telem.dropped = 0 → u.telem.buffer = rest)
              ∧ (0 < s.telem.dropped → ∃ x : Bytes, u.telem.buffer = rest ++ [x] ∧ field x 10 1 = 37
                    ∧ (x.drop 16).take 8 = natLe 8 s.telem.dropped))))
    ∧ (∀ n t p, Heard s n 0x0321 t p →
        (field p.body 8 2 = 0 ∨ 1024 < field p.body 8 2 → Gives (.telemRead n) s (fun u => OnlyAnswers t u p 0x0640 []))
        ∧ (1 ≤ field p.body 8 2 → field p.body 8 2 ≤ 1024 → Gives (.telemRead n) s (fun u => OnlyAnswers t u p 0
            (natLe 8 (oldestRecord s) ++ natLe 8 s.telem.next ++ ((s.telem.records.filter (fun r => field p.body 0 8 ≤ r.1)).take
              (field p.body 8 2)).flatMap (fun r => padTo 64 r.2)))))
    ∧ (∀ (rail : Fin 6) (v : BitVec 12), standing s = false → Gives (.railCurrentSample rail v) s (fun u =>
        u.power = { s.power with railSample := updAt s.power.railSample rail (fun _ => v.toNat) }
          ∧ u = { s with power := u.power, telem := { s.telem with last := u.telem.last } }
          ∧ ∀ c, (∀ k d, nth s.time.comps c ≠ .stream k 16 d) → assocD u.telem.last c [] = assocD s.telem.last c []))
  )

/-- R417 to R419, R422, R424, R500: the discipline sources. R418, R420, R421, R498: what a pulse and a PTP message measure, and what follows (R413, R416, R424). -/
def Obligations.HiveTime : Prop :=
  (
  ∀ s : State, standing s = false →
    (s.time.joined = false → s.time.scanAt.isSome = true → bit s.time.cfg.toNat 3 = true → (∀ x ∈ s.time.sources, x.qualified = false) →
      Gives .freeRunningJoin s (fun u => OnlyTime s u ∧ u.time.joined = true ∧ u.time.holdover = true ∧ u.time.distance = 0xFF
        ∧ u.time.now = s.time.now ∧ u.time.inForce = s.time.inForce ∧ EventLogged s u 35 6
        ∧ u.keeper.state = (if s.keeper.state = .recover then (if s.journal.hold then .hold else .ready) else s.keeper.state)))
    ∧ (s.time.joined = true ∨ s.time.scanAt = none ∨ bit s.time.cfg.toNat 3 = false ∨ (∃ x ∈ s.time.sources, x.qualified = true) →
        exec .freeRunningJoin s = .next s)
    ∧ (∀ src, Gives (.sourceLoss src) s (fun u => OnlyTime s u ∧ (findSource u src).qualified = false ∧ u.time.now = s.time.now
        ∧ (s.time.inForce ≠ some src → u.time.inForce = s.time.inForce ∧ u.telem = s.telem)
        ∧ (s.time.inForce = some src → u.time.inForce = (bestBut s src).map SourceState.source
            ∧ ((bestBut s src).isSome = true → u.time.holdover = false)
            ∧ (bestBut s src = none → s.time.joined = true → u.time.holdover = true))))
    ∧ (∀ x cur, bestSource s = some x → s.time.inForce = some cur → x.source ≠ cur → sourceRank x < sourceRank (findSource s cur) →
        Gives .sourceChange s (fun u => OnlyTime s u ∧ u.time.inForce = some x.source ∧ u.time.now = s.time.now ∧ u.time.holdover = false
          ∧ u.time.sources = s.time.sources ∧ u.time.slew = psUnits x.offset))
    ∧ (bestSource s = none ∨ s.time.inForce = none ∨ (∃ x, bestSource s = some x ∧ s.time.inForce = some x.source)
        ∨ (∃ x cur, bestSource s = some x ∧ s.time.inForce = some cur ∧ sourceRank (findSource s cur) ≤ sourceRank x) →
        exec .sourceChange s = .next s)
    ∧ (∀ src, Gives (.timeFaultExclusionEnd src) s (fun u => u = { s with time := { s.time with sources := u.time.sources } }
        ∧ (findSource u src).excludedUntil = none ∧ ∀ y, y ≠ src → findSource u y = findSource s y))
    ∧ exec .syncRefLock s = .next { s with time := { s.time with syncRefLocked := true } }
    ∧ Gives .syncRefLoss s (fun u => OnlyTime s u ∧ u.time.syncRefLocked = false ∧ u.time.nextPpsSecond = none
        ∧ (findSource u .pps).qualified = false ∧ u.time.now = s.time.now)
  ) ∧ (
  ∀ s : State, standing s = false →
    (∀ high, pinIsStep s = true ∨ high < 100 ∨ s.time.syncRefLocked = false
        ∨ (∃ t, (findSource s .pps).lastPulse = some t ∧ s.time.now < t + 100000 * 65536) → exec (.syncPpsPulse high) s = .next s)
    ∧ (∀ high, pinIsStep s = false → 100 ≤ high → s.time.syncRefLocked = true →
        (∀ t, (findSource s .pps).lastPulse = some t → t + 100000 * 65536 ≤ s.time.now) →
        Gives (.syncPpsPulse high) s (fun u => OnlyTime s u ∧ (findSource u .pps).lastPulse = some s.time.now)
        ∧ (∀ t k, (findSource s .pps).lastPulse = some t → s.time.nextPpsSecond = some k →
            let old := findSource s .pps
            let second : Nat := 10 ^ 9 * 65536
            let os := (old.offsets ++ [diffPs ((s.time.now : Int) - t - second)]).drop (old.offsets.length - 2)
            let x : SourceState := { old with
              offsets := os, lastPulse := some s.time.now, distance := 0, offset := diffPs ((k * second : Nat) - (s.time.now : Int))
              since := if old.qualified then old.since else s.wall
              qualified := old.qualified || (os.length == 3 && os.all (fun d => decide (d.natAbs ≤ 200000))) }
            Gives (.syncPpsPulse high) s (fun u => u.time.nextPpsSecond = some (k + 1) ∧ Measured u x ∧ Disciplined s u x)))
    ∧ (∀ addr m, (∀ k < 5, nth s.keeper.sessEnable k = false ∨ sessionAddr s k ≠ addr) → exec (.ptpMessage addr m) s = .next s)
    ∧ (∀ addr k, k < 5 → nth s.keeper.sessEnable k = true → sessionAddr s k = addr →
        (∀ d g, d.toNat ≠ bits s.time.cfg.toNat 15 8 → exec (.ptpMessage addr (.announce d g)) s = .next s
          ∧ ∀ sec ps, exec (.ptpMessage addr (.sync d g sec ps)) s = .next s)
        ∧ (∀ d g, d.toNat = bits s.time.cfg.toNat 15 8 → (findSource s .ptp).grandmaster = g →
            exec (.ptpMessage addr (.announce d g)) s = .next s
            ∧ ∀ (sec ps : Nat), let old := findSource s .ptp
                let off := ((sec : Int) - s.time.epoch.toNat) * 10 ^ 12 + ps - diffPs s.time.now
                let os := (old.offsets ++ [off]).drop (old.offsets.length + 1 - 8)
                let x : SourceState := { old with
                  offsets := os, offset := off, distance := 0, since := if old.qualified then old.since else s.wall
                  qualified := old.qualified || withinMean 8 1000000 os }
                Gives (.ptpMessage addr (.sync d g sec ps)) s (fun u => OnlyTime s u ∧ Measured u x ∧ Disciplined s u x))
        ∧ (∀ d g, d.toNat = bits s.time.cfg.toNat 15 8 → (findSource s .ptp).grandmaster ≠ g →
            Gives (.ptpMessage addr (.announce d g)) s (fun u => OnlyTime s u ∧ (findSource u .ptp).grandmaster = g
              ∧ (findSource u .ptp).qualified = false ∧ u.time.inForce ≠ some .ptp ∧ u.time.now = s.time.now)
            ∧ ∀ sec ps, Gives (.ptpMessage addr (.sync d g sec ps)) s (fun u => OnlyTime s u ∧ (findSource u .ptp).grandmaster = g
              ∧ (findSource u .ptp).qualified = false ∧ u.time.inForce ≠ some .ptp ∧ u.time.now = s.time.now
              ∧ (findSource u .ptp).offset = ((sec : Int) - s.time.epoch.toNat) * 10 ^ 12 + ps - diffPs s.time.now)))
  )

/-- R428 to R430, R432, R433, R438, R442: what every governor period does. R26, R100, R428, R434, R503: gates, the switch of VCLK, the alert. -/
def Obligations.Governor : Prop :=
  (
  ∀ (s : State) (m : PowerSample), Whole s → standing s = false →
    (s.keeper.state = .rom → exec (.governorPeriod m) s = .next s)
    ∧ (s.keeper.state ≠ .rom → Gives (.governorPeriod m) s (fun u =>
        let p := s.power
        let sched := match p.ramp with
          | none => p.sched
          | some (cap, slew) => (if p.rampAcc < cap * 200 then min (cap * 200) (p.rampAcc + slew) else max (cap * 200) (p.rampAcc - slew)) / 200
        let least := min (min sched p.boardCap.toNat) 1440
        let fit (v : Nat) : Bool := fits u.power.inForce (predicted u (ungatedFrames s) v)
        let target := targetFor u (fits u.power.inForce)
        let spare := targetFor u (fitsSpare u.power.inForce)
        let below : Prop := gateSequence s ≠ [] ∧ fits u.power.inForce (predicted u (keepSet s (fewest s)) 3) = false
        u.power.energy = (List.range 8).map (fun f => wrapAdd (nth p.energy f) (nth m.energyUj f))
          ∧ u.power.activity = (List.range 8).map (nth m.activity) ∧ u.power.outsideMw = m.outsideMw
          ∧ u.power.meanPower = BitVec.ofNat 16 (min 65535 (m.periodMw / 250)) ∧ u.power.maxPower = BitVec.ofNat 16 (min 65535 (m.maxMw / 250))
          ∧ u.power.sched = sched ∧ u.power.inForce = (if p.alert = true then min least p.alertCap.toNat else least)
          ∧ p.vclk ≤ u.power.vclk
          ∧ (u.power.floor = true ↔ below) ∧ u.power.floorEvents = (if below ∧ p.floor = false then satAdd p.floorEvents 1 else p.floorEvents)
          ∧ (∀ f < 8, (getFrame s f).run = none → (getFrame s f).ungated = true → (getFrame s f).recovering = false →
              (getFrame u f).gateRequested = true)
          ∧ (fit p.vclk = false → u.power.lastDown = some s.wall ∧ u.power.targetVclk = target.2
              ∧ (∀ v < 4, fit v = true → (∀ w < v, fit w = false) → v ≤ u.power.vclk) ∧ ((∀ v < 4, fit v = false) → 3 ≤ u.power.vclk)
              ∧ (∀ f ∈ keepSet s target.1, (getFrame u f).ungated = true)
              ∧ (∀ f ∈ gateSequence s, f ∉ keepSet s target.1 → (getFrame s f).ungated = true → (getFrame s f).recovering = false →
                  f ∉ p.leadUngated → (getFrame u f).gateRequested = true))
          ∧ (fit p.vclk = true → m.meanMw ≤ u.power.inForce * 250 →
              product spare ≤ product ((heldFrames s).length, p.vclk) ∨ (∃ t, p.lastDown = some t ∧ s.wall < t + 100000) →
              u.power.targetVclk = p.targetVclk ∧ u.power.lastDown = p.lastDown ∧ ∀ f, (getFrame u f).ungated = (getFrame s f).ungated)
          ∧ u.comb = s.comb ∧ u.stackMem = s.stackMem ∧ u.journal = s.journal ∧ u.time.now = s.time.now))
  ) ∧ (
  ∀ s : State, Whole s → standing s = false →
    (∀ f : Fin 8, (getFrame s f).gateRequested = true → (getFrame s f).recovering = false →
      (∀ w ∈ frameWorkers s f, (getWorker s w).held = [] ∧ (getWorker s w).wait = none) → Gives (.frameGated f) s (fun u =>
        (getFrame u f).ungated = false ∧ (getFrame u f).gateRequested = false
          ∧ (∀ w ∈ frameWorkers s f, (getWorker u w).cells = [] ∧ (getWorker u w).admission
              = (if (getWorker s w).admission = .admitted ∨ (getWorker s w).admission = .waiting then .notAdmitted else (getWorker s w).admission))
          ∧ (∀ w, w ∉ frameWorkers s f → getWorker u w = getWorker s w)
          ∧ (∀ r rn, (getFrame s f).run = some r → getRun s r = some rn →
              (getRun u r).map Run.paused = some (rn.paused
                || (List.range 8).all (fun g => g == f.val || (getFrame s g).run != some r || !(getFrame s g).ungated)))
          ∧ u.comb = s.comb))
    ∧ (∀ f : Fin 8, (getFrame s f).gateRequested = false ∨ (getFrame s f).recovering = true
        ∨ (∃ w ∈ frameWorkers s f, (getWorker s w).held ≠ [] ∨ (getWorker s w).wait ≠ none) → exec (.frameGated f) s = .next s)
    ∧ (s.power.vddCommanded = true → s.power.targetVclk < s.power.vclk → Gives .vclkSwitch s (fun u =>
        u.power.vclk = s.power.targetVclk ∧ u.power.vddCommanded = false ∧ u.frames = s.frames ∧ u.workers = s.workers))
    ∧ (s.power.vddCommanded = false ∨ s.power.vclk ≤ s.power.targetVclk → exec .vclkSwitch s = .next s)
    ∧ (let least := min (min s.power.sched s.power.boardCap.toNat) 1440
      (s.keeper.state ≠ .rom → s.power.alert = false → Gives .pmbAlertAssert s (fun u =>
        u.power = { s.power with alertPinLow := true, alert := true, inForce := min least s.power.alertCap.toNat } ∧ EventLogged s u 36 1
          ∧ u = { s with power := u.power, telem := u.telem, time := { s.time with lastStamp := u.time.lastStamp } }))
      ∧ (s.keeper.state = .rom ∨ s.power.alert = true → exec .pmbAlertAssert s = .next { s with power := { s.power with alertPinLow := true } })
      ∧ (s.power.alert = true → Gives .pmbAlertRelease s (fun u =>
        u.power = { s.power with alertPinLow := false, alert := false, inForce := least } ∧ EventLogged s u 36 2
          ∧ u = { s with power := u.power, telem := u.telem, time := { s.time with lastStamp := u.time.lastStamp } }))
      ∧ (s.power.alert = false → exec .pmbAlertRelease s = .next { s with power := { s.power with alertPinLow := false } }))
  )

/-- R431, R436 to R438, R440: the flow schedule. -/
def Obligations.FlowSchedule : Prop :=
  ∀ s : State, Whole s →
    (∀ n t p, Heard s n 0x0310 t p → ∀ start count new kept, field p.body 0 8 = start → field p.body 8 2 = count →
        new = (List.range count).map (pointAt p.body) → kept = s.power.points.filter (fun q => q.time < start) →
        (ascending new = false ∨ (∃ q ∈ new, q.time < start) ∨ (∃ i < count, pointReserved p.body i = true)
            ∨ (pinIsStep s = false ∧ ∃ q ∈ new, q.edge = true) → Gives (.flowSet n) s (fun u => OnlyAnswers t u p 0x0610 []))
        ∧ (ascending new = true → (∀ q ∈ new, start ≤ q.time) → (∀ i < count, pointReserved p.body i = false) →
            pinIsStep s = true ∨ (∀ q ∈ new, q.edge = false) →
            (256 < kept.length + count → Gives (.flowSet n) s (fun u => OnlyAnswers t u p 0x0611 []))
            ∧ (kept.length + count ≤ 256 → Gives (.flowSet n) s (fun u => u.power.writer = some p.source
                ∧ (∃ begun, kept ++ new = begun ++ u.power.points ∧ u.power.flowIndex.toNat = (s.power.flowIndex.toNat + begun.length) % 256
                    ∧ ∀ q ∈ begun, (q.edge = false ∨ q.edgeAt.isSome = true) ∧ dieInstant s q ≤ s.time.now)
                ∧ (∀ q, u.power.points.head? = some q → (q.edge = true ∧ q.edgeAt = none) ∨ s.time.now < dieInstant s q)
                ∧ AnsweredLast t u p 0 (natLe 2 u.power.points.length ++ natLe 6 0
                    ++ natLe 8 (match u.power.points with | q :: _ => dieInstant s q / 65536 | [] => 0))))
            ∧ (kept.length + count ≤ 256 → s.power.leadUngated = [] →
                (∀ q, (kept ++ new).head? = some q → (q.edge = true ∧ q.edgeAt = none) ∨ s.time.now < dieInstant s q) →
                Gives (.flowSet n) s (fun u => Answered t u p 0 (natLe 2 (kept ++ new).length ++ natLe 6 0
                    ++ natLe 8 (match kept ++ new with | q :: _ => dieInstant s q / 65536 | [] => 0))
                  ∧ u = { s with mailboxes := u.mailboxes, power := { s.power with points := kept ++ new, writer := some p.source } }))))
    ∧ (standing s = false →
      (∀ q rest, s.power.points = q :: rest → q.edge = false ∨ q.edgeAt.isSome = true → Gives .flowPointBegin s (fun u =>
          u.power.points = rest ∧ u.power.flowIndex = s.power.flowIndex + 1
            ∧ u.power.sched = (if q.slew = 0 then q.cap else s.power.sched)
            ∧ u.power.ramp = (if q.slew = 0 then none else some (q.cap, q.slew))
            ∧ (∃ b, u.power.begun = some b ∧ b.point = q ∧ b.dieInstant = dieInstant s q ∧ b.index = (s.power.flowIndex.toNat + 1) % 256)
            ∧ u.power.inForce = s.power.inForce ∧ u.comb = s.comb ∧ u.workers = s.workers))
      ∧ (s.power.points = [] ∨ (∃ q rest, s.power.points = q :: rest ∧ q.edge = true ∧ q.edgeAt = none) →
          exec .flowPointBegin s = .next s)
      ∧ (nextIncrease s = none → exec .flowLead s = .next s)
      ∧ (∀ q, nextIncrease s = some q → Gives .flowLead s (fun u => u.power.inForce = s.power.inForce ∧ u.power.points = s.power.points
          ∧ (∀ f ∈ keepSet s (targetFor s (fitsSpare (capInForce { s.power with sched := q.cap }))).1, (getFrame u f).ungated = true)
          ∧ (∀ f, (getFrame s f).ungated = true → (getFrame u f).ungated = true)))
      ∧ (∀ high, pinIsStep s = false ∨ high < 1000 → exec (.flowStepEdge high) s = .next s)
      ∧ (∀ high, pinIsStep s = true → 1000 ≤ high →
          (∀ i, indexWhere s.power.points (fun q => q.edge && q.edgeAt.isNone && q.time * 65536 ≤ s.time.now) = some i →
            (∀ e, s.power.lastEdge = some e → e + 100000 * 65536 ≤ s.time.now) → exec (.flowStepEdge high) s = .next { s with power :=
              { s.power with lastEdge := some s.time.now, points := updAt s.power.points i (fun q => { q with edgeAt := some s.time.now }) } })
          ∧ ((∀ q ∈ s.power.points, q.edge = false ∨ q.edgeAt.isSome = true ∨ s.time.now < q.time * 65536)
              ∨ (∃ e, s.power.lastEdge = some e ∧ s.time.now < e + 100000 * 65536) →
            exec (.flowStepEdge high) s = .next { s with power := { s.power with stray := satAdd s.power.stray 1 } })))

/-- R348, R349, R353, R355: the packets that carry no tile. R342 to R344, R349, R372: a partner port's training, loss and upkeep. -/
def Obligations.PartnerPorts : Prop :=
  (
  ∀ (s : State) (p : Fin 8) (k : Bytes), Whole s → tspCheck k = true →
    (TspTakes s p 8 k → exec (.tspNop p k) s = .next (tspTaken s p k))
    ∧ (TspTakes s p 6 k → Gives (.tspRingOpen p k) s (fun u =>
        let again : Prop := (∃ x ∈ (getPartner s p).rings, x.id = field k 1 1) ∨ field k 1 1 ∈ (getPartner s p).reopened
        u = setPartner (tspTaken s p k) p (fun q =>
            { q with rings := (getPartner u p).rings, reopened := q.reopened.filter (fun i => i != field k 1 1) })
          ∧ (∃ g ∈ (getPartner u p).rings, g.id = field k 1 1 ∧ g.slotSize = field k 32 4 ∧ g.slotCount = field k 36 2 ∧ g.credits = []
              ∧ (¬ again → g.nextSeq = 0 ∧ g.fresh = false) ∧ (again → g.fresh = true))
          ∧ ∀ g, g.id ≠ field k 1 1 → (g ∈ (getPartner u p).rings ↔ g ∈ (getPartner s p).rings)))
    ∧ (TspTakes s p 7 k → Gives (.tspRingClose p k) s (fun u =>
        u = setPartner (tspTaken s p k) p (fun q =>
          { q with rings := q.rings.filter (fun g => g.id != field k 1 1), reopened := q.reopened.filter (fun i => i != field k 1 1) })))
    ∧ (TspTakes s p 2 k → (∃ g ∈ (getPartner s p).rings, g.id = field k 1 1) → Gives (.tspCredit p k) s (fun u =>
        u = setPartnerRings (tspTaken s p k) p (fun _ => (getPartner u p).rings)
          ∧ (getPartner u p).rings.length = (getPartner s p).rings.length
          ∧ ∀ (i : Nat) (g g' : PartnerRing), (getPartner s p).rings[i]? = some g → (getPartner u p).rings[i]? = some g' →
              (g.id ≠ field k 1 1 → g' = g)
              ∧ (g.id = field k 1 1 → (∀ q, q ∈ g'.credits ↔ q ∈ g.credits ∨ ∃ b ∈ maskList 64 (field k 40 8), q = field k 32 8 + b)
                  ∧ (g.fresh = false → g'.nextSeq = g.nextSeq)
                  ∧ (∀ b rest, g.fresh = true → maskList 64 (field k 40 8) = b :: rest → g'.nextSeq = field k 32 8 + b ∧ g'.fresh = false))))
    ∧ (TspTakes s p 3 k →
        ((getMailbox s (p + 1)).inFull = false → Gives (.tspMailbox p k) s (fun u =>
          u = setMailbox (tspTaken s p k) (p + 1) (fun b => { b with inbound := k.drop 32, inFull := true })))
        ∧ ((getMailbox s (p + 1)).inFull = true → Gives (.tspMailbox p k) s (fun u =>
          u = { s with partners := u.partners } ∧ HandedOver u p (getPartner (tspTaken s p k) p) 5)))
    ∧ (TspTakes s p 4 k → (getMailbox s (p + 1)).outFull = true → Gives (.tspMbxAck p k) s (fun u =>
          (getMailbox u (p + 1)).outFull = false ∧ outgoing (getMailbox u (p + 1)) = outgoing (getMailbox s (p + 1))
            ∧ getPartner u p = getPartner (tspTaken s p k) p))
    ∧ (TspTakes s p 4 k → (getMailbox s (p + 1)).outFull = false → exec (.tspMbxAck p k) s = .next (tspCounted (tspTaken s p k) p 1))
    ∧ (TspTakes s p 5 k → exec (.tspMbxBusy p k) s = .next (tspCounted (tspTaken s p k) p 1))
  ) ∧ (
  ∀ (s : State) (p : Fin 8), Whole s → standing s = false →
    (∀ answered modules rate32, portUp (getPartner s p) = true ∨ portsOpen s = false →
        exec (.partnerTrainingDone p answered modules rate32) s = .next s)
    ∧ (∀ answered modules rate32, portUp (getPartner s p) = false → portsOpen s = true →
        (answered = false ∨ (modules ≠ 15#4 ∧ modules ≠ 3#4) →
          exec (.partnerTrainingDone p answered modules rate32) s
            = .next (setPartner s p (fun q => { q with state := 0, modules := 0, rate := 0 })))
        ∧ (answered = true → modules = 15#4 ∨ modules = 3#4 → Gives (.partnerTrainingDone p answered modules rate32) s (fun u =>
            (getPartner u p).state = (if modules = 15#4 ∧ rate32 = true then 2 else 3) ∧ (getPartner u p).modules = modules
              ∧ (getPartner u p).rate = (if rate32 then 2 else 1) ∧ (findRecovery u 7 p) = none ∧ u.comb = s.comb
              ∧ (getPartner u p).rings = []
              ∧ ((getPartner s p).run = none → (getMailbox s (p + 1)).outFull = false → (getPartner u p).rxFree = 256
                    ∧ (getPartner u p).txUnits = 256 ∧ (getPartner u p).unacked = [] ∧ (getPartner u p).waiting = [])
              ∧ ((getPartner s p).run = none → (getMailbox s (p + 1)).outFull = true → ∃ x : Bytes,
                    (getPartner u p).sent = (getPartner s p).sent ++ [x] ∧ field x 0 1 = 3
                      ∧ x.drop 32 = (getMailbox s (p + 1)).outbound)
              ∧ (∀ r rn, (getPartner s p).run = some r → getRun s r = some rn → rn.ready = true →
                  ∀ g ∈ receiveRings rn.image p, g < rn.rings.length → (getRing u r g).opened = true))))
    ∧ (portUp (getPartner s p) = true → Gives (.partnerLinkLoss p) s (fun u => (getPartner u p).state = 4
        ∧ (getPartner u p).unacked = [] ∧ (getPartner u p).rings = [] ∧ (findRecovery u 7 p).isSome = true
        ∧ u.comb = s.comb ∧ u.stackMem = s.stackMem
        ∧ (∀ r, (getPartner s p).run = some r → Faultable s r → ∃ e, (getRun u r).bind Run.fault = some e ∧ e.code = 0x0410)))
    ∧ (portUp (getPartner s p) = false → exec (.partnerLinkLoss p) s = .next s)
    ∧ ((getPartner s p).owed = 0 ∨ (getPartner s p).waiting ≠ [] ∨ portUp (getPartner s p) = false → exec (.tspNopSend p) s = .next s)
    ∧ (0 < (getPartner s p).owed → (getPartner s p).waiting = [] → portUp (getPartner s p) = true → Gives (.tspNopSend p) s (fun u =>
        u = { s with partners := u.partners } ∧ HandedOver u p (getPartner s p) 8
          ∧ (tspMay (getPartner s p) 0 = true → (getPartner u p).owed = 0 ∧ ∃ x : Bytes, (getPartner u p).sent = (getPartner s p).sent ++ [x]
              ∧ field x 24 2 = min 65535 ((getPartner s p).owed + (getPartner s p).owedNop))))
    ∧ (∀ rest retries, (getPartner s p).unacked = none :: rest → exec (.adapterPacketAck { port := p, retries := retries }) s
        = .next (tspPump (setPartner s p (fun q => { q with unacked := rest, retries := satAdd q.retries retries.toNat })) p))
    ∧ (∀ retries, (getPartner s p).unacked = [] → exec (.adapterPacketAck { port := p, retries := retries }) s = .next s)
  )

/-- R351, R352, R355: violations by a partner. -/
def Obligations.PartnerViolations : Prop :=
  ∀ (s : State) (p : Fin 8) (ty : Nat) (k : Bytes), Whole s → standing s = false → 1 ≤ ty → ty ≤ 8 →
    (portUp (getPartner s p) = false ∨ (1 ≤ field k 0 1 ∧ field k 0 1 ≤ 8 ∧ field k 0 1 ≠ ty) → exec (tspRow ty p k) s = .next s)
    ∧ (portUp (getPartner s p) = true → field k 0 1 = ty →
        ∀ bitNo, ((getPartner s p).rxFree < tspCost (k.length - 32) ∧ bitNo = 5)
            ∨ (tspCost (k.length - 32) ≤ (getPartner s p).rxFree ∧ tspMalformed k = true ∧ bitNo = 1)
            ∨ (tspCost (k.length - 32) ≤ (getPartner s p).rxFree ∧ tspMalformed k = false ∧ ty ≠ 1 ∧ tspCheck k = false ∧ bitNo = 2) →
          Gives (tspRow ty p k) s (fun u =>
            (getPartner u p).err = (getPartner s p).err ||| BitVec.ofNat 6 (2 ^ bitNo)
              ∧ (getPartner u p).errCount = satAdd (getPartner s p).errCount 1 ∧ u.comb = s.comb ∧ u.stackMem = s.stackMem
              ∧ (let faults : Prop := bitNo = 5 ∨ (bitNo = 1 ∧ (tspReserved k = true ∨ ty ≠ 3)) ∨ (bitNo = 2 ∧ ¬ (3 ≤ ty ∧ ty ≤ 5))
                ((getPartner s p).run = none ∨ ¬ faults →
                    (getPartner u p).state = (getPartner s p).state ∧ u = { s with partners := u.partners })
                ∧ ((getPartner s p).run.isSome = true → faults →
                    (getPartner u p).state = 1 ∧ (findRecovery u 7 p).isSome = true))))

/-- R94, R350, R352: DATA packets. -/
def Obligations.PartnerTiles : Prop :=
  ∀ (s : State) (p : Fin 8) (k : Bytes), Sound s → TspTakes s p 1 k →
    (receiveRing s p (field k 1 1) = none → Gives (.tspData p k) s (fun u => u.comb = s.comb ∧ u.runs = s.runs
        ∧ (getPartner u p).err = (getPartner s p).err ||| 16#6))
    ∧ (∀ r g rn rg q off slot next crc, receiveRing s p (field k 1 1) = some (r, g) → getRun s r = some rn → nth rn.rings g = rg →
        g < rn.rings.length →
        q = field k 8 5 → off = field k 16 4 → slot = rg.decl.base + q % rg.decl.slotCount * rg.decl.slotSize →
        ((∃ x, rg.partials.find? (fun x => x.seq == q) = some x ∧ next = x.next ∧ crc = crcMore x.crc (k.drop 32))
          ∨ (rg.partials.find? (fun x => x.seq == q) = none ∧ next = 0 ∧ crc = crcMore 0 (k.drop 32))) →
        (q ∉ rg.credits → Gives (.tspData p k) s (fun u => u.comb = s.comb ∧ (getPartner u p).err = (getPartner s p).err ||| 1#6))
        ∧ (q ∈ rg.credits → off ≠ next ∨ rg.decl.slotSize < off + (k.drop 32).length → Gives (.tspData p k) s (fun u =>
            u.comb = s.comb ∧ (getPartner u p).err = (getPartner s p).err ||| 2#6 ∧ (getRing u r g).tokens = rg.tokens))
        ∧ (q ∈ rg.credits → off = next → off + (k.drop 32).length ≤ rg.decl.slotSize → ∀ b : BitVec 6,
            (tspCheck k = false ∧ b = 4#6)
              ∨ (tspCheck k = true ∧ bit (field k 2 2) 0 = true ∧ bit (field k 2 2) 1 = true ∧ crc.toNat ≠ field k 20 4 ∧ b = 8#6) →
            Gives (.tspData p k) s (fun u => (getPartner u p).err = (getPartner s p).err ||| b ∧ (getRing u r g).tokens = rg.tokens
              ∧ (∀ a, a < slot + off ∨ slot + off + (k.drop 32).length ≤ a → readComb u a = readComb s a)))
        ∧ (q ∈ rg.credits → off = next → off + (k.drop 32).length ≤ rg.decl.slotSize → tspCheck k = true →
            (bit (field k 2 2) 0 = false → Gives (.tspData p k) s (fun u =>
              u.comb = memSetMany combDefault (bytesAt (slot + off) (k.drop 32)) s.comb
                ∧ (∀ a, a < slot + off ∨ slot + off + (k.drop 32).length ≤ a → readComb u a = readComb s a)
                ∧ (∃ x ∈ (getRing u r g).partials, x.seq = q ∧ x.next = off + (k.drop 32).length ∧ x.crc = crc)
                ∧ (getRing u r g).credits = rg.credits ∧ (getRing u r g).tokens = rg.tokens
                ∧ u = { s with comb := u.comb, poison := u.poison, partners := u.partners, runs := u.runs }))
            ∧ (bit (field k 2 2) 0 = true → bit (field k 2 2) 1 = false ∨ crc.toNat = field k 20 4 → q ∉ rg.passes →
                q % rg.decl.slotCount < rg.tokens.length → Gives (.tspData p k) s (fun u =>
              (∀ a, a < slot + off ∨ slot + off + (k.drop 32).length ≤ a → readComb u a = readComb s a)
                ∧ nth (getRing u r g).tokens (q % rg.decl.slotCount) = { capped := true, lap := lapOf rg.decl.slotCount q, crc := some crc }
                ∧ q ∉ (getRing u r g).credits ∧ (∀ x ∈ (getRing u r g).partials, x.seq ≠ q)
                ∧ u = { s with comb := u.comb, poison := u.poison, partners := u.partners, runs := u.runs }))))

/-- R378 to R380, R390, R391: the common part of every frame's reception. -/
def Obligations.FrameReception : Prop :=
  ∀ (s : State) (n : Fin 24) (ty : Nat) (k : Bytes) (fec : FecReport), Whole s → standing s = false → 1 ≤ ty → ty ≤ 16 →
    let x := field k 0 1
    let mine : Prop := x = ty ∨ x = 0 ∨ 16 < x
    ((¬ Listening s n) ∨ (1 ≤ x ∧ x ≤ 16 ∧ x ≠ ty) → exec (frameRow ty n k fec) s = .next s)
    ∧ (Listening s n → mine → wholeFrame k fec = false → Gives (frameRow ty n k fec) s (fun u =>
        u = { s with links := u.links } ∧ (∀ m, m ≠ n.val → getLink u m = getLink s m)
          ∧ (getLink u n).err = (getLink s n).err ||| 0x20#8 ∧ Nakked s u n
          ∧ (getLink u n).fecUe = satAdd (getLink s n).fecUe fec.uncorrected))
    ∧ (Listening s n → mine → wholeFrame k fec = true → openFrame s (getLink s n) k = none → UnderLimit s n →
        Gives (frameRow ty n k fec) s (fun u => FrameRefused s u n 3 ∧ Nakked s u n))
    ∧ (∀ pay, Listening s n → mine → wholeFrame k fec = true → openFrame s (getLink s n) k = some pay →
        (getLink s n).txQueue = [] → NothingWaits s →
        (isAckNak x = false →
          (field k 4 4 ≠ (getLink s n).rxSeq → seqOlder (field k 4 4) (getLink s n).rxSeq = true → exec (frameRow ty n k fec) s
              = .next (setLink s n (fun l => { l with ackDue := true, fecCe := satAdd l.fecCe fec.corrected, fecUe := satAdd l.fecUe 0 })))
          ∧ (field k 4 4 ≠ (getLink s n).rxSeq → seqOlder (field k 4 4) (getLink s n).rxSeq = false → Gives (frameRow ty n k fec) s (fun u =>
              u = { s with links := u.links } ∧ (∀ m, m ≠ n.val → getLink u m = getLink s m)
                ∧ Nakked s u n ∧ (getLink u n).err = (getLink s n).err))
          ∧ (field k 4 4 = (getLink s n).rxSeq → UnderLimit s n → ∀ b,
              (badForm s n k = true ∧ b = 2)
                ∨ (badForm s n k = false ∧ nth (getLink s n).rxGranted (frameVc x) < frameUnits k.length ∧ b = 0)
                ∨ (badForm s n k = false ∧ frameUnits k.length ≤ nth (getLink s n).rxGranted (frameVc x) ∧ strayRoute k = true ∧ b = 4) →
              Gives (frameRow ty n k fec) s (fun u => FrameRefused s u n b ∧ (getLink u n).rxSeq = seqNext (getLink s n).rxSeq))
          ∧ (field k 4 4 = (getLink s n).rxSeq → badForm s n k = true → ¬ UnderLimit s n →
              Gives (frameRow ty n k fec) s (fun u => Quarantined s u n ∧ (getLink u n).rxSeq = seqNext (getLink s n).rxSeq)))
        ∧ (isAckNak x = true → badForm s n k = true →
          (UnderLimit s n → Gives (frameRow ty n k fec) s (fun u => FrameRefused s u n 2 ∧ (getLink u n).rxSeq = (getLink s n).rxSeq))
          ∧ (¬ UnderLimit s n → Gives (frameRow ty n k fec) s (fun u => Quarantined s u n))))

/-- R381, R383, R384, R391, R393, R394, R399, R405, R409, R410, R418: what the frames of a session do. -/
def Obligations.FrameEffects : Prop :=
  ∀ (s : State) (n : Fin 24) (k : Bytes) (fec : FecReport) (pay : Bytes), Whole s →
    (FrameTaken s n 15 k fec pay → Gives (.ack n k fec) s (fun u => AfterFrame s u n k))
    ∧ (FrameTaken s n 16 k fec pay → (∀ f ∈ (getLink s n).replay, f.sends < 7) → Gives (.nak n k fec) s (fun u => ∃ t, AfterFrame s t n k
        ∧ u = setLink t n (fun l => { l with wire := l.wire ++ l.replay.map TxFrame.bytes, replayed := satAdd l.replayed l.replay.length
                                             replay := l.replay.map (fun f => { f with sends := f.sends + 1 }) })))
    ∧ (FrameTaken s n 14 k fec pay → Gives (.quarantine n k fec) s (fun u => ∃ t, AfterFrame s t n k
        ∧ u = setLink t n (fun l => { l with cause := BitVec.ofNat 16 (field pay 0 2) })))
    ∧ (FrameTaken s n 3 k fec pay →
        let id := field k 16 1
        let listed (t : State) : State := setLink t n (fun l => { l with peerRings := l.peerRings.filter (fun p => p.id != id) ++
          [{ id := id, slotSize := field pay 0 4, slotCount := field pay 4 2, nextSeq := field pay 8 8, credits := [] }] })
        let sends (rn : Run) : List Issued := rn.issued.filter (fun i => !i.op.micro && i.op.opcode == 0x80 && linkOf i.op == n.val)
        ((∀ r rn, (getLink s n).run = some r → getRun s r = some rn → ∀ i ∈ sends rn, i.chunk ≠ 0 ∨ i.units = []) →
          Gives (.waggleRingOpen n k fec) s (fun u => ∃ t, AfterFrame s t n k ∧ u = listed t))
        ∧ (∀ r rn i, (getLink s n).run = some r → getRun s r = some rn → sends rn = [i] → i.chunk = 0 → i.units ≠ [] → peerRingId i.op = id →
          let f := (nth i.op.descs 0).fmt
          let c := chunkElems f (field pay 0 4)
          (c = 0 ∨ c % groupSize f ≠ 0 → Faultable s r →
            Gives (.waggleRingOpen n k fec) s (fun u => FaultedAt u r 0x0313 { instr := i.instr, unit := 0 }))
          ∧ (c ≠ 0 → c % groupSize f = 0 → (∀ o, orderOf s rn = some o → owedUnits o i.instr (List.range (ceilDiv (totalElems i) c)) ≠ []) →
            totalElems i ≠ 0 → Gives (.waggleRingOpen n k fec) s (fun u => (getRun u r).bind (fun rn => (findIssued rn i.instr).map
              (fun j => (j.chunk, j.units))) = some (c, List.range (ceilDiv (totalElems i) c))))))
    ∧ (FrameTaken s n 4 k fec pay → Gives (.waggleRingClose n k fec) s (fun u => ∃ t, AfterFrame s t n k
        ∧ u = setLink t n (fun l => { l with peerRings := l.peerRings.filter (fun p => p.id != field k 16 1) })))
    ∧ (FrameTaken s n 5 k fec pay →
        ((∀ p ∈ (getLink s n).peerRings, p.id ≠ field k 16 1) → Gives (.rcredit n k fec) s (fun u => ∃ t, AfterFrame s t n k
          ∧ u = setLink t n (fun l => { l with drop := satAdd l.drop 1 })))
        ∧ ((∃ p ∈ (getLink s n).peerRings, p.id = field k 16 1) → Gives (.rcredit n k fec) s (fun u => ∃ t, AfterFrame s t n k
          ∧ u = setLink t n (fun l => { l with peerRings := (getLink u n).peerRings })
          ∧ (getLink u n).peerRings.length = (getLink s n).peerRings.length
          ∧ ∀ (i : Nat) (p p' : PeerRing), (getLink s n).peerRings[i]? = some p → (getLink u n).peerRings[i]? = some p' →
              (p.id ≠ field k 16 1 → p' = p)
              ∧ (p.id = field k 16 1 → ∀ q, q ∈ p'.credits ↔ q ∈ p.credits ∨ ∃ b ∈ maskList 64 (field pay 8 8), q = field pay 0 8 + b))))
    ∧ (FrameTaken s n 6 k fec pay →
        (field k 18 2 ∉ expectedPlans s n → Gives (.check n k fec) s (fun u => ∃ t, AfterFrame s t n k
          ∧ u = setLink t n (fun l => { l with drop := satAdd l.drop 1 })))
        ∧ (field k 18 2 ∈ expectedPlans s n → (∀ r rn, (getLink s n).run = some r → getRun s r = some rn → rn.checkWait = none) →
          Gives (.check n k fec) s (fun u => ∃ t, AfterFrame s t n k
            ∧ let c := assocD (getLink s n).checksIn (field k 18 2) 0
              u = setLink t n (fun l => { l with checksIn := assocSet l.checksIn (field k 18 2) (max (fullCount c (field k 20 2)) c) }))))
    ∧ (FrameTaken s n 2 k fec pay →
        let m := 14 + n.val % 2
        let out := routeOf s (field k 16 2)
        (field k 16 2 = s.life.dieId.toNat → (getMailbox s m).arrived.length < 64 →
          Gives (.waggleMailbox n k fec) s (fun u => (∃ t, AfterFrame s t n k ∧ u = { t with mailboxes := u.mailboxes })
            ∧ MailIn s u m pay (field k 18 2) ∧ ∀ j, j ≠ m → getMailbox u j = getMailbox s j))
        ∧ (field k 16 2 = s.life.dieId.toNat → 64 ≤ (getMailbox s m).arrived.length →
          Gives (.waggleMailbox n k fec) s (fun u => ∃ t h, AfterFrame s t n k
            ∧ u = setLink t n (fun l => { l with heldFrames := l.heldFrames ++ [h] }) ∧ field h 2 2 = field k 18 2 ∧ h.drop 4 = pay))
        ∧ (field k 16 2 ≠ s.life.dieId.toNat → field k 20 1 ≤ 1 ∨ 24 ≤ out ∨ out = n ∨ linkUp (getLink s out) = false →
          Gives (.waggleMailbox n k fec) s (fun u => ∃ t, AfterFrame s t n k ∧ u = setLink t n (fun l => { l with drop := satAdd l.drop 1 })))
        ∧ (field k 16 2 ≠ s.life.dieId.toNat → 1 < field k 20 1 → out < 24 → out ≠ n → linkUp (getLink s out) = true →
          (getLink s out).txQueue = [] → Gives (.waggleMailbox n k fec) s (fun u => u = { s with links := u.links }
            ∧ SentOn s u out 2 (natLe 2 (field k 16 2) ++ natLe 2 (field k 18 2) ++ natLe 1 (field k 20 1 - 1)) pay
            ∧ ∀ j, j ≠ n.val → j ≠ out → getLink u j = getLink s j)))
    ∧ (FrameTaken s n 7 k fec pay → Gives (.timeReq n k fec) s (fun u =>
        u = { s with links := u.links } ∧ (∀ m, m ≠ n.val → getLink u m = getLink s m)
          ∧ SentOn s u n 8 [] (padTo 40 (fieldBytes pay 0 4 ++ natLe 1 s.time.distance.toNat ++ natLe 1 (if s.time.holdover then 1 else 0)
              ++ natLe 2 0 ++ natLe 8 (s.time.now / 65536) ++ natLe 2 (s.time.now % 65536)))))
    ∧ (FrameTaken s n 8 k fec pay →
        ((getLink s n).timeSentAt = none ∨ field pay 0 4 ≠ (getLink s n).timeExchange.toNat →
          Gives (.waggleTimeResp n k fec) s (fun u => AfterFrame s u n k))
        ∧ (∀ t1, (getLink s n).timeSentAt = some t1 → field pay 0 4 = (getLink s n).timeExchange.toNat →
          let out : Int := (field pay 8 8 * 65536 + field pay 16 2 : Nat) - (t1 : Int)
          let back : Int := (s.time.now : Int) - (field pay 24 8 * 65536 + field pay 32 2 : Nat)
          let off := (diffPs (out - back) - toSigned 32 (getLink s n).asym.toNat) / 2
          let old := findSource s (.link n)
          let os := (old.offsets ++ [off]).drop (old.offsets.length + 1 - 16)
          let x : SourceState := { old with
            offsets := os, offset := off, distance := field pay 4 1 + 1, since := if old.qualified then old.since else s.wall
            qualified := old.qualified || withinMean 16 20000 os }
          Gives (.waggleTimeResp n k fec) s (fun u => (getLink u n).timeSentAt = none ∧ u.comb = s.comb ∧ u.runs = s.runs
            ∧ (getLink u n).delay = BitVec.ofNat 32 (max 0 (min (2 ^ 32 - 1) (diffPs (out + back) / 2))).toNat
            ∧ (254 ≤ field pay 4 1 ∨ bit (field pay 5 1) 0 = true → (findSource u (.link n)).qualified = false
                ∧ ((∃ y ∈ s.time.sources, y.source = .link n) → s.time.inForce = some (.link n) → u.time.inForce = (bestBut s (.link n)).map SourceState.source))
            ∧ (field pay 4 1 < 254 → bit (field pay 5 1) 0 = false → Measured u x ∧ Disciplined s u x))))

/-- R375, R378, R385 to R387, R389, R406, R408: from training to the session. The outcome of each check of the opaque
standards' functions is told for both of its values. -/
def Obligations.Handshake : Prop :=
  ∀ (s : State) (n : Fin 24), Whole s →
    (standing s = false →
      (∀ signal lanes, 2 ≤ (getLink s n).state.toNat ∨ linksOpen s = false → exec (.linkTrainingDone n signal lanes) s = .next s)
      ∧ (∀ signal lanes, (getLink s n).state.toNat < 2 → linksOpen s = true →
          (bit (getLink s n).cfg.toNat 10 = false ∨ signal = false ∨ (lanes ≠ 15#4 ∧ lanes ≠ 3#4) →
            exec (.linkTrainingDone n signal lanes) s = .next (setLink s n (fun l => { l with state := 0, lanes := 0 })))
          ∧ (bit (getLink s n).cfg.toNat 10 = true → signal = true → lanes = 15#4 ∨ lanes = 3#4 → Gives (.linkTrainingDone n signal lanes) s (fun u =>
              u = { s with links := u.links, mailboxes := u.mailboxes, draws := s.draws + 1 } ∧ (∀ m, m ≠ n.val → getLink u m = getLink s m)
                ∧ (getLink u n).state = 2 ∧ (getLink u n).lanes = lanes ∧ (getLink u n).cfgInForce = (getLink s n).cfg
                ∧ (getLink u n).txSeq = 1 ∧ (getLink u n).rxSeq = 1 ∧ (getLink u n).txUnits = [0, 0, 0, 0]
                ∧ ∃ h q rest, (getLink u n).handshake = some h ∧ h.draw = s.draws ∧ h.peerHello = [] ∧ h.chainOk = false ∧ h.proveOk = false
                  ∧ (getLink u n).txQueue = q :: rest ∧ q.type = 9 ∧ q.payload = h.ownHello
                  ∧ (∀ c ∈ rest, c.type = 10) ∧ (rest.map TxReq.payload).flatten = s.life.chain)))
      ∧ ((getLink s n).handshake.isSome = true → Gives (.handshakeTimeout n) s (fun u => HandshakeFailed s u n 0x0324))
      ∧ ((getLink s n).handshake = none → exec (.handshakeTimeout n) s = .next s)
      ∧ ((getLink s n).state = 6#3 → (getLink s n).retryAt.isSome = true → (∀ q ∈ (getLink s n).txQueue, q.last = none) → Gives (.handshakeRetry n) s (fun u =>
          (getLink u n).state = 2 ∧ (getLink u n).retryAt = none
            ∧ ∃ h, (getLink u n).handshake = some h ∧ h.draw = s.draws ∧ h.peerHello = [] ∧ h.chainOk = false ∧ h.proveOk = false))
      ∧ ((getLink s n).state ≠ 6#3 ∨ (getLink s n).retryAt = none → exec (.handshakeRetry n) s = .next s))
    ∧ (∀ k fec pay h, (getLink s n).handshake = some h →
        let with' (h' : Machine.Handshake) (u : State) : Prop := ∃ t, AfterFrame s t n k ∧ u = setLink t n (fun l => { l with handshake := some h' })
        (FrameTaken s n 9 k fec pay →
          (h.peerHello ≠ [] → UnderLimit s n → Gives (.hello n k fec) s (fun u => FrameRefused s u n 2))
          ∧ (h.peerHello = [] →
            (field pay 4 2 = s.life.dieId.toNat ∨ (bit (getLink s n).peerCfg.toNat 16 = true ∧ field pay 4 2 ≠ bits (getLink s n).peerCfg.toNat 15 0) →
              Gives (.hello n k fec) s (fun u => HandshakeFailed s u n 0x0322))
            ∧ (field pay 4 2 ≠ s.life.dieId.toNat → bit (getLink s n).peerCfg.toNat 16 = false ∨ field pay 4 2 = bits (getLink s n).peerCfg.toNat 15 0 →
                (max (field h.ownHello 2 1) (field pay 2 1) < max (field h.ownHello 3 1) (field pay 3 1) →
                  Gives (.hello n k fec) s (fun u => HandshakeFailed s u n 0x0323))
                ∧ (max (field h.ownHello 3 1) (field pay 3 1) ≤ max (field h.ownHello 2 1) (field pay 2 1) →
                  Gives (.hello n k fec) s (with' { h with peerHello := pay })))))
        ∧ (FrameTaken s n 10 k fec pay → ∀ chain, chain = h.peerChain ++ pay →
          (h.peerHello = [] ∨ field h.peerHello 12 4 < chain.length → UnderLimit s n → Gives (.cert n k fec) s (fun u => FrameRefused s u n 2))
          ∧ (h.peerHello ≠ [] → chain.length < field h.peerHello 12 4 → Gives (.cert n k fec) s (with' { h with peerChain := chain }))
          ∧ (h.peerHello ≠ [] → chain.length = field h.peerHello 12 4 → Gives (.cert n k fec) s (fun u =>
              let h' := { h with peerChain := chain, chainOk := true, sentProve := true }
              if Config.chainValid s.life.anchor chain = true ∧ Config.chainDieId chain = some (BitVec.ofNat 16 (field h.peerHello 4 2))
              then (getLink u n).handshake = some h'
                ∧ SentOn s u n 11 [] (padTo 96 (Config.deviceSign (deviceSeedOf s) (transcript s h')))
              else HandshakeFailed s u n 0x0320)))
        ∧ (FrameTaken s n 11 k fec pay →
          let keys := padTo 72 (sessionKeys (Config.ecdhShared h.draw (fieldBytes h.peerHello 48 97)) (transcript s h) (agreedEpoch h))
          (h.chainOk = false ∨ h.proveOk = true → UnderLimit s n → Gives (.prove n k fec) s (fun u => FrameRefused s u n 2))
          ∧ (h.chainOk = true → h.proveOk = false → Gives (.prove n k fec) s (fun u =>
              if Config.ecdsaValid (Config.chainKey h.peerChain) (transcript s h) pay = true
              then (getLink u n).handshake = some { h with proveOk := true, sentFinish := true, keys := keys }
                ∧ SentOn s u n 12 [] (List.replicate 16 0)
              else HandshakeFailed s u n 0x0321)))
        ∧ (FrameTaken s n 12 k fec pay →
          (h.proveOk = false → UnderLimit s n → Gives (.finish n k fec) s (fun u => FrameRefused s u n 2))
          ∧ (h.proveOk = true → 0 < field k 4 4 → field k 4 4 + 1 < 2 ^ 32 →
              let dir := directionKey h.keys (!isLower s (field h.peerHello 4 2))
              let good : Prop := padTo 16 (Config.gcmSeal dir.1 (frameNonce dir.2 (getLink s n).rxCount (field k 4 4)) (k.take 32) []).2 = pay
              (¬ good → UnderLimit s n → Gives (.finish n k fec) s (fun u => FrameRefused s u n 3))
              ∧ (good → Gives (.finish n k fec) s (fun u =>
                  (getLink u n).session = some h.keys ∧ (getLink u n).handshake = none ∧ (getLink u n).epoch = agreedEpoch h
                    ∧ (getLink u n).mode = BitVec.ofNat 2 (agreedMode h) ∧ (getLink u n).peerId = BitVec.ofNat 16 (field h.peerHello 4 2)
                    ∧ (getLink u n).state = (if (getLink s n).lanes = 15#4 then 3 else 4) ∧ (getLink u n).txUnits = [0, 0, 0, 0]
                    ∧ (∀ v ∈ [1, 2, 3], nth (getLink u n).rxGranted v = linkBuffer v) ∧ (getLink u n).retryWait = 1
                    ∧ (1 < (agreedEpoch h).toNat → ∃ q rest, (getLink u n).txQueue = q :: rest ∧ q.type = 13)
                    ∧ (∀ r p, (getLink s n).run = some r → (getLink s n).lastPeer = some p → p ≠ BitVec.ofNat 16 (field h.peerHello 4 2) →
                        Faultable s r → FaultedAt u r 0x0302 { instr := 0xFFFFFFFF, unit := 0 }))))))
    ∧ (∀ ty ∈ [9, 10, 11, 12], ∀ k fec pay, FrameTaken s n ty k fec pay → (getLink s n).handshake = none → UnderLimit s n →
        Gives (frameRow ty n k fec) s (fun u => FrameRefused s u n 2))

/-- R378, R380, R381, R391, R402, R405, R407 to R410, R418: the links' timers and what they do, and RESUME. -/
def Obligations.LinkUpkeep : Prop :=
  ∀ (s : State) (n : Fin 24), Whole s → standing s = false →
    ((getLink s n).lanes = 0 → exec (.ackTimer n) s = .next s)
    ∧ ((getLink s n).lanes ≠ 0 → Gives (.ackTimer n) s (fun u => u = { s with links := u.links } ∧ (getLink u n).txSeq = (getLink s n).txSeq
        ∧ (∀ m, m ≠ n.val → getLink u m = getLink s m)
        ∧ ((getLink s n).ackDue = true → (getLink u n).ackDue = false
            ∧ ∃ b rest, (getLink u n).wire = (getLink s n).wire ++ b :: rest ∧ field b 0 1 = 15 ∧ field b 8 4 = lastInOrder (getLink s n) % 2 ^ 32)
        ∧ ((getLink s n).rxGranted.length = 4 → (getLink s n).rxUsed.length = 4 → (∀ v < 4, freeUnits (getLink s n) v ≤ 4095) →
            ∀ v < 4, freeUnits (getLink u n) v = 0)
        ∧ (getLink u n).replay = (getLink s n).replay))
    ∧ ((getLink s n).replay = [] → exec (.replayTimeout n) s = .next s ∧ exec (.linkFail n) s = .next s)
    ∧ ((getLink s n).replay ≠ [] →
        ((∀ f ∈ (getLink s n).replay, f.sends < 7) → exec (.replayTimeout n) s = .next (setLink s n (fun l => { l with
          wire := l.wire ++ l.replay.map TxFrame.bytes, replayed := satAdd l.replayed l.replay.length
          replay := l.replay.map (fun f => { f with sends := f.sends + 1 }) })))
        ∧ ((∃ f ∈ (getLink s n).replay, 7 ≤ f.sends) → Gives (.replayTimeout n) s (fun u => Retrains s u n
            ∧ (getLink u n).err = (getLink s n).err ||| 0x80#8))
        ∧ Gives (.linkFail n) s (fun u => Retrains s u n ∧ (getLink u n).err = (getLink s n).err ||| 0x80#8
            ∧ (NothingWaits s → u.comb = s.comb ∧ u.workers = s.workers)))
    ∧ ((getLink s n).state = 5#3 → Gives (.quarantineExpiry n) s (fun u => Retrains s u n))
    ∧ ((getLink s n).state ≠ 5#3 → exec (.quarantineExpiry n) s = .next s)
    ∧ ((getLink s n).lostAt = none ∨ (getLink s n).session.isSome = true → exec (.sessionResumeTimeout n) s = .next s)
    ∧ (∀ r, (getLink s n).lostAt.isSome = true → (getLink s n).session = none → (getLink s n).run = some r → Faultable s r →
        Gives (.sessionResumeTimeout n) s (fun u => (getLink u n).lostAt = none ∧ FaultedAt u r 0x0301 { instr := 0xFFFFFFFF, unit := 0 }))
    ∧ (∀ r rn a, (getLink s n).run = some r → getRun s r = some rn → linkUp (getLink s n) = true → rn.paused = false → rn.recovering = false →
        ((landingRings rn.image n).flatMap (fun g => (nth rn.rings g).armed)).head? = some a → Faultable s r →
        Gives (.landingTimeout n) s (fun u => FaultedAt u r 0x0315 { instr := a.instr, unit := a.chunk }))
    ∧ ((getLink s n).run = none ∨ linkUp (getLink s n) = false → exec (.landingTimeout n) s = .next s)
    ∧ (∀ (r : Fin 8) rn k o, getRun s r = some rn → rn.checkWait = some k → orderOf s rn = some o → rn.paused = false → rn.recovering = false →
        (∀ m ∈ maskList 24 (nth (orderProgram s rn o) k).imm1.toNat, linkUp (getLink s m) = true) → Faultable s r →
        Gives (.checkpointTimeout r) s (fun u => FaultedAt u r 0x0316 { instr := k, unit := 0 }))
    ∧ (∀ r : Fin 8, getRun s r = none → exec (.checkpointTimeout r) s = .next s)
    ∧ ((∀ m < 24, (getLink s m).txQueue = []) → Gives .timeReqLaunch s (fun u =>
        u = { s with links := u.links, time := { s.time with sources := u.time.sources } }
        ∧ ((∀ m < 24, (getLink s m).timeSentAt = none) → u.time = s.time)
        ∧ ∀ m : Fin 24, if linkUp (getLink s m) = true ∧ bit (getLink s m).cfg.toNat 6 = true
            then (getLink u m).timeExchange = (getLink s m).timeExchange + 1
              ∧ SentOn s u m 7 [] (natLe 4 ((getLink s m).timeExchange + 1).toNat ++ natLe 4 0)
              ∧ ((getLink s m).timeSentAt.isSome = true → (findSource s (.link m)).qualified = false → (findSource u (.link m)).offsets = [])
            else getLink u m = getLink s m))
    ∧ ((getLink s n).heldFrames = [] ∨ 64 ≤ (getMailbox s (14 + n % 2)).arrived.length → exec (.linkMailboxDeliver n) s = .next s)
    ∧ (∀ h rest, (getLink s n).heldFrames = h :: rest → (getMailbox s (14 + n % 2)).arrived.length < 64 →
        Gives (.linkMailboxDeliver n) s (fun u => u = { setLink s n (fun l => { l with heldFrames := rest }) with mailboxes := u.mailboxes }
          ∧ MailIn s u (14 + n % 2) (h.drop 4) (field h 2 2) ∧ ∀ j, j ≠ 14 + n.val % 2 → getMailbox u j = getMailbox s j))
    ∧ (∀ k fec pay, FrameTaken s n 13 k fec pay → linkUp (getLink s n) = false → UnderLimit s n →
        Gives (.resume n k fec) s (fun u => FrameRefused s u n 2))
    ∧ (∀ k fec pay, FrameTaken s n 13 k fec pay → linkUp (getLink s n) = true →
        let es := List.range (field pay 1 1)
        let kind (i : Nat) : Nat := field pay (4 + 16 * i) 1
        ((∀ i ∈ es, kind i = 2) → (∀ r rn, (getLink s n).run = some r → getRun s r = some rn → rn.checkWait = none) →
          Gives (.resume n k fec) s (fun u => (∀ p ∈ (getLink u n).peerRings, p.credits = [])
            ∧ (∀ i ∈ es, field pay (4 + 16 * i + 8) 8 ≤ assocD (getLink u n).checksIn (field pay (4 + 16 * i + 4) 2) 0)
            ∧ (∀ r rn g, (getLink s n).run = some r → getRun s r = some rn → g < rn.rings.length →
                (nth rn.rings g).decl.producerKind = 3 → (nth rn.rings g).decl.producerIndex = n → (getRing u r g).partials = [])
            ∧ (∀ r, (getLink s n).run = some r → Faultable s r → bit (field pay 0 1) 0 = true → spanPlans s n ≠ [] →
                FaultedAt u r 0x0303 { instr := 0xFFFFFFFF, unit := 0 })))
        ∧ (∀ r rn c i f, es = [0] → kind 0 = 1 → (getLink s n).run = some r → getRun s r = some rn → landingRings rn.image n = [] →
            bit (field pay 0 1) 0 = false → s.poison = [] →
            (getLink s n).sentChunks.filter (fun c => c.ring == field pay 5 1 && field pay 12 8 ≤ c.seq) = [c] →
            findIssued rn c.instr = some i → sendingMove s { instr := c.instr, unit := c.chunk } = none →
            chunkFrames (field pay 5 1) c.plan c.seq (chunkSource s r rn i c.chunk) = [f] →
            Gives (.resume n k fec) s (fun u => SentOn s u n 1 f.1 f.2)))

/-- R474, R507, R509: what the resets clear and keep. -/
def Obligations.Resets : Prop :=
  ∀ s : State,
    (∀ straps, Gives (.powerOnReset straps) s (fun u => Cleared s u ∧ u.life.state = lcsOf s.life.fuses ∧ u.life.dieId = dieIdOf s.life.fuses
        ∧ u.pins = { straps := straps, porstLow := false, rstLow := s.pins.rstLow, tripped := false, coldOrdered := false }))
    ∧ Gives .porstLow s (fun u => Cleared s u ∧ u.life.state = s.life.state ∧ u.life.dieId = s.life.dieId
        ∧ u.pins = { s.pins with porstLow := true, tripped := false, coldOrdered := false })
    ∧ (s.pins.porstLow = true ∨ s.pins.tripped = true → exec .coldReset s = .next s)
    ∧ (s.pins.porstLow = false → s.pins.tripped = false → Gives .coldReset s (fun u => Cleared s u ∧ u.life.state = s.life.state
        ∧ u.life.dieId = s.life.dieId ∧ u.pins = { s.pins with coldOrdered := false, rstLow := s.pins.rstLow || !s.pins.coldOrdered }))
    ∧ exec .rstNRelease s = .next { s with pins := { s.pins with rstLow := false } }
    ∧ (s.pins.porstLow = false → exec .thermalTrip s = .next { s with pins := { s.pins with tripped := true } })
    ∧ (∀ t : BitVec 8, standing s = false → Gives (.tempSensorUpdate t) s (fun u => u = { s with power := u.power }
        ∧ u.power = { s.power with tempNow := t, tempPeak := u.power.tempPeak, tempWarn := u.power.tempWarn }
        ∧ u.power.tempPeak.toNat = max s.power.tempPeak.toNat t.toNat ∧ (u.power.tempWarn = true ↔ s.power.tempWarn = true ∨ 105 ≤ t.toNat)))

/-- R300, R301, R488: the ROM's selection. The outcomes of the signature and digest functions stand in the conclusion. -/
def Obligations.FirmwareStart : Prop :=
  ∀ s : State, standing s = false →
    (s.keeper.state ≠ .rom ∨ bit s.pins.straps.toNat 3 = true → exec .firmwareStart s = .next s)
    ∧ (s.keeper.state = .rom → bit s.pins.straps.toNat 3 = false → Gives .firmwareStart s (fun u =>
        (u.keeper.state = .boot ∨ u.keeper.state = .failed)
        ∧ (candidate s 0 = false → candidate s 1 = false → u = setKeeper s (fun k => { k with state := .failed, code := 0x0710 }))
        ∧ ((∃ b < 2, candidate s b = true) → (∀ b < 2, candidate s b = true → firmwareWhole s b (bootRecord s b) = false) →
            u.keeper.state = .failed ∧ u.keeper.code = 0x0711 ∧ u.comb = s.comb)
        ∧ (∀ b < 2, candidate s b = true → (candidate s (1 - b) = true → recSequence (bootRecord s (1 - b)) < recSequence (bootRecord s b)) →
            firmwareWhole s b (bootRecord s b) = true → recStatus (bootRecord s b) ≠ 0xFF ∨ recAttempts (bootRecord s b) % 8 ≠ 0 →
            u.keeper.state = .boot ∧ u.life.bank = b ∧ u.life.fallback = false ∧ u.life.trial = (recStatus (bootRecord s b) == 0xFF)
              ∧ u.life.fwRelease = BitVec.ofNat 32 (recRelease (bootRecord s b)) ∧ (∀ w ∈ u.workers, w.rsState = .testing))))

/-- R37, R333, R453, R477, R489, R492. The record's code 0x0000 is the model's choice: notes/assumptions/87.md. -/
def Obligations.TrialsAndPairs : Prop :=
  ∀ s : State, Sound s → standing s = false →
    (s.life.trial = true → s.keeper.state = .boot → Gives .trialWatchdogExpiry s (Cleared s))
    ∧ (s.life.trial = false ∨ s.keeper.state ≠ .boot → exec .trialWatchdogExpiry s = .next s)
    ∧ (s.life.trial = true → s.life.readyAt.isSome = true → s.keeper.state = .ready → Gives .trialBankGood s (fun u =>
        u = { s with flash := u.flash, life := u.life } ∧ u.life.trial = false
          ∧ u.life.fuses = { s.life.fuses with fwRollback := max s.life.fuses.fwRollback (min 64 (recRollback (bootRecord s s.life.bank))) }
          ∧ (∀ a, memGet flashDefault u.flash a = if a = bootRecordAt s.life.bank + 176
              then 0x0F &&& memGet flashDefault s.flash a else memGet flashDefault s.flash a)))
    ∧ (s.life.trial = false ∨ s.life.readyAt = none ∨ s.keeper.state ≠ .ready → exec .trialBankGood s = .next s)
    ∧ ((s.life.activating = none ∧ s.keeper.standbyOk = true) ∨ (∃ p, s.life.activating = some (p, true)) → s.keeper.activePair < 2 →
        Gives .keeperPairSwitch s (fun u => u.keeper.activePair = 1 - s.keeper.activePair ∧ u.keeper.standbyOk = false
          ∧ u.life.activating = none ∧ u.runs = s.runs ∧ u.journal = s.journal ∧ u.comb = s.comb
          ∧ u.keeper.orders.map (fun o => { o with notice := 0, noticeSentAt := 0 }) = s.keeper.orders.map (fun o => { o with notice := 0, noticeSentAt := 0 })
          ∧ (∀ src o, firstUnacked s src = some o → o.notice = 1 →
              ∃ q ∈ outgoing (getMailbox u (replyMailbox s src)), q.completion = some o.number)
          ∧ (findRecovery u 9 s.keeper.activePair).isSome = true ∧ FaultTold u 0 9 s.keeper.activePair 2))
    ∧ ((s.life.activating = none ∧ s.keeper.standbyOk = false) ∨ (∃ p, s.life.activating = some (p, false)) →
        Gives .keeperPairSwitch s (Cleared s))
    ∧ (s.keeper.state = .rom ∨ s.keeper.state = .failed → ∀ b, exec (.keeperWatchdogExpiry b) s = .next s)
    ∧ (s.keeper.state ≠ .rom → s.keeper.state ≠ .failed → Gives (.keeperWatchdogExpiry true) s (Cleared s)
        ∧ exec (.keeperWatchdogExpiry false) s = exec .keeperPairSwitch s)

/-- R72, R78, R107, R109, R110. -/
def Obligations.CombUpkeep : Prop :=
  ∀ (s : State) (f : Fin 8) (bank : Fin 256), Whole s → standing s = false →
    let F := getFrame s f
    let B := assocD F.bankStatus bank.val (0, 0, 0)
    let clean (line : Fin 1024) : Prop := ∀ w < 16, poisoned s (bankWordAddr f bank line w) = false
    (∀ w : BitVec 7, Gives (.narrowForcedGrant f bank w) s (fun u => u = { s with frames := u.frames }
        ∧ (∀ g, g ≠ f.val → getFrame u g = getFrame s g)
        ∧ (getFrame u f).narrowMax.toNat = max F.narrowMax.toNat (min 64 w.toNat)
        ∧ assocD (getFrame u f).bankStatus bank.val (0, 0, 0) = (B.1, B.2.1, max B.2.2 (min 64 w.toNat))
        ∧ (getFrame u f).ceCount = F.ceCount ∧ (getFrame u f).ueCount = F.ueCount))
    ∧ (∀ line : Fin 1024, clean line → exec (.patrolRead f bank line .clean) s = .next s)
    ∧ (∀ (line : Fin 1024) (w : Fin 16), clean line → Gives (.patrolRead f bank line (.corrected w)) s (fun u => u = { s with frames := u.frames }
        ∧ (getFrame u f).ceCount = satAdd F.ceCount 1
        ∧ (∀ b, assocD (getFrame u f).bankStatus b (0, 0, 0) = if b = bank.val then (B.1 + 1, B.2.1, B.2.2) else assocD F.bankStatus b (0, 0, 0))
        ∧ (∀ g, g ≠ f.val → getFrame u g = getFrame s g)))
    ∧ (∀ (line : Fin 1024) (w : Fin 16) (a : Nat), clean line → F.heirloom = [] → a < 2 ^ 28 → a % 8 = 0 → a / 2 ^ 25 = f.val →
        bankOf a = bank.val → a % 2 ^ 25 / 2 ^ 15 = line.val → a % 128 = 8 * w.val →
        Gives (.patrolRead f bank line (.uncorrectable w)) s (fun u => u = { s with frames := u.frames, poison := u.poison }
          ∧ (∀ x, x ∈ u.poison ↔ x ∈ s.poison ∨ x = a / 8) ∧ (getFrame u f).ueCount = satAdd F.ueCount 1
          ∧ (getFrame u f).ueValid = true ∧ (getFrame u f).ueAddr = (if F.ueValid then F.ueAddr else BitVec.ofNat 28 a)
          ∧ (∀ b, assocD (getFrame u f).bankStatus b (0, 0, 0) = if b = bank.val then (B.1, B.2.1 + 1, B.2.2) else assocD F.bankStatus b (0, 0, 0))
          ∧ (∀ g, g ≠ f.val → getFrame u g = getFrame s g)))
    ∧ (∀ (line : Fin 1024) (w : Fin 16) (x : PatrolFinding), F.heirloom = [] → x = .clean ∨ x = .corrected w ∨ x = .uncorrectable w →
        (∀ v < 16, poisoned s (bankWordAddr f bank line v) = decide (v = w.val)) →
        Gives (.patrolRead f bank line x) s (fun u => u = { s with frames := u.frames, poison := u.poison } ∧ u.poison = s.poison
          ∧ (getFrame u f).ueCount = satAdd F.ueCount 1 ∧ (getFrame u f).ceCount = F.ceCount ∧ (getFrame u f).ueValid = true
          ∧ ∀ g, g ≠ f.val → getFrame u g = getFrame s g))

/-- R80: the telemetry and debug port. -/
def Obligations.DebugPort : Prop :=
  ∀ (s : State), standing s = false →
    (∀ (f : Fin 8) (b : Fin 256), exec (.telemetryDebugPortAccess (.bankStatus f b)) s = .next { s with readBack :=
        let w := assocD (getFrame s f).bankStatus b.val (0, 0, 0)
        [BitVec.ofNat 32 w.1, BitVec.ofNat 32 w.2.1, BitVec.ofNat 32 w.2.2] })
    ∧ (∀ addr < 2 ^ 28, ∀ data : BitVec 64,
        (debugPermitted s = false → exec (.telemetryDebugPortAccess (.readComb addr)) s = .next { s with readBack := [] }
          ∧ exec (.telemetryDebugPortAccess (.writeComb addr data)) s = .next s)
        ∧ (debugPermitted s = true →
          exec (.telemetryDebugPortAccess (.readComb addr)) s = exec (.telemetryDebugPortAccess (.readComb (addr - addr % 8))) s
          ∧ exec (.telemetryDebugPortAccess (.writeComb addr data)) s = exec (.telemetryDebugPortAccess (.writeComb (addr - addr % 8) data)) s
          ∧ (poisoned s addr = false → Gives (.telemetryDebugPortAccess (.readComb addr)) s (fun u => u = { s with readBack := u.readBack }
              ∧ ∃ lo hi : BitVec 32, u.readBack = [lo, hi]
                ∧ (∀ i < 4, (readComb s (addr - addr % 8 + i)).toNat = lo.toNat / 256 ^ i % 256)
                ∧ (∀ i < 4, (readComb s (addr - addr % 8 + 4 + i)).toNat = hi.toNat / 256 ^ i % 256)))
          ∧ (MemoriesCanonical s → Gives (.telemetryDebugPortAccess (.writeComb addr data)) s (fun u =>
              u = { s with comb := u.comb, poison := u.poison }
                ∧ (∀ i < 8, (readComb u (addr - addr % 8 + i)).toNat = data.toNat / 256 ^ i % 256)
                ∧ (∀ a, a / 8 ≠ addr / 8 → readComb u a = readComb s a ∧ poisoned u a = poisoned s a)
                ∧ poisoned u addr = false))))

/-- R479, R482, R483: a life-cycle change. -/
def Obligations.LifeCycleChanges : Prop :=
  ∀ (s : State), Whole s → standing s = false →
    exec .lcNonceExpiry s = .next { s with life := { s.life with nonce := none } }
    ∧ (∀ n t p, Heard s n 0x0510 t p → Gives (.lcChallenge n) s (fun u => ∃ nonce v, nonce = padTo 32 (Config.randomBytes t.life.draws 32)
        ∧ v = { t with life := { t.life with nonce := some (nonce, t.wall), draws := t.life.draws + 1 } }
        ∧ OnlyAnswers v u p 0 (nonce ++ natLe 1 (lcsCode t.life.state))))
    ∧ (∀ n t p, Heard s n 0x0511 t p → t.life.nonce = none → Gives (.lcChange n) s (fun u => OnlyAnswers t u p 0x0702 []))
    ∧ (∀ n t p nonce at_, Heard s n 0x0511 t p → t.life.nonce = some (nonce, at_) → Gives (.lcChange n) s (fun u =>
        (changeRefusal t p nonce ≠ 0 → OnlyAnswers (nonceSpent t) u p (changeRefusal t p nonce) [])
        ∧ (changeRefusal t p nonce = 0 → u.life = { t.life with nonce := none, change := some (p, BitVec.ofNat 8 (field p.body 0 1)) }
            ∧ u.comb = [] ∧ u.poison = [] ∧ u.stackMem = [] ∧ (∀ r, getRun u r = none) ∧ u.keeper.archive = [] ∧ u.keeper.residency = []
            ∧ u.journal.records = [] ∧ u.telem.records = [] ∧ u.mailboxes = t.mailboxes
            ∧ (∀ w ∈ u.workers, w.cells = [] ∧ w.rowState = [] ∧ w.root = List.replicate 16 RootSlot.reset)
            ∧ (∀ f ∈ u.frames, f.heirloom = [])
            ∧ (if (t.life.state = .provisioned ∧ field p.body 0 1 = 2) ∨ (t.life.state = .inService ∧ field p.body 0 1 = 1) then u.flash = t.flash
                else MemoriesCanonical t → ∀ a, memGet flashDefault u.flash a =
                  if (siteAt 0 ≤ a ∧ a < siteAt 0 + siteSize) ∨ (siteAt 1 ≤ a ∧ a < siteAt 1 + siteSize) then flashDefault else memGet flashDefault t.flash a))))
    ∧ (s.life.change = none → ∀ ok, exec (.lcWipeComplete ok) s = .next s)
    ∧ (∀ p target, s.life.change = some (p, target) → p.mailbox < 16 →
        Gives (.lcWipeComplete false) s (fun u => u.pins.coldOrdered = true ∧ u.life = { s.life with change := none } ∧ Answered s u p 0x0705 [])
        ∧ Gives (.lcWipeComplete true) s (fun u => u.pins.coldOrdered = true ∧ u.life.change = none
          ∧ u.life.state = lcsOf u.life.fuses ∧ u.life.dieId = dieIdOf u.life.fuses
          ∧ (target = 4#8 → u.life.fuses.retired = true ∧ u.life.state = .retired)
          ∧ (target = 3#8 → u.life.fuses.returned = true ∧ u.life.fuses.retired = s.life.fuses.retired)
          ∧ (target = 2#8 → u.life.fuses = { s.life.fuses with commissions := s.life.fuses.commissions + 1 })
          ∧ (target = 1#8 → s.life.state = .inService → u.life.fuses = { s.life.fuses with decommissions := s.life.fuses.decommissions + 1 })
          ∧ (target = 1#8 → s.life.state = .blank ∨ s.life.state = .provisioned → ∃ b, u.life.fuses = { s.life.fuses with banks := s.life.fuses.banks ++ [b] }
              ∧ b.dieId = BitVec.ofNat 16 (field p.body 201 2) ∧ b.owner = BitVec.ofNat 384 (field p.body 217 48) ∧ b.revoke = 0)
          ∧ ∃ body, Answered s u p 0 body
            ∧ body.length = if target = 1#8 ∧ (s.life.state = .blank ∨ s.life.state = .provisioned) then 97 else 0))

/-- R476, R481, R485. -/
def Obligations.KeysAndDebug : Prop :=
  ∀ (s : State) (n : Fin 16) (t : State) (p : Pending), Sound s →
    let scrubbed (u : State) : Prop := u.keeper.residency = [] ∧ (∀ a < 2 ^ 28, a % 2 ^ 25 < 0x1F00000 → readComb u a = combDefault)
      ∧ (∀ a, 0x1F00000 ≤ a % 2 ^ 25 → readComb u a = readComb t a)
    (Heard s n 0x0512 t p → t.life.nonce = none → Gives (.keyRevoke n) s (fun u => OnlyAnswers t u p 0x0702 []))
    ∧ (∀ nonce at_, Heard s n 0x0512 t p → t.life.nonce = some (nonce, at_) → Gives (.keyRevoke n) s (fun u =>
        (revokeRefusal t p nonce ≠ 0 → OnlyAnswers (nonceSpent t) u p (revokeRefusal t p nonce) [])
        ∧ (revokeRefusal t p nonce = 0 → ∃ v, OnlyAnswers v u p 0 [] ∧ v = { t with life := v.life }
            ∧ v.life = { t.life with nonce := none, fuses := v.life.fuses }
            ∧ (4 ≤ field p.body 0 1 → v.life.fuses = { t.life.fuses with fwRevoke := v.life.fuses.fwRevoke }
                ∧ ∀ k, v.life.fuses.fwRevoke.getLsbD k = (t.life.fuses.fwRevoke.getLsbD k || decide (k = field p.body 0 1 - 0x10)))
            ∧ (field p.body 0 1 < 4 → v.life.fuses = { t.life.fuses with banks := v.life.fuses.banks }
                ∧ v.life.fuses.banks.length = t.life.fuses.banks.length
                ∧ ∀ b b', t.life.fuses.banks.getLast? = some b → v.life.fuses.banks.getLast? = some b' → b' = { b with revoke := b'.revoke }
                  ∧ ∀ k < 4, b'.revoke.getLsbD k = (b.revoke.getLsbD k || decide (k = field p.body 0 1))))))
    ∧ (∀ c (a : Nat), (a = 1 ∧ c = Instr.debugUnlock n) ∨ (a = 2 ∧ c = Instr.debugLock n) → HeardAction s n 0x0520 0 a t p →
        (t.life.nonce = none → Gives c s (fun u => OnlyAnswers t u p 0x0702 []))
        ∧ (t.life.nonce.isSome = true → t.life.state = .inService ∨ t.life.state = .retired → Gives c s (fun u => OnlyAnswers (nonceSpent t) u p 0x0720 []))
        ∧ (t.life.nonce.isSome = true → t.life.state ≠ .inService → t.life.state ≠ .retired → anyResident t = true →
            Gives c s (fun u => OnlyAnswers (nonceSpent t) u p 0x0704 [])))
    ∧ (∀ nonce at_, HeardAction s n 0x0520 0 1 t p → t.life.nonce = some (nonce, at_) → Gives (.debugUnlock n) s (fun u =>
        (unlockRefusal t p nonce ≠ 0 → OnlyAnswers (nonceSpent t) u p (unlockRefusal t p nonce) [])
        ∧ (unlockRefusal t p nonce = 0 → MemoriesCanonical t → u.life = { t.life with nonce := none, debug := true } ∧ scrubbed u ∧ Answered t u p 0 [])))
    ∧ (HeardAction s n 0x0520 0 2 t p → t.life.nonce.isSome = true → t.life.state ≠ .inService → t.life.state ≠ .retired → anyResident t = false →
        MemoriesCanonical t → Gives (.debugLock n) s (fun u => u.life = { t.life with nonce := none, debug := false } ∧ scrubbed u ∧ Answered t u p 0 []))
    ∧ (HeardAction s n 0x0500 0 1 t p →
        (field p.body 4 2 ≠ t.life.dieId.toNat → Gives (.resetColdRequest n) s (fun u => OnlyAnswers t u p 0x0750 []))
        ∧ (field p.body 4 2 = t.life.dieId.toNat → Gives (.resetColdRequest n) s (fun u => ∃ v, OnlyAnswers t v p 0 []
            ∧ u = { v with pins := { v.pins with coldOrdered := true } })))

/-- R487, R490 to R492. -/
def Obligations.FirmwareInService : Prop :=
  ∀ (s : State) (n : Fin 16) (t : State) (p : Pending), Sound s → s.life.bank < 2 →
    let b := otherBank t
    let here (a : Nat) : Prop := (bankAt b ≤ a ∧ a < bankAt b + bankSize) ∨ (bootRecordAt b ≤ a ∧ a < bootRecordAt b + 0x1000)
    let flashOf (v : State) (a : Nat) : BitVec 8 := memGet flashDefault v.flash a
    (Heard s n 0x0530 t p → MemoriesCanonical t →
        (field p.body 0 1 ≠ 1 → Gives (.fwWrite n) s (fun u => OnlyAnswers t u p 0x0502 []))
        ∧ (field p.body 0 1 = 1 → Gives (.fwWrite n) s (fun u =>
          if max bankSize (Config.fwRecordOffset + 0x1000) < field p.body 4 4 + (p.body.drop 8).length then OnlyAnswers t u p 0x0710 []
          else ∃ v, OnlyAnswers v u p 0 [] ∧ v = { t with flash := v.flash } ∧ (∀ a, ¬ here a → flashOf v a = flashOf t a)
            ∧ (∀ a, field p.body 4 4 ≠ 0 → flashOf v a &&& flashOf t a = flashOf v a)
            ∧ (∀ i, field p.body 4 4 + i < bankSize → field p.body 4 4 + i < Config.fwRecordOffset ∨ Config.fwRecordOffset + 0x1000 ≤ field p.body 4 4 + i →
                let old := if field p.body 4 4 = 0 then 0xFF else flashOf t (bankAt b + field p.body 4 4 + i)
                flashOf v (bankAt b + field p.body 4 4 + i) = if i < (p.body.drop 8).length then nth (p.body.drop 8) i &&& old else old))))
    ∧ (Heard s n 0x0531 t p → MemoriesCanonical t → Gives (.fwCommit n) s (fun u =>
        (commitRefusal t ≠ 0 → OnlyAnswers t u p (commitRefusal t) [])
        ∧ (commitRefusal t = 0 → ∃ v, OnlyAnswers v u p 0 [] ∧ v = { t with flash := v.flash }
            ∧ (∀ a, a < bootRecordAt b + 184 ∨ bootRecordAt b + 192 ≤ a → flashOf v a = flashOf t a)
            ∧ recSequence (bootRecord v b) = (if recCommitted (bootRecord t t.life.bank) then recSequence (bootRecord t t.life.bank) + 1 else 1))))
    ∧ (∀ c (a : Nat), (a = 1 ∧ c = Instr.fwActivateNow n) ∨ (a = 2 ∧ c = Instr.fwActivateAtReset n) → HeardAction s n 0x0532 0 a t p →
        Gives c s (fun u => (trialCommitted t b = false → OnlyAnswers t u p 0x0714 [])
          ∧ (trialCommitted t b = true → a = 2 → OnlyAnswers (setLife t (fun l => { l with activateAtReset := true })) u p 0 [])
          ∧ (trialCommitted t b = true → a = 1 → t.life.activating.isSome = true ∨ t.keeper.standbyOk = false → OnlyAnswers t u p 0x0715 [])
          ∧ (trialCommitted t b = true → a = 1 → t.life.activating = none → t.keeper.standbyOk = true →
              (recFormat (bootRecord t b) ≠ t.life.stateFormat.toNat → OnlyAnswers t u p 0x0713 [])
              ∧ (recFormat (bootRecord t b) = t.life.stateFormat.toNat → u = { t with life := { t.life with activating := some (p, false) } }))))
    ∧ (standing s = false →
        ((∀ q, s.life.activating ≠ some (q, false)) → exec .fwActivateHandover s = .next s)
        ∧ (∀ q, s.life.activating = some (q, false) → q.mailbox < 16 → s.keeper.activePair < 2 → Gives .fwActivateHandover s (fun u =>
            if trialCommitted s (otherBank s) = true ∧ firmwareWhole s (otherBank s) (bootRecord s (otherBank s)) = true
            then u.life.activating = some (q, true) ∧ u.life.bank = otherBank s ∧ u.life.trial = true ∧ u.keeper.activePair = 1 - s.keeper.activePair
                ∧ u.life.fwRelease = BitVec.ofNat 32 (recRelease (bootRecord s (otherBank s)))
                ∧ (findRecovery u 9 s.keeper.activePair).isSome = true ∧ AnsweredLast s u q 0 [] ∧ u.runs = s.runs
            else OnlyAnswers (setLife s (fun l => { l with activating := none })) u q 0x0711 []))
        ∧ (∀ q, s.life.activating = some (q, true) → Gives .fwActivateRejoin s (fun u => u.life.activating = none ∧ u.keeper.standbyOk = true
            ∧ findRecovery u 9 (1 - s.keeper.activePair) = none ∧ u.runs = s.runs))
        ∧ ((∀ q, s.life.activating ≠ some (q, true)) → exec .fwActivateRejoin s = .next s))
    ∧ (HeardAction s n 0x0540 0 1 t p → MemoriesCanonical t →
        (siteSize < field p.body 4 4 + (p.body.drop 8).length → Gives (.siteWriteData n) s (fun u => OnlyAnswers t u p 0x0730 []))
        ∧ (field p.body 4 4 + (p.body.drop 8).length ≤ siteSize → Gives (.siteWriteData n) s (fun u => ∃ v, OnlyAnswers v u p 0 []
            ∧ v = { t with flash := v.flash }
            ∧ (∀ i, i < (p.body.drop 8).length → flashOf v (siteAt (otherSite t) + field p.body 4 4 + i) = nth (p.body.drop 8) i)
            ∧ (∀ a, a < siteAt (otherSite t) + field p.body 4 4 ∨ siteAt (otherSite t) + field p.body 4 4 + (p.body.drop 8).length ≤ a →
                flashOf v a = flashOf t a))))
    ∧ (HeardAction s n 0x0540 0 2 t p → Gives (.siteWriteCommit n) s (fun u =>
        if (Config.siteHeader (siteCopy t (otherSite t))).isSome = true ∧ (siteParsed t (otherSite t)).2 = true
          ∧ (∀ e ∈ (siteParsed t (otherSite t)).1, siteEntryOk e = true) then OnlyAnswers t u p 0 [] else OnlyAnswers t u p 0x0730 []))

/-- R293 to R298, R104, R105: a load from its message to its reply. -/
def Obligations.ImageLoading : Prop :=
  ∀ (s : State), Whole s →
    (∀ n t p, Heard s n 0x0011 t p → let rd := imageByte t (field p.body 0 1)
      (t.keeper.loads ≠ [] → Gives (.imageLoad n) s (fun u => u = setKeeper t (fun k => { k with waitingLoads := k.waitingLoads ++ [p] })))
      ∧ (t.keeper.loads = [] → 7 < field p.body 0 1 → Gives (.imageLoad n) s (fun u => OnlyAnswers t u p 0x0550 []))
      ∧ (t.keeper.loads = [] → field p.body 0 1 ≤ 7 → Gives (.imageLoad n) s (fun u =>
          (∀ l, imageRefusal rd (Config.pellisSupported t.life.fwRelease) (imageSigOk t false) (userEnd t) = some l →
            OnlyAnswers t u p l.code (loadReply l 0xFF 0xFF 0 []))
          ∧ (imageRefusal rd (Config.pellisSupported t.life.fwRelease) (imageSigOk t false) (userEnd t) = none →
            let im := parseImage rd
            ((claimRefusal t im).1 ≠ 0 → ∃ body, body.length = 32 ∧ OnlyAnswers t u p (claimRefusal t im).1 body)
            ∧ ((claimRefusal t im).1 = 0 → ∃ r rn, freeRun t = some r ∧ getRun u r = some rn ∧ rn.image = im ∧ rn.ready = false ∧ rn.order = none
                ∧ (∀ g ∈ rn.rings, ∀ k ∈ g.tokens, k.capped = false ∧ k.lap = 0)
                ∧ (∀ r', r' ≠ r → getRun u r' = getRun t r')
                ∧ (∀ f < 8, (getFrame u f).run = if im.frameMask.getLsbD f = true then some r else (getFrame t f).run)
                ∧ (∀ w < 68, (getWorker u w).run = match (getWorker t w).serves with
                    | some k => if im.frameMask.getLsbD (k / 8) = true then some r else (getWorker t w).run
                    | none => (getWorker t w).run)
                ∧ (∀ q < 8, (getPartner u q).run = if im.partnerMask.getLsbD q = true then some r else (getPartner t q).run)
                ∧ (∀ k < 24, (getLink u k).run = if im.linkMask.getLsbD k = true then some r else (getLink t k).run)
                ∧ u.keeper = { t.keeper with loads := [{ req := p, run := r, slot := field p.body 0 1 }] }
                ∧ u.comb = t.comb ∧ u.stackMem = t.stackMem ∧ u.mailboxes = t.mailboxes ∧ u.journal = t.journal)))))
    ∧ (standing s = false →
      (s.keeper.loads = [] → ∀ f, exec (.imageLoadProceed f) s = .next s)
      ∧ (∀ j rest rn, s.keeper.loads = j :: rest → getRun s j.run = some rn → j.req.mailbox < 16 →
        ((∃ f ∈ runFrames s j.run, (getFrame s f).scrubBusy = true) → ∀ f, exec (.imageLoadProceed f) s = .next s)
        ∧ ((∀ f ∈ runFrames s j.run, (getFrame s f).scrubBusy = false) → s.keeper.waitingLoads = [] →
          let n := rn.image.slots.countP (fun x => x.kind == 0)
          let lost := loadReply (refuseAt 0 0) 0xFF 0xFF 0 []
          (s.keeper.archive.length + n ≤ 4096 → n = 0 ∨ archiveStacks s ≠ [] →
            (LinksIdle s j.run → s.journal.sinceCheckpoint < 4095 → Gives (.imageLoadProceed .none) s (fun u =>
              u.keeper.loads = [] ∧ (∃ rn', getRun u j.run = some rn' ∧ rn'.ready = true ∧ rn'.image = rn.image)
                ∧ (∀ w ∈ runWorkers s j.run, (getWorker s w).admission = .notAdmitted → (getFrame s (workerFrame s w)).ungated = true →
                    (getWorker u w).admission = .admitted ∧ (getWorker u w).cells = [] ∧ (getWorker u w).numFlush = 0
                      ∧ (getWorker u w).epoch = (getWorker s w).epoch + 1)
                ∧ u.keeper.lastGen = s.keeper.lastGen + BitVec.ofNat 32 n ∧ u.keeper.archive.length = s.keeper.archive.length + n
                ∧ (∃ x ∈ u.journal.records, x.kind = 10 ∧ x.run = j.run ∧ s.journal.nextLsn ≤ x.lsn)
                ∧ AnsweredLast s u j.req 0 (loadReply (refuseAt 0 0) j.run 0xFF 0 (matchResident s rn.image).2)))
            ∧ (∀ f, f ≠ .none → Gives (.imageLoadProceed f) s (fun u => getRun u j.run = none ∧ u.keeper.loads = []
                ∧ u.keeper.lastGen = s.keeper.lastGen + BitVec.ofNat 32 n ∧ s.keeper.archive <+: u.keeper.archive
                ∧ u.keeper.archive.length = s.keeper.archive.length + archivedBefore n f
                ∧ AnsweredLast s u j.req (loadFailureCode f) lost)))
          ∧ (∀ f, 4096 < s.keeper.archive.length + n → Gives (.imageLoadProceed f) s (fun u =>
              getRun u j.run = none ∧ u.keeper.loads = [] ∧ u.keeper.archive = s.keeper.archive ∧ AnsweredLast s u j.req 0x0533 lost))
          ∧ (∀ f, s.keeper.archive.length + n ≤ 4096 → n ≠ 0 → archiveStacks s = [] → Gives (.imageLoadProceed f) s (fun u =>
              getRun u j.run = none ∧ u.keeper.loads = [] ∧ u.keeper.archive = s.keeper.archive ∧ AnsweredLast s u j.req 0x0402 lost))))
      ∧ (∀ f : Fin 8, (getFrame s f).scrubBusy = false → exec (.scrubComplete f) s = .next s)
      ∧ (∀ f : Fin 8, (getFrame s f).scrubBusy = true → MemoriesCanonical s → Gives (.scrubComplete f) s (fun u =>
          u = { s with comb := u.comb, poison := u.poison, frames := u.frames } ∧ (∀ g, g ≠ f.val → getFrame u g = getFrame s g)
            ∧ getFrame u f = { getFrame s f with scrubBusy := false, scrubLeft := 0, scrubTodo := [] }
            ∧ ∀ a, ((∃ r ∈ (getFrame s f).scrubTodo, r.1 ≤ a ∧ a < r.1 + r.2) → readComb u a = combDefault)
                ∧ ((∀ r ∈ (getFrame s f).scrubTodo, a < r.1 ∨ r.1 + r.2 ≤ a) → readComb u a = readComb s a))))

/-- R297, R321: the end of a run. -/
def Obligations.Unloading : Prop :=
  ∀ (s : State) (n : Fin 16) (t : State) (p : Pending), Whole s →
    (∀ c ty, (ty = 0x0012#16 ∧ c = Instr.imageUnload n) ∨ (ty = 0x0013#16 ∧ c = Instr.kill n) → Heard s n ty t p →
      namedRun t p = none → Gives c s (fun u => OnlyAnswers t u p 0x0521 []))
    ∧ (∀ r rn, Heard s n 0x0012 t p → namedRun t p = some (r, rn) →
        (openOrders t r ≠ [] → Gives (.imageUnload n) s (fun u => OnlyAnswers t u p 0x0560 []))
        ∧ (openOrders t r = [] → LinksIdle t r → t.journal.sinceCheckpoint < 4095 → Gives (.imageUnload n) s (fun u => Released t u r ∧ AnsweredLast t u p 0 []
            ∧ (∃ x ∈ u.journal.records, x.kind = 10 ∧ x.run = r ∧ field x.body 0 1 = 2) ∧ u.keeper.residency = t.keeper.residency)))
    ∧ (∀ r rn, Heard s n 0x0013 t p → namedRun t p = some (r, rn) → LinksIdle t r →
        t.journal.sinceCheckpoint + (openOrders t r).length < 4095 → Gives (.kill n) s (fun u => Released t u r ∧ AnsweredLast t u p 0 []
        ∧ (∃ x ∈ u.journal.records, x.kind = 10 ∧ x.run = r ∧ field x.body 0 1 = 3) ∧ u.keeper.residency = t.keeper.residency
        ∧ (∀ o ∈ openOrders t r, ∃ o', findOrder u o.number = some o' ∧ o'.state = .abandoned ∧ o'.code = 0x0561)))

/-- R236 to R238, R243, R322, R323. -/
def Obligations.TablesInService : Prop :=
  ∀ (s : State), Whole s →
    (∀ n t p, Heard s n 0x0030 t p → Gives (.tableLoad n) s (fun u =>
      (tableLoadRefusal t p ≠ 0 → OnlyAnswers t u p (tableLoadRefusal t p) [])
      ∧ (tableLoadRefusal t p = 0 → ∃ place < 4096, (∀ e ∈ t.keeper.archive, e.place ≠ place)
          ∧ (∀ q < place, ∃ e ∈ t.keeper.archive, e.place = q) ∧ u = setKeeper t (fun k => { k with
          lastGen := k.lastGen + 1,
          archive := k.archive ++ [{ gen := k.lastGen + 1, file := p.body.drop 104, copies := archiveStacks t, place := place }],
          tableJobs := k.tableJobs ++ [{ req := p, run := field p.body 0 1, slot := field p.body 1 1, gen := k.lastGen + 1, file := p.body.drop 104 }] }))))
    ∧ (standing s = false →
      ((∀ j ∈ s.keeper.tableJobs, shadowBound s j.run j.slot = true) → exec .tableShadowWrite s = .next s)
      ∧ (∀ j before after, s.keeper.tableJobs = before ++ j :: after → (∀ x ∈ before, shadowBound s x.run x.slot = true) →
          shadowBound s j.run j.slot = false → j.slot < 16 → j.req.mailbox < 16 → Gives .tableShadowWrite s (fun u =>
            let fails : Bool := decide (2 ≤ Config.bankMismatches s.draws)
            let bank : Bank := if fails then { gen := 0, file := [] } else { gen := j.gen, file := j.file }
            (fails = false → AnsweredLast s u j.req 0 (natLe 4 j.gen.toNat)) ∧ (fails = true → AnsweredLast s u j.req 0x0262 [])
              ∧ u.comb = s.comb ∧ u.keeper.archive = s.keeper.archive ∧ u.keeper.tableJobs.length + 1 = s.keeper.tableJobs.length
              ∧ (∀ w ∈ runWorkers s j.run, (getWorker s w).root.length = 16 →
                  shadowBank (nth (getWorker u w).root j.slot) = bank
                    ∧ activeBank (nth (getWorker u w).root j.slot) = activeBank (nth (getWorker s w).root j.slot)
                    ∧ (nth (getWorker u w).root j.slot).pending = !fails
                    ∧ ∀ m, m ≠ j.slot → nth (getWorker u w).root m = nth (getWorker s w).root m)
              ∧ (∀ w, w ∉ runWorkers s j.run → getWorker u w = getWorker s w))))
    ∧ (∀ n t p, Heard s n 0x0031 t p → let gen := BitVec.ofNat 32 (field p.body 0 4)
        ((∀ e ∈ t.keeper.archive, e.gen ≠ gen) → Gives (.tableRetire n) s (fun u => OnlyAnswers t u p 0x0531 []))
        ∧ ((∃ e ∈ t.keeper.archive, e.gen = gen) →
            generationHeld t gen = true ∨ (bit (field p.body 4 1) 0 = false ∧ generationNamed t gen = true) →
            Gives (.tableRetire n) s (fun u => OnlyAnswers t u p 0x0532 []))
        ∧ ((∃ e ∈ t.keeper.archive, e.gen = gen) → generationHeld t gen = false →
            bit (field p.body 4 1) 0 = true ∨ generationNamed t gen = false → Gives (.tableRetire n) s (fun u => ∃ v, OnlyAnswers v u p 0 []
              ∧ v = { t with keeper := { t.keeper with archive := v.keeper.archive } }
              ∧ ∀ e, e ∈ v.keeper.archive ↔ e ∈ t.keeper.archive ∧ e.gen ≠ gen)))
    ∧ (standing s = false → ∀ gen : BitVec 32,
        (generationHeld s gen = true ∨ generationNamed s gen = true → exec (.archiveRelease gen) s = .next s)
        ∧ (generationHeld s gen = false → generationNamed s gen = false → Gives (.archiveRelease gen) s (fun u =>
            u = { s with keeper := { s.keeper with archive := u.keeper.archive } }
              ∧ ∀ e, e ∈ u.keeper.archive ↔ e ∈ s.keeper.archive ∧ e.gen ≠ gen)))

/-- R326 to R330. -/
def Obligations.Acceptance : Prop :=
  ∀ (s : State), Whole s →
    (∀ n t p, Heard s n 0x0020 t p →
      (seqUsed t p → (∀ j ∈ t.keeper.accept, j.order.number ≠ submitNumber p) → ∀ o, findOrder t (submitNumber p) = some o →
        Gives (.submit n) s (fun u => OnlyAnswers t u p 0 (submitReply (submitNumber p) o.acceptStamp 1 (orderCode o.state))))
      ∧ (seqUsed t p → ∀ j, t.keeper.accept.find? (fun j => j.order.number == submitNumber p) = some j →
          exec (.submit n) s = .next (setKeeper t (fun k => { k with accept := k.accept ++ [{ req := p, order := j.order }] })))
      ∧ (¬ seqUsed t p → ¬ seqNextOne t p → Gives (.submit n) s (fun u => OnlyAnswers t u p 0x0515 []))
      ∧ (seqNextOne t p → (∀ r rn, ¬ submitRun t p r rn) → Gives (.submit n) s (fun u => OnlyAnswers t u p 0x0510 []))
      ∧ (∀ r rn, seqNextOne t p → submitRun t p r rn →
          let o := orderFrom (submitNumber p) p.body r (stamp t).2
          let code := submitCode t rn o (lastSequence t p.source).isSome
          (code ≠ 0 → Gives (.submit n) s (fun u => OnlyAnswers t u p code []))
          ∧ (code = 0 → Gives (.submit n) s (fun u => u.keeper = { t.keeper with accept := t.keeper.accept ++ [{ req := p, order := o }] }
              ∧ u = { t with keeper := u.keeper, time := u.time } ∧ u.time = { t.time with lastStamp := o.acceptStamp }
              ∧ t.time.lastStamp ≤ o.acceptStamp))))
    ∧ (standing s = false →
      (s.keeper.accept = [] → exec .acceptRecordWritten s = .next s)
      ∧ (∀ j rest, s.keeper.accept = j :: rest → j.req.mailbox < 16 →
        (acceptWritable s = false → exec .acceptRecordWritten s = .next s)
        ∧ (∀ o, acceptWritable s = true → findOrder s j.order.number = some o → Gives .acceptRecordWritten s (fun u => u.keeper.accept = rest
          ∧ u.keeper.orders = s.keeper.orders ∧ u.journal = s.journal
          ∧ Answered s u j.req 0 (submitReply o.number o.acceptStamp 1 (orderCode o.state))))
        ∧ (acceptWritable s = true → findOrder s j.order.number = none → Gives .acceptRecordWritten s (fun u => u.keeper.accept = rest
          ∧ (∃ e ∈ u.keeper.sources, e.source = j.req.source ∧ e.last = orderSeq j.order.number)
          ∧ (∀ e, e.source ≠ j.req.source → (e ∈ u.keeper.sources ↔ e ∈ s.keeper.sources))
          ∧ Answered s u j.req 0 (submitReply j.order.number j.order.acceptStamp 0 1)
          ∧ (s.journal.sinceCheckpoint < 4095 → u.keeper.orders = s.keeper.orders ++ [j.order]
            ∧ ∃ x, u.journal.records = s.journal.records ++ [x] ∧ x.kind = 1 ∧ x.lsn = s.journal.nextLsn ∧ x.order = j.order.number
              ∧ x.body = j.req.body ∧ x.stamp = j.order.acceptStamp ∧ x.copies = journalTargets s))))
      ∧ (∀ src : BitVec 22,
        ((∃ o ∈ s.keeper.orders, orderSource o.number = src ∧ o.notice < 2) → exec (.sourceTableExpiry src) s = .next s)
        ∧ ((∀ o ∈ s.keeper.orders, orderSource o.number = src → 2 ≤ o.notice) → (∀ j ∈ s.keeper.accept, j.req.source ≠ src) →
            Gives (.sourceTableExpiry src) s (fun u => u = { s with keeper := { s.keeper with sources := u.keeper.sources } }
              ∧ ∀ e, e ∈ u.keeper.sources ↔ e ∈ s.keeper.sources ∧ e.source ≠ src))))

/-- R336, R460, R472. -/
def Obligations.OrderQueries : Prop :=
  ∀ (s : State), Whole s →
    (∀ n t p, Heard s n 0x0021 t p → let number := BitVec.ofNat 64 (field p.body 0 8)
      (findOrder t number = none → Gives (.query n) s (fun u => ∃ body, OnlyAnswers t u p 0x0520 body ∧ field body 0 8 = number.toNat ∧ field body 8 1 = 0))
      ∧ (∀ o, findOrder t number = some o → o.run < 256 → o.acceptStamp < 2 ^ 80 → Gives (.query n) s (fun u => ∃ body, OnlyAnswers t u p 0 body
          ∧ body.length = 312 ∧ field body 0 8 = number.toNat ∧ field body 8 1 = orderCode o.state ∧ field body 9 1 = o.run
          ∧ field body 40 8 * 65536 + field body 48 2 = o.acceptStamp)))
    ∧ (∀ n t p, Heard s n 0x0401 t p →
        let number := BitVec.ofNat 64 (field p.body 0 8)
        let count := field p.body 12 4
        let first := field p.body 16 8
        (findOrder t number = none → Gives (.progressMap n) s (fun u => OnlyAnswers t u p 0x0520 []))
        ∧ (∀ o, findOrder t number = some o → let g := progressOf o (field p.body 8 4)
            (count = 0 ∨ 524288 < count ∨ (g.units ≠ 0 ∧ g.units ≤ first) → Gives (.progressMap n) s (fun u => OnlyAnswers t u p 0x02F0 []))
            ∧ (1 ≤ count → count ≤ 524288 → g.units = 0 ∨ first < g.units → Gives (.progressMap n) s (fun u => ∃ body, OnlyAnswers t u p 0 body
                ∧ field body 0 8 = number.toNat ∧ field body 8 4 = field p.body 8 4 ∧ field body 13 1 = b2n o.fromJournal
                ∧ ∀ i < count, bit (field body 32 (ceilDiv count 8)) i
                    = (g.done || o.state == .complete || decide (first + i ∈ g.live) || decide (first + i ∈ g.durable))))))
    ∧ (standing s = false → Gives .progressRecord s (fun u => u.comb = s.comb ∧ u.mailboxes = s.mailboxes
        ∧ ∀ r rn o i, r < 8 → getRun s r = some rn → orderOf s rn = some o → i ∈ rn.issued → ended o = false → i.op.micro = false →
            i.op.opcode ∈ [0x72, 0x73, 0x75, 0x80] → (progressOf o i.instr).done = false → ∀ x ∈ (progressOf o i.instr).live,
              ∃ o', findOrder u o.number = some o' ∧ x ∈ (progressOf o' i.instr).durable))

/-- R275, R333, R339. -/
def Obligations.Completions : Prop :=
  ∀ (s : State), Whole s → standing s = false →
    let told (u : State) (src : BitVec 22) (o : Order) : Prop :=
      (∀ x ∈ u.keeper.orders, x.number = o.number → x.notice = 1 ∧ x.noticeSentAt = s.wall) ∧ u.journal = s.journal ∧ u.runs = s.runs
        ∧ ∃ m, OnlyMailbox { s with keeper := u.keeper } u (replyMailbox s src)
          ∧ outgoing (getMailbox u (replyMailbox s src)) = outgoing (getMailbox s (replyMailbox s src)) ++ [m]
          ∧ m.completion = some o.number ∧ field m.bytes 0 2 = 0x4020 ∧ field m.bytes 32 8 = o.number.toNat ∧ field m.bytes 40 1 = orderCode o.state
    (∀ src : BitVec 22,
      (firstUnacked s src = none → exec (.completionNoticeSend src) s = .next s ∧ exec (.noticeRetransmit src) s = .next s)
      ∧ (∀ o, firstUnacked s src = some o →
          (ended o = true → o.notice = 0 → sourceHeld s src = false → Gives (.completionNoticeSend src) s (fun u => told u src o))
          ∧ (ended o = false ∨ o.notice ≠ 0 ∨ sourceHeld s src = true → exec (.completionNoticeSend src) s = .next s)
          ∧ (o.notice = 1 → 9 ≤ replyMailbox s src → replyMailbox s src ≤ 13 → nth s.keeper.sessEnable (replyMailbox s src - 9) = true →
              (∀ q ∈ outgoing (getMailbox s (replyMailbox s src)), q.completion ≠ some o.number) →
              Gives (.noticeRetransmit src) s (fun u => told u src o))
          ∧ (o.notice ≠ 1 ∨ replyMailbox s src < 9 ∨ 13 < replyMailbox s src ∨ nth s.keeper.sessEnable (replyMailbox s src - 9) = false
              ∨ (∃ q ∈ outgoing (getMailbox s (replyMailbox s src)), q.completion = some o.number) → exec (.noticeRetransmit src) s = .next s)))
    ∧ (s.journal.pendingAcks = [] → exec .deliveredBatch s = .next s)
    ∧ (s.journal.pendingAcks ≠ [] → Gives .deliveredBatch s (fun u => u.journal.pendingAcks = [] ∧ u.mailboxes = s.mailboxes ∧ u.runs = s.runs
        ∧ (∀ o ∈ u.keeper.orders, o.number ∈ s.journal.pendingAcks → o.notice = 3)
        ∧ (s.journal.sinceCheckpoint < 4095 → (∀ o ∈ s.keeper.orders, o.number ∉ s.journal.pendingAcks → o ∈ u.keeper.orders)
          ∧ ∃ x, u.journal.records = s.journal.records ++ [x] ∧ x.kind = 8 ∧ x.lsn = s.journal.nextLsn
            ∧ field x.body 0 4 = s.journal.pendingAcks.length % 2 ^ 32)
        ∧ (4095 ≤ s.journal.sinceCheckpoint → JournalAscending s → u.journal.sinceCheckpoint = 0
          ∧ ∃ x, u.journal.records.getLast? = some x ∧ x.kind = 9)))
    ∧ (∀ n t p o, Heard s n 0x0022 t p → findOrder t (BitVec.ofNat 64 (field p.body 0 8)) = some o → o.notice = 1 →
        t.journal.pendingAcks.length = 255 → t.journal.sinceCheckpoint < 4095 → Gives (.noticeAck n) s (fun u => u.journal.pendingAcks = []
          ∧ ∃ x, u.journal.records = t.journal.records ++ [x] ∧ x.kind = 8 ∧ field x.body 0 4 = 256))
    ∧ (s.journal.scanned = false → exec .journalCheckpoint s = .next s)
    ∧ (s.journal.scanned = true → JournalAscending s → Gives .journalCheckpoint s (fun u => u.journal.pendingAcks = [] ∧ JournalAscending u
        ∧ u.journal.sinceCheckpoint = 0 ∧ u.journal.checkpointAt = s.wall
        ∧ (∃ x, u.journal.records.getLast? = some x ∧ x.kind = 9 ∧ field x.body 0 8 = u.journal.head % 2 ^ 64)
        ∧ (∀ r ∈ u.journal.records, u.journal.head ≤ r.lsn) ∧ (∀ o ∈ s.keeper.orders, ended o = false → ∃ o' ∈ u.keeper.orders, o'.number = o.number)
        ∧ (s.journal.pendingAcks = [] → ∀ r ∈ s.journal.records, recordNeeded s r = true → r ∈ u.journal.records)))

/-- R511. The rejection clause leaves out an assembly of a type that is no request, which R315 never lets begin. -/
def Obligations.NoticeAck : Prop :=
  ∀ (s : State) (n : Fin 16) (t : State), Whole s → standing s = false →
    (∀ p, Heard s n 0x0022 t p → p.body.length = 8 ∧ let number := BitVec.ofNat 64 (field p.body 0 8)
      ((∀ o, findOrder t number = some o → o.notice ≠ 1) → exec (.noticeAck n) s = .next t)
      ∧ (∀ o, findOrder t number = some o → o.notice = 1 → t.journal.pendingAcks.length < 255 → Gives (.noticeAck n) s (fun u => u.mailboxes = t.mailboxes
          ∧ u = { t with keeper := u.keeper, journal := u.journal } ∧ u.journal.pendingAcks = t.journal.pendingAcks ++ [number]
          ∧ u.journal.records = t.journal.records ∧ findOrder u number = some { o with notice := 2 }
          ∧ (∀ m, m ≠ number → findOrder u m = findOrder t m))))
    ∧ ((getMailbox s n).inFull = true → field (getMailbox s n).inbound 0 2 = 0x0022 → takeMessage s n = .done t →
        (∀ a, (getMailbox s n).assembly = some a → knownRequest a.type.toNat = true) →
        exec (.noticeAck n) s = .next t ∧ t.keeper = s.keeper ∧ t.journal = s.journal ∧ t.runs = s.runs
          ∧ (∀ m, m ≠ n.val → getMailbox t m = getMailbox s m)
          ∧ ∀ x ∈ outgoing (getMailbox t n), x ∈ outgoing (getMailbox s n) ∨ field x.bytes 0 2 ≠ 0x8022)

/-- R340, R416, R455, R457, R466, R467, R473. -/
def Obligations.Stops : Prop :=
  ∀ (s : State), Whole s →
    (standing s = false → ∀ r : Fin 8,
      (∀ rn f o, getRun s r = some rn → rn.fault = some f → rn.order = some o.number → findOrder s o.number = some o → o.run = r.val →
        (faultClass f.code = 1 → quietRun s r = true → Gives (.runFaultAbandon r) s (fun u =>
          (∃ o', findOrder u o.number = some o' ∧ o'.state = .abandoned ∧ o'.code = f.code)
            ∧ (∃ rn', getRun u r = some rn' ∧ rn'.order = none ∧ rn'.fault = none ∧ rn'.issued = [])
            ∧ (s.journal.sinceCheckpoint < 4095 → ∃ x ∈ u.journal.records, x.kind = 7 ∧ x.order = o.number ∧ field x.body 0 2 = f.code.toNat)))
        ∧ (faultClass f.code ≠ 1 ∨ quietRun s r = false → exec (.runFaultAbandon r) s = .next s)
        ∧ (faultClass f.code = 3 → o.state = .running → quietRun s r = true → Gives (.runFaultStop r) s (fun u =>
          (∃ o', findOrder u o.number = some o' ∧ o'.state = .partial_ ∧ o'.code = f.code ∧ o'.awaiting = true)
            ∧ u.journal = s.journal ∧ (∃ rn', getRun u r = some rn' ∧ rn'.order = some o.number)
            ∧ (∀ g ∈ runFrames s r, (getFrame u g).tally = [] ∧ (getFrame u g).replay = [] ∧ (getFrame u g).moves = [] ∧ (getFrame u g).moveReplay = [])))
        ∧ (faultClass f.code ≠ 3 ∨ o.state ≠ .running ∨ quietRun s r = false → exec (.runFaultStop r) s = .next s))
      ∧ ((∀ rn, getRun s r = some rn → rn.fault = none) → exec (.runFaultAbandon r) s = .next s ∧ exec (.runFaultStop r) s = .next s))
    ∧ (∀ n t p c (a : Nat), (a = 1 ∧ c = Instr.resolveResume n) ∨ (a = 2 ∧ c = Instr.resolveRestart n) ∨ (a = 3 ∧ c = Instr.resolveAbandon n) →
        HeardAction s n 0x0402 8 a t p → let number := BitVec.ofNat 64 (field p.body 0 8)
        (findOrder t number = none → Gives c s (fun u => OnlyAnswers t u p 0x0520 []))
        ∧ (∀ o, findOrder t number = some o →
            (o.state ≠ .partial_ ∨ o.awaiting = false → Gives c s (fun u => OnlyAnswers t u p 0x02F1 []))
            ∧ (o.state = .partial_ → o.awaiting = true →
              (a = 3 → Gives c s (fun u => Answered t u p 0 [] ∧ (∃ o', findOrder u number = some o' ∧ o'.state = .abandoned ∧ o'.code = o.code)
                ∧ (t.journal.sinceCheckpoint < 4095 → ∃ x ∈ u.journal.records, x.kind = 7 ∧ x.order = number)))
              ∧ (a ≠ 3 → readyRun t o = none → Gives c s (fun u => OnlyAnswers t u p 0x02F1 []))
              ∧ (∀ rn, a = 2 → readyRun t o = some rn → restartable (runImage t rn) rn.image o.entry = false →
                  Gives c s (fun u => OnlyAnswers t u p 0x02F2 []))
              ∧ (∀ rn, readyRun t o = some rn → a = 1 ∨ (a = 2 ∧ restartable (runImage t rn) rn.image o.entry = true) →
                  Gives c s (fun u => Answered t u p 0 [] ∧ ∃ o', findOrder u number = some o' ∧ o'.awaiting = false
                    ∧ (o'.state = .running ∨ o'.state = .complete))))))
    ∧ (standing s = false →
      (s.keeper.state ≠ .boot ∨ s.journal.scanned = true ∨ journalReadable s = false → exec .journalScan s = .next s)
      ∧ (s.keeper.state = .boot → s.journal.scanned = false → journalReadable s = true →
          Gives .journalScan s (fun u => u.keeper.state ≠ .boot ∧ u.journal.scanned = true
            ∧ (∀ o ∈ u.keeper.orders, ∃ x ∈ s.journal.records, x.kind = 1 ∧ x.order = o.number
                ∧ ∃ m ∈ x.copies, m ∈ pairStacks s.journal.activePair ∧ stackUp s m = true ∧ (x.lsn, m) ∉ Config.failedCopies s.draws)
            ∧ s.time.now ≤ u.time.now
            ∧ (highestTime s (countingRecords s (Config.failedCopies s.draws)) ≠ 0 → highestTime s (countingRecords s (Config.failedCopies s.draws)) + 1000 * 65536 ≤ u.time.now))))

/-- R79, R105, R242, R331. -/
def Obligations.OrderStart : Prop :=
  ∀ (s : State) (r : Fin 8), Sound s → standing s = false →
    ((∀ rn, getRun s r = some rn → rn.ready = false ∨ rn.paused = true ∨ rn.order.isSome = true ∨ nextOrder s r = none
        ∨ (∃ o, nextOrder s r = some o ∧ sourceHeld s (orderSource o.number) = true)
        ∨ (∃ f ∈ runFrames s r, (getFrame s f).scrubBusy = true)
        ∨ (∃ x ∈ ordersOf s r, x.state = .running ∨ x.state = .partial_)) → exec (.workOrderStart r) s = .next s)
    ∧ (∀ rn o, getRun s r = some rn → rn.ready = true → rn.paused = false → rn.order = none → nextOrder s r = some o →
        sourceHeld s (orderSource o.number) = false → (∀ f ∈ runFrames s r, (getFrame s f).scrubBusy = false) →
        (∀ x ∈ ordersOf s r, x.state ≠ .running ∧ x.state ≠ .partial_) → findOrder s o.number = some o →
        let prog := programOf (runImage s rn) rn.image o.entry
        let block := o.shapes.flatMap (fun v => natLe 4 v.toNat) ++ o.params
        o.state = .accepted ∧ (∀ x ∈ ordersOf s r, x.state = .accepted → x.acceptLost = false → o.acceptStamp ≤ x.acceptStamp)
        ∧ Gives (.workOrderStart r) s (fun u =>
          (∃ o', findOrder u o.number = some o' ∧ o'.nextIssue = 0 ∧ o'.fenceGens = [] ∧ o'.levels = []
              ∧ o'.state = (if prog = [] then .complete else .running))
          ∧ (prog ≠ [] → u.workers = s.workers ∧ ∃ rn', getRun u r = some rn' ∧ rn'.order = some o.number ∧ rn'.orderSeeds = o.seeds ∧ rn'.issued = []
              ∧ rn'.fault = none ∧ rn'.trip = none ∧ rn'.image = rn.image ∧ rn'.rings = rn.rings)
          ∧ (s.journal.sinceCheckpoint < 4094 → ∃ x, u.journal.records[s.journal.records.length]? = some x ∧ x.kind = 2 ∧ x.order = o.number ∧ x.lsn = s.journal.nextLsn
              ∧ ∀ n < 16, field x.body (4 * n) 4 = if n ∈ programSlots prog then (genInForce s r n).toNat else 0)
          ∧ (∀ i, (h : i < block.length) → readComb u (paramBase rn.image + i) = block[i])
          ∧ (∀ a, a < paramBase rn.image ∨ paramBase rn.image + block.length ≤ a → readComb u a = readComb s a)
          ∧ (∀ r', r' ≠ r.val → getRun u r' = getRun s r') ∧ u.stackMem = s.stackMem))

/-- R113, R125, R126, R137, R368, R402. -/
def Obligations.InstructionIssue : Prop :=
  ∀ (s : State) (r : Fin 8), Whole s → standing s = false → ∀ row ∈ issueRows,
    (issuable s r = none → exec (row.1 r) s = .next s)
    ∧ (∀ rn o prog k op, issuable s r = some (rn, o, prog, k, op) →
      (row.2 op = false → exec (row.1 r) s = .next s)
      ∧ (row.2 op = true → ∀ a, (issueReads rn.image op).find? (poisoned s) = some a → Gives (row.1 r) s (fun u =>
          (∃ o', findOrder u o.number = some o' ∧ o'.nextIssue = k ∧ (a / 8 ∉ o.redoneAt → a / 8 ∈ o'.redoneAt))
            ∧ (∃ rn', getRun u r = some rn' ∧ rn' = { rn with fault := rn'.fault } ∧ rn'.fault =
                (if a / 8 ∈ o.redoneAt then some { code := 0x0292, instr := k, unit := 0 } else none))
            ∧ poisoned s a = true))
      ∧ (row.2 op = true → CleanIssue s rn op → (op.micro = true ∨ (op.opcode ≠ 0x82 ∧ op.opcode ≠ 0x98)) →
        let owed := issuedOwed s rn o k op
        (issueFailures s rn op ≠ [] → Gives (row.1 r) s (fun u =>
            (∃ c ∈ issueFailures s rn op, (∀ d ∈ issueFailures s rn op, c.toNat ≤ d.toNat)
              ∧ getRun u r = some { rn with fault := some { code := c, instr := k, unit := 0 } })
            ∧ (∀ r', r' ≠ r.val → getRun u r' = getRun s r') ∧ u.keeper.orders = s.keeper.orders
            ∧ u = { s with runs := u.runs, keeper := u.keeper, telem := u.telem, time := u.time, mailboxes := u.mailboxes }))
        ∧ (issueFailures s rn op = [] → owed ≠ [] → (op.micro = true ∨ op.opcode ≠ 0x81) → Gives (row.1 r) s (fun u =>
            (∃ rn' i, getRun u r = some rn' ∧ rn' = { rn with issued := rn.issued ++ [i], rings := rn'.rings } ∧ i.instr = k ∧ i.op = op
              ∧ i.sizes = (resolve s rn.image op).sizes ∧ i.tiling = issuedTiling s rn op ∧ i.units = issuedUnits s rn op
              ∧ i.level = instrLevel rn.image o k ∧ i.hyper = hyperRecord s op ∧ (∀ x, x ∈ i.committed ↔ x ∈ i.units ∧ x ∉ owed))
            ∧ (∃ o', findOrder u o.number = some o' ∧ o'.nextIssue = k + 1 ∧ o'.state = .running)
            ∧ (∀ f < 8, getFrame u f =
                if (getFrame s f).run = some r.val then
                  (if op.micro = true ∨ isTiled op = true then { getFrame s f with tally := (getFrame s f).tally ++ owedAt s rn o k op f }
                   else { getFrame s f with moves := (getFrame s f).moves ++ owedAt s rn o k op f })
                else getFrame s f)
            ∧ (∀ r', r' ≠ r.val → getRun u r' = getRun s r')
            ∧ u = { s with runs := u.runs, frames := u.frames, keeper := { s.keeper with orders := u.keeper.orders } }))
        ∧ (issueFailures s rn op = [] → owed ≠ [] → op.micro = false → op.opcode = 0x81 → ∀ g, ringOf rn.image (nth op.descs 0) = some g →
            g < rn.rings.length → Gives (row.1 r) s (fun u => u.comb = s.comb ∧ u.stackMem = s.stackMem
              ∧ ∀ x ∈ owed, ({ seq := (nth rn.rings g).armedCount + x, instr := k, chunk := x, plan := planOf op } : Armed) ∈ (getRing u r g).armed))
        ∧ (issueFailures s rn op = [] → owed = [] → s.journal.sinceCheckpoint < 4093 → Gives (row.1 r) s (fun u =>
            PastInstr u o k s.journal.records.length ∧ u.comb = s.comb ∧ u.stackMem = s.stackMem))))

/-- R117, R125, R240 to R242, R244, R405. -/
def Obligations.FencesAndChecks : Prop :=
  ∀ (s : State) (r : Fin 8) (rn : Run) (o : Order) (prog : List PInstr) (k : Nat) (op : PInstr), Whole s → standing s = false →
    issuable s r = some (rn, o, prog, k, op) → op.micro = false → s.poison = [] →
    (∀ row : Fin 8 → Instr, (op.opcode = 0x98 ∧ row = .tfence) ∨ (op.opcode = 0x82 ∧ row = .ccheck) → ∀ c rest,
      issueCodes s rn.image op (resolve s rn.image op) = c :: rest → Gives (row r) s (fun u => c = 0x0230 ∧ FaultedAt u r c { instr := k, unit := 0 }
        ∧ u.workers = s.workers ∧ u.journal = s.journal ∧ u.comb = s.comb))
    ∧ (issueCodes s rn.image op (resolve s rn.image op) = [] →
    (op.opcode = 0x98 → s.journal.sinceCheckpoint < 4092 → let mask := op.imm0.toNat % 65536
      (o.fenceGens.find? (fun f => f.1 == k) = none → rn.savedGens = [] → Gives (.tfence r) s (fun u =>
        (∀ w < 68, getWorker u w = if (getWorker s w).run = some r.val then
            { getWorker s w with root := (getWorker s w).root.mapIdx (fun n x =>
                if bit mask n = true ∧ x.pending = true then { x with activeB := !x.activeB, pending := false } else x) }
          else getWorker s w)
        ∧ (∃ x, u.journal.records[s.journal.records.length]? = some x ∧ x.kind = 3 ∧ x.order = o.number ∧ field x.body 0 4 = k % 2 ^ 32
            ∧ field x.body 4 2 = mask ∧ ∀ n < 16, field x.body (8 + 4 * n) 4 = if bit mask n then (genInForce u r n).toNat else 0)
        ∧ PastInstr u o k (s.journal.records.length + 1) ∧ u.comb = s.comb ∧ u.stackMem = s.stackMem))
      ∧ (∀ gens, o.fenceGens.find? (fun f => f.1 == k) = some (k, gens) →
        ((∃ n < 16, bit mask n = true ∧ nth gens n ≠ 0 ∧ nth gens n ≠ genInForce s r n ∧ (archivedBank s (nth gens n)).gen = 0) →
          Gives (.tfence r) s (fun u => (getRun u r).bind Run.fault = some { code := 0x0261, instr := k, unit := 0 } ∧ u.workers = s.workers))
        ∧ ((∀ n < 16, nth gens n ≠ 0 → (archivedBank s (nth gens n)).gen ≠ 0) → k + 1 < prog.length → Gives (.tfence r) s (fun u =>
            ∀ n < 16, n < rn.root.length → genInForce u r n
              = if bit mask n = true ∧ nth gens n ≠ 0 then nth gens n else genInForce s r n))))
    ∧ (op.opcode = 0x82 → nth prog k = op →
        let count := assocD rn.checkCounts (planOf op) 0 + 1
        let reached (n : Nat) : Prop := count ≤ assocD (getLink s n).checksIn (planOf op) 0
        Gives (.ccheck r) s (fun u =>
          (∃ rn', getRun u r = some rn' ∧ assocD rn'.checkCounts (planOf op) 0 = count
            ∧ ((∃ n < 24, bit op.imm1.toNat n = true ∧ ¬ reached n) → rn'.checkWait = some k)
            ∧ ((∀ n < 24, bit op.imm1.toNat n = true → reached n) → rn'.checkWait = none))
          ∧ ((∀ n < 24, bit op.imm1.toNat n = true → reached n) →
              ∃ o', findOrder u o.number = some o' ∧ o'.nextIssue = k + 1 ∧ ∀ g ∈ o'.progress, g.instr = k → g.done = true)
          ∧ (∀ n < 24, bit op.imm1.toNat n = true → assocD (getLink u n).checksOut (planOf op) 0 = count)
          ∧ u.comb = s.comb ∧ u.stackMem = s.stackMem)))

/-- R138, R139, R261 to R263, R267, R268, R273, R274. -/
def Obligations.UnitsAndLayers : Prop :=
  ∀ (s : State), Whole s → standing s = false →
    (∀ (w : Fin 68) (idle : Nat),
      let f := workerFrame s w
      let queued (g : Nat) : List UnitRef := (getFrame s g).replay ++ (getFrame s g).tally
      (grantRun s w = none → exec (.unitGrant w idle) s = .next s ∧ exec (.unitSteal w idle) s = .next s)
      ∧ (∀ r, grantRun s w = some r →
        let victim (g : Nat) : Prop := (getFrame s g).run = some r ∧ (getFrame s g).recovering = false ∧ queued g ≠ []
        (∀ x, (queued f).find? (unitOpen s r (getWorker s w)) = some x → Gives (.unitGrant w idle) s (fun u => BeginsUnit s u w r x idle
            ∧ getFrame u f = QueueWithout s f x ∧ (∀ g, g ≠ f → getFrame u g = getFrame s g)))
        ∧ ((queued f).find? (unitOpen s r (getWorker s w)) = none → (getWorker s w).rewrite = none →
            Gives (.unitGrant w idle) s (fun u => OnlyIdles s u w idle))
        ∧ (queued f ≠ [] → exec (.unitSteal w idle) s = .next s)
        ∧ (queued f = [] → (getWorker s w).rewrite = none → (∀ k, 1 ≤ k → k < 8 → ¬ victim (f ^^^ k)) →
            Gives (.unitSteal w idle) s (fun u => OnlyIdles s u w idle))
        ∧ (∀ k g, queued f = [] → 1 ≤ k → k < 8 → g = f ^^^ k → victim g → (∀ j, 1 ≤ j → j < k → ¬ victim (f ^^^ j)) →
            (∀ x, (queued g).find? (unitOpen s r (getWorker s w)) = some x → Gives (.unitSteal w idle) s (fun u => BeginsUnit s u w r x idle
              ∧ getFrame u g = QueueWithout s g x ∧ (∀ e, e ≠ g → getFrame u e = getFrame s e)))
            ∧ ((queued g).find? (unitOpen s r (getWorker s w)) = none → (getWorker s w).rewrite = none →
                Gives (.unitSteal w idle) s (fun u => OnlyIdles s u w idle)))))
    ∧ (∀ (w : Fin 68),
      ((getWorker s w).held = [] → exec (.closeUnit w) s = .next s)
      ∧ (∀ h rest rn i n, (getWorker s w).held = h :: rest → Owes s h.run rn i n h.ref → i.op.micro = false → watchOn i.op = true →
          h.ref.unit = closeIndex i.tiling → h.ref.unit ∉ i.units → h.copyOut = false → s.telem.buffer.length + 3 ≤ 4096 →
          let base := i.op.imm1.toNat % 2 ^ 28
          let entries := (List.range (tileCount i.tiling)).map (fun T => combBytes s (base + 16 * T) 16)
          let pay := closePayload i.op i.hyper entries (i.tiling.ext.foldl (· * ·) 1)
          let written (u : State) (k kind : Nat) : Prop := ∃ x, u.telem.buffer[s.telem.buffer.length + k]? = some x ∧ field x 10 1 = kind
            ∧ field x 12 4 = (orderSource n).toNat ∧ x.drop 16 = healthBody n i.instr i.op.layerTag (padTo 32 pay.1)
          (∀ a, base ≤ a → a < base + 16 * tileCount i.tiling → poisoned s a = false) → Gives (.closeUnit w) s (fun u =>
            (getWorker u w).held = [] ∧ UnitCommitted u h.run n h.ref ∧ u.comb = s.comb ∧ written u 0 (if i.op.opcode = 0x68 then 6 else 1)
              ∧ (pay.2 ≠ 0 → written u 1 2
                  ∧ ∃ m ∈ outgoing (getMailbox u (replyMailbox s (orderSource n))), field m.bytes 0 2 = 0x4021 ∧ field m.bytes 42 1 = 2)))
      ∧ ((getWorker s w).sample = none → exec (.shadowSampleCompute w) s = .next s)
      ∧ (∀ sm, (getWorker s w).sample = some sm →
        ((getWorker s w).run ≠ some sm.run → Gives (.shadowSampleCompute w) s (fun u =>
            u = setWorker s w (fun x => { x with sample := none, sfnSkip := satAdd x.sfnSkip 1 })))
        ∧ ((getWorker s w).run = some sm.run → s.telem.buffer.length < 4096 →
            Gives (.shadowSampleCompute w) s (fun u => u.workers = (setWorker s w (fun x => { x with sample := none })).workers
              ∧ u = { s with workers := u.workers, telem := { s.telem with buffer := u.telem.buffer }, time := u.time }
              ∧ ∃ x, u.telem.buffer = s.telem.buffer ++ [x] ∧ x.length = 64 ∧ field x 10 1 = 5 ∧ field x 16 8 = sm.order.toNat
                ∧ field x 24 4 = sm.instr % 2 ^ 32 ∧ field x 28 2 = sm.layerTag % 2 ^ 16 ∧ field x 32 8 = sm.tile % 2 ^ 64
                ∧ field x 40 2 = sm.maxUlp % 2 ^ 16 ∧ field x 42 1 = sm.fmt % 256
                ∧ field x 44 4 = sm.compared % 2 ^ 32 ∧ field x 48 4 = sm.differing % 2 ^ 32))))
    ∧ (∀ (r : Fin 8),
      ((∀ rn, getRun s r = some rn → rn.trip = none) → exec (.guardLevelAdvance r) s = .next s)
      ∧ (∀ rn t o g, getRun s r = some rn → rn.trip = some t → orderOf s rn = some o →
          rn.image.guards.find? (fun g => g.entry == o.entry && g.layerTag == t.layerTag) = some g →
          let inLayer (k : Nat) : Prop := g.firstInstr ≤ k ∧ k < g.firstInstr + g.count
          let flying : Prop := (∃ w < 68, ∃ h ∈ (getWorker s w).held, h.run = r.val ∧ inLayer h.ref.instr)
            ∨ (∃ f ∈ runFrames s r, ∃ x ∈ (getFrame s f).replay, inLayer x.instr)
          let told (u : State) (kind next : Nat) : Prop := s.telem.buffer.length < 4096 → ∃ x, LoggedNext s u kind x
            ∧ field x 0 8 = t.stamp / 65536 % 2 ^ 64 ∧ field x 16 8 = o.number.toNat ∧ field x 24 4 = t.instr % 2 ^ 32
            ∧ field x 28 2 = t.layerTag % 2 ^ 16 ∧ field x 32 1 = t.level % 256 ∧ field x 33 1 = next % 256 ∧ field x 34 2 = t.cause.toNat
          (flying → exec (.guardLevelAdvance r) s = .next s)
          ∧ (¬ flying → t.level < g.topLevel → s.journal.sinceCheckpoint + 1 < 4096 → Gives (.guardLevelAdvance r) s (fun u =>
              (∃ rn', getRun u r = some rn' ∧ rn' = { rn with trip := none, issued := rn'.issued }
                ∧ ∀ i, i ∈ rn'.issued ↔ i ∈ rn.issued ∧ ¬ inLayer i.instr)
              ∧ (∃ o', findOrder u o.number = some o' ∧ o'.nextIssue = g.firstInstr ∧ levelOf o' t.layerTag = t.level + 1
                ∧ ∀ p ∈ o'.progress, inLayer p.instr → p.live = [] ∧ p.durable = [] ∧ p.done = false ∧ p.units = 0)
              ∧ (∃ x, u.journal.records = s.journal.records ++ [x] ∧ x.kind = 4 ∧ x.order = o.number ∧ field x.body 0 2 = t.layerTag % 2 ^ 16
                ∧ field x.body 2 1 = (t.level + 1) % 256 ∧ field x.body 4 4 = g.firstInstr % 2 ^ 32)
              ∧ told u 3 (t.level + 1)
              ∧ (∀ f, getFrame u f = if f ∈ runFrames s r
                  then WithoutUnits (getFrame s f) (fun k => g.firstInstr ≤ k && k < g.firstInstr + g.count) else getFrame s f)
              ∧ u = { s with runs := u.runs, keeper := { s.keeper with orders := u.keeper.orders }, journal := u.journal, telem := u.telem
                             time := u.time, frames := u.frames }))
          ∧ (¬ flying → g.topLevel ≤ t.level → rn.fault = none → Gives (.guardLevelAdvance r) s (fun u =>
              (∃ rn', getRun u r = some rn' ∧ rn'.trip = none ∧ rn'.fault = some { code := 0x0271, instr := t.instr, unit := t.tile }
                ∧ rn'.issued = rn.issued) ∧ FaultTold u 0x0271 0 0xFF 1 ∧ u.comb = s.comb ∧ u.journal = s.journal ∧ told u 4 t.level
              ∧ ∃ o', findOrder u o.number = some o' ∧ ∀ x ∈ outgoingRegions rn.image
                  ((List.range g.count).map (fun k => instrAt s rn o (orderProgram s rn o) (g.firstInstr + k))), x ∈ o'.invalid))))

/-- R36, R68, R95, R133, R151, R178, R458, R459, R464. -/
def Obligations.Tiles : Prop :=
  ∀ (s : State) (w : Fin 68), Sound s → standing s = false →
    (∀ up ring conflict,
      (heldTile s w = none ∨ (getWorker s w).admission ≠ .admitted ∨ (getFrame s (workerFrame s w)).recovering = true →
        exec (.tileIssue w up ring conflict) s = .next s)
      ∧ (∀ h rn i, heldTile s w = some (h, rn, i) → (getWorker s w).admission = .admitted → (getFrame s (workerFrame s w)).recovering = false →
        let tiles := unitTiles i.op i.tiling h.ref.unit
        let T := nth tiles h.tile
        let first := h.tile == 0
        let last := h.tile + 1 == tiles.length
        let waits := if cyclesCount (getWorker s w) i.op then updAt (getWorker s w).cyc 2 (fun n => wrapAdd n ring) else (getWorker s w).cyc
        (∀ wt, blockedSlot rn i T = some wt → Gives (.tileIssue w up ring conflict) s (fun u =>
            u = { s with workers := u.workers } ∧ (∀ v, v ≠ w.val → getWorker u v = getWorker s v)
              ∧ getWorker u w = { getWorker s w with wait := some wt, cyc := waits }))
        ∧ (blockedSlot rn i T = none →
          (up = .laneParity ∨ up = .cellUncorrectable → Gives (.tileIssue w up ring conflict) s (fun u =>
              u.comb = s.comb ∧ u.stackMem = s.stackMem ∧ (getWorker u w).epoch = (getWorker s w).epoch + 1 ∧ (getWorker u w).admission ≠ .admitted
                ∧ (resetBefore s 1 w = false → (findRecovery u 1 w).isSome = true)
                ∧ (resetBefore s 1 w = true → w.val ∈ u.keeper.oosWorker)
                ∧ (i.op.micro = true ∨ isTiled i.op = true → homeOf rn.image i h.ref.unit < 8 →
                    h.ref ∈ (getFrame u (homeOf rn.image i h.ref.unit)).replay)))
          ∧ (∀ q, up = .none → s.poison = [] → crcMismatch s rn (tileReadSlots rn i T) = some q →
              let a := slotBase (nth rn.rings q.1) q.2
              let before : Prop := ∃ o, orderOf s rn = some o ∧ a / 8 ∈ o.redoneAt
              a % 2 ^ 25 < 0x1F00000 → Gives (.tileIssue w up ring conflict) s (fun u => u.comb = s.comb ∧ (getWorker u w).held = []
                ∧ (before → FaultTold u 0x0292 0 0xFF 4 ∧ (Faultable s h.run → FaultedAt u h.run 0x0292 h.ref))
                ∧ (¬ before → FaultTold u 0x0222 0 0xFF 1 ∧ u.runs = s.runs
                    ∧ (i.op.micro = true ∨ isTiled i.op = true → homeOf rn.image i h.ref.unit < 8 →
                        h.ref ∈ (getFrame u (homeOf rn.image i h.ref.unit)).replay))))
          ∧ (up = .none → s.poison = [] → crcMismatch s rn (tileReadSlots rn i T) = none →
            let c := tileCtx s rn i w T
            let work := tileWork (tileCtx s rn i w) i h.ref.unit T first last (heldRows (getWorker s w) i)
            let ev := if first = true ∧ h.ref.unit = i.units.headD h.ref.unit then work.2.1.add (issueEvents c i) else work.2.1
            let stops := ev.faults.filter (fun f => !(c.guarded && (f == 0x0210 || f == 0x0211)))
            let bytes := flattenWrites (readComb s) work.1
            (∀ code rest, stops = code :: rest → Gives (.tileIssue w up ring conflict) s (fun u => u.comb = s.comb ∧ (getWorker u w).held = []
                ∧ (Faultable s h.run → faultClass code ≠ 2 → FaultedAt u h.run code h.ref)))
            ∧ (stops = [] → Gives (.tileIssue w up ring conflict) s (fun u =>
                (∀ a, (∀ b ∈ bytes, b.1 ≠ a) → readComb u a = readComb s a) ∧ u.stackMem = s.stackMem
                ∧ (roleDescs i.op 3 = [] → u.comb = memSetMany combDefault bytes s.comb)
                ∧ (getWorker u w).numFlush = satAdd (getWorker s w).numFlush ev.flushed
                ∧ (getWorker u w).numSat = satAdd (getWorker s w).numSat ev.saturated
                ∧ (getWorker u w).numNanLost = satAdd (getWorker s w).numNanLost ev.nanLost
                ∧ (getWorker u w).numCancel = satAdd (getWorker s w).numCancel ev.cancel
                ∧ (getWorker u w).sfnZero = satAdd (getWorker s w).sfnZero ev.thrZero
                ∧ (getWorker u w).rowState = (keepRows (getWorker s w) i work.2.2).rowState
                ∧ (isSeedOp i.op = true → work.2.2 ≠ [] → (getWorker u w).cells = memLay 0 seedCell (seedBytes work.2.2) (getWorker s w).cells)
                ∧ WindowsCounted s w i first last (tileWindow s w c (runChain c) work.1) (pivotSlot c) ring conflict u
                ∧ (last = false → ∃ h', (getWorker u w).held = [h'] ∧ (getWorker u w).wait = none
                    ∧ h' = { h with tile := h.tile + 1, seqs := h.seqs ++ tileReadSlots rn i T })
                ∧ (last = true → (getWorker u w).held = []
                    ∧ (QuietLinks s → ∀ n, Owes s h.run rn i n h.ref → UnitCommitted u h.run n h.ref))))))))
    ∧ ((getWorker s w).held.find? Held.copyOut = none →
        exec (.commitSlotDrain w) s = .next s ∧ exec (.drainTimeout w) s = .next s)
    ∧ (∀ h, (getWorker s w).held.find? Held.copyOut = some h →
        let bytes := h.homes.map (fun p => (p.2, memGet 0 (getWorker s w).cells (commitSlot + p.1)))
        ((getWorker s w).admission = .fenced → exec (.commitSlotDrain w) s = .next s)
        ∧ ((getWorker s w).admission ≠ .fenced → Gives (.commitSlotDrain w) s (fun u =>
            u.comb = memSetMany combDefault bytes s.comb ∧ (∀ a, (∀ b ∈ bytes, b.1 ≠ a) → readComb u a = readComb s a)
            ∧ (∀ x ∈ (getWorker u w).held, x.copyOut = false)
            ∧ (crc32c (bytes.map Prod.snd) = h.crc → ∀ rn i n, Owes s h.run rn i n h.ref → UnitCommitted u h.run n h.ref)
            ∧ (crc32c (bytes.map Prod.snd) ≠ h.crc → RegionsTorn s u h ∧ (Faultable s h.run → FaultedAt u h.run 0x0292 h.ref))))
        ∧ Gives (.drainTimeout w) s (fun u => u.comb = s.comb ∧ (∀ x ∈ (getWorker u w).held, x.copyOut = false) ∧ RegionsTorn s u h
            ∧ (Faultable s h.run → FaultedAt u h.run 0x0292 h.ref)))

/-- R26, R362 to R364, R366 to R368, R372, R452. -/
def Obligations.MoveUnits : Prop :=
  ∀ (s : State) (g : Fin 32), Sound s → standing s = false →
    let fg := getForager s g
    let f := g.val / 4
    let paused : Prop := ∃ rn, (getFrame s f).run.bind (getRun s) = some rn ∧ rn.paused = true
    let waiting := fg.moves.filter (fun m => m.stage == .waiting)
    (∀ up, fg.faulted = true ∨ (getFrame s f).recovering = true ∨ paused → exec (.foragerUnitTake g up) s = .next s)
    ∧ (∀ r rn i x, fg.faulted = false → (getFrame s f).recovering = false → ¬ paused → waiting = [] →
        (getFrame s f).run = some r → getRun s r = some rn → rn.recovering = false → rn.fault = none → fg.moves.length < 32 →
        ((getFrame s f).moveReplay ++ (getFrame s f).moves).find? (mayTake s r g f) = some x → findIssued rn x.instr = some i →
        plainMove i.op = true → s.poison = [] → ∀ up,
        Gives (.foragerUnitTake g up) s (MoveTried (takenBy s g f r x) g (freshMove r x) rn i up))
    ∧ (∀ m rest rn i, fg.faulted = false → (getFrame s f).recovering = false → ¬ paused → waiting = m :: rest →
        getRun s m.run = some rn → findIssued rn m.ref.instr = some i → plainMove i.op = true → s.poison = [] → ∀ up,
        goesOn s m rn i up ∨ (rest = [] ∧ NothingToTake s g) →
        Gives (.foragerUnitTake g up) s (MoveTried s g m rn i up))
    ∧ (∀ (k : Fin 4),
        (stackMove s k g .writing = none → exec (.stackWriteAck k g) s = .next s)
        ∧ (stackMove s k g .reading = none → ∀ res, exec (.stackReadReturn k g res) s = .next s)
        ∧ (∀ m rn i, stackMove s k g .writing = some (m, rn, i) → Gives (.stackWriteAck k g) s (fun u =>
            getMemPort u k = { getMemPort s k with outstanding := (getMemPort s k).outstanding - m.acks } ∧ u.comb = s.comb ∧ u.stackMem = s.stackMem
              ∧ MoveGone u g m ∧ ∀ n, Owes s m.run rn i n m.ref → UnitCommitted u m.run n m.ref))
        ∧ (∀ m rn i, stackMove s k g .reading = some (m, rn, i) → s.poison = [] →
            (∀ res, res = .good ∨ res = .corrected → Gives (.stackReadReturn k g res) s (fun u =>
              u.comb = memSetMany combDefault (moveWrites s rn i m.ref.unit) s.comb ∧ u.stackMem = s.stackMem
                ∧ (∀ a, (∀ b ∈ moveWrites s rn i m.ref.unit, b.1 ≠ a) → readComb u a = readComb s a)
                ∧ (getMemPort u k).outstanding = (getMemPort s k).outstanding - m.acks
                ∧ (getMemPort u k).ceCount = (if res = .corrected then satAdd (getMemPort s k).ceCount 1 else (getMemPort s k).ceCount)
                ∧ MoveGone u g m ∧ (QuietLinks s → ∀ n, Owes s m.run rn i n m.ref → UnitCommitted u m.run n m.ref)))
            ∧ (∀ a, Gives (.stackReadReturn k g (.uncorrectable a)) s (fun u => u.comb = s.comb ∧ (getMemPort u k).ueCount = satAdd (getMemPort s k).ueCount 1
                ∧ (getMemPort u k).ueValid = true ∧ ((getMemPort s k).ueValid = false → (getMemPort u k).ueAddr = a) ∧ FaultTold u 0x0401 6 k 1
                ∧ MoveGone u g m ∧ (Faultable s m.run → FaultedAt u m.run 0x0401 m.ref)))
            ∧ (∀ a, Gives (.stackReadReturn k g (.interfaceParity a)) s (fun u => u.comb = s.comb ∧ u.runs = s.runs ∧ MoveGone u g m
                ∧ pseudoChannel (a.toNat % 2 ^ 37) ∈ (getMemPort u k).marked ∧ FaultTold u 0x0402 6 k 1 ∧ MoveAgain u rn i m))
            ∧ Gives (.stackReadReturn k g .dataCheck) s (fun u => u.comb = s.comb ∧ u.runs = s.runs ∧ MoveGone u g m
                ∧ FaultTold u 0x0222 0 0xFF 1 ∧ MoveAgain u rn i m)))
    ∧ (fg.faulted = true → (findRecovery s 4 g).isSome = true → Gives (.foragerReset g) s (fun u =>
        getForager u g = { fg with faulted := false } ∧ findRecovery u 4 g = none ∧ (∃ code, FaultTold u code 4 g 3)
          ∧ u.comb = s.comb ∧ u.runs = s.runs))
    ∧ (fg.faulted = false ∨ findRecovery s 4 g = none → exec (.foragerReset g) s = .next s)

/-- R96, R97, R369, R403, R408. -/
def Obligations.WaitTimeouts : Prop :=
  ∀ (s : State), Whole s → standing s = false →
    (∀ (side : Bool) (row : Waiter → Instr) (code : BitVec 16),
      (side = false ∧ row = .starveTimeout ∧ code = 0x0220) ∨ (side = true ∧ row = .blockTimeout ∧ code = 0x0221) →
      (∀ (w : Fin 68),
        ((∀ wt h rest, (getWorker s w).wait = some wt → (getWorker s w).held = h :: rest →
            wt.producer ≠ side ∨ waitTimed s h.run (some (workerFrame s w)) wt = false) → exec (row (.worker w)) s = .next s)
        ∧ (∀ wt h rest, (getWorker s w).wait = some wt → (getWorker s w).held = h :: rest → wt.producer = side →
            waitTimed s h.run (some (workerFrame s w)) wt = true → Gives (row (.worker w)) s (fun u =>
              (getWorker u w).held = [] ∧ (getWorker u w).wait = none ∧ (∀ v, v ≠ w.val → getWorker u v = getWorker s v)
              ∧ u = { s with workers := u.workers, runs := u.runs, keeper := u.keeper, telem := u.telem, time := u.time, mailboxes := u.mailboxes }
              ∧ (∀ r, (getRun u r).map Run.rings = (getRun s r).map Run.rings)
              ∧ (Faultable s h.run → FaultedAt u h.run code h.ref))))
      ∧ (∀ (g : Fin 32),
        let late (m : Move) : Prop := ∃ wt, m.wait = some wt ∧ wt.producer = side ∧ waitTimed s m.run none wt = true
        ((∀ m ∈ (getForager s g).moves, ¬ late m) → exec (row (.forager g)) s = .next s)
        ∧ (∀ pre m post, (getForager s g).moves = pre ++ m :: post → (∀ x ∈ pre, ¬ late x) → late m → Gives (row (.forager g)) s (fun u =>
              m ∉ (getForager u g).moves ∧ (∀ x ∈ (getForager s g).moves, x ≠ m → x ∈ (getForager u g).moves)
              ∧ u = { s with foragers := u.foragers, runs := u.runs, keeper := u.keeper, telem := u.telem, time := u.time, mailboxes := u.mailboxes }
              ∧ (∀ r, (getRun u r).map Run.rings = (getRun s r).map Run.rings)
              ∧ (Faultable s m.run → FaultedAt u m.run code m.ref)))))
    ∧ (∀ (g : Fin 32),
        let ended (u : State) (m : Move) (code : BitVec 16) : Prop := (∀ y ∈ (getForager u g).moves, y.run = m.run → y.ref ≠ m.ref)
          ∧ u.comb = s.comb ∧ u.partners = s.partners ∧ u.links = s.links
          ∧ (Faultable s m.run → (getRun u m.run).bind Run.fault = some { code := code, instr := m.ref.instr, unit := m.ref.unit })
        (creditWaiter s g 0x73 = none → exec (.fsendCreditTimeout g) s = .next s)
        ∧ (creditWaiter s g 0x80 = none → exec (.csendCreditTimeout g) s = .next s)
        ∧ (∀ m rn i, creditWaiter s g 0x73 = some (m, rn, i) →
            let port := getPartner s (i.op.imm0.toNat % 8)
            let ready : Prop := ∃ pr, port.rings.find? (fun x => x.id == bits i.op.imm0.toNat 15 8) = some pr ∧ pr.nextSeq ∈ pr.credits
            (ready ∨ m.sent ≠ 0 ∨ (findRecovery s 7 (i.op.imm0.toNat % 8)).isSome = true → exec (.fsendCreditTimeout g) s = .next s)
            ∧ (¬ ready → m.sent = 0 → findRecovery s 7 (i.op.imm0.toNat % 8) = none → Gives (.fsendCreditTimeout g) s (fun u => ended u m 0x0414)))
        ∧ (∀ m rn i, creditWaiter s g 0x80 = some (m, rn, i) →
            let ready : Prop := ∃ pr, peerRing (getLink s (linkOf i.op)) (peerRingId i.op) = some pr ∧ pr.nextSeq ∈ pr.credits
            (ready ∨ linkUp (getLink s (linkOf i.op)) = false → exec (.csendCreditTimeout g) s = .next s)
            ∧ (¬ ready → linkUp (getLink s (linkOf i.op)) = true → Gives (.csendCreditTimeout g) s (fun u => ended u m 0x0314))))

/-- R18, R196, R245, R325, R464, R465, R493. -/
def Obligations.WorkerService : Prop :=
  ∀ (s : State), Whole s → standing s = false →
    (∀ w : Fin 68, let wk := getWorker s w
      (wk.bist.isSome = true ∧ wk.rsState ≠ .testing ∧ wk.rsState ≠ .scrubbing ∧ holdsRowState s w = false →
          exec (.bistStart w) s = .next (setWorker s w (fun x => { x with rsState := .testing })))
      ∧ (wk.bist = none ∨ wk.rsState = .testing ∨ wk.rsState = .scrubbing ∨ holdsRowState s w = true → exec (.bistStart w) s = .next s)
      ∧ (∀ pass, wk.rsState ≠ .testing → exec (.rowStateTestDone w pass) s = .next s)
      ∧ (wk.rsState = .testing → wk.bist = none →
          exec (.rowStateTestDone w true) s = .next (setWorker s w (fun x => { x with rsState := .passed, bist := none })))
      ∧ (∀ p, wk.rsState = .testing → wk.bist = some p → p.mailbox < 16 → Gives (.rowStateTestDone w true) s (fun u =>
          Answered s u p 0 [2] ∧ u = { s with workers := u.workers, mailboxes := u.mailboxes } ∧ (getWorker u w).rsState = .passed ∧ (getWorker u w).bist = none))
      ∧ (wk.rsState = .testing → Gives (.rowStateTestDone w false) s (fun u => (getWorker u w).rsState = .failed ∧ (getWorker u w).bist = none
          ∧ FaultTold u 0x0253 3 w 1 ∧ u.comb = s.comb ∧ u.runs = s.runs
          ∧ (∀ p, wk.bist = some p → p.mailbox < 16 → RepliedAmong s u p 0 [3])
          ∧ (∀ n, wk.serves = some n → w.val < 64 → spareFree s (spareOf n) = true → Asked u (spareOf n) n false true
              ∧ (getWorker u (64 + spareOf n)).admission = (if (getWorker s (64 + spareOf n)).admission = .waiting then .waiting else .scrubbing))))
      ∧ (wk.rsState = .scrubbing → Gives (.rowStateScrubDone w) s (fun u => getWorker u w = { wk with rsState := .passed }
          ∧ findRecovery u 3 w = none ∧ u.comb = s.comb ∧ u.runs = s.runs))
      ∧ (wk.rsState ≠ .scrubbing → exec (.rowStateScrubDone w) s = .next s)
      ∧ (nextAdmission wk.admission = none → ∀ pass, exec (.readmissionStepDone w pass) s = .next s)
      ∧ (∀ a, nextAdmission wk.admission = some a → (wk.admission = .reloading → reloadable s w = true) →
          Gives (.readmissionStepDone w true) s (fun u => (getWorker u w).admission = a
          ∧ (getWorker u w).epoch = wk.epoch ∧ (∀ v, v ≠ w.val → getWorker u v = getWorker s v) ∧ u = { s with workers := u.workers }
          ∧ (wk.admission = .scrubbing → (getWorker u w).cells = [] ∧ (getWorker u w).rowState = [] ∧ (getWorker u w).rsState = .passed)
          ∧ (∀ rn, wk.admission = .reloading → (reloadRun s w).bind (getRun s) = some rn → RootsReloaded s u rn w)))
      ∧ (∀ pass, (nextAdmission wk.admission).isSome = true → pass = false ∨ (wk.admission = .reloading ∧ reloadable s w = false) →
          Gives (.readmissionStepDone w pass) s (fun u => u.comb = s.comb ∧ u.runs = s.runs
          ∧ (wk.failures = 0 → (getWorker u w).admission = .scrubbing ∧ (getWorker u w).rsState = .testing ∧ (getWorker u w).failures = 1
              ∧ FaultTold u (if wk.admission = .scrubbing then 0x0253 else 0x0243) 1 w (if (findRecovery s 1 w).isSome = true then 4 else 1))
          ∧ (∀ n, wk.serves = some n → w.val < 64 → spareFree s (spareOf n) = true → Asked u (spareOf n) n false true)
          ∧ (1 ≤ wk.failures → (getWorker u w).admission = .outOfService ∧ w.val ∈ u.keeper.oosWorker ∧ findRecovery u 1 w = none
              ∧ FaultTold u (if wk.admission = .scrubbing then 0x0253 else 0x0243) 1 w 5)))
      ∧ (let ready : Prop := wk.admission = .waiting ∧ wk.serves.isSome = true ∧ (getFrame s (workerFrame s w)).ungated = true
            ∧ workerFrame s w ∉ s.power.leadUngated
        (¬ ready → exec (.workerAdmit w) s = .next s)
        ∧ (ready → Gives (.workerAdmit w) s (fun u => (getWorker u w).admission = .admitted ∧ (getWorker u w).epoch = wk.epoch + 1
            ∧ (getWorker u w).failures = 0 ∧ findRecovery u 1 w = none ∧ (getWorker u w).held = wk.held
            ∧ (wk.run.isSome = true → (getWorker u w).numFlush = 0 ∧ (getWorker u w).numSat = 0 ∧ (getWorker u w).cyc = List.replicate 5 0)
            ∧ (wk.run = none → (getWorker u w).numFlush = wk.numFlush ∧ (getWorker u w).cyc = wk.cyc)))))
    ∧ (∀ k : Fin 4, let sp := getWorker s (64 + k)
      (s.keeper.substitutions.find? (fun x => x.1 == k.val) = none → exec (.spareHandover k) s = .next s)
      ∧ (∀ n withdraw byItself, s.keeper.substitutions.find? (fun x => x.1 == k.val) = some (k.val, n, withdraw, byItself) →
          servingOf s n = none → exec (.spareHandover k) s = .next s)
      ∧ (∀ n withdraw byItself w, s.keeper.substitutions.find? (fun x => x.1 == k.val) = some (k.val, n, withdraw, byItself) →
          servingOf s n = some w →
          let wk := getWorker s w
          let failed := standsFailed wk
          let ready : Prop := w ≠ 64 + k ∧ (failed = true ∨ (sp.admission = .waiting ∧ wk.held = [] ∧ wk.wait = none))
          (¬ ready → exec (.spareHandover k) s = .next s)
          ∧ (ready → Gives (.spareHandover k) s (fun u =>
              (getWorker u (64 + k)).serves = some n ∧ (getWorker u (64 + k)).run = wk.run ∧ (getWorker u (64 + k)).cells = wk.cells
              ∧ (getWorker u (64 + k)).held = wk.held ∧ (getWorker u w).serves = none ∧ (getWorker u w).run = none ∧ (getWorker u w).held = []
              ∧ (getWorker u (64 + k)).admission = (if failed = false then .waiting else if wk.held = [] then .scrubbing else .notAdmitted)
              ∧ (∀ rn, failed = false → wk.run.bind (getRun s) = some rn → RootsReloaded s u rn (64 + k))
              ∧ (getWorker u w).cells = [] ∧ (getWorker u w).rowState = []
              ∧ (getWorker u w).admission
                  = (if withdraw = true ∨ wk.admission = .outOfService then .outOfService else if byItself then .scrubbing else .notAdmitted)
              ∧ (∀ x ∈ u.keeper.substitutions, x.1 ≠ k.val) ∧ u = { s with workers := u.workers, keeper := u.keeper }
              ∧ (∀ v, v ≠ w → v ≠ 64 + k → getWorker u v = getWorker s v))))
      ∧ (sp.serves = none → exec (.identityReturn k) s = .next s)
      ∧ (∀ n, sp.serves = some n → n < 64 →
          let wk := getWorker s n
          let ready : Prop := wk.serves = none ∧ wk.admission = .waiting ∧ sp.held = [] ∧ sp.wait = none
            ∧ (n ∉ s.keeper.serviced ∨ k.val ∈ s.keeper.releases)
          (¬ ready → exec (.identityReturn k) s = .next s)
          ∧ (ready → Gives (.identityReturn k) s (fun u =>
              getWorker u n = { wk with serves := some n, run := sp.run, cycTag := sp.cycTag, flushA := (getWorker u n).flushA
                                        flushB := (getWorker u n).flushB, root := (getWorker u n).root }
              ∧ (sp.run = none → (getWorker u n).flushA = sp.flushA ∧ (getWorker u n).flushB = sp.flushB ∧ (getWorker u n).root = wk.root)
              ∧ (∀ rn, sp.run.bind (getRun s) = some rn → RootsReloaded s u rn n)
              ∧ (getWorker u (64 + k)).serves = none ∧ (getWorker u (64 + k)).run = none ∧ (getWorker u (64 + k)).cells = []
              ∧ (getWorker u (64 + k)).admission = (if sp.admission = .outOfService then .outOfService else .notAdmitted)
              ∧ n ∉ u.keeper.serviced ∧ k.val ∉ u.keeper.releases ∧ u = { s with workers := u.workers, keeper := u.keeper }
              ∧ (∀ v, v ≠ n → v ≠ 64 + k → getWorker u v = getWorker s v)))))

/-- R244, R452, R461, R468, R476, R493. -/
def Obligations.RecoveryRequests : Prop :=
  ∀ (s : State), Whole s →
    (∀ (n : Fin 16) t p, let i := field p.body 2 1
      (∀ c cls d, (cls = 2 ∧ c = Instr.resetDomainRequest n ∧ d = field p.body 1 1) ∨ (cls = 3 ∧ c = Instr.resetWorkerRequest n ∧ d = 1) →
        HeardAction s n 0x0500 0 cls t p →
        (resettable t d i = false → Gives c s (fun u => OnlyAnswers t u p 0x0742 []))
        ∧ (resettable t d i = true → (∃ f, homeFrame t d i = some f ∧ (getFrame t f).recovering = true) →
            Gives c s (fun u => OnlyAnswers t u p 0 []))
        ∧ (resettable t d i = true → (∀ f, homeFrame t d i = some f → (getFrame t f).recovering = false) →
            Gives c s (fun u => RepliedAmong t u p 0 [] ∧ DomainReset t u d i))))
    ∧ (∀ (n : Fin 16) t p, let w := field p.body 1 1
      (∀ c act withdraw, (act = 1 ∧ c = Instr.serviceSubstitute n ∧ withdraw = false) ∨ (act = 5 ∧ c = Instr.serviceWithdraw n ∧ withdraw = true ∧ w < 64) →
        HeardAction s n 0x0550 0 act t p →
        (63 < w ∨ (getWorker t w).admission = .outOfService → Gives c s (fun u => OnlyAnswers t u p 0x0742 []))
        ∧ (w < 64 → (getWorker t w).admission ≠ .outOfService → spareFree t (spareOf w) = false ∨ (getWorker t w).serves ≠ some w →
            Gives c s (fun u => OnlyAnswers t u p 0x0740 []))
        ∧ (w < 64 → (getWorker t w).admission ≠ .outOfService → spareFree t (spareOf w) = true → (getWorker t w).serves = some w →
            Gives c s (fun u => Answered t u p 0 [] ∧ Asked u (spareOf w) w withdraw false
              ∧ (getWorker u (64 + spareOf w)).admission
                  = (if (getWorker t (64 + spareOf w)).admission = .waiting then .waiting else .scrubbing)
              ∧ (∀ v, v ≠ 64 + spareOf w → getWorker u v = getWorker t v) ∧ u.runs = t.runs)))
      ∧ (HeardAction s n 0x0550 0 5 t p → 64 ≤ w →
          (67 < w ∨ (getWorker t w).serves.isSome = true ∨ (getWorker t w).admission = .outOfService
              ∨ (∃ x ∈ t.keeper.substitutions, x.1 + 64 = w) → Gives (.serviceWithdraw n) s (fun u => OnlyAnswers t u p 0x0742 []))
          ∧ (w ≤ 67 → (getWorker t w).serves = none → (getWorker t w).admission ≠ .outOfService →
              (∀ x ∈ t.keeper.substitutions, x.1 + 64 ≠ w) → Gives (.serviceWithdraw n) s (fun u => Answered t u p 0 []
                ∧ (getWorker u w).admission = .outOfService ∧ w ∈ u.keeper.oosWorker)))
      ∧ (HeardAction s n 0x0550 0 2 t p →
          (3 < w ∨ (getWorker t (64 + w)).serves = none → Gives (.serviceRelease n) s (fun u => OnlyAnswers t u p 0x0742 []))
          ∧ (∀ v, w ≤ 3 → (getWorker t (64 + w)).serves = some v → Gives (.serviceRelease n) s (fun u => Answered t u p 0 []
              ∧ w ∈ u.keeper.releases ∧ (v < 68 → (getWorker t v).admission = .notAdmitted → (getWorker u v).admission = .scrubbing))))
      ∧ (HeardAction s n 0x0550 0 3 t p →
          (7 < w ∨ (getPartner t w).state = 0 ∨ (findRecovery t 7 w).isSome = true → Gives (.serviceRetrain n) s (fun u => OnlyAnswers t u p 0x0742 []))
          ∧ (w ≤ 7 → (getPartner t w).state ≠ 0 → findRecovery t 7 w = none → Gives (.serviceRetrain n) s (fun u => Answered t u p 0 []
              ∧ (getPartner u w).state = 1 ∧ (getPartner u w).rings = [] ∧ (findRecovery u 7 w).isSome = true ∧ u.comb = s.comb)))
      ∧ (HeardAction s n 0x0550 0 4 t p →
          (3 < w ∨ ((getMemPort t w).state ≠ 2 ∧ (getMemPort t w).state ≠ 4) → Gives (.serviceRepair n) s (fun u => OnlyAnswers t u p 0x0742 []))
          ∧ (w ≤ 3 → (getMemPort t w).state = 2 ∨ (getMemPort t w).state = 4 → (getMemPort t w).spareLeft = 0 →
              Gives (.serviceRepair n) s (fun u => OnlyAnswers t u p 0x0741 []))
          ∧ (w ≤ 3 → (getMemPort t w).state = 2 ∨ (getMemPort t w).state = 4 → (getMemPort t w).spareLeft ≠ 0 →
              Gives (.serviceRepair n) s (fun u => Answered t u p 0 [] ∧ (getMemPort u w).state = 3 ∧ (findRecovery u 6 w).isSome = true
                ∧ u.stackMem = s.stackMem))))
    ∧ (standing s = false →
      (∀ f : Fin 8,
        ((getFrame s f).outOfService = true → exec (.frameDomainReset f) s = .next s)
        ∧ ((getFrame s f).outOfService = false → (getFrame s f).recovering = false → Gives (.frameDomainReset f) s (fun u =>
            (∀ w ∈ frameWorkers s f, (getWorker u w).held = [] ∧ (getWorker u w).wait = none ∧ (getWorker u w).admission ≠ .admitted)
            ∧ (∀ g, 4 * f.val ≤ g → g < 4 * f.val + 4 → (getForager u g).moves = [] ∧ (getForager u g).faulted = false)
            ∧ (∀ w ∈ frameWorkers s f, (getWorker u w).cells = [] ∧ (getWorker u w).rowState = [] ∧ (getWorker u w).root = (Worker.reset 0).root)
            ∧ (getFrame u f).rebuild = (match (getFrame s f).run.bind (getRun s) with
                | some rn => (List.range rn.rings.length).filter (fun x => (nth rn.rings x).decl.base / 2 ^ 25 == f.val) | none => [])
            ∧ ((getFrame u f).rebuild = [] → (getFrame u f).recovering = false ∧ findRecovery u 5 f = none)
            ∧ ((getFrame u f).rebuild ≠ [] → (getFrame u f).recovering = true ∧ (findRecovery u 5 f).isSome = true ∧ FaultTold u 0 5 f 2)))
        ∧ ((getFrame s f).outOfService = false → (getFrame s f).recovering = true → Gives (.frameDomainReset f) s (fun u =>
            (getFrame u f).outOfService = true ∧ (getFrame u f).recovering = false ∧ (getFrame u f).ungated = false ∧ findRecovery u 5 f = none
            ∧ (getFrame u f).rebuild = [] ∧ (∀ w ∈ frameWorkers s f, (getWorker u w).admission = .notAdmitted) ∧ FaultTold u 0x0290 5 f 5
            ∧ (∀ r, (getFrame s f).run = some r → Faultable s r →
                (getRun u r).bind Run.fault = some { code := 0x0290, instr := 0xFFFFFFFF, unit := 0 }))))
      ∧ (∀ (r : Fin 8) (ring : Nat),
        ((∀ f ∈ runFrames s r, ring ∉ (getFrame s f).rebuild) → exec (.ringRebuild r ring) s = .next s)
        ∧ (∀ f rn, f ∈ runFrames s r → ring ∈ (getFrame s f).rebuild → (∀ e ∈ runFrames s r, e < f → ring ∉ (getFrame s e).rebuild) →
            getRun s r = some rn → ring < rn.rings.length → Gives (.ringRebuild r ring) s (fun u =>
              (∀ x ∈ (getFrame s f).rebuild, x ≠ ring → x ∈ (getFrame u f).rebuild) ∧ u.comb = s.comb
              ∧ ((getFrame s f).rebuild.Nodup → ring ∉ (getFrame u f).rebuild)
              ∧ ((nth rn.rings ring).decl.producerKind < 2 → getRing u r ring = rebuiltRing (nth rn.rings ring)
                  ∧ ∀ k < (nth rn.rings ring).decl.slotCount, ∃ q, q % (nth rn.rings ring).decl.slotCount = k
                      ∧ ringLow (nth rn.rings ring) ≤ q ∧ q < ringLow (nth rn.rings ring) + (nth rn.rings ring).decl.slotCount
                      ∧ tokenFree (getRing u r ring) q = true))))
      ∧ (s.keeper.standbyOk = true ∨ s.life.activating.isSome = true → exec .keeperPairResync s = .next s)
      ∧ (s.keeper.standbyOk = false → s.life.activating = none → Gives .keeperPairResync s (fun u => u.keeper.standbyOk = true
          ∧ findRecovery u 9 (1 - s.keeper.activePair) = none ∧ u.keeper.activePair = s.keeper.activePair ∧ u.runs = s.runs ∧ u.comb = s.comb))
      ∧ (∀ (r : Fin 8),
        ((∀ rn, getRun s r = some rn → orderOf s rn = none ∨ rn.savedGens = [] ∨ rn.replayReady = true) → exec (.replayTableInstall r) s = .next s)
        ∧ (∀ rn o, getRun s r = some rn → orderOf s rn = some o → rn.savedGens ≠ [] → rn.replayReady = false →
            let gens := gensAt o o.nextIssue
            let later := (o.fenceGens.filter (fun f => o.nextIssue ≤ f.1)).flatMap Prod.snd
            let held : Prop := ∀ x ∈ gens ++ later, x = 0 ∨ ∃ e ∈ s.keeper.archive, e.gen = x ∧ ∃ m ∈ e.copies, stackUp s m = true
            (held → Gives (.replayTableInstall r) s (fun u => (getRun u r).map Run.replayReady = some true
                ∧ (∀ n < 16, n < rn.root.length → nth gens n ≠ 0 → genInForce u r n = nth gens n)
                ∧ u = { s with runs := u.runs, workers := u.workers }))
            ∧ (¬ held → rn.fault = none → Gives (.replayTableInstall r) s (fun u => u.workers = s.workers
                ∧ (getRun u r).bind Run.fault = some { code := 0x0261, instr := o.nextIssue, unit := 0 })))))

/-- R337, R341, R356, R357, R362, R469, R475, R494. -/
def Obligations.Stacks : Prop :=
  ∀ (s : State), Whole s →
    (∀ m : Fin 4, Gives (.stackRefresh m) s (fun u => u = { s with mems := u.mems, draws := u.draws }
        ∧ getMemPort u m = { getMemPort s m with refreshes := (getMemPort s m).refreshes + 1, temp := (getMemPort u m).temp }
        ∧ ∀ k, k ≠ m.val → getMemPort u k = getMemPort s k))
    ∧ exec .stackSupplyLoss s = .next { s with
        stackMem := [], mems := s.mems.map (fun m => { m with imageStale := false }), journal := { s.journal with records := [] }
        keeper := { s.keeper with archive := [] }, telem := { s.telem with records := [] } }
    ∧ (standing s = false →
      (∀ m : Fin 4, let q := getMemPort s m
        let mine : Prop := m.val ∈ pairStacks s.journal.activePair ∧ s.journal.scanned = true
        let other : Prop := ∃ c ∈ pairStacks s.journal.activePair, c ≠ m.val ∧ stackUp s c = true
        let givenUp : Prop := s.journal.hold = true ∧ m.val ∈ pairStacks s.journal.activePair
          ∧ ∀ c ∈ pairStacks s.journal.activePair, c ≠ m.val → (getMemPort s c).state = 4
        let mirrored (u : State) : Prop :=
          (m.val % 2 = 0 → u.stackMem = s.stackMem ∧ ∀ e ∈ s.keeper.archive, (∃ c ∈ e.copies, c ≠ m.val ∧ stackUp s c = true) →
              ∃ y ∈ u.keeper.archive, y.gen = e.gen ∧ y.file = e.file ∧ m.val ∈ y.copies)
          ∧ (m.val % 2 = 1 → stackUp s (4 - m) = false ∨ q.imageStale = (getMemPort s (4 - m)).imageStale → u.stackMem = s.stackMem)
          ∧ (m.val % 2 = 1 → stackUp s (4 - m) = true → q.imageStale ≠ (getMemPort s (4 - m)).imageStale → MemoriesCanonical s →
              (getMemPort u 1).imageStale = false ∧ (getMemPort u 3).imageStale = false
              ∧ ∀ slot < 8, ∀ off < 2 ^ 31, readStack u (imageAddr u 1 slot off) = readStack u (imageAddr u 3 slot off))
        (∀ tr cap ht sp,
          ((q.state ≠ 0 ∧ q.state ≠ 1) ∨ portsOpen s = false → exec (.stackTrainingDone m tr cap ht sp) s = .next s)
          ∧ (q.state = 0 ∨ q.state = 1 → portsOpen s = true →
            (tr = true → 32 ≤ cap.toNat → cap.toNat ≤ 128 → cap.toNat % 16 = 0 → ht.toNat = 12 ∨ ht.toNat = 16 →
              Gives (.stackTrainingDone m tr cap ht sp) s (fun u =>
                getMemPort u m = { q with state := 2, capacity := cap, height := ht, stackGiB := cap, spareLeft := sp, repaired := 0, marked := []
                                          imageStale := (getMemPort u m).imageStale }
                ∧ findRecovery u 6 m = none ∧ u.comb = s.comb ∧ mirrored u ∧ u.runs = s.runs
                ∧ (mine → ∀ x ∈ s.journal.records, (∃ c ∈ x.copies, c ≠ m.val ∧ stackUp s c = true) →
                    ∃ y ∈ u.journal.records, y.lsn = x.lsn ∧ m.val ∈ y.copies)))
            ∧ (tr = false ∨ cap.toNat < 32 ∨ 128 < cap.toNat ∨ cap.toNat % 16 ≠ 0 ∨ (ht.toNat ≠ 12 ∧ ht.toNat ≠ 16) →
              Gives (.stackTrainingDone m tr cap ht sp) s (fun u => (getMemPort u m).state = 4 ∧ u.comb = s.comb ∧ u.stackMem = s.stackMem))))
        ∧ (stackUp s m = true → exec (.stackRfmRequest m) s = .next (setMemPort s m (fun p => { p with rfm := satAdd p.rfm 1 })))
        ∧ (stackUp s m = false → exec (.stackRfmRequest m) s = .next s ∧ exec (.stackPowerDown m) s = .next s)
        ∧ (stackUp s m = true → q.outstanding = 0 → exec (.stackPowerDown m) s = .next (setMemPort s m (fun p => { p with powerDown := true })))
        ∧ (0 < q.outstanding → exec (.stackPowerDown m) s = .next s)
        ∧ (q.state = 4 → exec (.stackFailure m) s = .next s)
        ∧ (q.state ≠ 4 → Gives (.stackFailure m) s (fun u =>
            (getMemPort u m).state = 4 ∧ (getMemPort u m).outstanding = 0 ∧ u.comb = s.comb ∧ u.stackMem = s.stackMem
            ∧ (∀ x ∈ movesOn s m, (∀ y ∈ (getForager u x.1).moves, y.run = x.2.1.run → y.ref ≠ x.2.1.ref)
                ∧ (¬ givenUp → Faultable s x.2.1.run → ∃ e, (getRun u x.2.1.run).bind Run.fault = some e ∧ e.code = 0x0403))
            ∧ (¬ mine → ¬ givenUp → u.journal = s.journal)
            ∧ (mine → ¬ givenUp → other → u.journal.copying = true)
            ∧ (mine → ¬ givenUp → ¬ other → u.journal.hold = true
                ∧ (s.journal.hold = false → s.keeper.state = .ready ∨ s.keeper.state = .recover → u.keeper.state = .hold ∧ u.keeper.code = 0x0517))
            ∧ (givenUp → u.journal.activePair = 1 - s.journal.activePair ∧ u.journal.copying = false
                ∧ (s.journal.sinceCheckpoint + s.keeper.orders.length < 4096 → ∀ n o, findOrder s n = some o → o.state = .accepted → o.acceptLost = true →
                    ∃ o', findOrder u n = some o' ∧ o'.state = .abandoned ∧ o'.code = 0x0294))))
        ∧ (q.state ≠ 3 → exec (.laneRepairComplete m) s = .next s ∧ exec (.laneRepairTimeout m) s = .next s)
        ∧ (q.state = 3 → let n := min q.marked.length q.spareLeft.toNat
            Gives (.laneRepairComplete m) s (fun u => (getMemPort u m).state = 2 ∧ (getMemPort u m).spareLeft.toNat = q.spareLeft.toNat - n
              ∧ (getMemPort u m).marked = q.marked.drop n ∧ (getMemPort u m).repaired = satAdd q.repaired n
              ∧ findRecovery u 6 m = none ∧ mirrored u))
        ∧ (q.state = 3 → (¬ mine → exec (.laneRepairTimeout m) s = .next s)
            ∧ (mine → other → exec (.laneRepairTimeout m) s = .next { s with journal := { s.journal with copying := true } })
            ∧ (mine → ¬ other → s.journal.hold = true → exec (.laneRepairTimeout m) s = .next s)
            ∧ (mine → ¬ other → s.journal.hold = false → Gives (.laneRepairTimeout m) s (fun u => u.journal = { s.journal with hold := true, copying := false }
                ∧ (s.keeper.state = .ready ∨ s.keeper.state = .recover → u.keeper.state = .hold ∧ u.keeper.code = 0x0517)
                ∧ u = { s with journal := u.journal, keeper := u.keeper }))))
      ∧ (let old := pairStacks s.journal.activePair
        let new := pairStacks (1 - s.journal.activePair)
        let whole : Prop := s.journal.copying = true ∧ (∃ c ∈ old, stackUp s c = true) ∧ (∀ c ∈ new, stackUp s c = true)
        (¬ whole → exec .journalCopyComplete s = .next s)
        ∧ (whole → Gives .journalCopyComplete s (fun u => u.journal.activePair = 1 - s.journal.activePair ∧ u.journal.copying = false
            ∧ u.journal.hold = false ∧ u.journal.records.map JRecord.lsn = s.journal.records.map JRecord.lsn
            ∧ (∀ x ∈ u.journal.records, ∀ c ∈ new, c ∈ x.copies)
            ∧ (s.journal.hold = true → s.keeper.state = .hold → u.keeper.state = (if s.time.joined then .ready else .recover) ∧ u.keeper.code = 0)
            ∧ u.comb = s.comb ∧ u.stackMem = s.stackMem ∧ u.runs = s.runs))))

/-- R94, R390, R391, R395, R399 to R401, R405. -/
def Obligations.LinkLanding : Prop :=
  ∀ (s : State) (n : Fin 24) (k : Bytes) (fec : FecReport) (pay : Bytes), Sound s →
    (FrameTaken s n 1 k fec pay →
      ((∀ r rn g rg a, (getLink s n).run = some r → getRun s r = some rn → (landingRings rn.image n)[field k 16 1]? = some g →
            nth rn.rings g = rg → rg.opened = true → field k 20 5 ∈ rg.credits → rg.armed.find? (fun a => a.seq == field k 20 5) = some a →
            findIssued rn a.instr = none) → Gives (.waggleData n k fec) s (fun u => ∃ t, AfterFrame s t n k
          ∧ u = setLink t n (fun l => { l with drop := satAdd l.drop 1 })))
      ∧ (∀ r rn g rg q a i off next crc slot, s.poison = [] → (getLink s n).run = some r → getRun s r = some rn →
          (landingRings rn.image n)[field k 16 1]? = some g → g < rn.rings.length → nth rn.rings g = rg → rg.opened = true → q = field k 20 5 →
          q ∈ rg.credits → rg.armed.find? (fun a => a.seq == q) = some a → findIssued rn a.instr = some i →
          off = 64 * field k 26 2 → slot = rg.decl.base + q % rg.decl.slotCount * rg.decl.slotSize →
          ((∃ x, rg.partials.find? (fun x => x.seq == q) = some x ∧ next = x.next ∧ crc = crcMore x.crc pay)
            ∨ (rg.partials.find? (fun x => x.seq == q) = none ∧ next = 0 ∧ crc = crcMore 0 pay)) →
          let last := bit (field k 17 1) 0
          let size := chunkBytes i a.chunk
          let goesOn : Prop := field k 18 2 = a.plan ∧ off = next ∧ off + pay.length ≤ size ∧ (last = false → pay.length % 64 = 0)
          let mid := writeComb s (bytesAt (slot + off) pay)
          (¬ goesOn → Gives (.waggleData n k fec) s (fun u => u.comb = s.comb ∧ u.stackMem = s.stackMem
              ∧ (getRing u r g).tokens = rg.tokens ∧ (getLink u n).session = none ∧ (getLink u n).err = (getLink s n).err ||| 2
              ∧ (UnderLimit s n → (getLink u n).state = (if linksOpen s then 1 else 0)
                  ∧ (Faultable s r → FaultedAt u r 0x0310 { instr := 0xFFFFFFFF, unit := 0 }))
              ∧ (¬ UnderLimit s n → (getLink u n).state = 5 ∧ (Faultable s r → FaultedAt u r 0x0312 { instr := 0xFFFFFFFF, unit := 0 }))))
          ∧ (goesOn → last = false → Gives (.waggleData n k fec) s (fun u => u.comb = mid.comb
              ∧ (∀ b, b < slot + off ∨ slot + off + pay.length ≤ b → readComb u b = readComb s b)
              ∧ (∃ x ∈ (getRing u r g).partials, x.seq = q ∧ x.next = off + pay.length ∧ x.crc = crc)
              ∧ (getRing u r g).credits = rg.credits ∧ (getRing u r g).tokens = rg.tokens
              ∧ u = { s with comb := u.comb, poison := u.poison, links := u.links, runs := u.runs }))
          ∧ (goesOn → last = true → crc.toNat = field k 28 4 → q ∉ rg.passes → q % rg.decl.slotCount < rg.tokens.length →
              Gives (.waggleData n k fec) s (fun u => u.comb = memSetMany combDefault (landChunk mid rn i a.chunk slot).1 mid.comb
              ∧ (nth (getRing u r g).tokens (q % rg.decl.slotCount)).capped = true
              ∧ (nth (getRing u r g).tokens (q % rg.decl.slotCount)).lap = lapOf rg.decl.slotCount q
              ∧ q ∉ (getRing u r g).credits ∧ (∀ x ∈ (getRing u r g).armed, x.seq ≠ q)
              ∧ (getLink u n).nonfinite = satAdd (getLink s n).nonfinite (landChunk mid rn i a.chunk slot).2.1
              ∧ (getLink u n).flushed = satAdd (getLink s n).flushed (landChunk mid rn i a.chunk slot).2.2
              ∧ (∀ o, Owes s r rn i o { instr := a.instr, unit := a.chunk } → UnitCommitted u r o { instr := a.instr, unit := a.chunk })))
          ∧ (goesOn → last = true → crc.toNat ≠ field k 28 4 → Gives (.waggleData n k fec) s (fun u => u.comb = mid.comb
              ∧ (getLink u n).session = none ∧ (getLink u n).err = (getLink s n).err ||| 0x40 ∧ (getRing u r g).tokens = rg.tokens
              ∧ FaultTold u 0x0311 8 n 2))))
    ∧ (FrameTaken s n 6 k fec pay → field k 18 2 ∉ expectedPlans s n → Gives (.check n k fec) s (fun u => ∃ t, AfterFrame s t n k
        ∧ u = setLink t n (fun l => { l with drop := satAdd l.drop 1 })))
    ∧ (FrameTaken s n 6 k fec pay → field k 18 2 ∈ expectedPlans s n → Gives (.check n k fec) s (fun u =>
        let old := assocD (getLink s n).checksIn (field k 18 2) 0
        let count := assocD (getLink u n).checksIn (field k 18 2) 0
        (∃ c, c % 65536 = field k 20 2 ∧ old ≤ c ∧ c < old + 65536 ∧ count = if c < old + 32768 then c else old) ∧ u.comb = s.comb ∧ u.stackMem = s.stackMem
          ∧ (∀ r rn o m, (getLink s n).run = some r → getRun s r = some rn → rn.checkWait = some m → orderOf s rn = some o →
              let op := nth (orderProgram s rn o) m
              (∀ j < 24, bit op.imm1.toNat j = true → assocD rn.checkCounts (planOf op) 0 ≤ assocD (getLink u j).checksIn (planOf op) 0) →
              (getRun u r).map Run.checkWait = some none)))
end

