-- ==== Sys2Proof/Laws/Memory.lean ====
section
/-!
SUPPORT. The memories: every operation keeps the canonical form, a read after a write gives the value
written, and a write leaves every other byte alone.
-/

namespace Sys2Proof.Machine

/-! ### Canonical form -/

theorem memWfFrom_mono (d : Byte) : ∀ (m : List Host.Cell) (lo hi : Nat), lo ≤ hi → memWfFrom d hi m = true → memWfFrom d lo m = true
  | [], _, _, _, _ => rfl
  | (k, v) :: t, lo, hi, h, w => by
    simp only [memWfFrom, Bool.and_eq_true, decide_eq_true_eq] at w ⊢
    exact ⟨⟨by omega, w.1.2⟩, w.2⟩

/-- A write at or above the bound keeps the form above the bound. -/
theorem memSet_wfFrom (d : Byte) (a : Nat) (v : Byte) :
    ∀ (m : List Host.Cell) (lo : Nat), lo ≤ a → memWfFrom d lo m = true → memWfFrom d lo (memSet d a v m) = true
  | [], lo, h, _ => by
    by_cases e : v = d <;> simp [memSet, memWfFrom, e, h]
  | (k, w) :: t, lo, h, wf => by
    simp only [memWfFrom, Bool.and_eq_true, decide_eq_true_eq] at wf
    obtain ⟨⟨hk, hw⟩, ht⟩ := wf
    unfold memSet
    split
    · next hka =>
      simp only [memWfFrom, Bool.and_eq_true, decide_eq_true_eq]
      exact ⟨⟨hk, hw⟩, memSet_wfFrom d a v t (k + 1) (by omega) ht⟩
    · split
      · next hka hka' =>
        split
        · exact memWfFrom_mono d t lo (k + 1) (by omega) ht
        · next hv =>
          simp only [memWfFrom, Bool.and_eq_true, decide_eq_true_eq]
          exact ⟨⟨h, hv⟩, by subst hka'; exact ht⟩
      · next hka hka' =>
        split
        · simp only [memWfFrom, Bool.and_eq_true, decide_eq_true_eq]; exact ⟨⟨hk, hw⟩, ht⟩
        · next hv =>
          simp only [memWfFrom, Bool.and_eq_true, decide_eq_true_eq]
          exact ⟨⟨h, hv⟩, ⟨by omega, hw⟩, ht⟩

theorem memSet_wf (d : Byte) (a : Nat) (v : Byte) (m : List Host.Cell) (h : memWf d m = true) : memWf d (memSet d a v m) = true :=
  memSet_wfFrom d a v m 0 (Nat.zero_le a) h

theorem memSetMany_wf (d : Byte) (ws : List (Nat × Byte)) (m : List Host.Cell) (h : memWf d m = true) :
    memWf d (memSetMany d ws m) = true := by
  unfold memSetMany
  induction ws generalizing m with
  | nil => exact h
  | cons w ws ih => exact ih _ (memSet_wf d w.1 w.2 m h)

/-- Keeping some of the entries keeps the form. -/
theorem memFilter_wfFrom (d : Byte) (p : Host.Cell → Bool) :
    ∀ (m : List Host.Cell) (lo : Nat), memWfFrom d lo m = true → memWfFrom d lo (m.filter p) = true
  | [], _, _ => rfl
  | (k, v) :: t, lo, h => by
    simp only [memWfFrom, Bool.and_eq_true, decide_eq_true_eq] at h
    have ht := memFilter_wfFrom d p t (k + 1) h.2
    rw [List.filter_cons]
    split
    · simp only [memWfFrom, Bool.and_eq_true, decide_eq_true_eq]; exact ⟨h.1, ht⟩
    · exact memWfFrom_mono d _ lo (k + 1) (by omega) ht

theorem memClear_wf (d : Byte) (m : List Host.Cell) (a n : Nat) (h : memWf d m = true) : memWf d (memClear m a n) = true :=
  memFilter_wfFrom d _ m 0 h

/-- Two memories one above the other. -/
theorem memAppend_wfFrom (d : Byte) (hi : Nat) (m' : List Host.Cell) (h' : memWfFrom d hi m' = true) :
    ∀ (m : List Host.Cell) (lo : Nat), lo ≤ hi → memWfFrom d lo m = true → (∀ c ∈ m, c.1 < hi) → memWfFrom d lo (m ++ m') = true
  | [], lo, hl, _, _ => memWfFrom_mono d m' lo hi hl h'
  | (k, v) :: t, lo, hl, h, hb => by
    simp only [memWfFrom, Bool.and_eq_true, decide_eq_true_eq] at h
    have hk : k < hi := hb (k, v) (by simp)
    have := memAppend_wfFrom d hi m' h' t (k + 1) (by omega) h.2 (fun c hc => hb c (by simp [hc]))
    simp only [List.cons_append, memWfFrom, Bool.and_eq_true, decide_eq_true_eq]
    exact ⟨h.1, this⟩

theorem bytesAt_cons (a : Nat) (b : Byte) (bs : Bytes) : bytesAt a (b :: bs) = (a, b) :: bytesAt (a + 1) bs := by
  simp only [bytesAt, List.mapIdx_cons, Nat.add_zero]
  congr 1
  apply List.mapIdx_eq_mapIdx_iff.mpr
  intro i _
  simp [Nat.add_assoc, Nat.add_comm 1 i]

theorem bytesAt_wf (d : Byte) : ∀ (bs : Bytes) (a lo : Nat), lo ≤ a →
    memWfFrom d lo ((bytesAt a bs).filter (fun c => c.2 != d)) = true
  | [], _, _, _ => rfl
  | b :: bs, a, lo, h => by
    rw [bytesAt_cons, List.filter_cons]
    split
    · next hb =>
      simp only [memWfFrom, Bool.and_eq_true, decide_eq_true_eq]
      exact ⟨⟨h, by simpa using hb⟩, bytesAt_wf d bs (a + 1) (a + 1) (Nat.le_refl _)⟩
    · exact bytesAt_wf d bs (a + 1) lo (by omega)

theorem bytesAt_lt : ∀ (bs : Bytes) (a : Nat), ∀ c ∈ bytesAt a bs, a ≤ c.1 ∧ c.1 < a + bs.length
  | [], _, c, h => by simp [bytesAt] at h
  | b :: bs, a, c, h => by
    rw [bytesAt_cons] at h
    rcases List.mem_cons.mp h with rfl | h
    · exact ⟨Nat.le_refl _, by simp⟩
    · have := bytesAt_lt bs (a + 1) c h
      simp only [List.length_cons]; omega

theorem memAbove_wfFrom (d : Byte) (hi : Nat) :
    ∀ (m : List Host.Cell) (lo : Nat), memWfFrom d lo m = true → memWfFrom d hi (m.filter (fun c => hi ≤ c.1)) = true
  | [], _, _ => rfl
  | (k, v) :: t, lo, h => by
    simp only [memWfFrom, Bool.and_eq_true, decide_eq_true_eq] at h
    rw [List.filter_cons]
    split
    · next hk =>
      simp only [memWfFrom, Bool.and_eq_true, decide_eq_true_eq]
      exact ⟨⟨by simpa using hk, h.1.2⟩, memFilter_wfFrom d _ t (k + 1) h.2⟩
    · exact memAbove_wfFrom d hi t (k + 1) h.2

theorem memLay_wf (d : Byte) (a : Nat) (bs : Bytes) (m : List Host.Cell) (h : memWf d m = true) : memWf d (memLay d a bs m) = true := by
  unfold memWf memLay at *
  apply memAppend_wfFrom d (a + bs.length) _ (memAbove_wfFrom d _ m 0 h) _ 0 (Nat.zero_le _)
  · apply memAppend_wfFrom d a _ (bytesAt_wf d bs a a (Nat.le_refl _)) _ 0 (Nat.zero_le _) (memFilter_wfFrom d _ m 0 h)
    intro c hc
    simpa using (List.mem_filter.mp hc).2
  · intro c hc
    rcases List.mem_append.mp hc with hc | hc
    · have := (List.mem_filter.mp hc).2
      have : c.1 < a := by simpa using this
      omega
    · exact (bytesAt_lt bs a c (List.mem_filter.mp hc).1).2

/-! ### Reads after writes -/

theorem memGet_below (d : Byte) (a : Nat) : ∀ (m : List Host.Cell) (lo : Nat), memWfFrom d lo m = true → a < lo → memGet d m a = d
  | [], _, _, _ => rfl
  | (k, v) :: t, lo, h, hl => by
    simp only [memWfFrom, Bool.and_eq_true, decide_eq_true_eq] at h
    have h1 : ¬ k = a := by omega
    have h2 : a < k := by omega
    simp [memGet, h1, h2]

theorem memGet_memSet_from (d : Byte) (a b : Nat) (v : Byte) : ∀ (m : List Host.Cell) (lo : Nat), memWfFrom d lo m = true →
    memGet d (memSet d a v m) b = if a = b then v else memGet d m b
  | [], lo, _ => by
    by_cases e : v = d <;> by_cases h : a = b <;> simp [memSet, memGet, e, h]
  | (k, w) :: t, lo, wf => by
    simp only [memWfFrom, Bool.and_eq_true, decide_eq_true_eq] at wf
    obtain ⟨⟨hk, hw⟩, ht⟩ := wf
    have below : ∀ c, c ≤ k → memGet d t c = d := fun c hc => memGet_below d c t (k + 1) ht (by omega)
    unfold memSet
    split
    · next hka =>
      have ih := memGet_memSet_from d a b v t (k + 1) ht
      simp only [memGet, ih]
      by_cases h1 : k = b
      · have : ¬ a = b := by omega
        simp [h1, this]
      · by_cases h2 : b < k
        · have : ¬ a = b := by omega
          simp [h1, h2, this]
        · simp [h1, h2]
    · split
      · next h1 h2 =>
        subst h2
        split
        · next hv =>
          subst hv
          by_cases e : k = b
          · subst e; simp [below k (Nat.le_refl _)]
          · simp only [memGet, e, beq_iff_eq, if_false]
            by_cases e2 : b < k
            · simp [e2, below b (by omega)]
            · simp [e2]
        · by_cases e : k = b <;> simp [memGet, e]
      · next h1 h2 =>
        split
        · next hv =>
          subst hv
          by_cases e : a = b
          · subst e
            have : ¬ k = a := by omega
            have h3 : a < k := by omega
            simp [memGet, this, h3]
          · simp [e]
        · by_cases e : a = b
          · simp [memGet, e]
          · by_cases e2 : b < a
            · have h3 : ¬ k = b := by omega
              have h4 : b < k := by omega
              simp [memGet, e, e2, h3, h4]
            · simp [memGet, e, e2]

/-- A byte reads as written, and every other byte as before. -/
theorem memGet_memSet (d : Byte) (a b : Nat) (v : Byte) (m : List Host.Cell) (h : memWf d m = true) :
    memGet d (memSet d a v m) b = if a = b then v else memGet d m b := memGet_memSet_from d a b v m 0 h

/-- A byte that no write names reads as before. -/
theorem memGet_memSetMany_other (d : Byte) (ws : List (Nat × Byte)) (m : List Host.Cell) (b : Nat) (h : memWf d m = true)
    (hb : ∀ w ∈ ws, w.1 ≠ b) : memGet d (memSetMany d ws m) b = memGet d m b := by
  induction ws generalizing m with
  | nil => rfl
  | cons w ws ih =>
    have h1 := ih (memSet d w.1 w.2 m) (memSet_wf d w.1 w.2 m h) (fun x hx => hb x (by simp [hx]))
    have h2 := memGet_memSet d w.1 b w.2 m h
    have h3 : ¬ w.1 = b := hb w (by simp)
    simp only [memSetMany, List.foldl_cons] at h1 ⊢
    rw [h1, h2, if_neg h3]

/-! ### The memories of the die -/

@[simp] theorem writeComb_comb (s : State) (ws : List (Nat × Byte)) : (writeComb s ws).comb = memSetMany combDefault ws s.comb := rfl
@[simp] theorem writeComb_stackMem (s : State) (ws : List (Nat × Byte)) : (writeComb s ws).stackMem = s.stackMem := rfl
@[simp] theorem writeComb_flash (s : State) (ws : List (Nat × Byte)) : (writeComb s ws).flash = s.flash := rfl
@[simp] theorem writeStack_comb (s : State) (ws : List (Nat × Byte)) : (writeStack s ws).comb = s.comb := rfl
@[simp] theorem writeStack_stackMem (s : State) (ws : List (Nat × Byte)) :
    (writeStack s ws).stackMem = memSetMany stackDefault ws s.stackMem := rfl
@[simp] theorem writeStack_flash (s : State) (ws : List (Nat × Byte)) : (writeStack s ws).flash = s.flash := rfl

/-- What a write of the comb can do: only the comb and the poison marks change. -/
theorem writeComb_frame (s : State) (ws : List (Nat × Byte)) :
    writeComb s ws = { s with comb := (writeComb s ws).comb, poison := (writeComb s ws).poison } := rfl

/-- A comb byte that no write names reads as before. -/
theorem readComb_writeComb_other (s : State) (ws : List (Nat × Byte)) (a : Nat) (h : memWf combDefault s.comb = true)
    (ha : ∀ w ∈ ws, w.1 ≠ a) : readComb (writeComb s ws) a = readComb s a := memGet_memSetMany_other _ ws s.comb a h ha

/-- A stack byte that no write names reads as before. -/
theorem readStack_writeStack_other (s : State) (ws : List (Nat × Byte)) (a : Nat) (h : memWf stackDefault s.stackMem = true)
    (ha : ∀ w ∈ ws, w.1 ≠ a) : readStack (writeStack s ws) a = readStack s a := memGet_memSetMany_other _ ws s.stackMem a h ha

end Sys2Proof.Machine
end

