-- ==== Sys2Proof/Laws/State.lean ====
section
/-!
SUPPORT. What each named update of the state changes and what it leaves alone: one lemma per field and
update, and what a part reads as after an update of a part.
-/

namespace Sys2Proof.Machine

/-! ### Lists of parts -/

@[simp] theorem updAt_length {α : Type} (l : List α) (i : Nat) (f : α → α) : (updAt l i f).length = l.length := by
  simp [updAt]

theorem nth_updAt {α : Type} [Inhabited α] (l : List α) (i j : Nat) (f : α → α) :
    nth (updAt l i f) j = if i = j ∧ i < l.length then f (nth l j) else nth l j := by
  unfold nth updAt
  rw [List.getElem?_modify]
  by_cases h : i = j
  · subst h
    by_cases hl : i < l.length
    · simp [hl]
    · simp [hl]
  · simp [h]

theorem nth_updAt_same {α : Type} [Inhabited α] (l : List α) (i : Nat) (f : α → α) (h : i < l.length) :
    nth (updAt l i f) i = f (nth l i) := by simp [nth_updAt, h]

theorem nth_updAt_ne {α : Type} [Inhabited α] (l : List α) (i j : Nat) (f : α → α) (h : i ≠ j) :
    nth (updAt l i f) j = nth l j := by simp [nth_updAt, h]

/-! ### setWorker -/

@[simp] theorem setWorker_wall (s : State) (i : Nat) (f : Worker → Worker) : (setWorker s i f).wall = s.wall := rfl
@[simp] theorem setWorker_pins (s : State) (i : Nat) (f : Worker → Worker) : (setWorker s i f).pins = s.pins := rfl
@[simp] theorem setWorker_life (s : State) (i : Nat) (f : Worker → Worker) : (setWorker s i f).life = s.life := rfl
@[simp] theorem setWorker_flash (s : State) (i : Nat) (f : Worker → Worker) : (setWorker s i f).flash = s.flash := rfl
@[simp] theorem setWorker_keeper (s : State) (i : Nat) (f : Worker → Worker) : (setWorker s i f).keeper = s.keeper := rfl
@[simp] theorem setWorker_mailboxes (s : State) (i : Nat) (f : Worker → Worker) : (setWorker s i f).mailboxes = s.mailboxes := rfl
@[simp] theorem setWorker_i3c (s : State) (i : Nat) (f : Worker → Worker) : (setWorker s i f).i3c = s.i3c := rfl
@[simp] theorem setWorker_mgmt (s : State) (i : Nat) (f : Worker → Worker) : (setWorker s i f).mgmt = s.mgmt := rfl
@[simp] theorem setWorker_journal (s : State) (i : Nat) (f : Worker → Worker) : (setWorker s i f).journal = s.journal := rfl
@[simp] theorem setWorker_runs (s : State) (i : Nat) (f : Worker → Worker) : (setWorker s i f).runs = s.runs := rfl
@[simp] theorem setWorker_frames (s : State) (i : Nat) (f : Worker → Worker) : (setWorker s i f).frames = s.frames := rfl
@[simp] theorem setWorker_workers (s : State) (i : Nat) (f : Worker → Worker) : (setWorker s i f).workers = updAt s.workers i f := rfl
@[simp] theorem setWorker_foragers (s : State) (i : Nat) (f : Worker → Worker) : (setWorker s i f).foragers = s.foragers := rfl
@[simp] theorem setWorker_comb (s : State) (i : Nat) (f : Worker → Worker) : (setWorker s i f).comb = s.comb := rfl
@[simp] theorem setWorker_poison (s : State) (i : Nat) (f : Worker → Worker) : (setWorker s i f).poison = s.poison := rfl
@[simp] theorem setWorker_partners (s : State) (i : Nat) (f : Worker → Worker) : (setWorker s i f).partners = s.partners := rfl
@[simp] theorem setWorker_mems (s : State) (i : Nat) (f : Worker → Worker) : (setWorker s i f).mems = s.mems := rfl
@[simp] theorem setWorker_stackMem (s : State) (i : Nat) (f : Worker → Worker) : (setWorker s i f).stackMem = s.stackMem := rfl
@[simp] theorem setWorker_links (s : State) (i : Nat) (f : Worker → Worker) : (setWorker s i f).links = s.links := rfl
@[simp] theorem setWorker_routes (s : State) (i : Nat) (f : Worker → Worker) : (setWorker s i f).routes = s.routes := rfl
@[simp] theorem setWorker_time (s : State) (i : Nat) (f : Worker → Worker) : (setWorker s i f).time = s.time := rfl
@[simp] theorem setWorker_power (s : State) (i : Nat) (f : Worker → Worker) : (setWorker s i f).power = s.power := rfl
@[simp] theorem setWorker_telem (s : State) (i : Nat) (f : Worker → Worker) : (setWorker s i f).telem = s.telem := rfl
@[simp] theorem setWorker_draws (s : State) (i : Nat) (f : Worker → Worker) : (setWorker s i f).draws = s.draws := rfl
@[simp] theorem setWorker_readBack (s : State) (i : Nat) (f : Worker → Worker) : (setWorker s i f).readBack = s.readBack := rfl
@[simp] theorem setWorker_pending (s : State) (i : Nat) (f : Worker → Worker) : (setWorker s i f).pending = s.pending := rfl
theorem getWorker_setWorker_same (s : State) (i : Nat) (f : Worker → Worker) (h : i < s.workers.length) :
    getWorker (setWorker s i f) i = f (getWorker s i) := nth_updAt_same s.workers i f h
theorem getWorker_setWorker_ne (s : State) (i j : Nat) (f : Worker → Worker) (h : i ≠ j) :
    getWorker (setWorker s i f) j = getWorker s j := nth_updAt_ne s.workers i j f h

/-! ### setFrame -/

@[simp] theorem setFrame_wall (s : State) (i : Nat) (f : Frame → Frame) : (setFrame s i f).wall = s.wall := rfl
@[simp] theorem setFrame_pins (s : State) (i : Nat) (f : Frame → Frame) : (setFrame s i f).pins = s.pins := rfl
@[simp] theorem setFrame_life (s : State) (i : Nat) (f : Frame → Frame) : (setFrame s i f).life = s.life := rfl
@[simp] theorem setFrame_flash (s : State) (i : Nat) (f : Frame → Frame) : (setFrame s i f).flash = s.flash := rfl
@[simp] theorem setFrame_keeper (s : State) (i : Nat) (f : Frame → Frame) : (setFrame s i f).keeper = s.keeper := rfl
@[simp] theorem setFrame_mailboxes (s : State) (i : Nat) (f : Frame → Frame) : (setFrame s i f).mailboxes = s.mailboxes := rfl
@[simp] theorem setFrame_i3c (s : State) (i : Nat) (f : Frame → Frame) : (setFrame s i f).i3c = s.i3c := rfl
@[simp] theorem setFrame_mgmt (s : State) (i : Nat) (f : Frame → Frame) : (setFrame s i f).mgmt = s.mgmt := rfl
@[simp] theorem setFrame_journal (s : State) (i : Nat) (f : Frame → Frame) : (setFrame s i f).journal = s.journal := rfl
@[simp] theorem setFrame_runs (s : State) (i : Nat) (f : Frame → Frame) : (setFrame s i f).runs = s.runs := rfl
@[simp] theorem setFrame_frames (s : State) (i : Nat) (f : Frame → Frame) : (setFrame s i f).frames = updAt s.frames i f := rfl
@[simp] theorem setFrame_workers (s : State) (i : Nat) (f : Frame → Frame) : (setFrame s i f).workers = s.workers := rfl
@[simp] theorem setFrame_foragers (s : State) (i : Nat) (f : Frame → Frame) : (setFrame s i f).foragers = s.foragers := rfl
@[simp] theorem setFrame_comb (s : State) (i : Nat) (f : Frame → Frame) : (setFrame s i f).comb = s.comb := rfl
@[simp] theorem setFrame_poison (s : State) (i : Nat) (f : Frame → Frame) : (setFrame s i f).poison = s.poison := rfl
@[simp] theorem setFrame_partners (s : State) (i : Nat) (f : Frame → Frame) : (setFrame s i f).partners = s.partners := rfl
@[simp] theorem setFrame_mems (s : State) (i : Nat) (f : Frame → Frame) : (setFrame s i f).mems = s.mems := rfl
@[simp] theorem setFrame_stackMem (s : State) (i : Nat) (f : Frame → Frame) : (setFrame s i f).stackMem = s.stackMem := rfl
@[simp] theorem setFrame_links (s : State) (i : Nat) (f : Frame → Frame) : (setFrame s i f).links = s.links := rfl
@[simp] theorem setFrame_routes (s : State) (i : Nat) (f : Frame → Frame) : (setFrame s i f).routes = s.routes := rfl
@[simp] theorem setFrame_time (s : State) (i : Nat) (f : Frame → Frame) : (setFrame s i f).time = s.time := rfl
@[simp] theorem setFrame_power (s : State) (i : Nat) (f : Frame → Frame) : (setFrame s i f).power = s.power := rfl
@[simp] theorem setFrame_telem (s : State) (i : Nat) (f : Frame → Frame) : (setFrame s i f).telem = s.telem := rfl
@[simp] theorem setFrame_draws (s : State) (i : Nat) (f : Frame → Frame) : (setFrame s i f).draws = s.draws := rfl
@[simp] theorem setFrame_readBack (s : State) (i : Nat) (f : Frame → Frame) : (setFrame s i f).readBack = s.readBack := rfl
@[simp] theorem setFrame_pending (s : State) (i : Nat) (f : Frame → Frame) : (setFrame s i f).pending = s.pending := rfl
theorem getFrame_setFrame_same (s : State) (i : Nat) (f : Frame → Frame) (h : i < s.frames.length) :
    getFrame (setFrame s i f) i = f (getFrame s i) := nth_updAt_same s.frames i f h
theorem getFrame_setFrame_ne (s : State) (i j : Nat) (f : Frame → Frame) (h : i ≠ j) :
    getFrame (setFrame s i f) j = getFrame s j := nth_updAt_ne s.frames i j f h

/-! ### setForager -/

@[simp] theorem setForager_wall (s : State) (i : Nat) (f : Forager → Forager) : (setForager s i f).wall = s.wall := rfl
@[simp] theorem setForager_pins (s : State) (i : Nat) (f : Forager → Forager) : (setForager s i f).pins = s.pins := rfl
@[simp] theorem setForager_life (s : State) (i : Nat) (f : Forager → Forager) : (setForager s i f).life = s.life := rfl
@[simp] theorem setForager_flash (s : State) (i : Nat) (f : Forager → Forager) : (setForager s i f).flash = s.flash := rfl
@[simp] theorem setForager_keeper (s : State) (i : Nat) (f : Forager → Forager) : (setForager s i f).keeper = s.keeper := rfl
@[simp] theorem setForager_mailboxes (s : State) (i : Nat) (f : Forager → Forager) : (setForager s i f).mailboxes = s.mailboxes := rfl
@[simp] theorem setForager_i3c (s : State) (i : Nat) (f : Forager → Forager) : (setForager s i f).i3c = s.i3c := rfl
@[simp] theorem setForager_mgmt (s : State) (i : Nat) (f : Forager → Forager) : (setForager s i f).mgmt = s.mgmt := rfl
@[simp] theorem setForager_journal (s : State) (i : Nat) (f : Forager → Forager) : (setForager s i f).journal = s.journal := rfl
@[simp] theorem setForager_runs (s : State) (i : Nat) (f : Forager → Forager) : (setForager s i f).runs = s.runs := rfl
@[simp] theorem setForager_frames (s : State) (i : Nat) (f : Forager → Forager) : (setForager s i f).frames = s.frames := rfl
@[simp] theorem setForager_workers (s : State) (i : Nat) (f : Forager → Forager) : (setForager s i f).workers = s.workers := rfl
@[simp] theorem setForager_foragers (s : State) (i : Nat) (f : Forager → Forager) : (setForager s i f).foragers = updAt s.foragers i f := rfl
@[simp] theorem setForager_comb (s : State) (i : Nat) (f : Forager → Forager) : (setForager s i f).comb = s.comb := rfl
@[simp] theorem setForager_poison (s : State) (i : Nat) (f : Forager → Forager) : (setForager s i f).poison = s.poison := rfl
@[simp] theorem setForager_partners (s : State) (i : Nat) (f : Forager → Forager) : (setForager s i f).partners = s.partners := rfl
@[simp] theorem setForager_mems (s : State) (i : Nat) (f : Forager → Forager) : (setForager s i f).mems = s.mems := rfl
@[simp] theorem setForager_stackMem (s : State) (i : Nat) (f : Forager → Forager) : (setForager s i f).stackMem = s.stackMem := rfl
@[simp] theorem setForager_links (s : State) (i : Nat) (f : Forager → Forager) : (setForager s i f).links = s.links := rfl
@[simp] theorem setForager_routes (s : State) (i : Nat) (f : Forager → Forager) : (setForager s i f).routes = s.routes := rfl
@[simp] theorem setForager_time (s : State) (i : Nat) (f : Forager → Forager) : (setForager s i f).time = s.time := rfl
@[simp] theorem setForager_power (s : State) (i : Nat) (f : Forager → Forager) : (setForager s i f).power = s.power := rfl
@[simp] theorem setForager_telem (s : State) (i : Nat) (f : Forager → Forager) : (setForager s i f).telem = s.telem := rfl
@[simp] theorem setForager_draws (s : State) (i : Nat) (f : Forager → Forager) : (setForager s i f).draws = s.draws := rfl
@[simp] theorem setForager_readBack (s : State) (i : Nat) (f : Forager → Forager) : (setForager s i f).readBack = s.readBack := rfl
@[simp] theorem setForager_pending (s : State) (i : Nat) (f : Forager → Forager) : (setForager s i f).pending = s.pending := rfl
theorem getForager_setForager_same (s : State) (i : Nat) (f : Forager → Forager) (h : i < s.foragers.length) :
    getForager (setForager s i f) i = f (getForager s i) := nth_updAt_same s.foragers i f h
theorem getForager_setForager_ne (s : State) (i j : Nat) (f : Forager → Forager) (h : i ≠ j) :
    getForager (setForager s i f) j = getForager s j := nth_updAt_ne s.foragers i j f h

/-! ### setPartner -/

@[simp] theorem setPartner_wall (s : State) (i : Nat) (f : PartnerPort → PartnerPort) : (setPartner s i f).wall = s.wall := rfl
@[simp] theorem setPartner_pins (s : State) (i : Nat) (f : PartnerPort → PartnerPort) : (setPartner s i f).pins = s.pins := rfl
@[simp] theorem setPartner_life (s : State) (i : Nat) (f : PartnerPort → PartnerPort) : (setPartner s i f).life = s.life := rfl
@[simp] theorem setPartner_flash (s : State) (i : Nat) (f : PartnerPort → PartnerPort) : (setPartner s i f).flash = s.flash := rfl
@[simp] theorem setPartner_keeper (s : State) (i : Nat) (f : PartnerPort → PartnerPort) : (setPartner s i f).keeper = s.keeper := rfl
@[simp] theorem setPartner_mailboxes (s : State) (i : Nat) (f : PartnerPort → PartnerPort) : (setPartner s i f).mailboxes = s.mailboxes := rfl
@[simp] theorem setPartner_i3c (s : State) (i : Nat) (f : PartnerPort → PartnerPort) : (setPartner s i f).i3c = s.i3c := rfl
@[simp] theorem setPartner_mgmt (s : State) (i : Nat) (f : PartnerPort → PartnerPort) : (setPartner s i f).mgmt = s.mgmt := rfl
@[simp] theorem setPartner_journal (s : State) (i : Nat) (f : PartnerPort → PartnerPort) : (setPartner s i f).journal = s.journal := rfl
@[simp] theorem setPartner_runs (s : State) (i : Nat) (f : PartnerPort → PartnerPort) : (setPartner s i f).runs = s.runs := rfl
@[simp] theorem setPartner_frames (s : State) (i : Nat) (f : PartnerPort → PartnerPort) : (setPartner s i f).frames = s.frames := rfl
@[simp] theorem setPartner_workers (s : State) (i : Nat) (f : PartnerPort → PartnerPort) : (setPartner s i f).workers = s.workers := rfl
@[simp] theorem setPartner_foragers (s : State) (i : Nat) (f : PartnerPort → PartnerPort) : (setPartner s i f).foragers = s.foragers := rfl
@[simp] theorem setPartner_comb (s : State) (i : Nat) (f : PartnerPort → PartnerPort) : (setPartner s i f).comb = s.comb := rfl
@[simp] theorem setPartner_poison (s : State) (i : Nat) (f : PartnerPort → PartnerPort) : (setPartner s i f).poison = s.poison := rfl
@[simp] theorem setPartner_partners (s : State) (i : Nat) (f : PartnerPort → PartnerPort) : (setPartner s i f).partners = updAt s.partners i f := rfl
@[simp] theorem setPartner_mems (s : State) (i : Nat) (f : PartnerPort → PartnerPort) : (setPartner s i f).mems = s.mems := rfl
@[simp] theorem setPartner_stackMem (s : State) (i : Nat) (f : PartnerPort → PartnerPort) : (setPartner s i f).stackMem = s.stackMem := rfl
@[simp] theorem setPartner_links (s : State) (i : Nat) (f : PartnerPort → PartnerPort) : (setPartner s i f).links = s.links := rfl
@[simp] theorem setPartner_routes (s : State) (i : Nat) (f : PartnerPort → PartnerPort) : (setPartner s i f).routes = s.routes := rfl
@[simp] theorem setPartner_time (s : State) (i : Nat) (f : PartnerPort → PartnerPort) : (setPartner s i f).time = s.time := rfl
@[simp] theorem setPartner_power (s : State) (i : Nat) (f : PartnerPort → PartnerPort) : (setPartner s i f).power = s.power := rfl
@[simp] theorem setPartner_telem (s : State) (i : Nat) (f : PartnerPort → PartnerPort) : (setPartner s i f).telem = s.telem := rfl
@[simp] theorem setPartner_draws (s : State) (i : Nat) (f : PartnerPort → PartnerPort) : (setPartner s i f).draws = s.draws := rfl
@[simp] theorem setPartner_readBack (s : State) (i : Nat) (f : PartnerPort → PartnerPort) : (setPartner s i f).readBack = s.readBack := rfl
@[simp] theorem setPartner_pending (s : State) (i : Nat) (f : PartnerPort → PartnerPort) : (setPartner s i f).pending = s.pending := rfl
theorem getPartner_setPartner_same (s : State) (i : Nat) (f : PartnerPort → PartnerPort) (h : i < s.partners.length) :
    getPartner (setPartner s i f) i = f (getPartner s i) := nth_updAt_same s.partners i f h
theorem getPartner_setPartner_ne (s : State) (i j : Nat) (f : PartnerPort → PartnerPort) (h : i ≠ j) :
    getPartner (setPartner s i f) j = getPartner s j := nth_updAt_ne s.partners i j f h

/-! ### setMemPort -/

@[simp] theorem setMemPort_wall (s : State) (i : Nat) (f : MemPort → MemPort) : (setMemPort s i f).wall = s.wall := rfl
@[simp] theorem setMemPort_pins (s : State) (i : Nat) (f : MemPort → MemPort) : (setMemPort s i f).pins = s.pins := rfl
@[simp] theorem setMemPort_life (s : State) (i : Nat) (f : MemPort → MemPort) : (setMemPort s i f).life = s.life := rfl
@[simp] theorem setMemPort_flash (s : State) (i : Nat) (f : MemPort → MemPort) : (setMemPort s i f).flash = s.flash := rfl
@[simp] theorem setMemPort_keeper (s : State) (i : Nat) (f : MemPort → MemPort) : (setMemPort s i f).keeper = s.keeper := rfl
@[simp] theorem setMemPort_mailboxes (s : State) (i : Nat) (f : MemPort → MemPort) : (setMemPort s i f).mailboxes = s.mailboxes := rfl
@[simp] theorem setMemPort_i3c (s : State) (i : Nat) (f : MemPort → MemPort) : (setMemPort s i f).i3c = s.i3c := rfl
@[simp] theorem setMemPort_mgmt (s : State) (i : Nat) (f : MemPort → MemPort) : (setMemPort s i f).mgmt = s.mgmt := rfl
@[simp] theorem setMemPort_journal (s : State) (i : Nat) (f : MemPort → MemPort) : (setMemPort s i f).journal = s.journal := rfl
@[simp] theorem setMemPort_runs (s : State) (i : Nat) (f : MemPort → MemPort) : (setMemPort s i f).runs = s.runs := rfl
@[simp] theorem setMemPort_frames (s : State) (i : Nat) (f : MemPort → MemPort) : (setMemPort s i f).frames = s.frames := rfl
@[simp] theorem setMemPort_workers (s : State) (i : Nat) (f : MemPort → MemPort) : (setMemPort s i f).workers = s.workers := rfl
@[simp] theorem setMemPort_foragers (s : State) (i : Nat) (f : MemPort → MemPort) : (setMemPort s i f).foragers = s.foragers := rfl
@[simp] theorem setMemPort_comb (s : State) (i : Nat) (f : MemPort → MemPort) : (setMemPort s i f).comb = s.comb := rfl
@[simp] theorem setMemPort_poison (s : State) (i : Nat) (f : MemPort → MemPort) : (setMemPort s i f).poison = s.poison := rfl
@[simp] theorem setMemPort_partners (s : State) (i : Nat) (f : MemPort → MemPort) : (setMemPort s i f).partners = s.partners := rfl
@[simp] theorem setMemPort_mems (s : State) (i : Nat) (f : MemPort → MemPort) : (setMemPort s i f).mems = updAt s.mems i f := rfl
@[simp] theorem setMemPort_stackMem (s : State) (i : Nat) (f : MemPort → MemPort) : (setMemPort s i f).stackMem = s.stackMem := rfl
@[simp] theorem setMemPort_links (s : State) (i : Nat) (f : MemPort → MemPort) : (setMemPort s i f).links = s.links := rfl
@[simp] theorem setMemPort_routes (s : State) (i : Nat) (f : MemPort → MemPort) : (setMemPort s i f).routes = s.routes := rfl
@[simp] theorem setMemPort_time (s : State) (i : Nat) (f : MemPort → MemPort) : (setMemPort s i f).time = s.time := rfl
@[simp] theorem setMemPort_power (s : State) (i : Nat) (f : MemPort → MemPort) : (setMemPort s i f).power = s.power := rfl
@[simp] theorem setMemPort_telem (s : State) (i : Nat) (f : MemPort → MemPort) : (setMemPort s i f).telem = s.telem := rfl
@[simp] theorem setMemPort_draws (s : State) (i : Nat) (f : MemPort → MemPort) : (setMemPort s i f).draws = s.draws := rfl
@[simp] theorem setMemPort_readBack (s : State) (i : Nat) (f : MemPort → MemPort) : (setMemPort s i f).readBack = s.readBack := rfl
@[simp] theorem setMemPort_pending (s : State) (i : Nat) (f : MemPort → MemPort) : (setMemPort s i f).pending = s.pending := rfl
theorem getMemPort_setMemPort_same (s : State) (i : Nat) (f : MemPort → MemPort) (h : i < s.mems.length) :
    getMemPort (setMemPort s i f) i = f (getMemPort s i) := nth_updAt_same s.mems i f h
theorem getMemPort_setMemPort_ne (s : State) (i j : Nat) (f : MemPort → MemPort) (h : i ≠ j) :
    getMemPort (setMemPort s i f) j = getMemPort s j := nth_updAt_ne s.mems i j f h

/-! ### setLink -/

@[simp] theorem setLink_wall (s : State) (i : Nat) (f : Link → Link) : (setLink s i f).wall = s.wall := rfl
@[simp] theorem setLink_pins (s : State) (i : Nat) (f : Link → Link) : (setLink s i f).pins = s.pins := rfl
@[simp] theorem setLink_life (s : State) (i : Nat) (f : Link → Link) : (setLink s i f).life = s.life := rfl
@[simp] theorem setLink_flash (s : State) (i : Nat) (f : Link → Link) : (setLink s i f).flash = s.flash := rfl
@[simp] theorem setLink_keeper (s : State) (i : Nat) (f : Link → Link) : (setLink s i f).keeper = s.keeper := rfl
@[simp] theorem setLink_mailboxes (s : State) (i : Nat) (f : Link → Link) : (setLink s i f).mailboxes = s.mailboxes := rfl
@[simp] theorem setLink_i3c (s : State) (i : Nat) (f : Link → Link) : (setLink s i f).i3c = s.i3c := rfl
@[simp] theorem setLink_mgmt (s : State) (i : Nat) (f : Link → Link) : (setLink s i f).mgmt = s.mgmt := rfl
@[simp] theorem setLink_journal (s : State) (i : Nat) (f : Link → Link) : (setLink s i f).journal = s.journal := rfl
@[simp] theorem setLink_runs (s : State) (i : Nat) (f : Link → Link) : (setLink s i f).runs = s.runs := rfl
@[simp] theorem setLink_frames (s : State) (i : Nat) (f : Link → Link) : (setLink s i f).frames = s.frames := rfl
@[simp] theorem setLink_workers (s : State) (i : Nat) (f : Link → Link) : (setLink s i f).workers = s.workers := rfl
@[simp] theorem setLink_foragers (s : State) (i : Nat) (f : Link → Link) : (setLink s i f).foragers = s.foragers := rfl
@[simp] theorem setLink_comb (s : State) (i : Nat) (f : Link → Link) : (setLink s i f).comb = s.comb := rfl
@[simp] theorem setLink_poison (s : State) (i : Nat) (f : Link → Link) : (setLink s i f).poison = s.poison := rfl
@[simp] theorem setLink_partners (s : State) (i : Nat) (f : Link → Link) : (setLink s i f).partners = s.partners := rfl
@[simp] theorem setLink_mems (s : State) (i : Nat) (f : Link → Link) : (setLink s i f).mems = s.mems := rfl
@[simp] theorem setLink_stackMem (s : State) (i : Nat) (f : Link → Link) : (setLink s i f).stackMem = s.stackMem := rfl
@[simp] theorem setLink_links (s : State) (i : Nat) (f : Link → Link) : (setLink s i f).links = updAt s.links i f := rfl
@[simp] theorem setLink_routes (s : State) (i : Nat) (f : Link → Link) : (setLink s i f).routes = s.routes := rfl
@[simp] theorem setLink_time (s : State) (i : Nat) (f : Link → Link) : (setLink s i f).time = s.time := rfl
@[simp] theorem setLink_power (s : State) (i : Nat) (f : Link → Link) : (setLink s i f).power = s.power := rfl
@[simp] theorem setLink_telem (s : State) (i : Nat) (f : Link → Link) : (setLink s i f).telem = s.telem := rfl
@[simp] theorem setLink_draws (s : State) (i : Nat) (f : Link → Link) : (setLink s i f).draws = s.draws := rfl
@[simp] theorem setLink_readBack (s : State) (i : Nat) (f : Link → Link) : (setLink s i f).readBack = s.readBack := rfl
@[simp] theorem setLink_pending (s : State) (i : Nat) (f : Link → Link) : (setLink s i f).pending = s.pending := rfl
theorem getLink_setLink_same (s : State) (i : Nat) (f : Link → Link) (h : i < s.links.length) :
    getLink (setLink s i f) i = f (getLink s i) := nth_updAt_same s.links i f h
theorem getLink_setLink_ne (s : State) (i j : Nat) (f : Link → Link) (h : i ≠ j) :
    getLink (setLink s i f) j = getLink s j := nth_updAt_ne s.links i j f h

/-! ### setMailbox -/

@[simp] theorem setMailbox_wall (s : State) (i : Nat) (f : Mailbox → Mailbox) : (setMailbox s i f).wall = s.wall := rfl
@[simp] theorem setMailbox_pins (s : State) (i : Nat) (f : Mailbox → Mailbox) : (setMailbox s i f).pins = s.pins := rfl
@[simp] theorem setMailbox_life (s : State) (i : Nat) (f : Mailbox → Mailbox) : (setMailbox s i f).life = s.life := rfl
@[simp] theorem setMailbox_flash (s : State) (i : Nat) (f : Mailbox → Mailbox) : (setMailbox s i f).flash = s.flash := rfl
@[simp] theorem setMailbox_keeper (s : State) (i : Nat) (f : Mailbox → Mailbox) : (setMailbox s i f).keeper = s.keeper := rfl
@[simp] theorem setMailbox_mailboxes (s : State) (i : Nat) (f : Mailbox → Mailbox) : (setMailbox s i f).mailboxes = updAt s.mailboxes i f := rfl
@[simp] theorem setMailbox_i3c (s : State) (i : Nat) (f : Mailbox → Mailbox) : (setMailbox s i f).i3c = s.i3c := rfl
@[simp] theorem setMailbox_mgmt (s : State) (i : Nat) (f : Mailbox → Mailbox) : (setMailbox s i f).mgmt = s.mgmt := rfl
@[simp] theorem setMailbox_journal (s : State) (i : Nat) (f : Mailbox → Mailbox) : (setMailbox s i f).journal = s.journal := rfl
@[simp] theorem setMailbox_runs (s : State) (i : Nat) (f : Mailbox → Mailbox) : (setMailbox s i f).runs = s.runs := rfl
@[simp] theorem setMailbox_frames (s : State) (i : Nat) (f : Mailbox → Mailbox) : (setMailbox s i f).frames = s.frames := rfl
@[simp] theorem setMailbox_workers (s : State) (i : Nat) (f : Mailbox → Mailbox) : (setMailbox s i f).workers = s.workers := rfl
@[simp] theorem setMailbox_foragers (s : State) (i : Nat) (f : Mailbox → Mailbox) : (setMailbox s i f).foragers = s.foragers := rfl
@[simp] theorem setMailbox_comb (s : State) (i : Nat) (f : Mailbox → Mailbox) : (setMailbox s i f).comb = s.comb := rfl
@[simp] theorem setMailbox_poison (s : State) (i : Nat) (f : Mailbox → Mailbox) : (setMailbox s i f).poison = s.poison := rfl
@[simp] theorem setMailbox_partners (s : State) (i : Nat) (f : Mailbox → Mailbox) : (setMailbox s i f).partners = s.partners := rfl
@[simp] theorem setMailbox_mems (s : State) (i : Nat) (f : Mailbox → Mailbox) : (setMailbox s i f).mems = s.mems := rfl
@[simp] theorem setMailbox_stackMem (s : State) (i : Nat) (f : Mailbox → Mailbox) : (setMailbox s i f).stackMem = s.stackMem := rfl
@[simp] theorem setMailbox_links (s : State) (i : Nat) (f : Mailbox → Mailbox) : (setMailbox s i f).links = s.links := rfl
@[simp] theorem setMailbox_routes (s : State) (i : Nat) (f : Mailbox → Mailbox) : (setMailbox s i f).routes = s.routes := rfl
@[simp] theorem setMailbox_time (s : State) (i : Nat) (f : Mailbox → Mailbox) : (setMailbox s i f).time = s.time := rfl
@[simp] theorem setMailbox_power (s : State) (i : Nat) (f : Mailbox → Mailbox) : (setMailbox s i f).power = s.power := rfl
@[simp] theorem setMailbox_telem (s : State) (i : Nat) (f : Mailbox → Mailbox) : (setMailbox s i f).telem = s.telem := rfl
@[simp] theorem setMailbox_draws (s : State) (i : Nat) (f : Mailbox → Mailbox) : (setMailbox s i f).draws = s.draws := rfl
@[simp] theorem setMailbox_readBack (s : State) (i : Nat) (f : Mailbox → Mailbox) : (setMailbox s i f).readBack = s.readBack := rfl
@[simp] theorem setMailbox_pending (s : State) (i : Nat) (f : Mailbox → Mailbox) : (setMailbox s i f).pending = s.pending := rfl
theorem getMailbox_setMailbox_same (s : State) (i : Nat) (f : Mailbox → Mailbox) (h : i < s.mailboxes.length) :
    getMailbox (setMailbox s i f) i = f (getMailbox s i) := nth_updAt_same s.mailboxes i f h
theorem getMailbox_setMailbox_ne (s : State) (i j : Nat) (f : Mailbox → Mailbox) (h : i ≠ j) :
    getMailbox (setMailbox s i f) j = getMailbox s j := nth_updAt_ne s.mailboxes i j f h

/-! ### setRun -/

@[simp] theorem setRun_wall (s : State) (r : Nat) (f : Run → Run) : (setRun s r f).wall = s.wall := rfl
@[simp] theorem setRun_pins (s : State) (r : Nat) (f : Run → Run) : (setRun s r f).pins = s.pins := rfl
@[simp] theorem setRun_life (s : State) (r : Nat) (f : Run → Run) : (setRun s r f).life = s.life := rfl
@[simp] theorem setRun_flash (s : State) (r : Nat) (f : Run → Run) : (setRun s r f).flash = s.flash := rfl
@[simp] theorem setRun_keeper (s : State) (r : Nat) (f : Run → Run) : (setRun s r f).keeper = s.keeper := rfl
@[simp] theorem setRun_mailboxes (s : State) (r : Nat) (f : Run → Run) : (setRun s r f).mailboxes = s.mailboxes := rfl
@[simp] theorem setRun_i3c (s : State) (r : Nat) (f : Run → Run) : (setRun s r f).i3c = s.i3c := rfl
@[simp] theorem setRun_mgmt (s : State) (r : Nat) (f : Run → Run) : (setRun s r f).mgmt = s.mgmt := rfl
@[simp] theorem setRun_journal (s : State) (r : Nat) (f : Run → Run) : (setRun s r f).journal = s.journal := rfl
@[simp] theorem setRun_runs (s : State) (r : Nat) (f : Run → Run) : (setRun s r f).runs = updAt s.runs r (Option.map f) := rfl
@[simp] theorem setRun_frames (s : State) (r : Nat) (f : Run → Run) : (setRun s r f).frames = s.frames := rfl
@[simp] theorem setRun_workers (s : State) (r : Nat) (f : Run → Run) : (setRun s r f).workers = s.workers := rfl
@[simp] theorem setRun_foragers (s : State) (r : Nat) (f : Run → Run) : (setRun s r f).foragers = s.foragers := rfl
@[simp] theorem setRun_comb (s : State) (r : Nat) (f : Run → Run) : (setRun s r f).comb = s.comb := rfl
@[simp] theorem setRun_poison (s : State) (r : Nat) (f : Run → Run) : (setRun s r f).poison = s.poison := rfl
@[simp] theorem setRun_partners (s : State) (r : Nat) (f : Run → Run) : (setRun s r f).partners = s.partners := rfl
@[simp] theorem setRun_mems (s : State) (r : Nat) (f : Run → Run) : (setRun s r f).mems = s.mems := rfl
@[simp] theorem setRun_stackMem (s : State) (r : Nat) (f : Run → Run) : (setRun s r f).stackMem = s.stackMem := rfl
@[simp] theorem setRun_links (s : State) (r : Nat) (f : Run → Run) : (setRun s r f).links = s.links := rfl
@[simp] theorem setRun_routes (s : State) (r : Nat) (f : Run → Run) : (setRun s r f).routes = s.routes := rfl
@[simp] theorem setRun_time (s : State) (r : Nat) (f : Run → Run) : (setRun s r f).time = s.time := rfl
@[simp] theorem setRun_power (s : State) (r : Nat) (f : Run → Run) : (setRun s r f).power = s.power := rfl
@[simp] theorem setRun_telem (s : State) (r : Nat) (f : Run → Run) : (setRun s r f).telem = s.telem := rfl
@[simp] theorem setRun_draws (s : State) (r : Nat) (f : Run → Run) : (setRun s r f).draws = s.draws := rfl
@[simp] theorem setRun_readBack (s : State) (r : Nat) (f : Run → Run) : (setRun s r f).readBack = s.readBack := rfl
@[simp] theorem setRun_pending (s : State) (r : Nat) (f : Run → Run) : (setRun s r f).pending = s.pending := rfl
theorem getRun_setRun_same (s : State) (r : Nat) (f : Run → Run) : getRun (setRun s r f) r = (getRun s r).map f := by
  simp only [getRun, setRun, updAt, List.getElem?_modify]
  cases s.runs[r]? <;> simp
theorem getRun_setRun_ne (s : State) (r q : Nat) (f : Run → Run) (h : r ≠ q) : getRun (setRun s r f) q = getRun s q := by
  simp [getRun, setRun, updAt, h]

/-! ### setKeeper -/

@[simp] theorem setKeeper_wall (s : State) (f : Keeper → Keeper) : (setKeeper s f).wall = s.wall := rfl
@[simp] theorem setKeeper_pins (s : State) (f : Keeper → Keeper) : (setKeeper s f).pins = s.pins := rfl
@[simp] theorem setKeeper_life (s : State) (f : Keeper → Keeper) : (setKeeper s f).life = s.life := rfl
@[simp] theorem setKeeper_flash (s : State) (f : Keeper → Keeper) : (setKeeper s f).flash = s.flash := rfl
@[simp] theorem setKeeper_keeper (s : State) (f : Keeper → Keeper) : (setKeeper s f).keeper = f s.keeper := rfl
@[simp] theorem setKeeper_mailboxes (s : State) (f : Keeper → Keeper) : (setKeeper s f).mailboxes = s.mailboxes := rfl
@[simp] theorem setKeeper_i3c (s : State) (f : Keeper → Keeper) : (setKeeper s f).i3c = s.i3c := rfl
@[simp] theorem setKeeper_mgmt (s : State) (f : Keeper → Keeper) : (setKeeper s f).mgmt = s.mgmt := rfl
@[simp] theorem setKeeper_journal (s : State) (f : Keeper → Keeper) : (setKeeper s f).journal = s.journal := rfl
@[simp] theorem setKeeper_runs (s : State) (f : Keeper → Keeper) : (setKeeper s f).runs = s.runs := rfl
@[simp] theorem setKeeper_frames (s : State) (f : Keeper → Keeper) : (setKeeper s f).frames = s.frames := rfl
@[simp] theorem setKeeper_workers (s : State) (f : Keeper → Keeper) : (setKeeper s f).workers = s.workers := rfl
@[simp] theorem setKeeper_foragers (s : State) (f : Keeper → Keeper) : (setKeeper s f).foragers = s.foragers := rfl
@[simp] theorem setKeeper_comb (s : State) (f : Keeper → Keeper) : (setKeeper s f).comb = s.comb := rfl
@[simp] theorem setKeeper_poison (s : State) (f : Keeper → Keeper) : (setKeeper s f).poison = s.poison := rfl
@[simp] theorem setKeeper_partners (s : State) (f : Keeper → Keeper) : (setKeeper s f).partners = s.partners := rfl
@[simp] theorem setKeeper_mems (s : State) (f : Keeper → Keeper) : (setKeeper s f).mems = s.mems := rfl
@[simp] theorem setKeeper_stackMem (s : State) (f : Keeper → Keeper) : (setKeeper s f).stackMem = s.stackMem := rfl
@[simp] theorem setKeeper_links (s : State) (f : Keeper → Keeper) : (setKeeper s f).links = s.links := rfl
@[simp] theorem setKeeper_routes (s : State) (f : Keeper → Keeper) : (setKeeper s f).routes = s.routes := rfl
@[simp] theorem setKeeper_time (s : State) (f : Keeper → Keeper) : (setKeeper s f).time = s.time := rfl
@[simp] theorem setKeeper_power (s : State) (f : Keeper → Keeper) : (setKeeper s f).power = s.power := rfl
@[simp] theorem setKeeper_telem (s : State) (f : Keeper → Keeper) : (setKeeper s f).telem = s.telem := rfl
@[simp] theorem setKeeper_draws (s : State) (f : Keeper → Keeper) : (setKeeper s f).draws = s.draws := rfl
@[simp] theorem setKeeper_readBack (s : State) (f : Keeper → Keeper) : (setKeeper s f).readBack = s.readBack := rfl
@[simp] theorem setKeeper_pending (s : State) (f : Keeper → Keeper) : (setKeeper s f).pending = s.pending := rfl

/-! ### setTime -/

@[simp] theorem setTime_wall (s : State) (f : TimeUnit → TimeUnit) : (setTime s f).wall = s.wall := rfl
@[simp] theorem setTime_pins (s : State) (f : TimeUnit → TimeUnit) : (setTime s f).pins = s.pins := rfl
@[simp] theorem setTime_life (s : State) (f : TimeUnit → TimeUnit) : (setTime s f).life = s.life := rfl
@[simp] theorem setTime_flash (s : State) (f : TimeUnit → TimeUnit) : (setTime s f).flash = s.flash := rfl
@[simp] theorem setTime_keeper (s : State) (f : TimeUnit → TimeUnit) : (setTime s f).keeper = s.keeper := rfl
@[simp] theorem setTime_mailboxes (s : State) (f : TimeUnit → TimeUnit) : (setTime s f).mailboxes = s.mailboxes := rfl
@[simp] theorem setTime_i3c (s : State) (f : TimeUnit → TimeUnit) : (setTime s f).i3c = s.i3c := rfl
@[simp] theorem setTime_mgmt (s : State) (f : TimeUnit → TimeUnit) : (setTime s f).mgmt = s.mgmt := rfl
@[simp] theorem setTime_journal (s : State) (f : TimeUnit → TimeUnit) : (setTime s f).journal = s.journal := rfl
@[simp] theorem setTime_runs (s : State) (f : TimeUnit → TimeUnit) : (setTime s f).runs = s.runs := rfl
@[simp] theorem setTime_frames (s : State) (f : TimeUnit → TimeUnit) : (setTime s f).frames = s.frames := rfl
@[simp] theorem setTime_workers (s : State) (f : TimeUnit → TimeUnit) : (setTime s f).workers = s.workers := rfl
@[simp] theorem setTime_foragers (s : State) (f : TimeUnit → TimeUnit) : (setTime s f).foragers = s.foragers := rfl
@[simp] theorem setTime_comb (s : State) (f : TimeUnit → TimeUnit) : (setTime s f).comb = s.comb := rfl
@[simp] theorem setTime_poison (s : State) (f : TimeUnit → TimeUnit) : (setTime s f).poison = s.poison := rfl
@[simp] theorem setTime_partners (s : State) (f : TimeUnit → TimeUnit) : (setTime s f).partners = s.partners := rfl
@[simp] theorem setTime_mems (s : State) (f : TimeUnit → TimeUnit) : (setTime s f).mems = s.mems := rfl
@[simp] theorem setTime_stackMem (s : State) (f : TimeUnit → TimeUnit) : (setTime s f).stackMem = s.stackMem := rfl
@[simp] theorem setTime_links (s : State) (f : TimeUnit → TimeUnit) : (setTime s f).links = s.links := rfl
@[simp] theorem setTime_routes (s : State) (f : TimeUnit → TimeUnit) : (setTime s f).routes = s.routes := rfl
@[simp] theorem setTime_time (s : State) (f : TimeUnit → TimeUnit) : (setTime s f).time = f s.time := rfl
@[simp] theorem setTime_power (s : State) (f : TimeUnit → TimeUnit) : (setTime s f).power = s.power := rfl
@[simp] theorem setTime_telem (s : State) (f : TimeUnit → TimeUnit) : (setTime s f).telem = s.telem := rfl
@[simp] theorem setTime_draws (s : State) (f : TimeUnit → TimeUnit) : (setTime s f).draws = s.draws := rfl
@[simp] theorem setTime_readBack (s : State) (f : TimeUnit → TimeUnit) : (setTime s f).readBack = s.readBack := rfl
@[simp] theorem setTime_pending (s : State) (f : TimeUnit → TimeUnit) : (setTime s f).pending = s.pending := rfl

/-! ### setPower -/

@[simp] theorem setPower_wall (s : State) (f : Power → Power) : (setPower s f).wall = s.wall := rfl
@[simp] theorem setPower_pins (s : State) (f : Power → Power) : (setPower s f).pins = s.pins := rfl
@[simp] theorem setPower_life (s : State) (f : Power → Power) : (setPower s f).life = s.life := rfl
@[simp] theorem setPower_flash (s : State) (f : Power → Power) : (setPower s f).flash = s.flash := rfl
@[simp] theorem setPower_keeper (s : State) (f : Power → Power) : (setPower s f).keeper = s.keeper := rfl
@[simp] theorem setPower_mailboxes (s : State) (f : Power → Power) : (setPower s f).mailboxes = s.mailboxes := rfl
@[simp] theorem setPower_i3c (s : State) (f : Power → Power) : (setPower s f).i3c = s.i3c := rfl
@[simp] theorem setPower_mgmt (s : State) (f : Power → Power) : (setPower s f).mgmt = s.mgmt := rfl
@[simp] theorem setPower_journal (s : State) (f : Power → Power) : (setPower s f).journal = s.journal := rfl
@[simp] theorem setPower_runs (s : State) (f : Power → Power) : (setPower s f).runs = s.runs := rfl
@[simp] theorem setPower_frames (s : State) (f : Power → Power) : (setPower s f).frames = s.frames := rfl
@[simp] theorem setPower_workers (s : State) (f : Power → Power) : (setPower s f).workers = s.workers := rfl
@[simp] theorem setPower_foragers (s : State) (f : Power → Power) : (setPower s f).foragers = s.foragers := rfl
@[simp] theorem setPower_comb (s : State) (f : Power → Power) : (setPower s f).comb = s.comb := rfl
@[simp] theorem setPower_poison (s : State) (f : Power → Power) : (setPower s f).poison = s.poison := rfl
@[simp] theorem setPower_partners (s : State) (f : Power → Power) : (setPower s f).partners = s.partners := rfl
@[simp] theorem setPower_mems (s : State) (f : Power → Power) : (setPower s f).mems = s.mems := rfl
@[simp] theorem setPower_stackMem (s : State) (f : Power → Power) : (setPower s f).stackMem = s.stackMem := rfl
@[simp] theorem setPower_links (s : State) (f : Power → Power) : (setPower s f).links = s.links := rfl
@[simp] theorem setPower_routes (s : State) (f : Power → Power) : (setPower s f).routes = s.routes := rfl
@[simp] theorem setPower_time (s : State) (f : Power → Power) : (setPower s f).time = s.time := rfl
@[simp] theorem setPower_power (s : State) (f : Power → Power) : (setPower s f).power = f s.power := rfl
@[simp] theorem setPower_telem (s : State) (f : Power → Power) : (setPower s f).telem = s.telem := rfl
@[simp] theorem setPower_draws (s : State) (f : Power → Power) : (setPower s f).draws = s.draws := rfl
@[simp] theorem setPower_readBack (s : State) (f : Power → Power) : (setPower s f).readBack = s.readBack := rfl
@[simp] theorem setPower_pending (s : State) (f : Power → Power) : (setPower s f).pending = s.pending := rfl

/-! ### setLife -/

@[simp] theorem setLife_wall (s : State) (f : Life → Life) : (setLife s f).wall = s.wall := rfl
@[simp] theorem setLife_pins (s : State) (f : Life → Life) : (setLife s f).pins = s.pins := rfl
@[simp] theorem setLife_life (s : State) (f : Life → Life) : (setLife s f).life = f s.life := rfl
@[simp] theorem setLife_flash (s : State) (f : Life → Life) : (setLife s f).flash = s.flash := rfl
@[simp] theorem setLife_keeper (s : State) (f : Life → Life) : (setLife s f).keeper = s.keeper := rfl
@[simp] theorem setLife_mailboxes (s : State) (f : Life → Life) : (setLife s f).mailboxes = s.mailboxes := rfl
@[simp] theorem setLife_i3c (s : State) (f : Life → Life) : (setLife s f).i3c = s.i3c := rfl
@[simp] theorem setLife_mgmt (s : State) (f : Life → Life) : (setLife s f).mgmt = s.mgmt := rfl
@[simp] theorem setLife_journal (s : State) (f : Life → Life) : (setLife s f).journal = s.journal := rfl
@[simp] theorem setLife_runs (s : State) (f : Life → Life) : (setLife s f).runs = s.runs := rfl
@[simp] theorem setLife_frames (s : State) (f : Life → Life) : (setLife s f).frames = s.frames := rfl
@[simp] theorem setLife_workers (s : State) (f : Life → Life) : (setLife s f).workers = s.workers := rfl
@[simp] theorem setLife_foragers (s : State) (f : Life → Life) : (setLife s f).foragers = s.foragers := rfl
@[simp] theorem setLife_comb (s : State) (f : Life → Life) : (setLife s f).comb = s.comb := rfl
@[simp] theorem setLife_poison (s : State) (f : Life → Life) : (setLife s f).poison = s.poison := rfl
@[simp] theorem setLife_partners (s : State) (f : Life → Life) : (setLife s f).partners = s.partners := rfl
@[simp] theorem setLife_mems (s : State) (f : Life → Life) : (setLife s f).mems = s.mems := rfl
@[simp] theorem setLife_stackMem (s : State) (f : Life → Life) : (setLife s f).stackMem = s.stackMem := rfl
@[simp] theorem setLife_links (s : State) (f : Life → Life) : (setLife s f).links = s.links := rfl
@[simp] theorem setLife_routes (s : State) (f : Life → Life) : (setLife s f).routes = s.routes := rfl
@[simp] theorem setLife_time (s : State) (f : Life → Life) : (setLife s f).time = s.time := rfl
@[simp] theorem setLife_power (s : State) (f : Life → Life) : (setLife s f).power = s.power := rfl
@[simp] theorem setLife_telem (s : State) (f : Life → Life) : (setLife s f).telem = s.telem := rfl
@[simp] theorem setLife_draws (s : State) (f : Life → Life) : (setLife s f).draws = s.draws := rfl
@[simp] theorem setLife_readBack (s : State) (f : Life → Life) : (setLife s f).readBack = s.readBack := rfl
@[simp] theorem setLife_pending (s : State) (f : Life → Life) : (setLife s f).pending = s.pending := rfl

/-! ### setJournal -/

@[simp] theorem setJournal_wall (s : State) (f : Journal → Journal) : (setJournal s f).wall = s.wall := rfl
@[simp] theorem setJournal_pins (s : State) (f : Journal → Journal) : (setJournal s f).pins = s.pins := rfl
@[simp] theorem setJournal_life (s : State) (f : Journal → Journal) : (setJournal s f).life = s.life := rfl
@[simp] theorem setJournal_flash (s : State) (f : Journal → Journal) : (setJournal s f).flash = s.flash := rfl
@[simp] theorem setJournal_keeper (s : State) (f : Journal → Journal) : (setJournal s f).keeper = s.keeper := rfl
@[simp] theorem setJournal_mailboxes (s : State) (f : Journal → Journal) : (setJournal s f).mailboxes = s.mailboxes := rfl
@[simp] theorem setJournal_i3c (s : State) (f : Journal → Journal) : (setJournal s f).i3c = s.i3c := rfl
@[simp] theorem setJournal_mgmt (s : State) (f : Journal → Journal) : (setJournal s f).mgmt = s.mgmt := rfl
@[simp] theorem setJournal_journal (s : State) (f : Journal → Journal) : (setJournal s f).journal = f s.journal := rfl
@[simp] theorem setJournal_runs (s : State) (f : Journal → Journal) : (setJournal s f).runs = s.runs := rfl
@[simp] theorem setJournal_frames (s : State) (f : Journal → Journal) : (setJournal s f).frames = s.frames := rfl
@[simp] theorem setJournal_workers (s : State) (f : Journal → Journal) : (setJournal s f).workers = s.workers := rfl
@[simp] theorem setJournal_foragers (s : State) (f : Journal → Journal) : (setJournal s f).foragers = s.foragers := rfl
@[simp] theorem setJournal_comb (s : State) (f : Journal → Journal) : (setJournal s f).comb = s.comb := rfl
@[simp] theorem setJournal_poison (s : State) (f : Journal → Journal) : (setJournal s f).poison = s.poison := rfl
@[simp] theorem setJournal_partners (s : State) (f : Journal → Journal) : (setJournal s f).partners = s.partners := rfl
@[simp] theorem setJournal_mems (s : State) (f : Journal → Journal) : (setJournal s f).mems = s.mems := rfl
@[simp] theorem setJournal_stackMem (s : State) (f : Journal → Journal) : (setJournal s f).stackMem = s.stackMem := rfl
@[simp] theorem setJournal_links (s : State) (f : Journal → Journal) : (setJournal s f).links = s.links := rfl
@[simp] theorem setJournal_routes (s : State) (f : Journal → Journal) : (setJournal s f).routes = s.routes := rfl
@[simp] theorem setJournal_time (s : State) (f : Journal → Journal) : (setJournal s f).time = s.time := rfl
@[simp] theorem setJournal_power (s : State) (f : Journal → Journal) : (setJournal s f).power = s.power := rfl
@[simp] theorem setJournal_telem (s : State) (f : Journal → Journal) : (setJournal s f).telem = s.telem := rfl
@[simp] theorem setJournal_draws (s : State) (f : Journal → Journal) : (setJournal s f).draws = s.draws := rfl
@[simp] theorem setJournal_readBack (s : State) (f : Journal → Journal) : (setJournal s f).readBack = s.readBack := rfl
@[simp] theorem setJournal_pending (s : State) (f : Journal → Journal) : (setJournal s f).pending = s.pending := rfl

/-! ### Parts after an update of another part -/

@[simp] theorem getWorker_setFrame (s : State) (i j : Nat) (f : Frame → Frame) : getWorker (setFrame s i f) j = getWorker s j := rfl
@[simp] theorem getWorker_setForager (s : State) (i j : Nat) (f : Forager → Forager) : getWorker (setForager s i f) j = getWorker s j := rfl
@[simp] theorem getWorker_setPartner (s : State) (i j : Nat) (f : PartnerPort → PartnerPort) : getWorker (setPartner s i f) j = getWorker s j := rfl
@[simp] theorem getWorker_setMemPort (s : State) (i j : Nat) (f : MemPort → MemPort) : getWorker (setMemPort s i f) j = getWorker s j := rfl
@[simp] theorem getWorker_setLink (s : State) (i j : Nat) (f : Link → Link) : getWorker (setLink s i f) j = getWorker s j := rfl
@[simp] theorem getWorker_setMailbox (s : State) (i j : Nat) (f : Mailbox → Mailbox) : getWorker (setMailbox s i f) j = getWorker s j := rfl
@[simp] theorem getWorker_setRun (s : State) (i j : Nat) (f : Run → Run) : getWorker (setRun s i f) j = getWorker s j := rfl
@[simp] theorem getWorker_setKeeper (s : State) (j : Nat) (f : Keeper → Keeper) : getWorker (setKeeper s f) j = getWorker s j := rfl
@[simp] theorem getWorker_setTime (s : State) (j : Nat) (f : TimeUnit → TimeUnit) : getWorker (setTime s f) j = getWorker s j := rfl
@[simp] theorem getWorker_setPower (s : State) (j : Nat) (f : Power → Power) : getWorker (setPower s f) j = getWorker s j := rfl
@[simp] theorem getWorker_setLife (s : State) (j : Nat) (f : Life → Life) : getWorker (setLife s f) j = getWorker s j := rfl
@[simp] theorem getWorker_setJournal (s : State) (j : Nat) (f : Journal → Journal) : getWorker (setJournal s f) j = getWorker s j := rfl
@[simp] theorem getFrame_setWorker (s : State) (i j : Nat) (f : Worker → Worker) : getFrame (setWorker s i f) j = getFrame s j := rfl
@[simp] theorem getFrame_setForager (s : State) (i j : Nat) (f : Forager → Forager) : getFrame (setForager s i f) j = getFrame s j := rfl
@[simp] theorem getFrame_setPartner (s : State) (i j : Nat) (f : PartnerPort → PartnerPort) : getFrame (setPartner s i f) j = getFrame s j := rfl
@[simp] theorem getFrame_setMemPort (s : State) (i j : Nat) (f : MemPort → MemPort) : getFrame (setMemPort s i f) j = getFrame s j := rfl
@[simp] theorem getFrame_setLink (s : State) (i j : Nat) (f : Link → Link) : getFrame (setLink s i f) j = getFrame s j := rfl
@[simp] theorem getFrame_setMailbox (s : State) (i j : Nat) (f : Mailbox → Mailbox) : getFrame (setMailbox s i f) j = getFrame s j := rfl
@[simp] theorem getFrame_setRun (s : State) (i j : Nat) (f : Run → Run) : getFrame (setRun s i f) j = getFrame s j := rfl
@[simp] theorem getFrame_setKeeper (s : State) (j : Nat) (f : Keeper → Keeper) : getFrame (setKeeper s f) j = getFrame s j := rfl
@[simp] theorem getFrame_setTime (s : State) (j : Nat) (f : TimeUnit → TimeUnit) : getFrame (setTime s f) j = getFrame s j := rfl
@[simp] theorem getFrame_setPower (s : State) (j : Nat) (f : Power → Power) : getFrame (setPower s f) j = getFrame s j := rfl
@[simp] theorem getFrame_setLife (s : State) (j : Nat) (f : Life → Life) : getFrame (setLife s f) j = getFrame s j := rfl
@[simp] theorem getFrame_setJournal (s : State) (j : Nat) (f : Journal → Journal) : getFrame (setJournal s f) j = getFrame s j := rfl
@[simp] theorem getForager_setWorker (s : State) (i j : Nat) (f : Worker → Worker) : getForager (setWorker s i f) j = getForager s j := rfl
@[simp] theorem getForager_setFrame (s : State) (i j : Nat) (f : Frame → Frame) : getForager (setFrame s i f) j = getForager s j := rfl
@[simp] theorem getForager_setPartner (s : State) (i j : Nat) (f : PartnerPort → PartnerPort) : getForager (setPartner s i f) j = getForager s j := rfl
@[simp] theorem getForager_setMemPort (s : State) (i j : Nat) (f : MemPort → MemPort) : getForager (setMemPort s i f) j = getForager s j := rfl
@[simp] theorem getForager_setLink (s : State) (i j : Nat) (f : Link → Link) : getForager (setLink s i f) j = getForager s j := rfl
@[simp] theorem getForager_setMailbox (s : State) (i j : Nat) (f : Mailbox → Mailbox) : getForager (setMailbox s i f) j = getForager s j := rfl
@[simp] theorem getForager_setRun (s : State) (i j : Nat) (f : Run → Run) : getForager (setRun s i f) j = getForager s j := rfl
@[simp] theorem getForager_setKeeper (s : State) (j : Nat) (f : Keeper → Keeper) : getForager (setKeeper s f) j = getForager s j := rfl
@[simp] theorem getForager_setTime (s : State) (j : Nat) (f : TimeUnit → TimeUnit) : getForager (setTime s f) j = getForager s j := rfl
@[simp] theorem getForager_setPower (s : State) (j : Nat) (f : Power → Power) : getForager (setPower s f) j = getForager s j := rfl
@[simp] theorem getForager_setLife (s : State) (j : Nat) (f : Life → Life) : getForager (setLife s f) j = getForager s j := rfl
@[simp] theorem getForager_setJournal (s : State) (j : Nat) (f : Journal → Journal) : getForager (setJournal s f) j = getForager s j := rfl
@[simp] theorem getPartner_setWorker (s : State) (i j : Nat) (f : Worker → Worker) : getPartner (setWorker s i f) j = getPartner s j := rfl
@[simp] theorem getPartner_setFrame (s : State) (i j : Nat) (f : Frame → Frame) : getPartner (setFrame s i f) j = getPartner s j := rfl
@[simp] theorem getPartner_setForager (s : State) (i j : Nat) (f : Forager → Forager) : getPartner (setForager s i f) j = getPartner s j := rfl
@[simp] theorem getPartner_setMemPort (s : State) (i j : Nat) (f : MemPort → MemPort) : getPartner (setMemPort s i f) j = getPartner s j := rfl
@[simp] theorem getPartner_setLink (s : State) (i j : Nat) (f : Link → Link) : getPartner (setLink s i f) j = getPartner s j := rfl
@[simp] theorem getPartner_setMailbox (s : State) (i j : Nat) (f : Mailbox → Mailbox) : getPartner (setMailbox s i f) j = getPartner s j := rfl
@[simp] theorem getPartner_setRun (s : State) (i j : Nat) (f : Run → Run) : getPartner (setRun s i f) j = getPartner s j := rfl
@[simp] theorem getPartner_setKeeper (s : State) (j : Nat) (f : Keeper → Keeper) : getPartner (setKeeper s f) j = getPartner s j := rfl
@[simp] theorem getPartner_setTime (s : State) (j : Nat) (f : TimeUnit → TimeUnit) : getPartner (setTime s f) j = getPartner s j := rfl
@[simp] theorem getPartner_setPower (s : State) (j : Nat) (f : Power → Power) : getPartner (setPower s f) j = getPartner s j := rfl
@[simp] theorem getPartner_setLife (s : State) (j : Nat) (f : Life → Life) : getPartner (setLife s f) j = getPartner s j := rfl
@[simp] theorem getPartner_setJournal (s : State) (j : Nat) (f : Journal → Journal) : getPartner (setJournal s f) j = getPartner s j := rfl
@[simp] theorem getMemPort_setWorker (s : State) (i j : Nat) (f : Worker → Worker) : getMemPort (setWorker s i f) j = getMemPort s j := rfl
@[simp] theorem getMemPort_setFrame (s : State) (i j : Nat) (f : Frame → Frame) : getMemPort (setFrame s i f) j = getMemPort s j := rfl
@[simp] theorem getMemPort_setForager (s : State) (i j : Nat) (f : Forager → Forager) : getMemPort (setForager s i f) j = getMemPort s j := rfl
@[simp] theorem getMemPort_setPartner (s : State) (i j : Nat) (f : PartnerPort → PartnerPort) : getMemPort (setPartner s i f) j = getMemPort s j := rfl
@[simp] theorem getMemPort_setLink (s : State) (i j : Nat) (f : Link → Link) : getMemPort (setLink s i f) j = getMemPort s j := rfl
@[simp] theorem getMemPort_setMailbox (s : State) (i j : Nat) (f : Mailbox → Mailbox) : getMemPort (setMailbox s i f) j = getMemPort s j := rfl
@[simp] theorem getMemPort_setRun (s : State) (i j : Nat) (f : Run → Run) : getMemPort (setRun s i f) j = getMemPort s j := rfl
@[simp] theorem getMemPort_setKeeper (s : State) (j : Nat) (f : Keeper → Keeper) : getMemPort (setKeeper s f) j = getMemPort s j := rfl
@[simp] theorem getMemPort_setTime (s : State) (j : Nat) (f : TimeUnit → TimeUnit) : getMemPort (setTime s f) j = getMemPort s j := rfl
@[simp] theorem getMemPort_setPower (s : State) (j : Nat) (f : Power → Power) : getMemPort (setPower s f) j = getMemPort s j := rfl
@[simp] theorem getMemPort_setLife (s : State) (j : Nat) (f : Life → Life) : getMemPort (setLife s f) j = getMemPort s j := rfl
@[simp] theorem getMemPort_setJournal (s : State) (j : Nat) (f : Journal → Journal) : getMemPort (setJournal s f) j = getMemPort s j := rfl
@[simp] theorem getLink_setWorker (s : State) (i j : Nat) (f : Worker → Worker) : getLink (setWorker s i f) j = getLink s j := rfl
@[simp] theorem getLink_setFrame (s : State) (i j : Nat) (f : Frame → Frame) : getLink (setFrame s i f) j = getLink s j := rfl
@[simp] theorem getLink_setForager (s : State) (i j : Nat) (f : Forager → Forager) : getLink (setForager s i f) j = getLink s j := rfl
@[simp] theorem getLink_setPartner (s : State) (i j : Nat) (f : PartnerPort → PartnerPort) : getLink (setPartner s i f) j = getLink s j := rfl
@[simp] theorem getLink_setMemPort (s : State) (i j : Nat) (f : MemPort → MemPort) : getLink (setMemPort s i f) j = getLink s j := rfl
@[simp] theorem getLink_setMailbox (s : State) (i j : Nat) (f : Mailbox → Mailbox) : getLink (setMailbox s i f) j = getLink s j := rfl
@[simp] theorem getLink_setRun (s : State) (i j : Nat) (f : Run → Run) : getLink (setRun s i f) j = getLink s j := rfl
@[simp] theorem getLink_setKeeper (s : State) (j : Nat) (f : Keeper → Keeper) : getLink (setKeeper s f) j = getLink s j := rfl
@[simp] theorem getLink_setTime (s : State) (j : Nat) (f : TimeUnit → TimeUnit) : getLink (setTime s f) j = getLink s j := rfl
@[simp] theorem getLink_setPower (s : State) (j : Nat) (f : Power → Power) : getLink (setPower s f) j = getLink s j := rfl
@[simp] theorem getLink_setLife (s : State) (j : Nat) (f : Life → Life) : getLink (setLife s f) j = getLink s j := rfl
@[simp] theorem getLink_setJournal (s : State) (j : Nat) (f : Journal → Journal) : getLink (setJournal s f) j = getLink s j := rfl
@[simp] theorem getMailbox_setWorker (s : State) (i j : Nat) (f : Worker → Worker) : getMailbox (setWorker s i f) j = getMailbox s j := rfl
@[simp] theorem getMailbox_setFrame (s : State) (i j : Nat) (f : Frame → Frame) : getMailbox (setFrame s i f) j = getMailbox s j := rfl
@[simp] theorem getMailbox_setForager (s : State) (i j : Nat) (f : Forager → Forager) : getMailbox (setForager s i f) j = getMailbox s j := rfl
@[simp] theorem getMailbox_setPartner (s : State) (i j : Nat) (f : PartnerPort → PartnerPort) : getMailbox (setPartner s i f) j = getMailbox s j := rfl
@[simp] theorem getMailbox_setMemPort (s : State) (i j : Nat) (f : MemPort → MemPort) : getMailbox (setMemPort s i f) j = getMailbox s j := rfl
@[simp] theorem getMailbox_setLink (s : State) (i j : Nat) (f : Link → Link) : getMailbox (setLink s i f) j = getMailbox s j := rfl
@[simp] theorem getMailbox_setRun (s : State) (i j : Nat) (f : Run → Run) : getMailbox (setRun s i f) j = getMailbox s j := rfl
@[simp] theorem getMailbox_setKeeper (s : State) (j : Nat) (f : Keeper → Keeper) : getMailbox (setKeeper s f) j = getMailbox s j := rfl
@[simp] theorem getMailbox_setTime (s : State) (j : Nat) (f : TimeUnit → TimeUnit) : getMailbox (setTime s f) j = getMailbox s j := rfl
@[simp] theorem getMailbox_setPower (s : State) (j : Nat) (f : Power → Power) : getMailbox (setPower s f) j = getMailbox s j := rfl
@[simp] theorem getMailbox_setLife (s : State) (j : Nat) (f : Life → Life) : getMailbox (setLife s f) j = getMailbox s j := rfl
@[simp] theorem getMailbox_setJournal (s : State) (j : Nat) (f : Journal → Journal) : getMailbox (setJournal s f) j = getMailbox s j := rfl
@[simp] theorem getRun_setWorker (s : State) (i j : Nat) (f : Worker → Worker) : getRun (setWorker s i f) j = getRun s j := rfl
@[simp] theorem getRun_setFrame (s : State) (i j : Nat) (f : Frame → Frame) : getRun (setFrame s i f) j = getRun s j := rfl
@[simp] theorem getRun_setForager (s : State) (i j : Nat) (f : Forager → Forager) : getRun (setForager s i f) j = getRun s j := rfl
@[simp] theorem getRun_setPartner (s : State) (i j : Nat) (f : PartnerPort → PartnerPort) : getRun (setPartner s i f) j = getRun s j := rfl
@[simp] theorem getRun_setMemPort (s : State) (i j : Nat) (f : MemPort → MemPort) : getRun (setMemPort s i f) j = getRun s j := rfl
@[simp] theorem getRun_setLink (s : State) (i j : Nat) (f : Link → Link) : getRun (setLink s i f) j = getRun s j := rfl
@[simp] theorem getRun_setMailbox (s : State) (i j : Nat) (f : Mailbox → Mailbox) : getRun (setMailbox s i f) j = getRun s j := rfl
@[simp] theorem getRun_setKeeper (s : State) (j : Nat) (f : Keeper → Keeper) : getRun (setKeeper s f) j = getRun s j := rfl
@[simp] theorem getRun_setTime (s : State) (j : Nat) (f : TimeUnit → TimeUnit) : getRun (setTime s f) j = getRun s j := rfl
@[simp] theorem getRun_setPower (s : State) (j : Nat) (f : Power → Power) : getRun (setPower s f) j = getRun s j := rfl
@[simp] theorem getRun_setLife (s : State) (j : Nat) (f : Life → Life) : getRun (setLife s f) j = getRun s j := rfl
@[simp] theorem getRun_setJournal (s : State) (j : Nat) (f : Journal → Journal) : getRun (setJournal s f) j = getRun s j := rfl

end Sys2Proof.Machine
end

