-- ==== Sys2Proof/Laws/Messages.lean ====
section
/-!
SUPPORT. What every message row does with its slot, and what a reply changes.
-/

namespace Sys2Proof.Machine

theorem getMailbox_length (s : State) (n : Nat) (h : (getMailbox s n).inFull = true) : n < s.mailboxes.length := by
  by_contra hl
  have : getMailbox s n = default := by simp [getMailbox, nth, List.getElem?_eq_none (Nat.le_of_not_lt hl)]
  rw [this] at h
  exact absurd h (by decide)

theorem modify_modify_const {α : Type} (l : List α) (i : Nat) (f : α → α) (b : α) :
    updAt (updAt l i f) i (fun _ => b) = updAt l i (fun _ => b) := by
  simp only [updAt]
  apply List.ext_getElem?
  intro j
  simp only [List.getElem?_modify]
  by_cases h : i = j <;> simp [h] <;> cases l[j]? <;> simp

theorem setMailbox_only (s : State) (n : Nat) (f : Mailbox → Mailbox) : OnlyMailbox s (setMailbox s n f) n := by
  refine ⟨f (getMailbox s n), ?_⟩
  unfold setMailbox
  congr 1
  simp only [updAt]
  apply List.ext_getElem?
  intro j
  simp only [List.getElem?_modify]
  by_cases h : n = j
  · subst h
    simp only [getMailbox, nth]
    cases s.mailboxes[n]? <;> simp
  · simp [h]

theorem onlyMailbox_refl (s : State) (n : Nat) : OnlyMailbox s s n := by
  have h := setMailbox_only s n id
  have e : setMailbox s n id = s := by
    unfold setMailbox updAt
    simp [List.modify_id]
  rwa [e] at h

theorem onlyMailbox_trans {s t u : State} {n : Nat} (h : OnlyMailbox s t n) (k : OnlyMailbox t u n) : OnlyMailbox s u n := by
  obtain ⟨b, rfl⟩ := h
  obtain ⟨c, rfl⟩ := k
  exact ⟨c, by simp only [setMailbox, modify_modify_const]⟩

/-- Nothing but the mailbox differs. -/
theorem onlyMailbox_fields {s t : State} {n : Nat} (h : OnlyMailbox s t n) : t = { s with mailboxes := t.mailboxes } := by
  obtain ⟨b, rfl⟩ := h
  rfl

theorem onlyMailbox_length {s t : State} {n : Nat} (h : OnlyMailbox s t n) : t.mailboxes.length = s.mailboxes.length := by
  obtain ⟨b, rfl⟩ := h
  simp

theorem onlyMailbox_other {s t : State} {n m : Nat} (h : OnlyMailbox s t n) (hm : m ≠ n) : getMailbox t m = getMailbox s m := by
  obtain ⟨b, rfl⟩ := h
  exact getMailbox_setMailbox_ne s n m _ (Ne.symm hm)

/-- A reply changes its mailbox only. -/
theorem reply_only (t : State) (p : Pending) (status : BitVec 16) (body : Bytes) : OnlyMailbox t (reply t p status body) p.mailbox :=
  onlyMailbox_trans (setMailbox_only t p.mailbox _) (setMailbox_only _ p.mailbox _)

/-- What a reply leaves in its mailbox. -/
theorem reply_answered (t : State) (p : Pending) (status : BitVec 16) (body : Bytes) (h : p.mailbox < t.mailboxes.length) :
    Answered t (reply t p status body) p status body := by
  unfold Answered reply enqueue
  rw [getMailbox_setMailbox_same _ _ _ (by simpa using h), getMailbox_setMailbox_same _ _ _ h]
  rfl

theorem reply_onlyAnswers (t : State) (p : Pending) (status : BitVec 16) (body : Bytes) (h : p.mailbox < t.mailboxes.length) :
    OnlyAnswers t (reply t p status body) p status body := ⟨reply_answered t p status body h, reply_only t p status body⟩

theorem pullArrived_only (s : State) (n : Nat) : OnlyMailbox s (pullArrived s n) n := by
  unfold pullArrived
  split
  · exact onlyMailbox_refl s n
  · split
    · exact onlyMailbox_refl s n
    · exact onlyMailbox_trans (onlyMailbox_trans (setMailbox_only s n _) (setMailbox_only _ n _)) (setMailbox_only _ n _)

theorem enqueue_only (s : State) (n : Nat) (ms : List OutMsg) : OnlyMailbox s (enqueue s n ms) n := setMailbox_only s n _

theorem rejectMessage_only (s : State) (n : Nat) (ty : BitVec 16) (tag : BitVec 32) (src : BitVec 22) (code : BitVec 16) :
    OnlyMailbox s (rejectMessage s n ty tag src code) n := by
  unfold rejectMessage
  split
  · exact onlyMailbox_refl s n
  · exact enqueue_only s n _

/-- What a request that passes the checks comes with. -/
theorem checkRequest_request {s t : State} {p q : Pending} {bad : Bool} (h : checkRequest s p bad = .request t q) : t = s ∧ q = p := by
  unfold checkRequest at h
  dsimp only at h
  repeat' split at h
  all_goals first | (injection h with h1 h2; exact ⟨h1.symm, h2.symm⟩) | exact absurd h (by simp)

theorem takeFragment_request {s t : State} {n : Nat} {m : Bytes} {src : BitVec 22} {p : Pending}
    (h : takeFragment s n m src = .request t p) : OnlyMailbox s t n ∧ p.mailbox = n ∧ p.source = src := by
  unfold takeFragment at h
  dsimp only at h
  have clear (u : State) : OnlyMailbox u (setMailbox u n (fun b => { b with assembly := none })) n := setMailbox_only u n _
  split at h
  · exact absurd h (by simp)
  · next u old hf =>
    have hu : OnlyMailbox s u n := by
      revert hf
      split
      · split
        · intro hf; injection hf with hf; injection hf with h1 h2; exact h1 ▸ onlyMailbox_refl s n
        · split
          · intro hf; injection hf with hf; injection hf with h1 h2
            exact h1 ▸ onlyMailbox_trans (clear s) (rejectMessage_only _ n _ _ _ _)
          · intro hf; exact absurd hf (by simp)
      · split
        · intro hf; injection hf with hf; injection hf with h1 h2; exact h1 ▸ onlyMailbox_refl s n
        · intro hf; exact absurd hf (by simp)
    split at h
    · exact absurd h (by simp)
    · split at h
      · obtain ⟨rfl, rfl⟩ := checkRequest_request h
        exact ⟨onlyMailbox_trans hu (clear u), rfl, rfl⟩
      · exact absurd h (by simp)

/-- A request that has been taken: nothing but its mailbox has changed. -/
theorem takeMessage_request {s t : State} {n : Nat} {p : Pending} (h : takeMessage s n = .request t p) :
    OnlyMailbox s t n ∧ p.mailbox = n ∧ n < t.mailboxes.length := by
  unfold takeMessage at h
  dsimp only at h
  split at h
  · exact absurd h (by simp)
  · next hb =>
    have hfull : (getMailbox s n).inFull = true := by
      simp only [Bool.or_eq_true, Bool.not_eq_true', not_or, Bool.not_eq_false] at hb
      exact hb.1.1.1
    have hn := getMailbox_length s n hfull
    repeat' split at h
    all_goals first
      | exact absurd h (by simp)
      | (have f := takeFragment_request h
         have o := onlyMailbox_trans (onlyMailbox_trans (setMailbox_only s n _) (pullArrived_only _ n)) f.1
         exact ⟨o, f.2.1, by rw [onlyMailbox_length o]; exact hn⟩)

end Sys2Proof.Machine
end

