-- ==== Sys2Proof/WellFormed.lean ====
section
/-!
DEFINITION. The commands whose operands have the shape that the outside can give them: byte strings
as long as the thing they stand for. `exec` is total on every command; a host that sends only
well-formed commands sends what a die can meet.
-/

namespace Sys2Proof

/-- Is a write inside the 256-byte inbound slot (R303)? -/
def wfSlotWrite (offset : Nat) (data : List (BitVec 8)) : Bool := decide (offset + data.length ≤ 256)

/-- Has a TSP packet a whole header and a payload within the limit of R345? -/
def wfPacket (packet : List (BitVec 8)) : Bool := decide (32 ≤ packet.length ∧ packet.length ≤ 32 + 4096)

/-- Has a Waggle frame a whole header and a frame check, and at most the payload and tag of R376? -/
def wfFrame (frame : List (BitVec 8)) : Bool := decide (36 ≤ frame.length ∧ frame.length ≤ 32 + 4096 + 16 + 4)

/-- Has a management frame's payload the header of Table 10.5 and at most an Ethernet frame's size (R310)? -/
def wfMgmt (payload : List (BitVec 8)) : Bool := decide (16 ≤ payload.length ∧ payload.length ≤ 9216)

/-- Is a comb address 28 bits wide (R71)? -/
def wfAccess : DebugAccess → Bool
  | .bankStatus _ _ => true
  | .readComb a => decide (a < 2 ^ 28)
  | .writeComb a _ => decide (a < 2 ^ 28)

/-- Does a governor sample name each of the eight frames? -/
def wfSample (p : PowerSample) : Bool := decide (p.activity.length = 8 ∧ p.energyUj.length = 8)

/-- The well-formed commands. -/
def Instr.wf : Instr → Bool
  | .mbxInboundWrite _ off data => wfSlotWrite off data
  | .tspData _ k | .tspCredit _ k | .tspMailbox _ k | .tspMbxAck _ k | .tspMbxBusy _ k
  | .tspRingOpen _ k | .tspRingClose _ k | .tspNop _ k => wfPacket k
  | .waggleData _ k _ | .waggleMailbox _ k _ | .waggleRingOpen _ k _ | .waggleRingClose _ k _
  | .rcredit _ k _ | .check _ k _ | .timeReq _ k _ | .waggleTimeResp _ k _ | .hello _ k _
  | .cert _ k _ | .prove _ k _ | .finish _ k _ | .resume _ k _ | .quarantine _ k _ | .ack _ k _
  | .nak _ k _ => wfFrame k
  | .mgmtMessageFrame _ _ b | .mgmtImageData _ _ b => wfMgmt b
  | .telemetryDebugPortAccess a => wfAccess a
  | .governorPeriod p => wfSample p
  | .narrowForcedGrant _ _ waited => decide (waited.toNat ≤ 64)
  | _ => true

end Sys2Proof
end

