-- ==== Sys2Proof/Tests/Slice0.lean ====
section
/-! SUPPORT. The model's own tests: checks of the well-formedness, and for every statement with hypotheses a
state and operands that meet them, clause by clause. -/

namespace Sys2Proof.Tests
set_option Elab.async false
open Sys2Proof.Machine

/-! ### Well-formedness -/

theorem test_wf_slot_write_refused : (Instr.mbxInboundWrite 0 250 [0, 0, 0, 0, 0, 0, 0]).wf = false := by decide
theorem test_wf_packet_refused : (Instr.tspNop 0 (List.replicate 31 0)).wf = false := by decide
theorem test_wf_frame_refused : (Instr.ack 0 (List.replicate 35 0) { corrected := 0, uncorrected := 0 }).wf = false := by decide
theorem test_wf_mgmt_refused : (Instr.mgmtImageData 0 0 (List.replicate 15 0)).wf = false := by decide
theorem test_wf_access_refused : (Instr.telemetryDebugPortAccess (.readComb (2 ^ 28))).wf = false := by decide
theorem test_wf_sample_refused :
    (Instr.governorPeriod { outsideMw := 0, periodMw := 0, meanMw := 0, maxMw := 0, activity := [], energyUj := [] }).wf = false := by decide
theorem test_wf_wait_refused : (Instr.narrowForcedGrant 0 0 65).wf = false := by decide

/-! ### Helpers -/

/-- A die in service whose Keeper is ready. -/
def served : State :=
  { State.reset with
    keeper := { State.reset.keeper with state := .ready }
    life := { State.reset.life with state := .inService, dieId := 5 }
    journal := { State.reset.journal with scanned := true } }

/-- A request in the inbound slot of a mailbox; the earlier fragments of a long body are assembled. -/
def withMessage (s : State) (n : Nat) (type : BitVec 16) (body : Bytes) : State :=
  let k := (body.length - 1) / 224
  setMailbox s n (fun b => { b with
    inbound := messageBytes type 7 0 0 k true 0 (body.drop (224 * k)), inFull := true
    assembly := if k = 0 then none
      else some { type := type, tag := 7, next := k, body := body.take (224 * k), reserved := false
                  source := requestSource s n (messageBytes type 7 0 0 k true 0 []) } })

/-- Does the Keeper take a request of a type, of which `c` holds? -/
def hears (s : State) (n : Fin 16) (type : BitVec 16) (c : State → Pending → Bool) : Bool :=
  !standing s && match takeMessage s n with | .request t p => p.type == type && c t p | _ => false

theorem heard_of_hears {s : State} {n : Fin 16} {type : BitVec 16} {c : State → Pending → Bool} (h : hears s n type c = true) :
    ∃ t p, Heard s n type t p ∧ c t p = true := by
  unfold hears at h
  cases hm : takeMessage s n <;> simp [hm] at h
  next t p => exact ⟨t, p, ⟨h.1, hm, h.2.1⟩, h.2.2⟩

/-- The same for a request that stands in mailbox 0 of a state. -/
def asks (s : State) (type : BitVec 16) (body : Bytes) (c : State → Pending → Bool) : Bool := hears (withMessage s 0 type body) 0 type c
def anyOf : State → Pending → Bool := fun _ _ => true

/-- The parts of a state are all there, and its memories canonical. -/
theorem test_sound_witness : Sound served ∧ standing served = false := by
  unfold Sound MemoriesCanonical Whole; decide +kernel

/-- A die whose link 2 is up, without protection. -/
def linked : State := setLink served 2 (fun l => { l with
  lanes := 15, state := 3, session := some [], txUnits := List.replicate 4 8, rxGranted := List.replicate 4 8 })

/-- A die whose partner port 1 is up. -/
def ported : State := setPartner served 1 (fun p => { p with state := 2, modules := 15, rate := 2, txUnits := 256 })

/-- A ring that partner port 1 fills, with two slots credited. -/
def ring0 : Ring :=
  { (default : Ring) with
    decl := { base := 0x1000, slotSize := 64, slotCount := 4, producerKind := 2, consumerKind := 0, producerIndex := 1
              tileMapped := true, starveTimeout := 1, blockTimeout := 1 }
    tokens := List.replicate 4 default, opened := true, credits := [0, 1] }

/-- An image with one region, that ring and one entry point of one slot. -/
def image0 : Image :=
  { (default : Image) with
    imageId := 77, frameMask := 1, regions := [{ base := 0x8000, size := 0x1000, kind := 0, access := 3, lineage := 0 }]
    rings := [ring0.decl], shapes := [], entries := [{ slotOffset := 0, slotCount := 1, paramLength := 0 }] }

/-- An order of the run, with a source on mailbox 0. -/
def order0 : Order :=
  { (default : Order) with number := orderNumber (BitVec.ofNat 22 (5 * 64 + 9)) 1, state := .running, run := 0, imageId := 77 }

def run0 : Run :=
  { (default : Run) with
    image := image0, ready := true, root := List.replicate 16 RootSlot.reset, rings := [ring0], order := some order0.number }

/-- A die with two stacks up, whose run 0 executes an order on frame 0. -/
def working : State :=
  { ported with
    runs := some run0 :: List.replicate 7 none
    frames := { Frame.reset with run := some 0 } :: List.replicate 7 Frame.reset
    workers := (List.range 68).map (fun i => { Worker.reset i with
      run := if i < 8 then some 0 else none, admission := .admitted, rsState := .passed })
    partners := ported.partners.map (fun p => { p with run := some 0 })
    mems := List.replicate 4 { MemPort.reset with state := 2, capacity := 32, height := 12, stackGiB := 32 }
    keeper := { ported.keeper with orders := [order0], sources := [{ source := orderSource order0.number, last := 1, ackedAt := 0 }] } }

/-- A frame with its frame check, its header fields but for these 0. -/
def frameOf (ty seq : Nat) (land pay : Bytes) : Bytes :=
  let b := natLe 1 ty ++ natLe 1 (if isAckNak ty then 0 else frameVc ty) ++ natLe 2 pay.length ++ natLe 4 seq ++ natLe 8 0 ++ padTo 16 land ++ pay
  b ++ natLe 4 (crc32c b).toNat

def cleanFec : FecReport := { corrected := 0, uncorrected := 0 }

/-- Link 2 after training, in its handshake. -/
def shaking (h : Handshake) : State := setLink served 2 (fun l => { l with
  lanes := 15, state := 2, handshake := some h, txUnits := List.replicate 4 8, rxGranted := List.replicate 4 8 })

/-- A life-cycle message has a nonce to use up. -/
def nonced (st : Lcs) : State := setLife served (fun l => { l with state := st, nonce := some (List.replicate 32 0, 0) })

/-- The working die with the bytes of its program's one slot in the image store. -/
def programmed (op : Bytes) : State :=
  { working with stackMem := memSetMany stackDefault (bytesAt (imageAddr working 1 0 0) op) [] }

/-- Run 0 changed. -/
def inRun (s : State) (f : Run → Run) : State := { s with runs := updAt s.runs 0 (fun r => r.map f) }

/-- An instruction in issue, of a format of 32 bits and one unit of one tile of 16 elements. -/
def issued0 (opcode : Nat) : Issued :=
  let d : Desc := { (default : Desc) with role := 1, fmt := 0, base := 0x2000, sizes := [16, 1, 1, 1, 1], strides := [1, 0, 0, 0, 0] }
  { (default : Issued) with
    op := { (default : PInstr) with opcode := opcode, descs := [d, { d with role := 0 }, { d with role := 0 }, { d with role := 0 }, { d with role := 0 }] }
    sizes := List.replicate 5 [16, 1, 1, 1, 1]
    tiling := { ext := [16, 1, 1, 1, 1], shape := [16, 1, 1], counts := [1, 1, 1, 1, 1], q := 16 }, units := [0], chunk := 16 }

/-- The working die with an instruction in issue, whose unit worker 0 holds. -/
def holding (opcode : Nat) : State :=
  setWorker (inRun working (fun r => { r with issued := [issued0 opcode] })) 0 (fun w => { w with held := [{ (default : Held) with run := 0 }] })

/-- The working die with an instruction in issue, whose unit forager 0 has. -/
def moving (opcode : Nat) (f : Move → Move) (g : Issued → Issued) : State :=
  setForager (inRun working (fun r => { r with issued := [g (issued0 opcode)] })) 0 (fun _ => { moves := [f (default : Move)], faulted := false })


/-! ### The framework -/

theorem test_idle_witness : State.reset.pending = [] ∧ standing State.reset = false := by decide
/-- A die with a thermal trip and a command that waits. -/
def trippedDie : State := { State.reset with pins := { State.reset.pins with tripped := true }, pending := [.journalScan] }
theorem test_tripped_witness : trippedDie.pins.tripped = true ∧ (∀ c ∈ trippedDie.pending, endsTrip c = false)
    ∧ Instr.stackSupplyLoss ∉ trippedDie.pending ∧ Completes (step trippedDie) := by
  refine ⟨by decide, by decide, by decide, ⟨_, rfl⟩⟩
theorem test_standing_witness : standing trippedDie = true ∧ outsideClocks .journalScan = false := by decide
theorem test_fuses_witness : Completes (step State.reset) := ⟨_, rfl⟩

/-! ### Witnesses: transports, messages and the register window -/

set_option maxRecDepth 100000 in
theorem test_slots_witness :
    let full := setMailbox served 0 (fun b => { b with inFull := true, outFull := true, queue := [{ bytes := [], completion := none }] })
    let ready := fun n => setMailbox served n (fun b => { b with queue := [{ bytes := [1], completion := none }] })
    (getMailbox served 0).inFull = false ∧ (getMailbox full 0).inFull = true ∧ (getMailbox full 0).outFull = true
      ∧ (∀ n ∈ [0, 3, 9, 15], (getMailbox (ready n) n).outFull = false ∧ (getMailbox (ready n) n).queue = [{ bytes := [1], completion := none }])
      ∧ (∀ n < 24, linkUp (getLink served n) = false) ∧ nth served.keeper.sessEnable 0 = false
      ∧ nth (setKeeper served (fun k => { k with sessEnable := [true] })).keeper.sessEnable 0 = true := by decide +kernel

set_option maxRecDepth 100000 in
theorem test_fragments_witness :
    let m := messageBytes 0x0010 7 0 0 0 false 0 (List.replicate 224 1)
    let bad := messageBytes 0x0010 7 0 0 3 true 0 []
    let a : Assembly := { type := 0x0010, tag := 7, next := 1, body := List.replicate 224 1, reserved := false, source := 0 }
    let s := setMailbox served 0 (fun b => { b with inFull := true, inbound := m })
    (getMailbox s 0).inFull = true ∧ s.keeper.state ≠ .rom ∧ s.life.change = none ∧ (getMailbox s 0).queue.length < 64
      ∧ (getMailbox s 0).arrived = [] ∧ msgCrcOk m = true ∧ msgLength m = 224 ∧ knownRequest (msgType m) = true ∧ msgLast m = false
      ∧ msgIndex m = 0 ∧ msgTag m = a.tag ∧ msgIndex bad = 3 ∧ msgIndex bad ≠ a.next ∧ a.body.length + 224 ≤ 73728
      ∧ msgCrcOk (overlay m 40 [9]) = false := by decide +kernel

set_option maxRecDepth 100000 in
theorem test_i3c_witness :
    i3cStatic served < 128 ∧ i3cWritable 0x1100 = true ∧ i3cWritable 0 = false ∧ field (natLe 4 0x1300 ++ natLe 4 1) 0 4 = 0x1300
      ∧ served.i3c.refused = false ∧ served.i3c.dynamic = none := by decide +kernel

set_option maxRecDepth 100000 in
theorem test_mgmt_witness :
    let s := setKeeper served (fun k => { k with sessEnable := [true] })
    let h := [2, 0] ++ natLe 2 1 ++ natLe 4 0 ++ natLe 8 0 ++ ([7] : Bytes)
    let b := overlay h 4 (natLe 4 (crc32c h).toNat)
    let g := [1, 9] ++ natLe 2 256 ++ natLe 12 0 ++ List.replicate 256 (0 : BitVec 8)
    let f := overlay g 4 (natLe 4 (crc32c g).toNat)
    sessionOf s 0 0 = some 0 ∧ (crc32c (zeroField b 4 4)).toNat = field b 4 4 ∧ field b 0 1 = 2 ∧ field b 2 2 = 1 ∧ b.length = 17
      ∧ (crc32c (zeroField f 4 4)).toNat = field f 4 4 ∧ field f 1 1 = 9 ∧ f.length = 272 ∧ sessionOf s 1 0 = none
      ∧ slotBusy s 7 = false ∧ asks served 0x0010 (natLe 16 7 ++ [1, 2]) anyOf = true
      ∧ asks served 0x0010 (natLe 16 8 ++ [1, 2]) anyOf = true := by decide +kernel

set_option maxRecDepth 100000 in
theorem test_other_dies_witness :
    let inner := messageBytes 0x0001 1 0 0 0 true 0 []
    let far := { linked with routes := [(9, 2)] }
    asks served 0x0003 (natLe 8 9 ++ inner) (fun t p => innerCode t (p.body.drop 8) == 0 && 24 ≤ routeOf served (field p.body 0 2)) = true
      ∧ asks served 0x0003 (natLe 8 9 ++ overlay inner 40 [1]) (fun t p => innerCode t (p.body.drop 8) != 0) = true
      ∧ asks far 0x0003 (natLe 8 9 ++ inner) (fun t p => innerCode t (p.body.drop 8) == 0 && routeOf far (field p.body 0 2) == 2
          && linkUp (getLink far 2) && (getLink far 2).txQueue.isEmpty) = true
      ∧ (match takeMessage (setMailbox served 14 (fun b => { b with inFull := true, inbound := messageBytes 0x8001 1 (5 * 64 + 9) 0 0 true 0 [] })) 14 with
          | .foreign _ m => sourceMailbox (field m 8 4 % 2 ^ 22 % 64) == some 0 && field m 8 4 % 2 ^ 22 / 64 == 5
          | _ => false) = true := by decide +kernel

set_option maxRecDepth 100000 in
theorem test_registers_witness :
    (getWorker served 0).run = none ∧ (getWorker (setWorker served 1 (fun w => { w with run := some 0 })) 1).run = some 0
      ∧ (0x228#32).toNat % 4 = 0 := by decide +kernel

set_option maxRecDepth 100000 in
theorem test_status_witness :
    asks served 0x0001 [] anyOf = true ∧ asks served 0x0400 [] anyOf = true
      ∧ asks served 0x0100 (padTo 8 [0, 7]) (fun _ p => field p.body 0 1 == 0 && field p.body 1 1 == 7) = true
      ∧ asks served 0x0100 (padTo 8 [1, 3]) (fun _ p => field p.body 0 1 == 1 && field p.body 1 1 == 3) = true
      ∧ asks served 0x0100 (padTo 8 [0, 8]) (fun _ p => field p.body 1 1 == 8) = true
      ∧ asks served 0x0200 (padTo 8 [23]) (fun _ p => field p.body 0 1 == 23) = true
      ∧ asks served 0x0200 (padTo 8 [24]) (fun _ p => field p.body 0 1 == 24) = true
      ∧ asks served 0x0300 [] anyOf = true ∧ asks served 0x0311 [] anyOf = true := by decide +kernel

set_option maxRecDepth 100000 in
theorem test_window_reads_witness :
    let q := fun (a c off : Nat) => natLe 1 a ++ natLe 1 0 ++ natLe 2 c ++ natLe 4 off
    asks served 0x0040 (q 0 0 0x1000) anyOf = true ∧ asks served 0x0040 (q 0 48 0x1000) (fun _ _ => !pageRangeBad 0x1000 48) = true
      ∧ asks served 0x0040 (q 0 49 0x1000) anyOf = true ∧ asks served 0x0040 (q 0 3 0x4000) (fun _ _ => !pageRangeBad 0x4000 3) = true
      ∧ asks served 0x0040 (q 1 1 0x180) (fun _ p => windowWorker served (field p.body 1 1) == some 0 && !workerRangeBad 0x180 1) = true
      ∧ asks served 0x0040 (q 1 1 0x220) (fun _ p => (windowWorker served (field p.body 1 1)).isSome) = true
      ∧ asks served 0x0040 (q 1 49 0x180) anyOf = true := by decide +kernel

set_option maxRecDepth 100000 in
theorem test_window_writes_witness :
    let q := fun (a c off : Nat) => natLe 1 a ++ natLe 1 0 ++ natLe 2 c ++ natLe 4 off ++ List.replicate (4 * c) 0
    let busy := setWorker served 0 (fun w => { w with run := some 0 })
    let reach := fun (t : State) (p : Pending) => ((aliasNumbers t p).bind (reachAll t)).isSome
    asks served 0x0041 (q 0 1 0x4108) anyOf = true ∧ asks served 0x0041 (q 0 1 0x3008) (fun _ _ => !pageRangeBad 0x3008 1) = true
      ∧ asks served 0x0041 (q 1 1 0x180) (fun t p => reach t p && !untouchable t 0 && !workerRangeBad 0x180 1) = true
      ∧ asks served 0x0041 (q 2 1 0x180) reach = true ∧ asks served 0x0041 (q 3 1 0x180) (fun t p => (aliasNumbers t p).isSome) = true
      ∧ asks served 0x0041 (q 4 1 0x180) (fun t p => (aliasNumbers t p).isSome) = true
      ∧ asks busy 0x0041 (q 1 1 0x180) (fun t p => reach t p && untouchable busy 0) = true
      ∧ asks served 0x0041 (q 1 1 0x182) (fun _ _ => workerRangeBad 0x182 1) = true := by decide +kernel

set_option maxRecDepth 100000 in
theorem test_groups_links_witness :
    let w := setWorker served 3 (fun x => { x with rsState := .testing })
    let r := fun (es : Bytes) => natLe 2 0 ++ natLe 2 0 ++ natLe 4 es.length ++ es
    let ctl := fun (i a : Nat) => natLe 1 i ++ natLe 1 a ++ natLe 6 0
    let q := setLink served 5 (fun l => { l with state := 5 })
    let held := setLink served 5 (fun l => { l with run := some 0 })
    asks served 0x0042 (padTo 24 [7]) (fun _ p => field p.body 0 1 < 8) = true ∧ asks served 0x0042 (padTo 24 [8]) anyOf = true
      ∧ asks served 0x0050 (padTo 8 [1, 63]) (fun t p => (windowWorker t (field p.body 1 1)).isSome) = true
      ∧ asks served 0x0050 (padTo 8 [1, 68]) (fun t p => (windowWorker t (field p.body 1 1)).isNone) = true
      ∧ asks w 0x0050 (padTo 8 [1, 3]) (fun t _ => (getWorker t 3).rsState == .testing) = true
      ∧ asks served 0x0201 (r []) anyOf = true ∧ asks served 0x0201 (r [23, 0x1E]) anyOf = true ∧ asks served 0x0201 (r [24]) anyOf = true
      ∧ (∀ a ∈ [1, 2, 3, 4], asks served 0x0202 (ctl 24 a) (fun _ p => field p.body 1 1 == a) = true
          ∧ asks served 0x0202 (ctl 23 a) (fun _ p => field p.body 1 1 == a) = true)
      ∧ (getLink q 5).state = 5#3 ∧ (getLink served 5).state ≠ 5#3 ∧ bit (getLink served 5).cfg.toNat 10 = true
      ∧ (getLink held 5).run.isSome = true ∧ (getLink served 5).run = none := by decide +kernel

/-! ### Witnesses: time, power and the partner ports -/

set_option maxRecDepth 100000 in
theorem test_time_requests_witness :
    let src : SourceState := { freshSource .pps with qualified := true, offset := 5 }
    let s := setTime served (fun t => { t with sources := [src] })
    let early := setTime served (fun t => { t with sources := [{ src with offset := -1 }] })
    asks served 0x0301 (padTo 16 [1, 3]) (fun _ p => field p.body 1 1 ≤ 3) = true
      ∧ asks served 0x0301 (padTo 16 [1, 4]) (fun _ p => 3 < field p.body 1 1) = true
      ∧ asks served 0x0301 (padTo 16 [2]) anyOf = true ∧ asks served 0x0301 (padTo 16 [3]) anyOf = true
      ∧ asks s 0x0301 (padTo 16 [4]) (fun t _ => bestOf t.time.sources == some src && !anyResident t) = true
      ∧ (0 : Int) ≤ src.offset ∧ asks served 0x0301 (padTo 16 [4]) (fun t _ => bestOf t.time.sources == none) = true
      ∧ asks early 0x0301 (padTo 16 [4]) (fun t _ => (bestOf t.time.sources).any (fun x => x.offset < 0)) = true := by decide +kernel

set_option maxRecDepth 100000 in
theorem test_streams_witness :
    let full := setTime served (fun t => { t with comps := List.replicate 16 .flow })
    let marked := setTime served (fun t => { t with comps := updAt t.comps 4 (fun _ => .mark 9 1 320) })
    let streaming := setTime served (fun t => { t with comps := updAt t.comps 4 (fun _ => .stream 12 18 10) })
    let open_ := fun (st kind period : Nat) => natLe 1 1 ++ natLe 1 st ++ natLe 1 kind ++ natLe 1 0 ++ natLe 4 period
    asks served 0x0330 (padTo 16 [1]) (fun t _ => (freeComparator t).isSome) = true
      ∧ asks full 0x0330 (padTo 16 [1]) (fun t _ => (freeComparator t).isNone) = true
      ∧ nth marked.time.comps 4 = .mark 9 1 320 ∧ nth streaming.time.comps 4 = .stream 12 18 10
      ∧ streaming.telem.buffer.length + 3 ≤ 4096
      ∧ asks served 0x0320 (open_ 12 16 10) anyOf = true ∧ asks served 0x0320 (open_ 0 19 1000000) anyOf = true
      ∧ asks served 0x0320 (open_ 13 16 10) anyOf = true ∧ asks served 0x0320 (open_ 0 20 10) anyOf = true
      ∧ asks served 0x0320 (open_ 0 16 9) anyOf = true ∧ asks streaming 0x0320 (open_ 12 18 10) anyOf = true
      ∧ asks streaming 0x0320 (padTo 8 [2, 12]) anyOf = true ∧ asks served 0x0320 (padTo 8 [2, 12]) anyOf = true
      ∧ asks served 0x0320 (padTo 8 [2, 13]) anyOf = true := by decide +kernel

set_option maxRecDepth 100000 in
theorem test_log_witness :
    let s := { working with telem := { working.telem with buffer := [List.replicate 64 0] } }
    let d := { s with telem := { s.telem with dropped := 2 } }
    let rd := fun (c : Nat) => natLe 8 0 ++ natLe 2 c ++ natLe 6 0
    s.telem.buffer = [List.replicate 64 0] ∧ s.journal.scanned = true ∧ stackUp s 0 = true ∧ 0 < d.telem.dropped ∧ s.telem.dropped = 0
      ∧ stackUp served 0 = false ∧ stackUp served 2 = false ∧ (∀ x ∈ s.telem.records, s.telem.next < x.1 + 2 ^ 26)
      ∧ asks served 0x0321 (rd 0) anyOf = true ∧ asks served 0x0321 (rd 1) anyOf = true ∧ asks served 0x0321 (rd 1024) anyOf = true
      ∧ asks served 0x0321 (rd 1025) anyOf = true := by decide +kernel

set_option maxRecDepth 100000 in
theorem test_hive_time_witness :
    let pps : SourceState := { freshSource .pps with qualified := true, lastPulse := some 0 }
    let ptp : SourceState := { freshSource .ptp with qualified := true, grandmaster := 6 }
    let scanned := setTime served (fun t => { t with scanAt := some 0 })
    let two := setTime served (fun t => { t with sources := [pps, ptp], inForce := some .ptp, joined := true, syncRefLocked := true, now := 100000 * 65536 })
    let sess := setKeeper served (fun k => { k with sessEnable := [true] })
    scanned.time.joined = false ∧ scanned.time.scanAt.isSome = true ∧ bit scanned.time.cfg.toNat 3 = true
      ∧ bestSource two = some pps ∧ two.time.inForce = some .ptp ∧ sourceRank pps < sourceRank (findSource two .ptp)
      ∧ bestSource served = none ∧ pinIsStep two = false ∧ two.time.syncRefLocked = true
      ∧ (findSource two .pps).lastPulse = some 0 ∧ 0 + 100000 * 65536 ≤ two.time.now
      ∧ nth sess.keeper.sessEnable 0 = true ∧ sessionAddr sess 0 = 0 ∧ bits sess.time.cfg.toNat 15 8 = 0
      ∧ (findSource two .ptp).grandmaster = 6 := by decide +kernel

set_option maxRecDepth 100000 in
theorem test_governor_witness :
    let idle := setFrame served 3 (fun f => { f with gateRequested := true })
    let busy := setWorker idle 24 (fun w => { w with wait := some { ring := 0, seq := 0, producer := false } })
    let up := setPower served (fun p => { p with vddCommanded := true, targetVclk := 1 })
    standing served = false ∧ served.keeper.state ≠ .rom
      ∧ (getFrame idle 3).gateRequested = true ∧ (getFrame idle 3).recovering = false
      ∧ (∀ w ∈ frameWorkers idle 3, (getWorker idle w).held = [] ∧ (getWorker idle w).wait = none)
      ∧ (∃ w ∈ frameWorkers busy 3, (getWorker busy w).wait ≠ none)
      ∧ up.power.targetVclk < up.power.vclk ∧ up.power.vddCommanded = true ∧ State.reset.keeper.state = .rom := by decide +kernel

set_option maxRecDepth 100000 in
theorem test_flow_witness :
    let pt := fun (t cap f : Nat) => natLe 8 t ++ natLe 2 cap ++ natLe 2 0 ++ natLe 2 f ++ natLe 2 0
    let body := fun (start : Nat) (ps : List Bytes) => natLe 8 start ++ natLe 2 ps.length ++ natLe 6 0 ++ ps.flatten
    let ok := body 5 [pt 5 100 0, pt 9 1440 0]
    let q : FlowPoint := { time := 5, cap := 100, slew := 0, edge := false, notify := false, edgeAt := none }
    let s := setPower served (fun p => { p with points := [q] })
    let step := { setPower served (fun p => { p with points := [{ q with edge := true, time := 0 }] }) with pins := { served.pins with straps := 1 } }
    asks served 0x0310 ok (fun _ p => ascending ((List.range 2).map (pointAt p.body))
        && (List.range 2).all (fun i => !pointReserved p.body i) && ((List.range 2).map (pointAt p.body)).all (fun x => 5 ≤ x.time && !x.edge)) = true
      ∧ asks served 0x0310 (body 5 [pt 4 100 0]) (fun _ p => (pointAt p.body 0).time < 5) = true
      ∧ asks s 0x0310 (body 6 []) anyOf = true ∧ asks served 0x0310 (body 0 [pt 9 1 0, pt 5 1 0]) (fun _ p => !ascending ((List.range 2).map (pointAt p.body))) = true
      ∧ asks (setPower served (fun p => { p with points := List.replicate 256 { q with time := 0 } })) 0x0310 (body 5 [pt 5 100 0]) anyOf = true
      ∧ s.power.points = [q] ∧ q.edge = false ∧ nextIncrease s = none
      ∧ (nextIncrease (setPower s (fun p => { p with sched := 50, inForce := 50 }))).isSome = true
      ∧ pinIsStep step = true ∧ pinIsStep served = false
      ∧ indexWhere step.power.points (fun q => q.edge && q.edgeAt.isNone && q.time * 65536 ≤ step.time.now) = some 0 := by decide +kernel

set_option maxRecDepth 100000 in
theorem test_partner_packets_witness :
    let nop := tspBytes 8 0 0 0 0 0 0 []
    let opens := tspBytes 6 3 0 0 0 0 0 (natLe 4 64 ++ natLe 2 4 ++ natLe 2 0)
    let close := tspBytes 7 3 0 0 0 0 0 []
    let credit := tspBytes 2 3 0 0 0 0 0 (natLe 8 0 ++ natLe 8 5)
    let mail := tspBytes 3 0 0 0 0 0 0 (List.replicate 256 0)
    let ack := tspBytes 4 0 0 0 0 0 0 []
    let busy := tspBytes 5 0 0 0 0 0 0 []
    let ring := setPartner ported 1 (fun p => { p with rings := [{ id := 3, slotSize := 64, slotCount := 4, credits := [], nextSeq := 0, fresh := false }] })
    let full := setMailbox ported 2 (fun b => { b with inFull := true, outFull := true })
    (∀ k ∈ [nop, opens, close, credit, mail, ack, busy], tspCheck k = true)
      ∧ TspTakes ported 1 8 nop ∧ TspTakes ported 1 6 opens ∧ TspTakes ported 1 7 close ∧ TspTakes ported 1 2 credit ∧ TspTakes ported 1 3 mail
      ∧ TspTakes ported 1 4 ack ∧ TspTakes ported 1 5 busy ∧ (∃ g ∈ (getPartner ring 1).rings, g.id = field credit 1 1)
      ∧ (getMailbox ported 2).inFull = false ∧ (getMailbox full 2).inFull = true ∧ (getMailbox full 2).outFull = true := by
  unfold TspTakes; decide +kernel

set_option maxRecDepth 100000 in
theorem test_partner_upkeep_witness :
    let due := setPartner ported 1 (fun p => { p with owed := 3, unacked := [none] })
    portUp (getPartner ported 1) = true ∧ portUp (getPartner served 1) = false ∧ portsOpen served = true ∧ portsOpen State.reset = false
      ∧ 0 < (getPartner due 1).owed ∧ (getPartner served 1).owed = 0 ∧ (getPartner due 1).unacked = [none]
      ∧ (getPartner served 1).run = none := by decide +kernel

set_option maxRecDepth 100000 in
theorem test_partner_violations_witness :
    let bad := tspBytes 8 0 4 0 0 0 0 []
    let wrong := overlay (tspBytes 2 0 0 0 0 0 0 (List.replicate 16 0)) 40 [1]
    let poor := setPartner ported 1 (fun p => { p with rxFree := 0 })
    portUp (getPartner ported 1) = true ∧ tspMalformed bad = true ∧ field bad 0 1 = 8
      ∧ tspCost (bad.length - 32) ≤ (getPartner ported 1).rxFree ∧ (getPartner poor 1).rxFree < tspCost (bad.length - 32)
      ∧ tspMalformed wrong = false ∧ tspCheck wrong = false ∧ field wrong 0 1 = 2 ∧ (getPartner working 1).run = some 0 := by decide +kernel

set_option maxRecDepth 100000 in
theorem test_partner_tiles_witness :
    let data := fun (ring seq flags : Nat) => tspBytes 1 ring flags seq 0 (if flags = 3 then crcMore 0 (List.replicate 64 1) else 0) 0 (List.replicate 64 1)
    TspTakes working 1 1 (data 0 1 0) ∧ TspTakes working 1 1 (data 0 3 3) ∧ TspTakes working 1 1 (data 5 0 0)
      ∧ receiveRing working 1 0 = some (0, 0) ∧ receiveRing working 1 5 = none ∧ getRun working 0 = some run0 ∧ nth run0.rings 0 = ring0
      ∧ field (data 0 1 0) 8 5 ∈ ring0.credits ∧ field (data 0 3 3) 8 5 ∉ ring0.credits ∧ ring0.partials = []
      ∧ 0 + ((data 0 1 3).drop 32).length ≤ ring0.decl.slotSize ∧ tspCheck (data 0 1 3) = true ∧ bit (field (data 0 1 3) 2 2) 0 = true
      ∧ (crcMore 0 ((data 0 1 3).drop 32)).toNat = field (data 0 1 3) 20 4 ∧ ring0.passes = [] ∧ 1 % ring0.decl.slotCount < ring0.tokens.length := by
  unfold TspTakes; decide +kernel

/-! ### Witnesses: links, resets, life cycle and firmware -/

set_option maxRecDepth 100000 in
theorem test_frame_reception_witness :
    let k := frameOf 14 1 [] (padTo 8 [1, 2])
    let old := frameOf 14 0xFFFFFFFF [] (padTo 8 [1, 2])
    let far := frameOf 14 5 [] (padTo 8 [1, 2])
    let bad := frameOf 14 1 [] (padTo 8 [1, 2, 0, 1])
    let poor := setLink linked 2 (fun l => { l with rxGranted := List.replicate 4 0 })
    ¬ Listening served 2 ∧ Listening linked 2 ∧ field k 0 1 = 14 ∧ wholeFrame k cleanFec = true ∧ wholeFrame (overlay k 33 [9]) cleanFec = false
      ∧ openFrame linked (getLink linked 2) k = some (padTo 8 [1, 2]) ∧ (getLink linked 2).txQueue = [] ∧ field k 4 4 = (getLink linked 2).rxSeq
      ∧ seqOlder (field old 4 4) 1 = true ∧ seqOlder (field far 4 4) 1 = false ∧ frameMalformed bad 0 = true ∧ frameMalformed k 0 = false
      ∧ nth (getLink poor 2).rxGranted (frameVc 14) < frameUnits k.length
      ∧ (getLink linked 2).malTimes.length + 1 < bits (getLink linked 2).cfg.toNat 23 16 := by
  unfold Listening; decide +kernel

set_option maxRecDepth 100000 in
theorem test_frame_effects_witness :
    let ring := setLink linked 2 (fun l => { l with
      peerRings := [{ id := 1, slotSize := 64, slotCount := 2, nextSeq := 0, credits := [] }]
      replay := [{ seq := 1, bytes := frameOf 7 1 [] (natLe 8 0), sends := 1 }], timeSentAt := some 0 })
    let busy := setMailbox linked 14 (fun b => { b with inFull := true })
    let nak := frameOf 16 0 [] []
    let opens := natLe 4 64 ++ natLe 2 2 ++ natLe 2 0 ++ natLe 8 0
    FrameTaken linked 2 15 (frameOf 15 0 [] []) cleanFec [] ∧ FrameTaken ring 2 16 nak cleanFec [] ∧ (∀ f ∈ (getLink ring 2).replay, f.sends < 7)
      ∧ FrameTaken linked 2 14 (frameOf 14 1 [] (padTo 8 [1, 2])) cleanFec (padTo 8 [1, 2])
      ∧ FrameTaken linked 2 3 (frameOf 3 1 [63] opens) cleanFec opens ∧ (getLink linked 2).run = none
      ∧ FrameTaken linked 2 4 (frameOf 4 1 [63] []) cleanFec []
      ∧ FrameTaken ring 2 5 (frameOf 5 1 [1] (natLe 8 0 ++ natLe 8 3)) cleanFec (natLe 8 0 ++ natLe 8 3)
      ∧ FrameTaken linked 2 6 (frameOf 6 1 (natLe 2 0 ++ natLe 2 1) []) cleanFec [] ∧ field (frameOf 6 1 (natLe 2 0 ++ natLe 2 1) []) 18 2 ∉ expectedPlans linked 2
      ∧ FrameTaken busy 2 2 (frameOf 2 1 (natLe 2 5 ++ natLe 2 8 ++ [3]) (List.replicate 256 0)) cleanFec (List.replicate 256 0)
      ∧ (getMailbox busy 14).inFull = true ∧ (getMailbox busy 14).arrived.length < 64
      ∧ FrameTaken linked 2 2 (frameOf 2 1 (natLe 2 6 ++ natLe 2 8 ++ [1]) (List.replicate 256 0)) cleanFec (List.replicate 256 0)
      ∧ FrameTaken linked 2 7 (frameOf 7 1 [] (natLe 8 4)) cleanFec (natLe 8 4) ∧ linkUp (getLink linked 2) = true
      ∧ FrameTaken ring 2 8 (frameOf 8 1 [] (padTo 40 [])) cleanFec (padTo 40 []) ∧ (getLink ring 2).timeSentAt = some 0
      ∧ field (padTo 40 []) 0 4 = (getLink ring 2).timeExchange.toNat ∧ field (padTo 40 []) 4 1 < 254 := by
  unfold FrameTaken Listening
  repeat' refine And.intro ?_ ?_
  all_goals first | exact Or.inl (by decide +kernel) | decide +kernel

set_option maxRecDepth 100000 in
theorem test_handshake_witness :
    let hello : Bytes := padTo 256 (natLe 2 1 ++ [0, 0] ++ natLe 2 9 ++ natLe 2 0 ++ natLe 4 1 ++ natLe 4 8)
    let h : Handshake := { (default : Handshake) with ownHello := hello }
    let heard : Handshake := { h with peerHello := hello }
    let chained : Handshake := { heard with chainOk := true }
    let proved : Handshake := { chained with proveOk := true }
    let late := setLink served 2 (fun l => { l with state := 6, retryAt := some 0 })
    let cert := frameOf 10 1 [] (List.replicate 8 1)
    FrameTaken (shaking h) 2 9 (frameOf 9 1 [] hello) cleanFec hello ∧ h.peerHello = [] ∧ field hello 4 2 ≠ (shaking h).life.dieId.toNat
      ∧ bit (getLink (shaking h) 2).peerCfg.toNat 16 = false ∧ max (field h.ownHello 3 1) (field hello 3 1) ≤ max (field h.ownHello 2 1) (field hello 2 1)
      ∧ FrameTaken (shaking heard) 2 10 cert cleanFec (List.replicate 8 1) ∧ heard.peerHello ≠ [] ∧ (heard.peerChain ++ List.replicate 8 1).length = field heard.peerHello 12 4
      ∧ FrameTaken (shaking heard) 2 10 (frameOf 10 1 [] [1]) cleanFec [1]
      ∧ FrameTaken (shaking chained) 2 11 (frameOf 11 1 [] (List.replicate 96 0)) cleanFec (List.replicate 96 0) ∧ chained.proveOk = false
      ∧ FrameTaken (shaking proved) 2 12 (frameOf 12 1 [] (List.replicate 16 0)) cleanFec (List.replicate 16 0)
      ∧ FrameTaken linked 2 12 (frameOf 12 1 [] (List.replicate 16 0)) cleanFec (List.replicate 16 0) ∧ (getLink linked 2).handshake = none
      ∧ (getLink late 2).state = 6#3 ∧ (getLink late 2).retryAt.isSome = true ∧ (getLink served 2).state.toNat < 2 ∧ linksOpen served = true
      ∧ bit (getLink served 2).cfg.toNat 10 = true := by
  unfold FrameTaken Listening
  repeat' refine And.intro ?_ ?_
  all_goals first | exact Or.inl (by decide +kernel) | decide +kernel

set_option maxRecDepth 100000 in
theorem test_link_upkeep_witness :
    let f : TxFrame := { seq := 1, bytes := [], sends := 1 }
    let waiting := setLink linked 2 (fun l => { l with replay := [f], ackDue := true, heldFrames := [natLe 2 8] })
    let tired := setLink linked 2 (fun l => { l with replay := [{ f with sends := 7 }] })
    let lost := setLink working 2 (fun l => { l with lostAt := some 0, run := some 0 })
    let box := setMailbox waiting 14 (fun b => { b with inFull := true })
    let resume : Bytes := [0, 0, 0, 0]
    (getLink served 2).lanes = 0 ∧ (getLink linked 2).lanes ≠ 0 ∧ (getLink waiting 2).replay ≠ [] ∧ (∀ f ∈ (getLink waiting 2).replay, f.sends < 7)
      ∧ (∃ f ∈ (getLink tired 2).replay, 7 ≤ f.sends) ∧ (getLink served 2).state ≠ 5#3
      ∧ (getLink lost 2).lostAt.isSome = true ∧ (getLink lost 2).session = none ∧ (getLink lost 2).run = some 0 ∧ getRun lost 0 = some run0
      ∧ run0.order.isSome = true ∧ run0.fault = none ∧ run0.paused = false ∧ run0.recovering = false
      ∧ (∀ m < 24, (getLink linked m).txQueue = []) ∧ (getMailbox box 14).inFull = true ∧ (getMailbox box 14).arrived.length < 64
      ∧ (getLink box 2).heldFrames = [natLe 2 8]
      ∧ FrameTaken linked 2 13 (frameOf 13 1 [] resume) cleanFec resume ∧ field resume 1 1 = 0
      ∧ FrameTaken (shaking default) 2 13 (frameOf 13 1 [] resume) cleanFec resume ∧ linkUp (getLink (shaking default) 2) = false := by
  unfold FrameTaken Listening
  repeat' refine And.intro ?_ ?_
  all_goals first | exact Or.inl (by decide +kernel) | decide +kernel

set_option maxRecDepth 100000 in
theorem test_resets_witness :
    let low := { served with pins := { served.pins with porstLow := true } }
    served.pins.porstLow = false ∧ served.pins.tripped = false ∧ low.pins.porstLow = true ∧ standing served = false := by decide +kernel

set_option maxRecDepth 100000 in
theorem test_firmware_start_witness :
    State.reset.keeper.state = .rom ∧ bit State.reset.pins.straps.toNat 3 = false ∧ candidate State.reset 0 = false ∧ candidate State.reset 1 = false
      ∧ standing State.reset = false ∧ served.keeper.state ≠ .rom := by decide +kernel

set_option maxRecDepth 100000 in
theorem test_trials_witness :
    let p : Pending := { mailbox := 0, type := 0x0532, tag := 1, source := 329, body := padTo 8 [1] }
    let trial := setLife served (fun l => { l with trial := true, readyAt := some 0 })
    let boot := setKeeper trial (fun k => { k with state := .boot })
    let act := setLife served (fun l => { l with activating := some (p, true) })
    let single := setKeeper served (fun k => { k with standbyOk := false })
    trial.life.trial = true ∧ trial.life.readyAt.isSome = true ∧ trial.keeper.state = .ready ∧ boot.keeper.state = .boot ∧ boot.life.trial = true
      ∧ served.life.activating = none ∧ served.keeper.standbyOk = true ∧ served.keeper.activePair < 2 ∧ act.life.activating = some (p, true)
      ∧ single.keeper.standbyOk = false ∧ single.life.activating = none ∧ served.keeper.state ≠ .failed := by decide +kernel

theorem test_comb_upkeep_witness :
    (getFrame served 7).heirloom = [] ∧ 7 * 2 ^ 25 + 1023 * 2 ^ 15 + 120 < 2 ^ 28 ∧ bankOf (7 * 2 ^ 25 + 1023 * 2 ^ 15 + 120) = 255
      ∧ (7 * 2 ^ 25 + 1023 * 2 ^ 15 + 120) % 2 ^ 25 / 2 ^ 15 = 1023 ∧ (7 * 2 ^ 25 + 1023 * 2 ^ 15 + 120) % 128 = 8 * 15 := by decide +kernel

theorem test_debug_port_witness :
    debugPermitted State.reset = true ∧ debugPermitted served = false ∧ poisoned State.reset (2 ^ 28 - 1) = false ∧ standing State.reset = false := by
  decide +kernel

set_option maxRecDepth 100000 in
theorem test_life_cycle_witness :
    let p : Pending := { mailbox := 0, type := 0x0511, tag := 1, source := 329, body := padTo 201 [3] }
    let ch := setLife served (fun l => { l with change := some (p, 3) })
    asks served 0x0510 [] anyOf = true ∧ asks served 0x0511 (padTo 201 [4]) (fun t _ => t.life.nonce == none) = true
      ∧ asks (nonced .inService) 0x0511 (padTo 201 [3]) (fun t _ => t.life.nonce == some (List.replicate 32 0, 0)) = true
      ∧ ch.life.change = some (p, 3) ∧ p.mailbox < 16 ∧ served.life.change = none := by decide +kernel

set_option maxRecDepth 100000 in
theorem test_keys_debug_witness :
    let busy := { nonced .blank with runs := working.runs }
    asks served 0x0512 (padTo 201 [0x10]) (fun t _ => t.life.nonce == none) = true
      ∧ asks (nonced .inService) 0x0512 (padTo 201 [0x11]) (fun t _ => t.life.nonce.isSome) = true
      ∧ asks served 0x0520 (padTo 201 [1]) (fun t _ => t.life.nonce == none) = true
      ∧ asks (nonced .inService) 0x0520 (padTo 201 [1]) (fun t _ => t.life.state == .inService) = true
      ∧ asks busy 0x0520 (padTo 201 [2]) (fun t _ => anyResident t) = true
      ∧ asks (nonced .returned) 0x0520 (padTo 201 [1]) (fun t _ => !anyResident t) = true
      ∧ asks (nonced .blank) 0x0520 (padTo 201 [2]) (fun t p => !anyResident t && field p.body 0 1 == 2) = true
      ∧ asks served 0x0500 ([1, 0, 0, 0] ++ natLe 4 5) (fun t p => field p.body 4 2 == t.life.dieId.toNat) = true
      ∧ asks served 0x0500 ([1, 0, 0, 0] ++ natLe 4 6) (fun t p => field p.body 4 2 != t.life.dieId.toNat) = true := by decide +kernel

set_option maxRecDepth 100000 in
theorem test_firmware_service_witness :
    let p : Pending := { mailbox := 0, type := 0x0532, tag := 1, source := 329, body := padTo 8 [1] }
    let act := fun b => setLife served (fun l => { l with activating := some (p, b) })
    asks served 0x0530 ([1, 0, 0, 0] ++ natLe 4 0 ++ [7]) anyOf = true ∧ asks served 0x0530 ([0, 0, 0, 0] ++ natLe 4 0) anyOf = true
      ∧ asks served 0x0530 ([1, 0, 0, 0] ++ natLe 4 0x400000 ++ [7]) (fun _ p => bankSize < field p.body 4 4 + (p.body.drop 8).length) = true
      ∧ asks served 0x0531 (padTo 8 []) (fun t _ => commitRefusal t != 0) = true
      ∧ asks served 0x0532 (padTo 8 [1]) (fun t _ => !trialCommitted t (otherBank t)) = true
      ∧ asks served 0x0532 (padTo 8 [2]) (fun t _ => !trialCommitted t (otherBank t)) = true
      ∧ (act false).life.activating = some (p, false) ∧ (act true).life.activating = some (p, true) ∧ p.mailbox < 16
      ∧ asks served 0x0540 ([1, 0, 0, 0] ++ natLe 4 0 ++ [7]) (fun _ p => field p.body 4 4 + (p.body.drop 8).length ≤ siteSize) = true
      ∧ asks served 0x0540 ([1, 0, 0, 0] ++ natLe 4 0x40000 ++ [7]) (fun _ p => siteSize < field p.body 4 4 + (p.body.drop 8).length) = true
      ∧ asks served 0x0540 ([2, 0, 0, 0] ++ natLe 4 0) anyOf = true := by decide +kernel

/-! ### Witnesses: images, orders and work -/

set_option maxRecDepth 100000 in
theorem test_image_loading_witness :
    let j : LoadJob := { req := { mailbox := 0, type := 0x0011, tag := 1, source := 329, body := padTo 8 [] }, run := 0, slot := 0 }
    let loading := setKeeper working (fun k => { k with loads := [j] })
    let scrub := setFrame loading 0 (fun f => { f with scrubBusy := true, scrubTodo := [(0, 128)] })
    let many := setKeeper loading (fun k => { k with archive := List.replicate 4097 default })
    asks loading 0x0011 (padTo 8 [1]) (fun t _ => t.keeper.loads != []) = true ∧ asks served 0x0011 (padTo 8 [8]) (fun t _ => t.keeper.loads == []) = true
      ∧ asks served 0x0011 (padTo 8 [7]) (fun t p => (imageRefusal (imageByte t (field p.body 0 1)) 1 (fun _ _ _ => false) (userEnd t)).isSome) = true
      ∧ loading.keeper.loads = [j] ∧ getRun loading j.run = some run0 ∧ j.req.mailbox < 16
      ∧ (∀ f ∈ runFrames loading 0, (getFrame loading f).scrubBusy = false) ∧ (∃ f ∈ runFrames scrub 0, (getFrame scrub f).scrubBusy = true)
      ∧ loading.keeper.waitingLoads = [] ∧ loading.keeper.archive.length + run0.image.slots.countP (fun x => x.kind == 0) ≤ 4096
      ∧ 4096 < many.keeper.archive.length + run0.image.slots.countP (fun x => x.kind == 0)
      ∧ (getFrame working 1).scrubBusy = false := by decide +kernel

set_option maxRecDepth 100000 in
theorem test_unloading_witness :
    let done := setKeeper working (fun k => { k with orders := [{ order0 with state := .complete }] })
    asks working 0x0012 (padTo 8 [3] ++ natLe 8 77) (fun t p => (namedRun t p).isNone) = true
      ∧ asks working 0x0012 (padTo 8 [0] ++ natLe 8 77) (fun t p => (namedRun t p).isSome && openOrders t 0 != []) = true
      ∧ asks done 0x0012 (padTo 8 [0] ++ natLe 8 77) (fun t p => (namedRun t p).isSome && openOrders t 0 == []) = true
      ∧ asks working 0x0013 (padTo 8 [0] ++ natLe 8 77) (fun t p => (namedRun t p).isSome) = true
      ∧ asks working 0x0013 (padTo 8 [0] ++ natLe 8 78) (fun t p => (namedRun t p).isNone) = true := by decide +kernel

set_option maxRecDepth 100000 in
theorem test_tables_witness :
    let j : TableJob := { req := { mailbox := 0, type := 0x0030, tag := 1, source := 329, body := [] }, run := 0, slot := 15, gen := 3, file := [1] }
    let job := setKeeper working (fun k => { k with tableJobs := [j], archive := [{ gen := 3, file := [1], copies := [0, 2], place := 0 }] })
    let kept := setKeeper working (fun k => { k with archive := [{ gen := 3, file := [1], copies := [0, 2], place := 0 }] })
    let held := setWorker kept 0 (fun w => { w with root := updAt w.root 0 (fun x => { x with a := { gen := 3, file := [1] } }) })
    let named := setKeeper kept (fun k => { k with orders := [{ order0 with startGens := [3] }] })
    asks working 0x0030 (padTo 104 [0, 0]) (fun t p => tableLoadRefusal t p != 0) = true
      ∧ asks working 0x0030 (padTo 104 [5, 0]) (fun t p => tableLoadRefusal t p == 0x0521) = true
      ∧ job.keeper.tableJobs = [] ++ j :: [] ∧ shadowBound job j.run j.slot = false ∧ j.slot < 16 ∧ j.req.mailbox < 16
      ∧ (∀ w ∈ runWorkers job 0, (getWorker job w).root.length = 16)
      ∧ asks working 0x0031 (padTo 8 [4]) (fun t _ => t.keeper.archive.all (fun e => e.gen != 4)) = true
      ∧ asks kept 0x0031 (padTo 8 [3, 0, 0, 0, 1]) (fun t _ => !generationHeld t 3 && t.keeper.archive.any (fun e => e.gen == 3)) = true
      ∧ asks held 0x0031 (padTo 8 [3]) (fun t _ => generationHeld t 3 && t.keeper.archive.any (fun e => e.gen == 3)) = true
      ∧ asks named 0x0031 (padTo 8 [3]) (fun t _ => generationNamed t 3 && !generationHeld t 3) = true
      ∧ generationHeld working 9 = false ∧ generationNamed working 9 = false := by decide +kernel

set_option maxRecDepth 100000 in
theorem test_acceptance_witness :
    let body := fun (image seq : Nat) => natLe 8 image ++ natLe 8 seq ++ natLe 8 0 ++ List.replicate 576 (0 : BitVec 8)
    let j : AcceptJob := { req := { mailbox := 0, type := 0x0020, tag := 1, source := orderSource order0.number, body := [] }, order := order0 }
    let accepting := setKeeper working (fun k => { k with accept := [j] })
    let fresh := setKeeper accepting (fun k => { k with orders := [] })
    let told := setKeeper working (fun k => { k with orders := [{ order0 with notice := 2 }] })
    asks working 0x0020 (body 77 1) (fun t p => lastSequence t p.source == some 1 && t.keeper.accept.isEmpty
        && submitSeq p == 1 && (findOrder t (submitNumber p)).isSome) = true
      ∧ asks working 0x0020 (body 77 3) (fun t p => lastSequence t p.source == some 1 && submitSeq p == 3) = true
      ∧ asks working 0x0020 (body 78 2) (fun t p => lastSequence t p.source == some 1 && submitSeq p == 2 && field p.body 0 8 != 77) = true
      ∧ asks working 0x0020 (body 77 2) (fun t p => submitSeq p == 2
          && submitCode t run0 (orderFrom (submitNumber p) p.body 0 (stamp t).2) true == 0) = true
      ∧ accepting.keeper.accept = [j] ∧ findOrder accepting j.order.number = some order0 ∧ findOrder fresh j.order.number = none ∧ j.req.mailbox < 16
      ∧ (∃ o ∈ working.keeper.orders, orderSource o.number = orderSource order0.number ∧ o.notice < 2)
      ∧ (∀ o ∈ told.keeper.orders, orderSource o.number = orderSource order0.number → 2 ≤ o.notice) ∧ told.keeper.accept = [] := by decide +kernel

set_option maxRecDepth 100000 in
theorem test_order_queries_witness :
    let n := natLe 8 order0.number.toNat
    let map := fun (count first : Nat) => n ++ natLe 4 0 ++ natLe 4 count ++ natLe 8 first
    asks working 0x0021 (natLe 8 1) (fun t p => (findOrder t (BitVec.ofNat 64 (field p.body 0 8))).isNone) = true
      ∧ asks working 0x0021 n (fun t p => (findOrder t (BitVec.ofNat 64 (field p.body 0 8))).any (fun o => o.run < 256 && o.acceptStamp < 2 ^ 80)) = true
      ∧ asks working 0x0401 (natLe 8 1 ++ natLe 16 1) (fun t p => (findOrder t (BitVec.ofNat 64 (field p.body 0 8))).isNone) = true
      ∧ asks working 0x0401 (map 0 0) anyOf = true ∧ asks working 0x0401 (map 1 0) (fun _ _ => (progressOf order0 0).units == 0) = true
      ∧ asks working 0x0401 (map 524288 0) anyOf = true ∧ asks working 0x0401 (map 524289 0) anyOf = true := by decide +kernel

set_option maxRecDepth 100000 in
theorem test_completions_witness :
    let src := orderSource order0.number
    let finished := setKeeper working (fun k => { k with orders := [{ order0 with state := .complete }] })
    let sent := setKeeper working (fun k => { k with
      orders := [{ order0 with number := orderNumber (BitVec.ofNat 22 (5 * 64 + 10)) 1, state := .complete, notice := 1 }], sessEnable := [true] })
    let acked := setJournal working (fun j => { j with pendingAcks := [order0.number] })
    (firstUnacked served src).isNone = true ∧ (firstUnacked finished src).isSome = true ∧ ended { order0 with state := .complete } = true
      ∧ sourceHeld (inRun finished (fun r => { r with order := none })) src = false ∧ (firstUnacked working src).isSome = true ∧ ended order0 = false
      ∧ (firstUnacked sent (BitVec.ofNat 22 (5 * 64 + 10))).isSome = true ∧ replyMailbox sent (BitVec.ofNat 22 (5 * 64 + 10)) = 9
      ∧ nth sent.keeper.sessEnable 0 = true ∧ (getMailbox sent 9).queue = []
      ∧ acked.journal.pendingAcks ≠ [] ∧ working.journal.pendingAcks = [] ∧ working.journal.scanned = true
      ∧ (∀ r ∈ working.journal.records, r.lsn < working.journal.nextLsn) ∧ State.reset.journal.scanned = false := by decide +kernel

set_option maxRecDepth 100000 in
theorem test_notice_ack_witness :
    let told := setKeeper working (fun k => { k with orders := [{ order0 with state := .complete, notice := 1 }] })
    let bad := setMailbox served 0 (fun b => { b with inFull := true, inbound := messageBytes 0x0022 1 0 0 0 true 0 [1] })
    asks told 0x0022 (natLe 8 order0.number.toNat) (fun t _ => (findOrder t order0.number).any (fun o => o.notice == 1)) = true
      ∧ asks working 0x0022 (natLe 8 order0.number.toNat) (fun t _ => (findOrder t order0.number).any (fun o => o.notice != 1)) = true
      ∧ (getMailbox bad 0).inFull = true ∧ field (getMailbox bad 0).inbound 0 2 = 0x0022
      ∧ (match takeMessage bad 0 with | .done _ => true | _ => false) = true ∧ (getMailbox bad 0).assembly = none := by decide +kernel

set_option maxRecDepth 100000 in
theorem test_stops_witness :
    let f := fun c : BitVec 16 => inRun working (fun r => { r with fault := some { code := c, instr := 0, unit := 0 } })
    let waits := setKeeper working (fun k => { k with orders := [{ order0 with state := .partial_, awaiting := true }] })
    let boot := setJournal (setKeeper working (fun k => { k with state := .boot })) (fun j => { j with scanned := false })
    let body := fun a => natLe 8 order0.number.toNat ++ [a] ++ natLe 7 0
    faultClass 0x0230 = 1 ∧ faultClass 0x0401 = 3 ∧ quietRun (f 0x0230) 0 = true ∧ (getRun (f 0x0401) 0).any (fun r => r.fault.isSome) = true
      ∧ findOrder (f 0x0401) order0.number = some order0 ∧ order0.run = 0 ∧ order0.state = .running ∧ quietRun (holding 0) 0 = false
      ∧ (∀ a ∈ [1, 2, 3], asks waits 0x0402 (body a) (fun t p => field p.body 8 1 == a.toNat && (readyRun t { order0 with state := .partial_, awaiting := true }).isSome) = true)
      ∧ asks working 0x0402 (body 1) (fun t _ => (findOrder t order0.number).any (fun o => !o.awaiting)) = true
      ∧ asks served 0x0402 (body 3) (fun t _ => (findOrder t order0.number).isNone) = true
      ∧ restartable (runImage waits run0) run0.image 0 = true
      ∧ boot.keeper.state = .boot ∧ boot.journal.scanned = false ∧ (∃ m ∈ pairStacks boot.journal.activePair, stackUp boot m = true) := by decide +kernel

set_option maxRecDepth 100000 in
theorem test_order_start_witness :
    let s := inRun (setKeeper (programmed [0x98]) (fun k => { k with orders := [{ order0 with state := .accepted }] })) (fun r => { r with order := none })
    (getRun s 0).any (fun r => r.ready && r.order.isNone) = true ∧ nextOrder s 0 = some { order0 with state := .accepted }
      ∧ sourceHeld s (orderSource order0.number) = false ∧ (∀ f ∈ runFrames s 0, (getFrame s f).scrubBusy = false)
      ∧ (∀ x ∈ ordersOf s 0, x.state ≠ .running ∧ x.state ≠ .partial_) ∧ findOrder s order0.number = some { order0 with state := .accepted }
      ∧ nextOrder working 0 = none ∧ memWf stackDefault s.stackMem = true := by decide +kernel

/-- Bytes of a descriptor of 16 elements. -/
def descBytes (a : Nat) : Bytes := natLe 4 a ++ natLe 14 (16 + 2 ^ 20 + 2 ^ 40 + 2 ^ 60 + 2 ^ 80) ++ natLe 4 1 ++ natLe 16 0 ++ natLe 2 0

/-- Bytes of an instruction with two operands. -/
def instrBytes (opcode a b : Nat) (roles imm1 : Nat) : Bytes :=
  natLe 8 opcode ++ natLe 2 roles ++ natLe 2 0 ++ natLe 4 1 ++ natLe 4 1 ++ natLe 4 1 ++ natLe 4 imm1 ++ natLe 4 0 ++ descBytes a ++ descBytes b

set_option maxRecDepth 100000 in
theorem test_issue_witness :
    let look := fun (op : Bytes) (c : List (BitVec 16) → List Nat → PInstr → Bool) =>
      (issuable (programmed op) 0).any (fun x =>
        c (issueFailures (programmed op) x.1 x.2.2.2.2) (owedUnits x.2.1 x.2.2.2.1 (issuedUnits (programmed op) x.1 x.2.2.2.2)) x.2.2.2.2)
    look (instrBytes 0x70 0x2000 0x3000 17 0) (fun f u o => f.isEmpty && u == [0] && macroOp 0x70 0x70 o) = true
      ∧ look (instrBytes 0x00 0x2000 0x3000 17 0) (fun f u o => f.isEmpty && !u.isEmpty && macroOp 0x00 0x1F o) = true
      ∧ look [0x70] (fun f u _ => f.isEmpty && u.isEmpty) = true
      ∧ look (instrBytes 0x60 0x2000 0x3000 17 0) (fun f _ _ => !f.isEmpty) = true
      ∧ look (instrBytes 0x81 0x1000 0 1 0) (fun f u o => f.isEmpty && !u.isEmpty && (ringOf run0.image (nth o.descs 0)) == some 0) = true
      ∧ (issuable served 0).isNone = true := by decide +kernel

set_option maxRecDepth 100000 in
theorem test_fences_witness :
    let fence := instrBytes 0x98 0 0 0 0
    let check := instrBytes 0x82 0 0 0 4
    let seen := setKeeper (programmed fence) (fun k => { k with orders := [{ order0 with fenceGens := [(0, [5])] }] })
    let kept := setKeeper (programmed fence) (fun k => { k with orders := [{ order0 with fenceGens := [(0, [])] }] })
    (issuable (programmed fence) 0).any (fun x => !x.2.2.2.2.micro && x.2.2.2.2.opcode == 0x98 && x.1.savedGens.isEmpty
        && (x.2.1.fenceGens.find? (fun f => f.1 == x.2.2.2.1)).isNone) = true
      ∧ (issuable seen 0).any (fun x => bit x.2.2.2.2.imm0.toNat 0 && (archivedBank seen 5).gen == 0 && genInForce seen 0 0 != 5) = true
      ∧ (issuable kept 0).any (fun x => (x.2.1.fenceGens.find? (fun f => f.1 == x.2.2.2.1)) == some (0, [])) = true
      ∧ (issuable (programmed check) 0).any (fun x => x.2.2.2.2.opcode == 0x82 && nth x.2.2.1 x.2.2.2.1 == x.2.2.2.2
          && bit x.2.2.2.2.imm1.toNat 2) = true := by decide +kernel

set_option maxRecDepth 100000 in
theorem test_units_witness :
    let u : UnitRef := { instr := 0, unit := 0 }
    let issued := inRun working (fun r => { r with issued := [issued0 0] })
    let here := setFrame issued 0 (fun f => { f with tally := [u] })
    let there := setFrame issued 1 (fun f => { f with run := some 0, replay := [u] })
    let i : Issued := { issued0 0x68 with op := { (issued0 0x68).op with imm1 := 0x80001000 } }
    let close := setWorker (inRun working (fun r => { r with issued := [i] })) 0 (fun w => { w with held := [{ (default : Held) with run := 0, ref := { instr := 0, unit := 1 } }] })
    let sampled := fun o => setWorker working 0 (fun w => { w with sample := some { (default : Sample) with run := 0, order := o } })
    let g : GuardRec := { (default : GuardRec) with topLevel := 1, layerTag := 4, count := 2 }
    let trip := fun lv => inRun working (fun r => { r with trip := some { (default : Trip) with layerTag := 4, level := lv }, image := { image0 with guards := [g] } })
    grantRun here 0 = some 0 ∧ (getFrame here 0).replay ++ (getFrame here 0).tally = [u] ∧ unitOpen here 0 (getWorker here 0) u = true
      ∧ (getFrame there 0).replay ++ (getFrame there 0).tally = [] ∧ 0 ^^^ 1 = 1 ∧ (getFrame there 1).run = some 0 ∧ (getFrame there 1).replay = [u]
      ∧ grantRun served 0 = none ∧ (getWorker here 0).rewrite = none
      ∧ watchOn i.op = true ∧ closeIndex i.tiling = 1 ∧ 1 ∉ i.units ∧ (getRun close 0).any (fun r => findIssued r 0 == some i && r.order == some order0.number) = true
      ∧ (findOrder close order0.number).isSome = true ∧ close.poison = [] ∧ i.op.micro = false ∧ close.telem.buffer.length + 3 ≤ 4096
      ∧ runOrder (sampled order0.number) 0 = order0.number ∧ runOrder (sampled 0) 0 ≠ 0 ∧ (getWorker (sampled 0) 0).run = some 0
      ∧ (getWorker working 0).sample = none
      ∧ (getRun (trip 0) 0).any (fun r => r.trip.any (fun t => t.level < g.topLevel) && r.image.guards.find? (fun g => g.entry == order0.entry && g.layerTag == 4) == some g) = true
      ∧ (getRun (trip 1) 0).any (fun r => r.trip.any (fun t => g.topLevel ≤ t.level) && r.fault.isNone) = true
      ∧ (∀ w < 68, (getWorker (trip 0) w).held = []) ∧ (∀ f ∈ runFrames (trip 0) 0, (getFrame (trip 0) f).replay = []) := by
  repeat' refine And.intro ?_ ?_
  all_goals decide +kernel

set_option maxRecDepth 100000 in
theorem test_tiles_witness :
    let blocked := inRun (holding 0) (fun r => { r with issued := [{ issued0 0 with op := { (issued0 0).op with descs := [{ nth (issued0 0).op.descs 0 with base := 0x1000 }] } }] })
    let copies := setWorker (holding 0) 0 (fun w => { w with held := [{ (default : Held) with copyOut := true, homes := [(0, 0x2000)], crc := crc32c [0] }] })
    (heldTile (holding 0) 0).any (fun x => blockedSlot x.2.1 x.2.2 0 == none && unitTiles x.2.2.op x.2.2.tiling 0 == [0]
        && (tileWork (tileCtx (holding 0) x.2.1 x.2.2 0) x.2.2 0 0 true true []).2.1.faults.isEmpty && (roleDescs x.2.2.op 3).isEmpty
        && (consumedRings x.2.1.image x.2.2.op).isEmpty && (producedRings x.2.1.image x.2.2.op).isEmpty) = true
      ∧ (heldTile blocked 0).any (fun x => blockedSlot x.2.1 x.2.2 0 == some { ring := 0, seq := 0, producer := false }) = true
      ∧ heldTile working 0 = none ∧ (getWorker (holding 0) 0).admission = .admitted ∧ (getFrame (holding 0) 0).recovering = false
      ∧ (getWorker copies 0).held.find? Held.copyOut = some { (default : Held) with copyOut := true, homes := [(0, 0x2000)], crc := crc32c [0] }
      ∧ (getWorker copies 0).admission ≠ .fenced ∧ crc32c [memGet 0 (getWorker copies 0).cells commitSlot] = crc32c [0]
      ∧ crc32c [0] ≠ (default : Held).crc := by
  repeat' refine And.intro ?_ ?_
  all_goals decide +kernel

set_option maxRecDepth 100000 in
theorem test_moves_witness :
    let onStackOp := fun (i : Issued) => { i with op := { i.op with descs := i.op.descs.set 1 { nth i.op.descs 0 with role := 2 } } }
    let copy := moving 0x70 id id
    let blocked := moving 0x70 id (fun i => { i with op := { i.op with descs := i.op.descs.set 0 { nth i.op.descs 0 with base := 0x1000 } } })
    let queue := setForager (setFrame copy 0 (fun f => { f with moves := [{ instr := 0, unit := 0 }] })) 0 (fun _ => default)
    let load := moving 0x71 (fun m => { m with stage := .reading, acks := 1 }) onStackOp
    let store := moving 0x72 (fun m => { m with stage := .writing, acks := 1 }) onStackOp
    let lost := setMemPort (moving 0x71 id onStackOp) 0 (fun p => { p with state := 4 })
    let full := setMemPort (moving 0x71 id onStackOp) 0 (fun p => { p with outstanding := 8192 })
    let broken := setKeeper (setForager working 0 (fun _ => { moves := [], faulted := true })) (fun k => { k with recoveries := [{ (default : Recovery) with domain := 4, inst := 0 }] })
    (getForager copy 0).faulted = false ∧ (getForager copy 0).moves.find? (fun m => m.stage == .waiting) = some default
      ∧ (getRun copy 0).any (fun r => (findIssued r 0).any (fun i => moveBlocked copy 0 r i 0 == none && (moveReadSlots r i 0).isEmpty && (moveWriteSlots r i 0).isEmpty)) = true
      ∧ (getRun blocked 0).any (fun r => (findIssued r 0).any (fun i => (moveBlocked blocked 0 r i 0).isSome)) = true ∧ copy.poison = []
      ∧ mayTake queue 0 0 0 { instr := 0, unit := 0 } = true ∧ (getFrame queue 0).run = some 0 ∧ (getForager queue 0).moves.length < 32
      ∧ (stackMove load 0 0 .reading).isSome = true ∧ (stackMove store 0 0 .writing).isSome = true ∧ stackMove copy 0 0 .reading = none
      ∧ (getMemPort lost 0).state = 4#3 ∧ stackUp full 0 = true ∧ 8192 < (getMemPort full 0).outstanding + stackAccesses run0 (issued0 0x71) 0
      ∧ (getMemPort (moving 0x71 id onStackOp) 0).outstanding + 1 ≤ 8192
      ∧ (getForager broken 0).faulted = true ∧ (findRecovery broken 4 0).isSome = true := by
  repeat' refine And.intro ?_ ?_
  all_goals decide +kernel

set_option maxRecDepth 100000 in
theorem test_timeouts_witness :
    let wt := fun p : Bool => ({ ring := 0, seq := 0, producer := p } : Wait)
    let worker := fun p => setWorker (holding 0) 0 (fun w => { w with wait := some (wt p) })
    let forager := fun p => moving 0x70 (fun m => { m with wait := some (wt p) }) id
    let fsend := moving 0x73 id id
    let csend := setLink (moving 0x80 id (fun i => { i with op := { i.op with imm0 := 2 } })) 2 (fun l => { l with state := 3 })
    (∀ p ∈ [true, false], (getWorker (worker p) 0).wait = some (wt p) ∧ (getWorker (worker p) 0).held = [default] ∧ waitTimed (worker p) 0 (some 0) (wt p) = true
        ∧ (getForager (forager p) 0).moves = [] ++ { (default : Move) with wait := some (wt p) } :: [] ∧ waitTimed (forager p) 0 none (wt p) = true)
      ∧ (creditWaiter fsend 0 0x73).any (fun x => x.1.sent == 0) = true ∧ (getPartner fsend 0).rings = [] ∧ findRecovery fsend 7 0 = none
      ∧ (creditWaiter csend 0 0x80).isSome = true ∧ linkUp (getLink csend 2) = true ∧ peerRing (getLink csend 2) 0 = none
      ∧ creditWaiter working 0 0x73 = none := by
  repeat' refine And.intro ?_ ?_
  all_goals decide +kernel

set_option maxRecDepth 100000 in
theorem test_worker_service_witness :
    let p : Pending := { mailbox := 0, type := 0x0050, tag := 1, source := 329, body := padTo 8 [1] }
    let tested := setWorker working 0 (fun w => { w with rsState := .testing, bist := some p })
    let asked := setWorker working 0 (fun w => { w with bist := some p })
    let at_ := fun a => setWorker working 0 (fun w => { w with admission := a })
    let waits := setWorker working 64 (fun w => { w with admission := .waiting })
    let sub := setKeeper waits (fun k => { k with substitutions := [(0, 3, false, false)] })
    let stands := setWorker (setWorker waits 3 (fun w => { w with serves := none, admission := .waiting })) 64 (fun w => { w with serves := some 3 })
    (getWorker asked 0).bist.isSome = true ∧ (getWorker asked 0).rsState ≠ .testing ∧ holdsRowState asked 0 = false
      ∧ (getWorker tested 0).rsState = .testing ∧ (getWorker tested 0).bist = some p ∧ p.mailbox < 16 ∧ spareFree working (spareOf 0) = true
      ∧ (getWorker working 0).rsState ≠ .testing ∧ nextAdmission .scrubbing = some .reloading ∧ nextAdmission .admitted = none
      ∧ (getWorker (at_ .scrubbing) 0).failures = 0 ∧ (getWorker (setWorker (at_ .resync) 0 (fun w => { w with failures := 1 })) 0).failures = 1
      ∧ (getWorker (at_ .waiting) 0).serves.isSome = true ∧ (getFrame working (workerFrame working 0)).ungated = true ∧ working.power.leadUngated = []
      ∧ sub.keeper.substitutions.find? (fun x => x.1 == 0) = some (0, 3, false, false) ∧ servingOf sub 3 = some 3 ∧ (getWorker sub 64).admission = .waiting
      ∧ (getWorker sub 3).held = [] ∧ (getWorker sub 3).wait = none
      ∧ (getWorker stands 64).serves = some 3 ∧ (getWorker stands 3).serves = none ∧ (getWorker stands 3).admission = .waiting
      ∧ stands.keeper.serviced = [] ∧ (getWorker working 64).serves = none := by
  repeat' refine And.intro ?_ ?_
  all_goals decide +kernel

set_option maxRecDepth 100000 in
theorem test_recovery_witness :
    let reset := fun (c d i : Nat) => [BitVec.ofNat 8 c, BitVec.ofNat 8 d, BitVec.ofNat 8 i] ++ natLe 5 0
    let serve := fun (a w : Nat) => natLe 1 a ++ natLe 1 w ++ natLe 6 0
    let waits := setWorker working 64 (fun w => { w with admission := .notAdmitted, serves := some 3 })
    let again := setFrame working 0 (fun f => { f with recovering := true, rebuild := [0] })
    let spare := setMemPort working 0 (fun p => { p with spareLeft := 2 })
    let alone := setKeeper working (fun k => { k with standbyOk := false })
    let replay := fun g => inRun (setKeeper working (fun k => { k with orders := [{ order0 with startGens := g }] })) (fun r => { r with savedGens := [(1, 1)] })
    (∀ d ∈ [1, 2, 3, 4, 5, 6, 7, 9], asks working 0x0500 (reset 2 d 1) (fun t _ => resettable t d 1) = true)
      ∧ asks working 0x0500 (reset 2 8 1) (fun t _ => !resettable t 8 1) = true ∧ asks linked 0x0500 (reset 2 8 2) (fun t _ => resettable t 8 2) = true
      ∧ asks working 0x0500 (reset 3 0 67) (fun t _ => resettable t 1 67) = true
      ∧ asks working 0x0550 (serve 1 63) (fun t _ => spareFree t (spareOf 63) && (getWorker t 63).serves == some 63) = true
      ∧ asks working 0x0550 (serve 1 64) anyOf = true ∧ asks waits 0x0550 (serve 5 1) (fun t _ => !spareFree t (spareOf 1)) = true
      ∧ asks working 0x0550 (serve 5 67) (fun t _ => (getWorker t 67).serves.isNone) = true ∧ asks working 0x0550 (serve 5 68) anyOf = true
      ∧ asks working 0x0550 (serve 2 3) (fun t _ => (getWorker t 67).serves.isNone) = true ∧ asks waits 0x0550 (serve 2 0) (fun t _ => (getWorker t 64).serves == some 3) = true
      ∧ asks working 0x0550 (serve 3 1) (fun t _ => (getPartner t 1).state != 0 && (findRecovery t 7 1).isNone) = true
      ∧ asks working 0x0550 (serve 3 7) (fun t _ => (getPartner t 7).state == 0) = true
      ∧ asks working 0x0550 (serve 4 0) (fun t _ => (getMemPort t 0).state == 2 && (getMemPort t 0).spareLeft == 0) = true
      ∧ asks spare 0x0550 (serve 4 0) (fun t _ => (getMemPort t 0).spareLeft != 0) = true ∧ asks working 0x0550 (serve 4 4) anyOf = true
      ∧ (getFrame again 0).outOfService = false ∧ (getFrame again 0).recovering = true ∧ (getFrame working 0).recovering = false
      ∧ 0 ∈ runFrames again 0 ∧ 0 ∈ (getFrame again 0).rebuild ∧ (getRun again 0).any (fun r => 0 < r.rings.length) = true
      ∧ alone.keeper.standbyOk = false ∧ alone.life.activating = none
      ∧ (getRun (replay []) 0).any (fun r => (orderOf (replay []) r).isSome && !r.savedGens.isEmpty && !r.replayReady) = true
      ∧ nth (gensAt { order0 with startGens := [9] } 0) 0 = 9 ∧ (archivedBank (replay [9]) 9).gen = 0 := by
  repeat' refine And.intro ?_ ?_
  all_goals decide +kernel

set_option maxRecDepth 100000 in
theorem test_stacks_witness :
    let at_ := fun st => setMemPort working 0 (fun p => { p with state := st, marked := [5], spareLeft := 2 })
    let copies := setJournal working (fun j => { j with copying := true })
    let busy := setMemPort working 0 (fun p => { p with outstanding := 1 })
    let alone := setMemPort working 2 (fun p => { p with state := 4 })
    (getMemPort served 0).state = 0 ∧ portsOpen served = true ∧ (32 ≤ 128 ∧ 128 % 16 = 0) ∧ stackUp working 0 = true ∧ stackUp served 0 = false
      ∧ (getMemPort working 0).outstanding = 0 ∧ 0 < (getMemPort busy 0).outstanding ∧ (getMemPort (at_ 4) 0).state = 4 ∧ (getMemPort working 0).state ≠ 4
      ∧ (getMemPort (at_ 3) 0).state = 3 ∧ 0 ∈ pairStacks working.journal.activePair ∧ working.journal.scanned = true
      ∧ (∃ c ∈ pairStacks working.journal.activePair, c ≠ 0 ∧ stackUp working c = true)
      ∧ ¬ (∃ c ∈ pairStacks alone.journal.activePair, c ≠ 0 ∧ stackUp alone c = true)
      ∧ copies.journal.copying = true ∧ (∃ c ∈ pairStacks copies.journal.activePair, stackUp copies c = true)
      ∧ (∀ c ∈ pairStacks (1 - copies.journal.activePair), stackUp copies c = true) := by decide +kernel

set_option maxRecDepth 100000 in
theorem test_landing_witness :
    let g : Ring := { ring0 with decl := { ring0.decl with producerKind := 3, producerIndex := 2 }, armed := [{ seq := 1, instr := 0, chunk := 0, plan := 4 }] }
    let s := setLink (inRun working (fun r => { r with image := { image0 with rings := [g.decl] }, rings := [g], issued := [issued0 0x81] })) 2
      (fun l => { l with lanes := 15, state := 3, session := some [], run := some 0, txUnits := List.replicate 4 8, rxGranted := List.replicate 4 8 })
    let pay := fun n => List.replicate n (1 : BitVec 8)
    let land := fun (seq plan last : Nat) (p : Bytes) => [BitVec.ofNat 8 0, BitVec.ofNat 8 last] ++ natLe 2 plan ++ natLe 5 seq ++ natLe 1 0 ++ natLe 2 0
      ++ natLe 4 (if last = 1 then (crcMore 0 p).toNat else 0)
    let size := chunkBytes (issued0 0x81) 0
    let take := fun (l p : Bytes) => FrameTaken s 2 1 (frameOf 1 1 l p) cleanFec p
    take (land 1 4 1 (pay size)) (pay size) ∧ take (land 9 4 1 (pay 64)) (pay 64)
      ∧ (landingRings image0 2 = [] ∧ (getRun s 0).any (fun r => (landingRings r.image 2)[0]? == some 0 && nth r.rings 0 == g
          && findIssued r 0 == some (issued0 0x81)) = true)
      ∧ g.opened = true ∧ 1 ∈ g.credits ∧ 9 ∉ g.credits ∧ g.armed.find? (fun a => a.seq == 1) = some { seq := 1, instr := 0, chunk := 0, plan := 4 }
      ∧ g.partials = [] ∧ g.passes = [] ∧ 1 % g.decl.slotCount < g.tokens.length ∧ field (frameOf 1 1 (land 1 4 1 (pay size)) (pay size)) 20 5 = 1
      ∧ (crcMore 0 (pay size)).toNat = field (frameOf 1 1 (land 1 4 1 (pay size)) (pay size)) 28 4 := by
  unfold FrameTaken Listening
  repeat' refine And.intro ?_ ?_
  all_goals first | exact Or.inl (by decide +kernel) | decide +kernel

/-! ### Witnesses: rejected messages, latched reads and every step -/

set_option maxRecDepth 100000 in
theorem test_rejection_witness :
    let bad := setMailbox served 15 (fun b => { b with inFull := true, inbound := messageBytes 0x0022 1 0 0 0 true 0 [1] })
    let full := setMailbox bad 15 (fun b => { b with queue := List.replicate 64 default })
    rowMailbox (.noticeAck 15) = some 15 ∧ standing bad = false ∧ (match takeMessage bad 15 with | .done _ => true | _ => false) = true
      ∧ (getMailbox served 15).inFull = false ∧ State.reset.keeper.state = .rom ∧ standing State.reset = false
      ∧ 64 ≤ (getMailbox full 15).queue.length ∧ standing full = false := by
  repeat' refine And.intro ?_ ?_
  all_goals decide +kernel

set_option maxRecDepth 100000 in
theorem test_steps_witness :
    standing served = false
      ∧ (match exec .timNowLoRead { served with pending := [.timNowLoRead] } with | .next t => t.pending == [.timNowLoRead] | _ => false) = true
      ∧ (match step { served with pending := [.timNowLoRead] } with | .next t => t.pending == [] | _ => false) = true
      ∧ (match exec (.telemetryDebugPortAccess (.readComb (2 ^ 28))) served with | .next _ => false | _ => (standing served == false)) = true := by
  repeat' refine And.intro ?_ ?_
  all_goals decide +kernel


/-! ### Witnesses: the clauses that later statements added -/

/-- A frame of the management network with its checksum. -/
def mgmtOf (kind k len : Nat) (body : Bytes) : Bytes :=
  let h := natLe 1 kind ++ natLe 1 k ++ natLe 2 len ++ natLe 12 0 ++ body
  overlay h 4 (natLe 4 (crc32c h).toNat)

set_option maxRecDepth 100000 in
theorem test_transports_witness :
    let poor := setPartner ported 1 (fun p => { p with txUnits := 0 })
    let m := messageBytes 0x0010 7 0 0 1 false 0 (List.replicate 224 1)
    let a : Assembly := { type := 0x0010, tag := 7, next := 1, body := List.replicate 224 1, reserved := false, source := requestSource served 0 m }
    let sess := setKeeper served (fun k => { k with sessEnable := [true] })
    let rom := { sess with keeper := { sess.keeper with state := .rom } }
    let good := fun (b : Bytes) => sessionOf sess 0 0 == some 0 && (crc32c (zeroField b 4 4)).toNat == field b 4 4
    let far := { linked with routes := [(9, 2)] }
    let held := setLink far 2 (fun l => { l with txUnits := [0, 0, 0, 0] })
    let q : TxReq := { type := 2, ctl := 0, land := [], payload := List.replicate 256 0, last := none, forward := none }
    portUp (getPartner ported 1) = true ∧ (getPartner ported 1).waiting = [] ∧ tspMay (getPartner ported 1) 256 = true
      ∧ portUp (getPartner poor 1) = true ∧ tspMay (getPartner poor 1) 256 = false ∧ portUp (getPartner served 1) = false
      ∧ served.journal.pendingAcks.length < 255 ∧ (getMailbox served 0).outCompletion = none
      ∧ requestSource served 0 m = a.source ∧ msgIndex m = a.next ∧ a.next < 330 ∧ msgLast m = false
      ∧ requestSource (setMailbox served 14 (fun b => { b with origin := 8 })) 14 m ≠ a.source
      ∧ good (mgmtOf 3 0 2 [0, 0]) = true ∧ (mgmtOf 3 0 2 [0, 0]).length = 16 + field (mgmtOf 3 0 2 [0, 0]) 2 2 ∧ field (mgmtOf 3 0 2 [0, 0]) 0 1 = 3
      ∧ good (overlay (mgmtOf 3 0 2 [0, 0]) 16 [9]) = false ∧ sessionOf served 0 0 = none ∧ field (mgmtOf 4 0 0 []) 0 1 = 4
      ∧ good (mgmtOf 1 10 256 (List.replicate 256 0)) = true ∧ field (mgmtOf 1 10 256 (List.replicate 256 0)) 1 1 ≠ 9 + 0
      ∧ sessionOf rom 0 0 = some 0 ∧ field (mgmtOf 2 0 1 [7]) 2 2 = 1 ∧ (mgmtOf 2 0 1 [7]).length = 17 ∧ rom.keeper.state = .rom
      ∧ ownAddr served = ownAddr served ∧ ownAddr served ≠ ownAddr served + 1
      ∧ (getLink far 2).txQueue = [] ∧ mayLeave (shareFull far) (getLink far 2) q = true ∧ mayLeave (shareFull held) (getLink held 2) q = false
      ∧ routeOf held 9 = 2 ∧ linkUp (getLink held 2) = true := by
  repeat' refine And.intro ?_ ?_
  all_goals decide +kernel

set_option maxRecDepth 100000 in
theorem test_register_clauses_witness :
    let hold := setLink served 5 (fun l => { l with cfg := 0 })
    let wkr := setWorker served 3 (fun w => { w with bist := some default })
    (0x1#32).toNat % 4 ≠ 0 ∧ sessionReg 0x1200 = true ∧ (0x10FC#32).toNat < 0x1100 ∧ (0x100#32).toNat ∉ [0x180, 0x184, 0x228, 0x248]
      ∧ served.workers.length = 68 ∧ asks served 0x0050 (padTo 8 [1, 3]) (fun t p => (windowWorker t (field p.body 1 1)) == some 3) = true
      ∧ (getWorker wkr 3).bist.isSome = true ∧ (getWorker served 3).bist = none ∧ (getWorker served 3).rsState ≠ .testing
      ∧ bit (getLink hold 5).cfg.toNat 10 = false ∧ (getLink linked 2).state ≠ 0#3 ∧ (getLink served 5).state = 0#3
      ∧ asks served 0x0041 (natLe 1 0 ++ natLe 1 0 ++ natLe 2 1 ++ natLe 4 0x4108 ++ natLe 4 0) anyOf = true
      ∧ asks served 0x0041 (natLe 1 0 ++ natLe 1 0 ++ natLe 2 0 ++ natLe 4 0x3008) anyOf = true := by
  repeat' refine And.intro ?_ ?_
  all_goals first | exact Or.inl (by decide +kernel) | decide +kernel

theorem test_nothing_waits_witness : NothingWaits linked ∧ QuietLinks linked ∧ getRun served 0 = none := by
  refine ⟨Or.inl ?_, ?_, ?_⟩ <;> (try unfold QuietLinks) <;> decide +kernel

set_option maxRecDepth 100000 in
theorem test_time_clauses_witness :
    let pps : SourceState := { freshSource .pps with qualified := true, lastPulse := some 0, offset := 5 }
    let ptp : SourceState := { freshSource .ptp with qualified := true, grandmaster := 6 }
    let scanned := setTime served (fun t => { t with scanAt := some 0 })
    let free := setKeeper scanned (fun k => { k with state := .recover })
    let two := setTime served (fun t => { t with sources := [pps, ptp], inForce := some .ptp, joined := true, syncRefLocked := true, now := 100000 * 65536, nextPpsSecond := some 3 })
    let early := setTime two (fun t => { t with now := 99999 * 65536 })
    let first := setTime two (fun t => { t with sources := [{ pps with lastPulse := none }, ptp] })
    let edge := { two with pins := { two.pins with straps := 1 } }
    let sess := setKeeper two (fun k => { k with sessEnable := [true] })
    (∀ x ∈ scanned.time.sources, x.qualified = false) ∧ free.keeper.state = .recover ∧ free.time.joined = false ∧ free.time.scanAt.isSome = true
      ∧ two.time.joined = true ∧ (∃ x ∈ two.time.sources, x.qualified = true) ∧ served.time.scanAt = none
      ∧ bestBut two .ptp = some pps ∧ bestBut served .ptp = none ∧ two.time.inForce = some .ptp ∧ served.time.inForce ≠ some .ptp
      ∧ pps.source ≠ .ptp ∧ sourceRank pps < sourceRank (findSource two .ptp) ∧ bestSource two = some pps
      ∧ bestSource (setTime two (fun t => { t with inForce := some .pps })) = some pps ∧ served.time.inForce = none
      ∧ (findSource early .pps).lastPulse = some 0 ∧ early.time.now < 0 + 100000 * 65536 ∧ served.time.syncRefLocked = false ∧ pinIsStep edge = true
      ∧ (findSource two .pps).lastPulse = some 0 ∧ two.time.nextPpsSecond = some 3 ∧ 0 + 100000 * 65536 ≤ two.time.now
      ∧ (findSource first .pps).lastPulse = none ∧ (∀ k < 5, nth served.keeper.sessEnable k = false)
      ∧ nth sess.keeper.sessEnable 0 = true ∧ bits sess.time.cfg.toNat 15 8 = 0 ∧ (findSource sess .ptp).grandmaster = 6 ∧ (6 : BitVec 64) ≠ 7
      ∧ EventLogged two two 35 6 = EventLogged two two 35 6 := by
  repeat' refine And.intro ?_ ?_
  all_goals first | rfl | decide +kernel

set_option maxRecDepth 100000 in
theorem test_discipline_witness :
    let x : SourceState := { freshSource .pps with qualified := true, offset := 10 ^ 9 }
    let joined := setTime served (fun t => { t with joined := true, inForce := some .ptp, cfg := 0 })
    modeAllows (bits served.time.cfg.toNat 1 0) x.source = true ∧ x.qualified = true ∧ x.excludedUntil = none ∧ 0 < x.offset
      ∧ served.time.joined = false ∧ joined.time.joined = true ∧ modeAllows (bits joined.time.cfg.toNat 1 0) x.source = true
      ∧ x.offset.natAbs ≤ 10 ^ 9 ∧ 10 ^ 9 < ({ x with offset := -(10 ^ 9) - 1 } : SourceState).offset.natAbs
      ∧ joined.time.inForce ≠ some x.source ∧ joined.time.inForce ≠ none ∧ (freshSource .pps).qualified = false := by decide +kernel

set_option maxRecDepth 100000 in
theorem test_governor_clauses_witness :
    let m : PowerSample := { outsideMw := 0, periodMw := 0, meanMw := 0, maxMw := 0, activity := List.replicate 8 0, energyUj := List.replicate 8 0 }
    let after := match exec (.governorPeriod m) served with | .next t => t | _ => served
    let loud := { m with outsideMw := 10 ^ 6 }
    let hot := match exec (.governorPeriod loud) working with | .next t => t | _ => served
    let gating := setFrame working 0 (fun f => { f with gateRequested := true })
    let paused := match exec (.frameGated 0) gating with | .next t => t | _ => served
    fits after.power.inForce (predicted after (ungatedFrames served) served.power.vclk) = true ∧ m.meanMw ≤ after.power.inForce * 250
      ∧ product (targetFor after (fitsSpare after.power.inForce)) ≤ product ((heldFrames served).length, served.power.vclk)
      ∧ fits hot.power.inForce (predicted hot (ungatedFrames working) working.power.vclk) = false
      ∧ (∀ v < 4, fits hot.power.inForce (predicted hot (ungatedFrames working) v) = false) ∧ gateSequence working ≠ []
      ∧ (getFrame served 7).run = none ∧ (getFrame served 7).ungated = true ∧ (getFrame served 7).recovering = false
      ∧ (∀ w ∈ frameWorkers gating 0, (getWorker gating w).held = [] ∧ (getWorker gating w).wait = none)
      ∧ (getRun paused 0).map Run.paused = some true ∧ served.power.alert = false
      ∧ (setPower served (fun p => { p with alert := true })).power.alert = true
      ∧ served.power.vddCommanded = false ∧ served.power.leadUngated = [] ∧ standing served = false := by
  repeat' refine And.intro ?_ ?_
  all_goals decide +kernel

set_option maxRecDepth 100000 in
theorem test_flow_clauses_witness :
    let pt := fun (t cap f : Nat) => natLe 8 t ++ natLe 2 cap ++ natLe 2 0 ++ natLe 2 f ++ natLe 2 0
    let body := fun (start : Nat) (ps : List Bytes) => natLe 8 start ++ natLe 2 ps.length ++ natLe 6 0 ++ ps.flatten
    let q : FlowPoint := { time := 0, cap := 100, slew := 0, edge := false, notify := false, edgeAt := none }
    let kept := fun (n : Nat) => setPower served (fun p => { p with points := List.replicate n { q with edge := true } })
    let step := { setPower served (fun p => { p with points := [{ q with edge := true }], lastEdge := some 0 }) with pins := { served.pins with straps := 1 } }
    let edged := setPower served (fun p => { p with points := [{ q with edge := true, edgeAt := some 0 }] })
    asks (kept 255) 0x0310 (body 5 [pt 5 100 0]) (fun t p => (t.power.points.filter (fun q => q.time < 5)).length + 1 == 256
        && ascending ((List.range 1).map (pointAt p.body)) && !pointReserved p.body 0 && !(pointAt p.body 0).edge) = true
      ∧ asks (kept 256) 0x0310 (body 5 [pt 5 100 0]) (fun t _ => decide (256 < (t.power.points.filter (fun q => q.time < 5)).length + 1)) = true
      ∧ asks served 0x0310 (body 5 [pt 5 100 1]) (fun t p => (pointAt p.body 0).edge && !pinIsStep t) = true
      ∧ served.time.now < dieInstant served { q with time := 5 } ∧ served.power.leadUngated = []
      ∧ edged.power.points = [{ q with edge := true, edgeAt := some 0 }] ∧ (step.power.points.map (fun x => (x.edge, x.edgeAt))) = [(true, none)]
      ∧ pinIsStep step = true ∧ step.power.lastEdge = some 0 ∧ step.time.now < 0 + 100000 * 65536 := by
  repeat' refine And.intro ?_ ?_
  all_goals decide +kernel

set_option maxRecDepth 100000 in
theorem test_partner_clauses_witness :
    let opens := tspBytes 6 3 0 0 0 0 0 (natLe 4 64 ++ natLe 2 4 ++ natLe 2 0)
    let credit := tspBytes 2 3 0 0 0 0 0 (natLe 8 0 ++ natLe 8 5)
    let mail := tspBytes 3 0 0 0 0 0 0 (List.replicate 256 0)
    let ring := setPartner ported 1 (fun p => { p with rings := [{ id := 3, slotSize := 64, slotCount := 4, credits := [], nextSeq := 0, fresh := true }] })
    let again := setPartner ported 1 (fun p => { p with reopened := [3] })
    let full := setMailbox ring 2 (fun b => { b with inFull := true, outFull := true })
    let poor := setPartner full 1 (fun p => { p with txUnits := 0 })
    let queued := setPartner full 1 (fun p => { p with waiting := [default] })
    (∃ x ∈ (getPartner ring 1).rings, x.id = field opens 1 1) ∧ field opens 1 1 ∈ (getPartner again 1).reopened
      ∧ ¬ ((∃ x ∈ (getPartner ported 1).rings, x.id = field opens 1 1) ∨ field opens 1 1 ∈ (getPartner ported 1).reopened)
      ∧ TspTakes ring 1 6 opens ∧ TspTakes again 1 6 opens ∧ TspTakes ring 1 2 credit ∧ maskList 64 (field credit 40 8) = [0, 2]
      ∧ (getPartner ring 1).rings.map PartnerRing.fresh = [true] ∧ TspTakes full 1 3 mail ∧ TspTakes poor 1 3 mail ∧ TspTakes queued 1 3 mail
      ∧ (getMailbox full 2).inFull = true ∧ (getPartner (tspTaken full 1 mail) 1).waiting = [] ∧ tspMay (getPartner (tspTaken full 1 mail) 1) 0 = true
      ∧ tspMay (getPartner (tspTaken poor 1 mail) 1) 0 = false ∧ (getPartner (setPartner poor 1 (fun p => { p with waiting := [default] })) 1).waiting ≠ []
      ∧ tspCheck mail = true ∧ (getMailbox full 2).outFull = true := by
  unfold TspTakes
  repeat' refine And.intro ?_ ?_
  all_goals decide +kernel

set_option maxRecDepth 100000 in
theorem test_partner_training_witness :
    let down := setPartner ported 1 (fun p => { p with state := 1 })
    let boxed := setMailbox down 2 (fun b => { b with outFull := true })
    let runs := setPartner working 1 (fun p => { p with state := 1 })
    let due := setPartner ported 1 (fun p => { p with owed := 3 })
    let queued := setPartner due 1 (fun p => { p with waiting := [default] })
    portUp (getPartner down 1) = false ∧ portsOpen down = true ∧ (getPartner down 1).run = none ∧ (getMailbox down 2).outFull = false
      ∧ (getMailbox boxed 2).outFull = true ∧ (getPartner runs 1).run = some 0 ∧ portUp (getPartner runs 1) = false
      ∧ (getRun runs 0).any (fun r => r.ready && receiveRings r.image 1 == [0] && 0 < r.rings.length) = true
      ∧ (getPartner working 1).run = some 0 ∧ (getRun working 0).any (fun r => r.fault.isNone && r.order.isSome) = true
      ∧ 0 < (getPartner due 1).owed ∧ (getPartner due 1).waiting = [] ∧ tspMay (getPartner due 1) 0 = true ∧ (getPartner queued 1).waiting ≠ []
      ∧ (getPartner ported 1).unacked = [] ∧ (getPartner ported 1).owed = 0 := by
  repeat' refine And.intro ?_ ?_
  all_goals decide +kernel

set_option maxRecDepth 100000 in
theorem test_partner_breach_witness :
    let odd := tspBytes 3 0 0 0 0 0 0 []
    let reserved := tspBytes 3 0 4 0 0 0 0 (List.replicate 256 0)
    let wrong := overlay (tspBytes 3 0 0 0 0 0 0 (List.replicate 256 0)) 40 [1]
    let last := tspBytes 1 0 3 1 0 7 0 (List.replicate 64 1)
    let broken := overlay (tspBytes 1 0 0 1 0 0 0 (List.replicate 64 1)) 40 [9]
    (∀ s ∈ [ported, working], portUp (getPartner s 1) = true ∧ tspMalformed odd = true ∧ tspReserved odd = false ∧ tspReserved reserved = true
        ∧ tspCost (reserved.length - 32) ≤ (getPartner s 1).rxFree ∧ tspMalformed wrong = false ∧ tspCheck wrong = false ∧ field wrong 0 1 = 3)
      ∧ (getPartner ported 1).run = none ∧ (getPartner working 1).run = some 0 ∧ (0 : Nat) ∉ [9] ∧ field odd 0 1 = 3 ∧ portUp (getPartner served 1) = false
      ∧ TspTakes working 1 1 last ∧ tspCheck last = true ∧ bit (field last 2 2) 0 = true ∧ bit (field last 2 2) 1 = true
      ∧ (crcMore 0 (last.drop 32)).toNat ≠ field last 20 4 ∧ TspTakes working 1 1 broken ∧ tspCheck broken = false ∧ field broken 8 5 ∈ ring0.credits
      ∧ field (tspBytes 1 0 0 1 64 0 0 (List.replicate 64 1)) 16 4 ≠ 0 := by
  unfold TspTakes
  repeat' refine And.intro ?_ ?_
  all_goals decide +kernel


set_option maxRecDepth 100000 in
theorem test_reception_clauses_witness :
    let k := frameOf 14 1 [] (padTo 8 [1, 2])
    let stray := frameOf 14 1 [9] (padTo 8 [1, 2])
    let odd := frameOf 15 0 [9] []
    let secret := setLink linked 2 (fun l => { l with mode := 1, peerId := 9 })
    let worn := setLink linked 2 (fun l => { l with malTimes := List.replicate 63 0 })
    UnderLimit linked 2 ∧ ¬ UnderLimit worn 2 ∧ badForm linked 2 k = false ∧ badForm linked 2 odd = true ∧ isAckNak (field odd 0 1) = true
      ∧ wholeFrame odd cleanFec = true ∧ badForm linked 2 (frameOf 14 1 [] (padTo 8 [1, 8])) = true
      ∧ badForm linked 2 stray = false ∧ strayRoute stray = true ∧ frameUnits stray.length ≤ nth (getLink linked 2).rxGranted (frameVc 14)
      ∧ openFrame linked (getLink linked 2) stray = some (padTo 8 [1, 2]) ∧ openFrame linked (getLink linked 2) odd = some []
      ∧ wholeFrame k { corrected := 0, uncorrected := 1 } = false ∧ protectedFrame (getLink secret 2) 14 = true ∧ UnderLimit secret 2
      ∧ ((∀ a b c d e, Config.gcmOpen a b c d e = none) → openFrame secret (getLink secret 2) k = none) := by
  repeat' refine And.intro ?_ ?_
  all_goals first
    | (unfold UnderLimit; decide +kernel)
    | decide +kernel
    | (intro h; simp [openFrame, h]; decide +kernel)

set_option maxRecDepth 100000 in
theorem test_span_frames_witness :
    let opens := fun size : Nat => natLe 4 size ++ natLe 2 2 ++ natLe 2 0 ++ natLe 8 0
    let send := { issued0 0x80 with op := { (issued0 0x80).op with imm0 := 2 }, chunk := 0 }
    let s := setLink (inRun working (fun r => { r with issued := [send] })) 2 (fun l => { l with
      lanes := 15, state := 3, session := some [], run := some 0, txUnits := List.replicate 4 8, rxGranted := List.replicate 4 8 })
    let check := programmed (overlay (instrBytes 0x82 0 0 0 4) 20 (natLe 4 (65536 * 7)))
    let c := setLink check 2 (fun l => { l with
      lanes := 15, state := 3, session := some [], run := some 0, txUnits := List.replicate 4 8, rxGranted := List.replicate 4 8 })
    let k := fun size => frameOf 3 1 [0] (opens size)
    let count := frameOf 6 1 (natLe 2 0 ++ natLe 2 7 ++ natLe 2 5) []
    (∀ size ∈ [64, 2], FrameTaken s 2 3 (k size) cleanFec (opens size) ∧ field (opens size) 0 4 = size)
      ∧ peerRingId send.op = field (k 64) 16 1 ∧ (getRun s 0).any (fun r => (r.issued.filter (fun i => !i.op.micro && i.op.opcode == 0x80 && linkOf i.op == 2)) == [send]
          && r.fault.isNone && r.order.isSome) = true
      ∧ send.chunk = 0 ∧ send.units ≠ [] ∧ chunkElems 0 2 = 0 ∧ chunkElems 0 64 ≠ 0 ∧ chunkElems 0 64 % groupSize 0 = 0 ∧ totalElems send ≠ 0
      ∧ (∀ o, orderOf s run0 = some o → owedUnits o send.instr (List.range (ceilDiv (totalElems send) (chunkElems 0 64))) ≠ [])
      ∧ FrameTaken c 2 6 count cleanFec [] ∧ field count 18 2 ∈ expectedPlans c 2 ∧ (getRun c 0).any (fun r => r.checkWait.isNone) = true := by
  unfold FrameTaken Listening
  repeat' refine And.intro ?_ ?_
  all_goals first
    | exact Or.inl (by decide +kernel)
    | decide +kernel
    | (intro x hx; fin_cases hx <;> (repeat' refine And.intro ?_ ?_) <;> first | exact Or.inl (by decide +kernel) | decide +kernel)

set_option maxRecDepth 100000 in
theorem test_mail_time_frames_witness :
    let both := setLink { linked with routes := [(6, 3), (7, 2)] } 3 (fun _ => getLink linked 2)
    let stuffed := setMailbox linked 14 (fun b => { b with inFull := true, arrived := List.replicate 64 ([], 0) })
    let asked := setLink linked 2 (fun l => { l with timeSentAt := some 0 })
    let paused := setLink linked 2 (fun l => { l with replay := [{ seq := 1, bytes := [], sends := 1 }] })
    let mail := fun die hops : Nat => frameOf 2 1 (natLe 2 die ++ natLe 2 8 ++ [BitVec.ofNat 8 hops]) (List.replicate 256 0)
    let answer := fun dist flags : Nat => padTo 40 (natLe 4 0 ++ natLe 1 dist ++ natLe 1 flags)
    let all : Bytes := List.replicate 256 0
    FrameTaken stuffed 2 2 (mail 5 3) cleanFec all ∧ 64 ≤ (getMailbox stuffed 14).arrived.length ∧ field (mail 5 3) 16 2 = stuffed.life.dieId.toNat
      ∧ FrameTaken both 2 2 (mail 6 2) cleanFec all ∧ routeOf both 6 = 3 ∧ (3 : Nat) ≠ 2 ∧ linkUp (getLink both 3) = true ∧ (getLink both 3).txQueue = []
      ∧ field (mail 6 2) 20 1 = 2 ∧ field (mail 6 1) 20 1 ≤ 1 ∧ FrameTaken both 2 2 (mail 7 2) cleanFec all ∧ routeOf both 7 = 2
      ∧ FrameTaken both 2 2 (mail 8 2) cleanFec all ∧ 24 ≤ routeOf both 8
      ∧ FrameTaken asked 2 8 (frameOf 8 1 [] (answer 253 0)) cleanFec (answer 253 0) ∧ field (answer 253 0) 4 1 < 254 ∧ bit (field (answer 253 0) 5 1) 0 = false
      ∧ FrameTaken asked 2 8 (frameOf 8 1 [] (answer 254 0)) cleanFec (answer 254 0) ∧ 254 ≤ field (answer 254 0) 4 1
      ∧ FrameTaken asked 2 8 (frameOf 8 1 [] (answer 0 1)) cleanFec (answer 0 1) ∧ bit (field (answer 0 1) 5 1) 0 = true
      ∧ (getLink linked 2).timeSentAt = none ∧ (∀ f ∈ (getLink paused 2).replay, f.sends < 7) := by
  unfold FrameTaken Listening
  repeat' refine And.intro ?_ ?_
  all_goals first | exact Or.inl (by decide +kernel) | decide +kernel

set_option maxRecDepth 100000 in
theorem test_handshake_clauses_witness :
    let hello := fun cur mode id : Nat => padTo 256 (natLe 2 1 ++ natLe 1 cur ++ natLe 1 mode ++ natLe 2 id ++ natLe 2 0 ++ natLe 4 1 ++ natLe 4 8)
    let h : Handshake := { (default : Handshake) with ownHello := hello 1 0 5 }
    let heard : Handshake := { h with peerHello := hello 1 0 9 }
    let own := setLink (shaking h) 2 (fun l => { l with peerCfg := 0x10009 })
    let late := setLink served 2 (fun l => { l with state := 6, retryAt := some 0 })
    let take := fun (x : Handshake) (ty : Nat) (p : Bytes) => FrameTaken (shaking x) 2 ty (frameOf ty 1 [] p) cleanFec p
    let cert := fun n => List.replicate n (1 : BitVec 8)
    take h 9 (hello 1 0 5) ∧ field (hello 1 0 5) 4 2 = (shaking h).life.dieId.toNat
      ∧ FrameTaken own 2 9 (frameOf 9 1 [] (hello 1 0 8)) cleanFec (hello 1 0 8) ∧ bit (getLink own 2).peerCfg.toNat 16 = true
      ∧ field (hello 1 0 8) 4 2 ≠ bits (getLink own 2).peerCfg.toNat 15 0 ∧ field (hello 1 0 9) 4 2 = bits (getLink own 2).peerCfg.toNat 15 0
      ∧ take h 9 (hello 0 2 9) ∧ max (field h.ownHello 2 1) (field (hello 0 2 9) 2 1) < max (field h.ownHello 3 1) (field (hello 0 2 9) 3 1)
      ∧ take heard 9 (hello 1 0 9) ∧ heard.peerHello ≠ [] ∧ UnderLimit (shaking heard) 2
      ∧ take h 10 (cert 8) ∧ h.peerHello = [] ∧ take heard 10 (cert 9) ∧ field heard.peerHello 12 4 < (heard.peerChain ++ cert 9).length
      ∧ take heard 10 (cert 7) ∧ (heard.peerChain ++ cert 7).length < field heard.peerHello 12 4
      ∧ take heard 11 (List.replicate 96 0) ∧ heard.chainOk = false ∧ take heard 12 (List.replicate 16 0) ∧ heard.proveOk = false
      ∧ 0 < field (frameOf 12 1 [] (List.replicate 16 0)) 4 4 ∧ field (frameOf 12 1 [] (List.replicate 16 0)) 4 4 + 1 < 2 ^ 32
      ∧ (∀ q ∈ (getLink late 2).txQueue, q.last = none) ∧ (getLink (shaking h) 2).handshake.isSome = true ∧ (getLink linked 2).handshake = none
      ∧ 2 ≤ (getLink linked 2).state.toNat ∧ linksOpen State.reset = false ∧ (getLink linked 2).state ≠ 6#3
      ∧ bit (getLink (setLink served 2 (fun l => { l with cfg := 0 })) 2).cfg.toNat 10 = false := by
  unfold FrameTaken Listening
  repeat' refine And.intro ?_ ?_
  all_goals first | exact Or.inl (by decide +kernel) | (unfold UnderLimit; decide +kernel) | decide +kernel

set_option maxRecDepth 100000 in
theorem test_link_timers_witness :
    let g : Ring := { ring0 with decl := { ring0.decl with producerKind := 3, producerIndex := 2 }, armed := [{ seq := 1, instr := 0, chunk := 0, plan := 4 }] }
    let s := setLink (inRun working (fun r => { r with image := { image0 with rings := [g.decl] }, rings := [g], issued := [issued0 0x81] })) 2
      (fun l => { l with lanes := 15, state := 3, session := some [], run := some 0 })
    let check := setLink (inRun (programmed (overlay (instrBytes 0x82 0 0 0 4) 20 (natLe 4 (65536 * 7)))) (fun r => { r with checkWait := some 0 })) 2
      (fun l => { l with lanes := 15, state := 3, session := some [], run := some 0 })
    let timed := setLink linked 2 (fun l => { l with cfg := 0x00400440, timeSentAt := some 0 })
    let stuffed := setMailbox (setLink linked 2 (fun l => { l with heldFrames := [natLe 2 8] })) 14 (fun b => { b with arrived := List.replicate 64 ([], 0) })
    (getRun s 0).any (fun r => !r.paused && !r.recovering && r.fault.isNone && r.order.isSome
        && ((landingRings r.image 2).flatMap (fun x => (nth r.rings x).armed)).head? == some { seq := 1, instr := 0, chunk := 0, plan := 4 }) = true
      ∧ linkUp (getLink s 2) = true ∧ (getLink linked 2).run = none ∧ getRun linked 0 = none
      ∧ (getRun check 0).any (fun r => r.checkWait == some 0 && !r.paused && !r.recovering
          && (orderOf check r).any (fun o => (maskList 24 (nth (orderProgram check r o) 0).imm1.toNat) == [2])) = true
      ∧ linkUp (getLink check 2) = true ∧ (∀ m < 24, (getLink timed m).txQueue = []) ∧ bit (getLink timed 2).cfg.toNat 6 = true
      ∧ (getLink timed 2).timeSentAt.isSome = true ∧ (findSource timed (.link 2)).qualified = false ∧ (∀ m < 24, (getLink linked m).timeSentAt = none)
      ∧ 64 ≤ (getMailbox stuffed 14).arrived.length ∧ (getLink stuffed 2).heldFrames ≠ [] ∧ (getLink linked 2).rxGranted.length = 4
      ∧ (getLink (setLink linked 2 (fun l => { l with rxUsed := [0, 0, 0, 0] })) 2).rxUsed.length = 4 ∧ (∀ v < 4, freeUnits (getLink linked 2) v ≤ 4095)
      ∧ (getLink linked 2).state ≠ 5#3 ∧ (getLink linked 2).lostAt = none ∧ UnderLimit (shaking default) 2 := by
  repeat' refine And.intro ?_ ?_
  all_goals first | (unfold UnderLimit; decide +kernel) | decide +kernel

set_option maxRecDepth 100000 in
theorem test_resume_witness :
    let check := setLink (programmed (overlay (instrBytes 0x80 0 0 0 4) 20 (natLe 4 (65536 * 7 + 2)))) 2
      (fun l => { l with lanes := 15, state := 3, session := some [], run := some 0, txUnits := List.replicate 4 8, rxGranted := List.replicate 4 8 })
    let s := setKeeper check (fun k => { k with orders := [{ order0 with nextIssue := 1 }] })
    let entry := fun kind : Nat => natLe 1 kind ++ natLe 1 0 ++ natLe 2 0 ++ natLe 2 7 ++ natLe 2 0 ++ natLe 8 1
    let plans := [1, 1] ++ natLe 2 0 ++ entry 2
    let rings := [0, 1] ++ natLe 2 0 ++ entry 1
    let sent : SentChunk := { (default : SentChunk) with ring := 0, plan := 7, seq := 1, instr := 0, chunk := 0 }
    let c := setLink (inRun s (fun r => { r with issued := [issued0 0x80] })) 2 (fun l => { l with sentChunks := [sent] })
    FrameTaken s 2 13 (frameOf 13 1 [] plans) cleanFec plans ∧ field plans 1 1 = 1 ∧ field plans 4 1 = 2 ∧ bit (field plans 0 1) 0 = true
      ∧ spanPlans s 2 = [7] ∧ (getRun s 0).any (fun r => r.checkWait.isNone && r.fault.isNone && r.order.isSome) = true
      ∧ FrameTaken c 2 13 (frameOf 13 1 [] rings) cleanFec rings ∧ field rings 4 1 = 1 ∧ bit (field rings 0 1) 0 = false ∧ c.poison = []
      ∧ (getLink c 2).sentChunks.filter (fun x => x.ring == field rings 5 1 && decide (field rings 12 8 ≤ x.seq)) = [sent]
      ∧ (getRun c 0).any (fun r => (landingRings r.image 2).isEmpty && findIssued r 0 == some (issued0 0x80)
          && (chunkFrames (field rings 5 1) sent.plan sent.seq (chunkSource c 0 r (issued0 0x80) sent.chunk)).length == 1) = true
      ∧ sendingMove c { instr := 0, unit := 0 } = none := by
  unfold FrameTaken Listening
  repeat' refine And.intro ?_ ?_
  all_goals first | exact Or.inl (by decide +kernel) | decide +kernel

set_option maxRecDepth 100000 in
theorem test_pairs_comb_witness :
    let done : Order := { order0 with state := .complete, notice := 1 }
    let told := setKeeper working (fun k => { k with orders := [done] })
    let a : Nat := 7 * 2 ^ 25 + 1023 * 2 ^ 15 + 120
    let bad := { served with poison := [a / 8] }
    firstUnacked told (orderSource order0.number) = some done ∧ told.keeper.activePair < 2
      ∧ (∀ w < 16, poisoned served (bankWordAddr 7 255 1023 w) = false)
      ∧ (∀ v < 16, poisoned bad (bankWordAddr 7 255 1023 v) = decide (v = 15)) ∧ (getFrame bad 7).heirloom = [] ∧ bankWordAddr 7 255 1023 15 = a
      ∧ debugPermitted State.reset = true ∧ MemoriesCanonical State.reset := by
  repeat' refine And.intro ?_ ?_
  all_goals decide +kernel

set_option maxRecDepth 100000 in
theorem test_loading_clauses_witness :
    let j : LoadJob := { req := { mailbox := 0, type := 0x0011, tag := 1, source := 329, body := padTo 8 [] }, run := 0, slot := 0 }
    let loading := setKeeper working (fun k => { k with loads := [j] })
    let table := inRun loading (fun r => { r with image := { image0 with slots := [{ slot := 0, kind := 0, paths := 1, hlBf16 := 0, hlFp16 := 0, fileOffset := 0, fileLength := 1 }] } })
    let down := setMemPort (setMemPort table 0 (fun p => { p with state := 4 })) 2 (fun p => { p with state := 4 })
    let scrub := setFrame working 0 (fun f => { f with scrubBusy := true, scrubTodo := [(0, 128)] })
    (getRun table 0).any (fun r => r.image.slots.countP (fun x => x.kind == 0) == 1) = true ∧ archiveStacks table ≠ [] ∧ archiveStacks down = []
      ∧ LinksIdle loading 0 ∧ loading.journal.sinceCheckpoint < 4095 ∧ (∀ f ∈ runFrames down 0, (getFrame down f).scrubBusy = false)
      ∧ (getFrame scrub 0).scrubBusy = true ∧ MemoriesCanonical scrub ∧ served.keeper.loads = []
      ∧ (getWorker (setWorker loading 0 (fun w => { w with admission := .notAdmitted })) 0).admission = .notAdmitted := by
  unfold LinksIdle
  repeat' refine And.intro ?_ ?_
  all_goals decide +kernel

set_option maxRecDepth 100000 in
theorem test_release_clauses_witness :
    let done := setKeeper working (fun k => { k with orders := [{ order0 with state := .complete }] })
    let j : TableJob := { req := { mailbox := 0, type := 0x0030, tag := 1, source := 329, body := [] }, run := 0, slot := 15, gen := 3, file := [1] }
    let kept := setKeeper working (fun k => { k with archive := [{ gen := 3, file := [1], copies := [0, 2], place := 0 }] })
    let held := inRun kept (fun r => { r with savedGens := [(3, 0)] })
    let bound := inRun (setKeeper working (fun k => { k with tableJobs := [j] })) (fun r => { r with
      root := updAt r.root 15 (fun x => { x with b := { gen := 2, file := [1] } }), issued := [{ issued0 0 with gens := List.replicate 16 2 }] })
    asks done 0x0012 (padTo 8 [0] ++ natLe 8 77) (fun t _ => openOrders t 0 == [] && t.journal.sinceCheckpoint < 4095
        && (List.range 24).all (fun n => (getLink t n).run != some 0)) = true
      ∧ asks working 0x0013 (padTo 8 [0] ++ natLe 8 77) (fun t _ => decide (t.journal.sinceCheckpoint + (openOrders t 0).length < 4095)
        && (List.range 24).all (fun n => (getLink t n).run != some 0)) = true
      ∧ (∃ w ∈ runWorkers working 0, w < 68) ∧ 67 ∉ runWorkers working 0 ∧ shadowBound bound 0 15 = true
      ∧ asks held 0x0031 (padTo 8 [3, 0, 0, 0, 1]) (fun t _ => generationHeld t 3) = true ∧ generationHeld kept 3 = false ∧ generationNamed kept 3 = false := by
  repeat' refine And.intro ?_ ?_
  all_goals decide +kernel

set_option maxRecDepth 100000 in
theorem test_acceptance_clauses_witness :
    let body := fun (image seq : Nat) => natLe 8 image ++ natLe 8 seq ++ natLe 8 0 ++ List.replicate 576 (0 : BitVec 8)
    let next : Order := { order0 with number := orderNumber (BitVec.ofNat 22 (5 * 64 + 9)) 2 }
    let j : AcceptJob := { req := { mailbox := 0, type := 0x0020, tag := 1, source := orderSource order0.number, body := [] }, order := next }
    let accepting := setKeeper working (fun k => { k with accept := [j] })
    let twice := setKeeper accepting (fun k => { k with orders := [next] })
    let down := setJournal accepting (fun j => { j with hold := true })
    let told := setKeeper working (fun k => { k with orders := [{ order0 with notice := 2 }] })
    asks accepting 0x0020 (body 77 2) (fun t p => lastSequence t p.source == some 2
        && t.keeper.accept.find? (fun x => x.order.number == submitNumber p) == some j) = true
      ∧ asks working 0x0020 (body 77 1) (fun t p => t.keeper.accept.all (fun x => x.order.number != submitNumber p)) = true
      ∧ asks working 0x0020 (body 77 2) (fun t _ => (getRun t 0).any (fun r => r.ready && r.image.imageId == 77)) = true
      ∧ asks served 0x0020 (body 77 1) (fun t p => lastSequence t p.source == none && submitSeq p == 1) = true
      ∧ acceptWritable accepting = true ∧ acceptWritable down = false ∧ findOrder twice j.order.number = some next ∧ acceptWritable twice = true
      ∧ findOrder accepting j.order.number = none ∧ accepting.journal.sinceCheckpoint < 4095
      ∧ (∀ x ∈ told.keeper.accept, x.req.source ≠ orderSource order0.number) := by
  repeat' refine And.intro ?_ ?_
  all_goals decide +kernel

set_option maxRecDepth 100000 in
theorem test_records_clauses_witness :
    let store : Issued := { issued0 0x72 with committed := [0] }
    let going := setKeeper (inRun working (fun r => { r with issued := [store] })) (fun k => { k with
      orders := [{ order0 with progress := [{ instr := 0, live := [0], durable := [], done := false, units := 1, recordedAt := 0 }] }] })
    let told := setJournal (setKeeper working (fun k => { k with orders := [{ order0 with state := .complete, notice := 1 }] }))
      (fun j => { j with pendingAcks := List.replicate 255 0 })
    let full := setJournal working (fun j => { j with pendingAcks := [order0.number], sinceCheckpoint := 4095 })
    let queued := setMailbox told 0 (fun b => { b with queue := [{ bytes := [], completion := some order0.number }] })
    let sent := setKeeper working (fun k => { k with
      orders := [{ order0 with number := orderNumber (BitVec.ofNat 22 (5 * 64 + 10)) 1, state := .complete, notice := 1 }], sessEnable := [true] })
    (getRun going 0).any (fun r => (orderOf going r).any (fun o => !ended o && !(progressOf o 0).done && (progressOf o 0).live == [0] && r.issued == [store])) = true
      ∧ store.op.micro = false ∧ store.op.opcode = 0x72
      ∧ asks told 0x0022 (natLe 8 order0.number.toNat) (fun t _ => t.journal.pendingAcks.length == 255 && t.journal.sinceCheckpoint < 4095
          && (findOrder t order0.number).any (fun o => o.notice == 1)) = true
      ∧ full.journal.pendingAcks ≠ [] ∧ 4095 ≤ full.journal.sinceCheckpoint ∧ JournalAscending full ∧ JournalAscending working
      ∧ (∃ q ∈ outgoing (getMailbox queued (replyMailbox queued (orderSource order0.number))), q.completion = some order0.number)
      ∧ (∀ q ∈ outgoing (getMailbox sent 9), q.completion ≠ some (orderNumber (BitVec.ofNat 22 (5 * 64 + 10)) 1))
      ∧ replyMailbox working (orderSource order0.number) < 9 := by
  unfold JournalAscending
  repeat' refine And.intro ?_ ?_
  all_goals decide +kernel

set_option maxRecDepth 100000 in
theorem test_stop_clauses_witness :
    let waits := setKeeper working (fun k => { k with orders := [{ order0 with state := .partial_, awaiting := true }] })
    let gone := { waits with runs := List.replicate 8 none }
    let body := fun a => natLe 8 order0.number.toNat ++ [a] ++ natLe 7 0
    let boot := setJournal (setKeeper working (fun k => { k with state := .boot })) (fun j => { j with scanned := false })
    let record : JRecord := { (default : JRecord) with lsn := 1, kind := 1, order := order0.number, stamp := 65536 * 9, copies := [0, 2] }
    let kept := setJournal boot (fun j => { j with records := [record] })
    asks gone 0x0402 (body 1) (fun t _ => (readyRun t { order0 with state := .partial_, awaiting := true }).isNone) = true
      ∧ journalReadable boot = true ∧ journalReadable served = false ∧ highestTime kept (countingRecords kept []) ≠ 0
      ∧ countingRecords kept [(1, 0), (1, 1), (1, 2), (1, 3)] = []
      ∧ (orderSource order0.number) = (orderSource order0.number) ∧ working.journal.sinceCheckpoint < 4094 := by
  repeat' refine And.intro ?_ ?_
  all_goals decide +kernel

set_option maxRecDepth 100000 in
theorem test_start_clauses_witness :
    let free := fun s => inRun (setKeeper s (fun k => { k with orders := [{ order0 with state := .accepted }] })) (fun r => { r with order := none })
    let s := free (programmed [0x98])
    let paused := inRun s (fun r => { r with paused := true })
    let waits := setKeeper s (fun k => { k with orders := [{ order0 with state := .partial_, awaiting := true }] })
    (getRun s 0).any (fun r => !r.paused && (programOf (runImage s r) r.image 0).length == 1) = true
      ∧ (getRun (free working) 0).any (fun r => !r.paused) = true ∧ (getRun paused 0).any (fun r => r.paused) = true
      ∧ (∃ x ∈ ordersOf waits 0, x.state = .partial_) ∧ memWf combDefault s.comb = true := by
  repeat' refine And.intro ?_ ?_
  all_goals decide +kernel

set_option maxRecDepth 100000 in
theorem test_issue_clauses_witness :
    let op := overlay (instrBytes 0x70 0x2000 0x3000 17 0) 12 (natLe 4 (2 ^ 20 + 1))
    let dirty := { programmed op with poison := [paramBase image0 / 8] }
    let twice := setKeeper dirty (fun k => { k with orders := [{ order0 with redoneAt := dirty.poison }] })
    let check := { programmed (overlay (instrBytes 0x82 0 0 0 4) 12 (natLe 4 (2 ^ 20 + 1))) with comb := memSetMany combDefault (bytesAt (paramBase image0) [9]) [] }
    let counted := setLink (programmed (instrBytes 0x82 0 0 0 4)) 2 (fun l => { l with checksIn := [(0, 1)] })
    let reads := fun s => (issuable s 0).any (fun x => (issueReads x.1.image x.2.2.2.2).any (fun a => poisoned s a))
    reads dirty = true ∧ reads twice = true ∧ reads (programmed op) = false
      ∧ (issuable check 0).any (fun x => issueCodes check x.1.image x.2.2.2.2 (resolve check x.1.image x.2.2.2.2) == [0x0230]) = true
      ∧ (issuable counted 0).any (fun x => bit x.2.2.2.2.imm1.toNat 2 && decide (assocD x.1.checkCounts (planOf x.2.2.2.2) 0 + 1 ≤ assocD (getLink counted 2).checksIn (planOf x.2.2.2.2) 0)) = true
      ∧ counted.poison = [] ∧ counted.journal.sinceCheckpoint < 4092 := by
  repeat' refine And.intro ?_ ?_
  all_goals decide +kernel

set_option maxRecDepth 100000 in
theorem test_steal_clauses_witness :
    let u : UnitRef := { instr := 0, unit := 0 }
    let issued := inRun working (fun r => { r with issued := [issued0 0] })
    let there := setFrame issued 1 (fun f => { f with run := some 0, replay := [u] })
    let alone := setFrame there 1 (fun f => { f with recovering := true })
    let other := setWorker (setFrame issued 0 (fun f => { f with tally := [u] })) 0 (fun w => { w with epoch := w.epoch + 1, rewrite := none })
    let sampled := fun r => setWorker working 0 (fun w => { w with sample := some { (default : Sample) with run := r } })
    let g : GuardRec := { (default : GuardRec) with topLevel := 1, layerTag := 4, count := 2 }
    let trip := inRun working (fun r => { r with trip := some { (default : Trip) with layerTag := 4, level := 0 }, image := { image0 with guards := [g] } })
    let flying := setWorker trip 0 (fun w => { w with held := [{ (default : Held) with run := 0 }] })
    grantRun working 0 = some 0 ∧ (getFrame working 0).replay ++ (getFrame working 0).tally = [] ∧ (getWorker working 0).rewrite = none
      ∧ (∀ k, 1 ≤ k → k < 8 → (getFrame working (0 ^^^ k)).replay ++ (getFrame working (0 ^^^ k)).tally = [])
      ∧ (getFrame alone 1).recovering = true ∧ (getFrame there 1).recovering = false ∧ grantRun there 0 = some 0 ∧ grantRun other 0 = some 0
      ∧ (getWorker (sampled 0) 0).run = some 0 ∧ (getWorker (sampled 3) 0).run ≠ some 3 ∧ (sampled 0).telem.buffer.length < 4096
      ∧ (∃ w < 68, ∃ h ∈ (getWorker flying w).held, h.run = 0 ∧ g.firstInstr ≤ h.ref.instr ∧ h.ref.instr < g.firstInstr + g.count)
      ∧ trip.journal.sinceCheckpoint + 1 < 4096 ∧ trip.telem.buffer.length < 4096 ∧ working.journal.sinceCheckpoint + 2 < 4096 := by
  repeat' refine And.intro ?_ ?_
  all_goals decide +kernel

set_option maxRecDepth 100000 in
theorem test_tile_clauses_witness :
    let ring := { ring0 with tokens := updAt ring0.tokens 0 (fun t => { t with capped := true, crc := some 0 }) }
    let reader := issued0 0
    let s := inRun (holding 0) (fun r => { r with rings := [ring], issued := [{ reader with op := { reader.op with descs := [{ nth reader.op.descs 0 with base := 0x1000 }] } }] })
    let again := setKeeper s (fun k => { k with orders := [{ order0 with redoneAt := [0x1000 / 8] }] })
    let broken := setKeeper (holding 0) (fun k => { k with resetParts := [(1, 0, 0)] })
    let fenced := setWorker (holding 0) 0 (fun w => { w with admission := .fenced, held := [{ (default : Held) with copyOut := true }] })
    (heldTile s 0).any (fun x => blockedSlot x.2.1 x.2.2 0 == none && crcMismatch s x.2.1 (tileReadSlots x.2.1 x.2.2 0) == some (0, 0)
        && slotBase (nth x.2.1.rings 0) 0 == 0x1000) = true
      ∧ (0x1000 : Nat) % 2 ^ 25 < 0x1F00000 ∧ (∃ o, orderOf again run0 = some o ∧ 0x1000 / 8 ∈ o.redoneAt) ∧ s.poison = []
      ∧ (heldTile (holding 0) 0).any (fun x => crcMismatch (holding 0) x.2.1 (tileReadSlots x.2.1 x.2.2 0) == none
          && homeOf x.2.1.image x.2.2 0 == 0 && isTiled x.2.2.op) = true
      ∧ resetBefore broken 1 0 = true ∧ resetBefore (holding 0) 1 0 = false ∧ (getWorker fenced 0).admission = .fenced ∧ QuietLinks (holding 0)
      ∧ (holding 0).journal.sinceCheckpoint + 2 < 4096 := by
  unfold QuietLinks
  repeat' refine And.intro ?_ ?_
  all_goals decide +kernel

set_option maxRecDepth 100000 in
theorem test_move_clauses_witness :
    let onStackOp := fun (i : Issued) => { i with op := { i.op with descs := i.op.descs.set 1 { nth i.op.descs 0 with role := 2 } } }
    let copy := moving 0x70 id id
    let load := moving 0x71 id onStackOp
    let queue := setForager (setFrame copy 0 (fun f => { f with moves := [{ instr := 0, unit := 0 }] })) 0 (fun _ => default)
    let busy := setMemPort load 0 (fun p => { p with outstanding := 8192 })
    let paused := inRun copy (fun r => { r with paused := true })
    (getForager queue 0).moves.filter (fun m => m.stage == .waiting) = [] ∧ (getForager copy 0).moves.filter (fun m => m.stage == .waiting) = [default]
      ∧ (getRun copy 0).any (fun r => (findIssued r 0).any (fun i => plainMove i.op)) = true
      ∧ (getRun load 0).any (fun r => (findIssued r 0).any (fun i => plainMove i.op && moveBlocked load 0 r i 0 == none
          && (getMemPort load (moveStack i)).outstanding + moveShare r i 0 ≤ 8192 && stackUp load (moveStack i))) = true
      ∧ (getRun busy 0).any (fun r => (findIssued r 0).any (fun i => decide (8192 < (getMemPort busy (moveStack i)).outstanding + moveShare r i 0))) = true
      ∧ (∀ x < 8, (getFrame copy x).moveReplay = [] ∧ (getFrame copy x).moves = []) ∧ (getRun paused 0).any (fun r => r.paused) = true
      ∧ (getFrame copy 0).run = some 0 ∧ copy.poison = [] ∧ ((getFrame queue 0).moveReplay ++ (getFrame queue 0).moves).find? (mayTake queue 0 0 0) = some { instr := 0, unit := 0 }
      ∧ Faultable copy 0 := by
  unfold Faultable
  repeat' refine And.intro ?_ ?_
  all_goals decide +kernel

set_option maxRecDepth 100000 in
theorem test_wait_clauses_witness :
    let wt := fun p : Bool => ({ ring := 0, seq := 0, producer := p } : Wait)
    let gated := setFrame (setWorker (holding 0) 0 (fun w => { w with wait := some (wt false) })) 0 (fun f => { f with ungated := false })
    let link := fun l : Link => { l with lanes := 15, state := 3, session := some [] }
    let csend := setLink (moving 0x80 id (fun i => { i with op := { i.op with imm0 := 2 } })) 2 link
    let credited := setLink csend 2 (fun l => { l with peerRings := [{ id := 0, slotSize := 64, slotCount := 2, nextSeq := 0, credits := [0] }] })
    let fsend := moving 0x73 id id
    let funded := setPartner fsend 0 (fun p => { p with rings := [{ id := 0, slotSize := 64, slotCount := 4, credits := [0], nextSeq := 0, fresh := false }] })
    let broken := setKeeper fsend (fun k => { k with recoveries := [{ (default : Recovery) with domain := 7 }] })
    waitTimed gated 0 (some 0) (wt false) = false ∧ (wt false).producer ≠ true ∧ (creditWaiter credited 0 0x80).isSome = true
      ∧ (peerRing (getLink credited 2) 0).any (fun p => p.credits.contains p.nextSeq) = true ∧ (creditWaiter funded 0 0x73).isSome = true
      ∧ (getPartner funded 0).rings.any (fun p => p.id == 0 && p.credits.contains p.nextSeq) = true ∧ (findRecovery broken 7 0).isSome = true
      ∧ (creditWaiter broken 0 0x73).isSome = true ∧ linkUp (getLink (moving 0x80 id (fun i => { i with op := { i.op with imm0 := 2 } })) 2) = false
      ∧ creditWaiter csend 0 0x73 = none ∧ (creditWaiter csend 0 0x80).isSome = true := by
  repeat' refine And.intro ?_ ?_
  all_goals decide +kernel

set_option maxRecDepth 100000 in
theorem test_service_clauses_witness :
    let bank : RootSlot → RootSlot := fun x => { x with a := { gen := 3, file := [1] } }
    let kept := setKeeper working (fun k => { k with archive := [{ gen := 3, file := [1], copies := [0, 2], place := 0 }] })
    let at_ := fun s w a => setWorker s w (fun x => { x with admission := a })
    let tables := inRun (at_ kept 0 .reloading) (fun r => { r with root := updAt r.root 0 bank })
    let gone := setKeeper tables (fun k => { k with archive := [] })
    let spare := setWorker (at_ working 64 .reloading) 64 (fun w => { w with serves := none })
    let sub := setKeeper (at_ working 64 .waiting) (fun k => { k with substitutions := [(0, 3, true, false)] })
    let dead := setWorker sub 3 (fun w => { w with admission := .fenced, held := [default] })
    let scrub := setWorker working 0 (fun w => { w with rsState := .scrubbing, bist := some default })
    reloadable tables 0 = true ∧ (reloadRun tables 0).bind (getRun tables) ≠ none ∧ reloadable gone 0 = false ∧ nextAdmission (getWorker gone 0).admission = some .resync
      ∧ (getWorker tables 0).admission = .reloading ∧ reloadable spare 64 = true
      ∧ (∀ sl ∈ (getRun tables 0).elim [] Run.root, ∀ b ∈ [sl.a, sl.b], b.gen = 0 ∨ (archiveEntry tables b.gen).isSome = true)
      ∧ servingOf sub 3 = some 3 ∧ standsFailed (getWorker sub 3) = false ∧ standsFailed (getWorker dead 3) = true ∧ (3 : Nat) ≠ 64 + 0
      ∧ servingOf sub 70 = none ∧ (getWorker scrub 0).rsState = .scrubbing ∧ (getWorker working 0).rsState ≠ .scrubbing
      ∧ (findRecovery working 1 0).isSome = false ∧ (workerFrame working 0) ∉ working.power.leadUngated ∧ (getWorker working 0).run.isSome = true
      ∧ (getWorker served 0).run = none := by
  repeat' refine And.intro ?_ ?_
  all_goals decide +kernel

set_option maxRecDepth 100000 in
theorem test_recovery_clauses_witness :
    let reset := fun (c d i : Nat) => [BitVec.ofNat 8 c, BitVec.ofNat 8 d, BitVec.ofNat 8 i] ++ natLe 5 0
    let serve := fun (a w : Nat) => natLe 1 a ++ natLe 1 w ++ natLe 6 0
    let down := setFrame working 0 (fun f => { f with recovering := true, rebuild := [0] })
    let out := setFrame working 0 (fun f => { f with outOfService := true })
    let gone := setWorker working 3 (fun w => { w with admission := .outOfService })
    let sub := setKeeper working (fun k => { k with substitutions := [(2, 3, true, false)] })
    let waits := setWorker (setWorker working 3 (fun w => { w with admission := .notAdmitted, serves := none })) 64 (fun w => { w with serves := some 3 })
    let back := setKeeper working (fun k => { k with recoveries := [{ (default : Recovery) with domain := 7, inst := 1 }] })
    let archived := fun m => inRun (setKeeper working (fun k => { k with orders := [{ order0 with startGens := [9] }], archive := [{ gen := 9, file := [1], copies := [m], place := 0 }] })) (fun r => { r with savedGens := [(1, 1)] })
    (∃ f, homeFrame down 1 1 = some f ∧ (getFrame down f).recovering = true) ∧ asks down 0x0500 (reset 2 1 1) (fun t _ => resettable t 1 1) = true
      ∧ asks down 0x0500 (reset 3 0 1) (fun t _ => resettable t 1 1) = true ∧ homeFrame working 6 1 = none ∧ (∀ f, homeFrame working 6 1 = some f → (getFrame working f).recovering = false)
      ∧ (getFrame working ((homeFrame working 1 1).getD 9)).recovering = false ∧ (getFrame out 0).outOfService = true
      ∧ asks gone 0x0550 (serve 1 3) (fun t _ => (getWorker t 3).admission == .outOfService) = true
      ∧ asks sub 0x0550 (serve 5 66) (fun t _ => t.keeper.substitutions.any (fun x => x.1 + 64 == 66)) = true
      ∧ asks waits 0x0550 (serve 2 0) (fun t _ => (getWorker t 64).serves == some 3 && (getWorker t 3).admission == .notAdmitted) = true
      ∧ asks back 0x0550 (serve 3 1) (fun t _ => (findRecovery t 7 1).isSome) = true
      ∧ asks working 0x0550 (serve 4 0) (fun t _ => (getMemPort t 0).state == 2) = true ∧ (getFrame down 0).rebuild.Nodup
      ∧ (nth run0.rings 0).decl.producerKind = 2 ∧ 0 < (nth run0.rings 0).decl.slotCount
      ∧ (getFrame working 0).run.bind (getRun working) ≠ none ∧ working.keeper.standbyOk = true
      ∧ stackUp working 0 = true ∧ ((archived 0).keeper.archive.any (fun e => e.gen == 9 && e.copies.any (stackUp (archived 0)))) = true
      ∧ ((archived 1).keeper.archive.any (fun e => e.gen == 9 && e.copies.any (stackUp (setMemPort (archived 1) 1 (fun p => { p with state := 4 }))))) = false := by
  repeat' refine And.intro ?_ ?_
  all_goals decide +kernel

set_option maxRecDepth 100000 in
theorem test_stack_clauses_witness :
    let down := fun s m => setMemPort s m (fun p => { p with state := 4 })
    let held := setJournal (down working 2) (fun j => { j with hold := true })
    let lost := setKeeper held (fun k => { k with orders := [{ order0 with state := .accepted, acceptLost := true }] })
    let repair := setMemPort working 0 (fun p => { p with state := 3, marked := [5, 6], spareLeft := 1 })
    let alone := down repair 2
    let stale := setMemPort (setMemPort working 1 (fun p => { p with state := 1, imageStale := true })) 0 id
    let two := setMemPort working 1 (fun p => { p with state := 1 })
    let entry : ArchiveEntry := { gen := 3, file := [1], copies := [2], place := 0 }
    let record : JRecord := { (default : JRecord) with lsn := 1, kind := 1, copies := [2] }
    let back := setJournal (setKeeper (setMemPort working 0 (fun p => { p with state := 1 })) (fun k => { k with archive := [entry] })) (fun j => { j with records := [record] })
    (getMemPort served 0).state = 0 ∧ (getMemPort stale 1).state = 1 ∧ portsOpen stale = true ∧ stackUp stale (4 - 1) = true
      ∧ (getMemPort stale 1).imageStale ≠ (getMemPort stale (4 - 1)).imageStale ∧ (getMemPort two 1).imageStale = (getMemPort two 3).imageStale
      ∧ MemoriesCanonical stale ∧ (∃ c ∈ entry.copies, c ≠ 0 ∧ stackUp back c = true) ∧ (∃ c ∈ record.copies, c ≠ 0 ∧ stackUp back c = true)
      ∧ 0 ∈ pairStacks held.journal.activePair ∧ held.journal.hold = true ∧ (∀ c ∈ pairStacks held.journal.activePair, c ≠ 0 → (getMemPort held c).state = 4)
      ∧ held.journal.sinceCheckpoint + held.keeper.orders.length < 4096
      ∧ findOrder lost order0.number = some { order0 with state := .accepted, acceptLost := true }
      ∧ (getMemPort repair 0).state = 3 ∧ (∃ c ∈ pairStacks repair.journal.activePair, c ≠ 0 ∧ stackUp repair c = true)
      ∧ ¬ (∃ c ∈ pairStacks alone.journal.activePair, c ≠ 0 ∧ stackUp alone c = true) ∧ alone.journal.hold = false
      ∧ (setJournal alone (fun j => { j with hold := true })).journal.hold = true ∧ 1 ∉ pairStacks repair.journal.activePair
      ∧ (getMemPort (setMemPort repair 1 (fun p => { p with state := 3 })) 1).state = 3 ∧ portsOpen State.reset = false := by
  repeat' refine And.intro ?_ ?_
  all_goals decide +kernel

set_option maxRecDepth 100000 in
theorem test_landing_clauses_witness :
    let g : Ring := { ring0 with decl := { ring0.decl with producerKind := 3, producerIndex := 2 }, armed := [{ seq := 1, instr := 0, chunk := 0, plan := 4 }] }
    let s := setLink (inRun working (fun r => { r with image := { image0 with rings := [g.decl] }, rings := [g], issued := [issued0 0x81] })) 2
      (fun l => { l with lanes := 15, state := 3, session := some [], run := some 0, txUnits := List.replicate 4 8, rxGranted := List.replicate 4 8 })
    let pay := fun n => List.replicate n (1 : BitVec 8)
    let land := fun (seq plan last crc : Nat) => [BitVec.ofNat 8 0, BitVec.ofNat 8 last] ++ natLe 2 plan ++ natLe 5 seq ++ natLe 1 0 ++ natLe 2 0 ++ natLe 4 crc
    let size := chunkBytes (issued0 0x81) 0
    let take := fun (l p : Bytes) => FrameTaken s 2 1 (frameOf 1 1 l p) cleanFec p
    let unarmed := setLink (inRun s (fun r => { r with rings := [{ g with credits := [0, 1, 2] }] })) 2 id
    take (land 1 5 1 0) (pay size) ∧ (5 : Nat) ≠ 4 ∧ take (land 1 4 1 7) (pay size) ∧ (crcMore 0 (pay size)).toNat ≠ 7
      ∧ FrameTaken unarmed 2 1 (frameOf 1 1 (land 2 4 1 0) (pay 64)) cleanFec (pay 64) ∧ 2 ∈ ({ g with credits := [0, 1, 2] } : Ring).credits
      ∧ g.armed.find? (fun a => a.seq == 2) = none ∧ UnderLimit s 2 ∧ Faultable s 0 ∧ s.poison = [] ∧ 0 < size
      ∧ (setLink s 2 (fun l => { l with malTimes := List.replicate 63 0 })).links.length = 24 ∧ ¬ UnderLimit (setLink s 2 (fun l => { l with malTimes := List.replicate 63 0 })) 2 := by
  unfold FrameTaken Listening
  repeat' refine And.intro ?_ ?_
  all_goals first
    | exact Or.inl (by decide +kernel)
    | (unfold UnderLimit; decide +kernel)
    | exact ⟨_, rfl, by decide +kernel, by decide +kernel⟩
    | decide +kernel

end Sys2Proof.Tests
end

section
namespace Sys2Proof.Machine

/- One thread elaborates the many short lemmas below. -/
set_option Elab.async false

/-! ## What every command keeps

One predicate, `Kept s₀ s`, says what a command that began in `s₀` has kept when it has come to `s`; one lemma for each
function of the model says that the function keeps it, and follows the function's own branches. -/

/-- What a command that began in `s₀` has kept when it has come to `s`: soundness (canonical memories and all parts, R13, R16,
R284, R303), the commands that wait, and the programmed fuses (R478). -/
def Kept (s₀ s : State) : Prop :=
  (Sound s₀ → Sound s) ∧ s.pending = s₀.pending ∧ FusesGrow s₀.life.fuses s.life.fuses

/-- The same of an outcome: whatever state it gives has kept it. -/
def Keeps (s₀ : State) (o : Host.Outcome State Fault Refusal) : Prop := ∀ t, o = .next t → Kept s₀ t

/-- The same of what a message row meets at a mailbox. -/
def Inbound.Kept (s₀ : State) : Inbound → Prop
  | .nothing => True
  | .done s | .part s | .foreign s _ | .request s _ => Machine.Kept s₀ s

section Kept
variable {s₀ s t : State}

/-! ### The rules -/

theorem fusesGrow_refl (f : Fuses) : FusesGrow f f :=
  ⟨id, id, Nat.le_refl _, Nat.le_refl _, Nat.le_refl _, Nat.le_refl _, fun _ => id⟩

theorem fusesGrow_trans {f g k : Fuses} (h : FusesGrow f g) (h' : FusesGrow g k) : FusesGrow f k := by
  obtain ⟨ret, gone, com, dec, banks, back, rev⟩ := h
  obtain ⟨ret', gone', com', dec', banks', back', rev'⟩ := h'
  exact ⟨ret' ∘ ret, gone' ∘ gone, com.trans com', dec.trans dec', banks.trans banks', back.trans back', fun k h => rev' k (rev k h)⟩

theorem kept_refl (s : State) : Kept s s := ⟨id, rfl, fusesGrow_refl _⟩

/-- A change keeps it that keeps the canonical memories, the parts, the queue and the fuses. -/
theorem Kept.change (h : Kept s₀ s) (hm : MemoriesCanonical s → MemoriesCanonical t) (hw : Whole s → Whole t)
    (hp : t.pending = s.pending := by rfl) (hf : FusesGrow s.life.fuses t.life.fuses := by exact fusesGrow_refl _) : Kept s₀ t := by
  obtain ⟨sound, queue, fuses⟩ := h
  exact ⟨fun h0 => ⟨hm (sound h0).1, hw (sound h0).2⟩, hp.trans queue, fusesGrow_trans fuses hf⟩

/-- A change of the parts alone keeps it when no part is lost or gained. -/
theorem Kept.parts (h : Kept s₀ s) (hw : Whole s → Whole t) (hc : t.comb = s.comb := by rfl) (hs : t.stackMem = s.stackMem := by rfl)
    (hl : t.flash = s.flash := by rfl) (hp : t.pending = s.pending := by rfl)
    (hf : t.life.fuses = s.life.fuses := by rfl) : Kept s₀ t :=
  h.change (by unfold MemoriesCanonical; rw [hc, hs, hl]; exact id) hw hp (hf ▸ fusesGrow_refl _)

theorem Kept.ite {c : Prop} [Decidable c] (hs : Kept s₀ s) (ht : Kept s₀ t) : Kept s₀ (if c then s else t) := by
  split
  · exact hs
  · exact ht

theorem Kept.foldl {α : Type} {f : State → α → State} {l : List α} (h : Kept s₀ s)
    (hf : ∀ t a, Kept s₀ t → Kept s₀ (f t a)) : Kept s₀ (l.foldl f s) := by
  induction l generalizing s with
  | nil => exact h
  | cons a l ih => exact ih (hf s a h)

/-- A fold that carries a value beside the state. -/
theorem Kept.foldl_fst {α β : Type} {f : State × β → α → State × β} {l : List α} {acc : State × β} (h : Kept s₀ acc.1)
    (hf : ∀ acc a, Kept s₀ acc.1 → Kept s₀ (f acc a).1) : Kept s₀ (l.foldl f acc).1 := by
  induction l generalizing acc with
  | nil => exact h
  | cons a l ih => exact ih (hf acc a h)

theorem next_kept (h : Kept s₀ t) : Keeps s₀ (.next t) := by
  intro u hu
  cases hu
  exact h

/-! ### Ops -/

theorem writeComb_kept {ws : List (Nat × Byte)} (h : Kept s₀ s) : Kept s₀ (writeComb s ws) :=
  h.change (fun ⟨comb, rest⟩ => ⟨memSetMany_wf _ ws _ comb, rest⟩) id

theorem scrubComb_kept {a n : Nat} (h : Kept s₀ s) : Kept s₀ (scrubComb s a n) :=
  h.change (fun ⟨comb, rest⟩ => ⟨memClear_wf _ _ a n comb, rest⟩) id

theorem layComb_kept {a : Nat} {bs : Bytes} (h : Kept s₀ s) : Kept s₀ (layComb s a bs) :=
  h.change (fun ⟨comb, rest⟩ => ⟨memLay_wf _ a bs _ comb, rest⟩) id

theorem writeStack_kept {ws : List (Nat × Byte)} (h : Kept s₀ s) : Kept s₀ (writeStack s ws) :=
  h.change (fun ⟨comb, stack, flash⟩ => ⟨comb, memSetMany_wf _ ws _ stack, flash⟩) id

theorem setWorker_kept {i : Nat} {f : Worker → Worker} (h : Kept s₀ s) : Kept s₀ (setWorker s i f) := h.parts (by simp [Whole])

theorem setFrame_kept {i : Nat} {f : Frame → Frame} (h : Kept s₀ s) : Kept s₀ (setFrame s i f) := h.parts (by simp [Whole])

theorem setForager_kept {i : Nat} {f : Forager → Forager} (h : Kept s₀ s) : Kept s₀ (setForager s i f) := h.parts (by simp [Whole])

theorem setRun_kept {r : Nat} {f : Run → Run} (h : Kept s₀ s) : Kept s₀ (setRun s r f) := h.parts (by simp [Whole])

theorem setPartner_kept {p : Nat} {f : PartnerPort → PartnerPort} (h : Kept s₀ s) : Kept s₀ (setPartner s p f) :=
  h.parts (by simp [Whole])

theorem setMemPort_kept {m : Nat} {f : MemPort → MemPort} (h : Kept s₀ s) : Kept s₀ (setMemPort s m f) := h.parts (by simp [Whole])

theorem setLink_kept {n : Nat} {f : Link → Link} (h : Kept s₀ s) : Kept s₀ (setLink s n f) := h.parts (by simp [Whole])

/-- A mailbox may change in all but the size of its inbound slot. -/
theorem setMailbox_kept {n : Nat} {f : Mailbox → Mailbox} (h : Kept s₀ s)
    (hf : ∀ b, b.inbound.length = 256 → (f b).inbound.length = 256 := by exact fun _ hb => hb) : Kept s₀ (setMailbox s n f) := by
  refine h.parts fun ⟨count, slots, rest⟩ => ⟨by simpa using count, fun b hb => ?_, rest⟩
  obtain ⟨i, hi, rfl⟩ := List.getElem_of_mem hb
  simp only [setMailbox_mailboxes, updAt, List.getElem_modify]
  split
  · exact hf _ (slots _ (List.getElem_mem _))
  · exact slots _ (List.getElem_mem _)

theorem setKeeper_kept {f : Keeper → Keeper} (h : Kept s₀ s) : Kept s₀ (setKeeper s f) := h

theorem setTime_kept {f : TimeUnit → TimeUnit} (h : Kept s₀ s) : Kept s₀ (setTime s f) := h

theorem setPower_kept {f : Power → Power} (h : Kept s₀ s) : Kept s₀ (setPower s f) := h

/-- The life cycle may change in all but what the fuses hold. -/
theorem setLife_kept {f : Life → Life} (h : Kept s₀ s)
    (hf : FusesGrow s.life.fuses (f s.life).fuses := by exact fusesGrow_refl _) : Kept s₀ (setLife s f) :=
  h.change id id rfl hf

theorem setJournal_kept {f : Journal → Journal} (h : Kept s₀ s) : Kept s₀ (setJournal s f) := h

theorem clocked_kept (h : Kept s₀ s) (ht : Kept s₀ t) : Keeps s₀ (clocked s t) := next_kept (.ite h ht)

theorem setOrder_kept {n : BitVec 64} {f : Order → Order} (h : Kept s₀ s) : Kept s₀ (setOrder s n f) := setKeeper_kept h

theorem stamp_kept (h : Kept s₀ s) : Kept s₀ (stamp s).1 := h

/-- A record enters a buffer with a free place, or takes the place of a record that it displaces (R447). -/
theorem pushLog_kept {rec : Bytes} (h : Kept s₀ s) : Kept s₀ (pushLog s rec) := by
  have log {b : List Bytes} {d : Nat} (hb : s.telem.buffer.length ≤ 4096 → b.length ≤ 4096) :
      Kept s₀ { s with telem := { s.telem with buffer := b, dropped := d } } :=
    h.parts fun ⟨boxes, slots, runs, frames, workers, foragers, partners, mems, links, log⟩ =>
      ⟨boxes, slots, runs, frames, workers, foragers, partners, mems, links, hb log⟩
  unfold pushLog
  dsimp only
  split
  · next room => exact log fun _ => by simp; omega
  · refine .ite (log id) ?_
    split
    · next i found =>
      have hi : i < s.telem.buffer.length := by
        have := List.mem_of_find?_eq_some found
        simpa using this
      exact log fun hb => by simp; omega
    · exact log id

theorem logRecord_kept {kind : Nat} {src : BitVec 22} {body : Bytes} (h : Kept s₀ s) : Kept s₀ (logRecord s kind src body) :=
  pushLog_kept (stamp_kept h)

theorem appendRecord_kept {t kind run : Nat} {order : BitVec 64} {src : BitVec 22} {body : Bytes} (h : Kept s₀ s) :
    Kept s₀ (appendRecord s t kind run order src body) :=
  setJournal_kept h

theorem deliverAcks_kept (h : Kept s₀ s) : Kept s₀ (deliverAcks s) :=
  .ite h (.foldl (setJournal_kept (appendRecord_kept (stamp_kept h))) fun _ _ h => setOrder_kept h)

theorem checkpoint_kept (h : Kept s₀ s) : Kept s₀ (checkpoint s) :=
  setKeeper_kept (setJournal_kept (appendRecord_kept (stamp_kept (deliverAcks_kept h))))

theorem checkpointDue_kept (h : Kept s₀ s) : Kept s₀ (checkpointDue s) := .ite h (checkpoint_kept h)

theorem journalAt_kept {t kind run : Nat} {order : BitVec 64} {src : BitVec 22} {body : Bytes} (h : Kept s₀ s) :
    Kept s₀ (journalAt s t kind run order src body) :=
  checkpointDue_kept (appendRecord_kept h)

theorem writeDelivered_kept (h : Kept s₀ s) : Kept s₀ (writeDelivered s) := .ite h (checkpointDue_kept (deliverAcks_kept h))

theorem journal_kept {kind run : Nat} {order : BitVec 64} {src : BitVec 22} {body : Bytes} (h : Kept s₀ s) :
    Kept s₀ (journal s kind run order src body) :=
  journalAt_kept (stamp_kept h)

theorem enqueue_kept {n : Nat} {ms : List OutMsg} (h : Kept s₀ s) : Kept s₀ (enqueue s n ms) := setMailbox_kept h

theorem sendNotice_kept {type : BitVec 16} {src : BitVec 22} {body : Bytes} {completion : Option (BitVec 64)} (h : Kept s₀ s) :
    Kept s₀ (sendNotice s type src body completion) :=
  enqueue_kept h

theorem sendNoticeTo_kept {n : Nat} {type : BitVec 16} {src : BitVec 22} {body : Bytes} (h : Kept s₀ s) :
    Kept s₀ (sendNoticeTo s n type src body) :=
  enqueue_kept h

theorem reply_kept {p : Pending} {status : BitVec 16} {body : Bytes} (h : Kept s₀ s) : Kept s₀ (reply s p status body) :=
  setMailbox_kept (enqueue_kept h)

theorem faultRecord_kept {i : FaultInfo} {leavesPartial : Option (BitVec 64)} (h : Kept s₀ s) :
    Kept s₀ (faultRecord s i leavesPartial) := by
  unfold faultRecord
  refine setKeeper_kept ?_
  dsimp only
  split
  · exact .ite (sendNoticeTo_kept (pushLog_kept (stamp_kept h))) (sendNotice_kept (sendNoticeTo_kept (pushLog_kept (stamp_kept
      h))))
  · exact sendNoticeTo_kept (pushLog_kept (stamp_kept h))

theorem runFault_kept {r : Nat} {code : BitVec 16} {instr unit domain inst redone phase : Nat} (h : Kept s₀ s) :
    Kept s₀ (runFault s r code instr unit domain inst redone phase) := by
  unfold runFault
  dsimp only
  split
  · exact h
  · exact .ite (faultRecord_kept h) (setRun_kept (faultRecord_kept h))

theorem beginRecovery_kept {domain inst : Nat} {code : BitVec 16} (h : Kept s₀ s) : Kept s₀ (beginRecovery s domain inst code) :=
  .ite h (setKeeper_kept h)

theorem phaseRecord_kept {domain inst phase : Nat} {code : BitVec 16} {redone instr unit : Nat} (h : Kept s₀ s) :
    Kept s₀ (phaseRecord s domain inst phase code redone instr unit) :=
  faultRecord_kept h

theorem endRecovery_kept {domain inst : Nat} (h : Kept s₀ s) : Kept s₀ (endRecovery s domain inst) := by
  unfold endRecovery
  dsimp only
  split
  · exact h
  · exact setKeeper_kept (phaseRecord_kept h)

theorem faultRunOpt_kept {r : Option Nat} {code : BitVec 16} {domain inst : Nat} (h : Kept s₀ s) :
    Kept s₀ (faultRunOpt s r code domain inst) := by
  unfold faultRunOpt
  split
  · exact runFault_kept h
  · exact h

theorem markChannel_kept {m a : Nat} (h : Kept s₀ s) : Kept s₀ (markChannel s m a) := setMemPort_kept h

/-! ### Mailbox -/

theorem slotWrite_kept {n off : Nat} {data : Bytes} (h : Kept s₀ s) : Kept s₀ (slotWrite s n off data) := by
  refine setMailbox_kept h fun b hb => ?_
  split
  · exact hb
  · simp [padTo]; omega

theorem slotPost_kept {n : Nat} (h : Kept s₀ s) : Kept s₀ (slotPost s n) := by
  refine setMailbox_kept h fun b hb => ?_
  split <;> exact hb

theorem ackNotice_kept {order : BitVec 64} (h : Kept s₀ s) : Kept s₀ (ackNotice s order) := by
  unfold ackNotice
  dsimp only
  split
  · exact h
  · exact .ite h (.ite (setKeeper_kept (setJournal_kept (setOrder_kept h))) (writeDelivered_kept (setKeeper_kept
      (setJournal_kept (setOrder_kept h)))))

theorem clearOut_kept {n : Nat} (h : Kept s₀ s) : Kept s₀ (clearOut s n) := by
  delta clearOut
  extract_lets b s1 i3c s2
  have h1 : Kept s₀ s1 := setMailbox_kept h
  have h2 : Kept s₀ s2 := .ite h1 h1
  clear_value s2
  refine .ite h ?_
  split
  · exact .ite (ackNotice_kept h2) h2
  · exact h2

theorem pullArrived_kept {m : Nat} (h : Kept s₀ s) : Kept s₀ (pullArrived s m) := by
  unfold pullArrived
  split
  · exact h
  · exact .ite h (slotPost_kept (slotWrite_kept (setMailbox_kept h)))

/-! ### Time -/

theorem timeRecord_kept {event : Nat} {offset : Int} {holdover : Nat} (h : Kept s₀ s) :
    Kept s₀ (timeRecord s event offset holdover) :=
  logRecord_kept h

theorem changeRecord_kept {old new : Option TimeSource} {offset : Int} (h : Kept s₀ s) :
    Kept s₀ (changeRecord s old new offset) :=
  logRecord_kept h

theorem setSource_kept {src : TimeSource} {f : SourceState → SourceState} (h : Kept s₀ s) : Kept s₀ (setSource s src f) :=
  setTime_kept h

theorem enterReady_kept (h : Kept s₀ s) : Kept s₀ (enterReady s) := .ite (setLife_kept (setKeeper_kept h)) h

theorem enterHoldover_kept (h : Kept s₀ s) : Kept s₀ (enterHoldover s) := .ite h (timeRecord_kept (setTime_kept h))

theorem followSource_kept {x : SourceState} (h : Kept s₀ s) : Kept s₀ (followSource s x) :=
  .ite (timeRecord_kept (changeRecord_kept (setTime_kept h))) (changeRecord_kept (setTime_kept h))

theorem dropInForce_kept (h : Kept s₀ s) : Kept s₀ (dropInForce s) := by
  unfold dropInForce
  dsimp only
  split
  · exact followSource_kept h
  · exact .ite (enterHoldover_kept (changeRecord_kept (setTime_kept h))) (changeRecord_kept (setTime_kept h))

theorem loseSource_kept {src : TimeSource} (h : Kept s₀ s) : Kept s₀ (loseSource s src) :=
  .ite (dropInForce_kept (setSource_kept h)) (setSource_kept h)

theorem loseTimeLink_kept {n : Nat} (h : Kept s₀ s) : Kept s₀ (loseTimeLink s n) := by
  unfold loseTimeLink
  split
  · exact .ite (loseSource_kept h) h
  · exact h

theorem joinOn_kept {x : SourceState} (h : Kept s₀ s) : Kept s₀ (joinOn s x) :=
  enterReady_kept (timeRecord_kept (changeRecord_kept (setTime_kept h)))

theorem timeFault_kept {x : SourceState} (h : Kept s₀ s) : Kept s₀ (timeFault s x) :=
  .ite (dropInForce_kept (setSource_kept (timeRecord_kept (setTime_kept h)))) (setSource_kept (timeRecord_kept (setTime_kept h)))

theorem discipline_kept {src : TimeSource} (h : Kept s₀ s) : Kept s₀ (discipline s src) :=
  .ite h (.ite (joinOn_kept h) (.ite (timeFault_kept h) (.ite (setTime_kept h) (.ite (followSource_kept h) h))))

theorem measure_kept {src : TimeSource} {offset : Int} {distance n : Nat} {tol : Int} (h : Kept s₀ s) :
    Kept s₀ (measure s src offset distance n tol) :=
  discipline_kept (setSource_kept h)

theorem tick_kept (h : Kept s₀ s) : Kept s₀ (tick s) := h

theorem execFreeRunningJoin_kept (h : Kept s₀ s) : Keeps s₀ (execFreeRunningJoin s) :=
  clocked_kept h (.ite h (enterReady_kept (timeRecord_kept (setTime_kept h))))

theorem execSourceLoss_kept {source : TimeSource} (h : Kept s₀ s) : Keeps s₀ (execSourceLoss source s) :=
  clocked_kept h (loseSource_kept h)

theorem execSourceChange_kept (h : Kept s₀ s) : Keeps s₀ (execSourceChange s) := by
  unfold execSourceChange
  refine clocked_kept h ?_
  split
  · exact .ite (followSource_kept h) h
  · exact h

theorem execTimeFaultExclusionEnd_kept {source : TimeSource} (h : Kept s₀ s) : Keeps s₀ (execTimeFaultExclusionEnd source s) :=
  clocked_kept h (.ite h (setSource_kept h))

theorem ppsPulse_kept {highNs : Nat} (h : Kept s₀ s) : Kept s₀ (ppsPulse s highNs) := by
  unfold ppsPulse
  refine .ite h ?_
  dsimp only
  split
  · split
    · exact setSource_kept h
    · exact setSource_kept h
  · refine discipline_kept ?_
    refine setSource_kept ?_
    refine setTime_kept ?_
    split
    · exact setSource_kept h
    · exact setSource_kept h

theorem execSyncPpsPulse_kept {highNs : Nat} (h : Kept s₀ s) : Keeps s₀ (execSyncPpsPulse highNs s) :=
  clocked_kept h (ppsPulse_kept h)

theorem execSyncRefLoss_kept (h : Kept s₀ s) : Keeps s₀ (execSyncRefLoss s) :=
  clocked_kept h (.ite (loseSource_kept (setTime_kept h)) (setTime_kept h))

theorem execSyncRefLock_kept (h : Kept s₀ s) : Keeps s₀ (execSyncRefLock s) := clocked_kept h (setTime_kept h)

theorem ptpMessage_kept {addr : BitVec 128} {m : PtpMessage} (h : Kept s₀ s) : Kept s₀ (ptpMessage s addr m) := by
  unfold ptpMessage
  refine .ite h ?_
  dsimp only
  split
  · exact .ite (.ite h (setSource_kept (loseSource_kept h))) h
  · exact .ite h (measure_kept (.ite h (setSource_kept (loseSource_kept h))))

theorem execPtpMessage_kept {addr : BitVec 128} {message : PtpMessage} (h : Kept s₀ s) :
    Keeps s₀ (execPtpMessage addr message s) :=
  clocked_kept h (ptpMessage_kept h)

theorem setTimeCfg_kept {cfg : BitVec 32} (h : Kept s₀ s) : Kept s₀ (setTimeCfg s cfg) := by
  delta setTimeCfg
  extract_lets old s1 s2
  have h1 : Kept s₀ s1 := setTime_kept h
  have h2 : Kept s₀ s2 := .ite (loseSource_kept h1) h1
  clear_value s2
  split
  · exact .ite h2 (dropInForce_kept h2)
  · exact h2

/-! ### Registers -/

theorem latchNow_kept (h : Kept s₀ s) : Kept s₀ (latchNow s) := setTime_kept h

theorem latchEnergy_kept {f : Nat} (h : Kept s₀ s) : Kept s₀ (latchEnergy s f) := setPower_kept h

theorem latchCycles_kept {w k : Nat} (h : Kept s₀ s) : Kept s₀ (latchCycles s w k) := setWorker_kept h

theorem readPage_kept {off : Nat} (h : Kept s₀ s) : Kept s₀ (readPage s off).1 := by
  unfold readPage
  dsimp only
  split
  · exact latchNow_kept h
  · split
    · exact latchEnergy_kept h
    · exact h

theorem readWorkerReg_kept {w off : Nat} (h : Kept s₀ s) : Kept s₀ (readWorkerReg s w off).1 := by
  unfold readWorkerReg
  dsimp only
  split
  · exact latchCycles_kept h
  · exact h

theorem readMany_kept {rd : State → Nat → State × Reg} {off n : Nat} (hrd : ∀ t o, Kept s₀ t → Kept s₀ (rd t o).1) (h : Kept s₀ s) :
    Kept s₀ (readMany rd s off n).1 :=
  .foldl_fst h fun _ _ h => hrd _ _ h

theorem writeCombReg_kept {f k v : Nat} (h : Kept s₀ s) : Kept s₀ (writeCombReg s f k v) :=
  .ite (.ite (setFrame_kept h) h) (.ite (setFrame_kept h) (.ite (setFrame_kept h) h))

theorem writeLinkReg_kept {n k v : Nat} (h : Kept s₀ s) : Kept s₀ (writeLinkReg s n k v) :=
  .ite (setLink_kept h) (.ite (setLink_kept h) (.ite (setLink_kept h) (.ite (setLink_kept h) h)))

theorem writeTimeReg_kept {off v : Nat} (h : Kept s₀ s) : Kept s₀ (writeTimeReg s off v) :=
  .ite (.ite (setTime_kept h) h) (.ite (setTimeCfg_kept h) (.ite (setTime_kept h) (.ite (setTime_kept h) h)))

theorem writePowerReg_kept {off v : Nat} (h : Kept s₀ s) : Kept s₀ (writePowerReg s off v) :=
  .ite (setPower_kept h) (.ite (setPower_kept h) (.ite (setPower_kept h) (.ite (.ite (setPower_kept h) h) (.ite (setPower_kept
    h) (.ite (setPower_kept h) h)))))

theorem writePage_kept {off v : Nat} (h : Kept s₀ s) : Kept s₀ (writePage s off v) :=
  .ite (.ite (.ite (clearOut_kept (.ite (setMailbox_kept h) h)) (.ite (setMailbox_kept h) h)) (.ite (slotPost_kept h) h)) (.ite
    (.ite (setKeeper_kept h) (.ite (setKeeper_kept h) h)) (.ite (setKeeper_kept h) (.ite (writeCombReg_kept h) (.ite (.ite
    (setPartner_kept h) h) (.ite (.ite (setMemPort_kept h) h) (.ite (writeLinkReg_kept h) (.ite (writeTimeReg_kept h) (.ite
    (writePowerReg_kept h) (.ite (slotWrite_kept h) h)))))))))

theorem writeWorkerReg_kept {w off v : Nat} (h : Kept s₀ s) : Kept s₀ (writeWorkerReg s w off v) :=
  .ite (setWorker_kept h) (.ite (setWorker_kept h) (.ite (setWorker_kept h) (.ite (setWorker_kept h) h)))

theorem execTimNowLoRead_kept (h : Kept s₀ s) : Keeps s₀ (execTimNowLoRead s) := clocked_kept h (readPage_kept h)

theorem execWrkCycLoRead_kept {w : Fin 68} {k : Fin 5} (h : Kept s₀ s) : Keeps s₀ (execWrkCycLoRead w k s) :=
  clocked_kept h (readWorkerReg_kept h)

theorem execPwrFrameEnergyLoRead_kept {f : Fin 8} (h : Kept s₀ s) : Keeps s₀ (execPwrFrameEnergyLoRead f s) :=
  clocked_kept h (readPage_kept h)

theorem execRegisterWrite_kept {target : Option (Fin 68)} {offset value : BitVec 32} (h : Kept s₀ s) :
    Keeps s₀ (execRegisterWrite target offset value s) := by
  unfold execRegisterWrite
  refine clocked_kept h ?_
  refine .ite h ?_
  split
  · exact .ite h (writePage_kept h)
  · exact .ite h (writeWorkerReg_kept h)

/-! ### Requests -/

theorem rejectMessage_kept {n : Nat} {type : BitVec 16} {tag : BitVec 32} {src : BitVec 22} {code : BitVec 16} (h : Kept s₀ s) :
    Kept s₀ (rejectMessage s n type tag src code) :=
  .ite h (enqueue_kept h)

theorem reject_kept {p : Pending} {code : BitVec 16} (h : Kept s₀ s) : Kept s₀ (reject s p code) := .ite h (reply_kept h)

theorem checkRequest_kept {p : Pending} {bad : Bool} (h : Kept s₀ s) : (checkRequest s p bad).Kept s₀ := by
  unfold checkRequest
  dsimp only
  split
  · exact reject_kept h
  · split
    · exact reject_kept h
    · split
      · exact reject_kept h
      · split
        · exact reject_kept h
        · split
          · exact enqueue_kept h
          · split
            · exact reject_kept h
            · exact h

theorem takeFragment_kept {n : Nat} {m : Bytes} {src : BitVec 22} (h : Kept s₀ s) : (takeFragment s n m src).Kept s₀ := by
  delta takeFragment
  extract_lets ty tag clear expected start found
  have clear_kept {t : State} (ht : Kept s₀ t) : Kept s₀ (clear t) := setMailbox_kept ht
  have found_kept : found.elim (fun x => Kept s₀ x.1) (Kept s₀) := by
    dsimp only [found]
    split
    · split
      · exact h
      · split
        · exact rejectMessage_kept (clear_kept h)
        · exact rejectMessage_kept (clear_kept h)
    · split
      · exact h
      · exact rejectMessage_kept h
  clear_value found
  cases found with
  | inr t => exact found_kept
  | inl taken =>
    dsimp only
    split
    · exact rejectMessage_kept (clear_kept found_kept)
    · split
      · exact checkRequest_kept (clear_kept found_kept)
      · exact setMailbox_kept found_kept

theorem takeMessage_kept {n : Nat} (h : Kept s₀ s) : (takeMessage s n).Kept s₀ := by
  unfold takeMessage
  dsimp only
  have taken : Kept s₀ (pullArrived (setMailbox s n fun b => { b with inFull := false }) n) := pullArrived_kept (setMailbox_kept h)
  split
  · trivial
  · split
    · exact rejectMessage_kept taken
    · split
      · exact taken
      · split
        · exact rejectMessage_kept taken
        · split
          · exact rejectMessage_kept taken
          · exact takeFragment_kept taken

theorem onRequest_kept {n : Nat} {mine : Pending → Bool} {act : State → Pending → State} (h : Kept s₀ s)
    (hact : ∀ t p, Kept s₀ t → Kept s₀ (act t p)) : Kept s₀ (onRequest s n mine act) := by
  have taken := takeMessage_kept (n := n) h
  unfold onRequest
  split
  · next heq => rw [heq] at taken; exact taken
  · next heq => rw [heq] at taken; exact .ite (hact _ _ taken) h
  · exact h

theorem execMessageFragment_kept {n : Fin 16} (h : Kept s₀ s) : Keeps s₀ (execMessageFragment n s) := by
  have taken := takeMessage_kept (n := n) h
  refine clocked_kept h ?_
  split
  · next heq => rw [heq] at taken; exact taken
  · next heq => rw [heq] at taken; exact taken
  · exact h

/-! ### Partner -/

theorem tspPump_kept {p : Nat} (h : Kept s₀ s) : Kept s₀ (tspPump s p) := setPartner_kept h

theorem tspSend_kept {p type ring flags seq offset : Nat} {tileCrc : BitVec 32} {payload : Bytes} {fsend : Option Nat}
    (h : Kept s₀ s) : Kept s₀ (tspSend s p type ring flags seq offset tileCrc payload fsend) :=
  .ite h (setPartner_kept h)

theorem tspCredits_kept {p ring : Nat} {seqs : List Nat} (h : Kept s₀ s) : Kept s₀ (tspCredits s p ring seqs) :=
  .foldl h fun _ _ h => tspSend_kept h

theorem setRing_kept {r g : Nat} {f : Ring → Ring} (h : Kept s₀ s) : Kept s₀ (setRing s r g f) := setRun_kept h

theorem tspOpen_kept {r p ring g : Nat} (h : Kept s₀ s) : Kept s₀ (tspOpen s r p ring g) :=
  tspCredits_kept (setRing_kept (tspSend_kept h))

theorem tspCloseAll_kept {r : Nat} (h : Kept s₀ s) : Kept s₀ (tspCloseAll s r) := by
  unfold tspCloseAll
  dsimp only
  split
  · exact h
  · exact .foldl h fun _ _ h => .foldl h fun _ _ h => setRing_kept (tspSend_kept h)

theorem tspOpenAll_kept {r : Nat} (h : Kept s₀ s) : Kept s₀ (tspOpenAll s r) := by
  unfold tspOpenAll
  split
  · exact h
  · exact .foldl h fun _ _ h => .foldl h fun _ _ h => tspOpen_kept h

theorem capSlot_kept {r g q : Nat} {crc : Option (BitVec 32)} (h : Kept s₀ s) : Kept s₀ (capSlot s r g q crc) := setRing_kept h

theorem uncapSlot_kept {r g q : Nat} (h : Kept s₀ s) : Kept s₀ (uncapSlot s r g q) := by
  unfold uncapSlot
  refine .ite ?_ (setRing_kept h)
  dsimp only
  split
  · split
    · exact tspCredits_kept (setRing_kept (setRing_kept h))
    · exact setRing_kept h
  · exact setRing_kept h

theorem fillSlot_kept {r g q : Nat} {crc : Option (BitVec 32)} (h : Kept s₀ s) : Kept s₀ (fillSlot s r g q crc) :=
  .ite (uncapSlot_kept (setRing_kept (capSlot_kept h))) (capSlot_kept h)

theorem setPartnerRings_kept {p : Nat} {f : List PartnerRing → List PartnerRing} (h : Kept s₀ s) :
    Kept s₀ (setPartnerRings s p f) :=
  setPartner_kept h

/-! ### Work -/

theorem setRoots_kept {r : Nat} {f : List RootSlot → List RootSlot} (h : Kept s₀ s) : Kept s₀ (setRoots s r f) :=
  .foldl (setRun_kept h) fun _ _ h => setWorker_kept h

theorem setIssued_kept {r k : Nat} {f : Issued → Issued} (h : Kept s₀ s) : Kept s₀ (setIssued s r k f) := setRun_kept h

theorem setProgress_kept {r k : Nat} {f : Progress → Progress} (h : Kept s₀ s) : Kept s₀ (setProgress s r k f) := by
  unfold setProgress
  split
  · split
    · exact setOrder_kept h
    · exact h
  · exact h

theorem dropUnits_kept {r : Nat} {p : Nat → Bool} (h : Kept s₀ s) : Kept s₀ (dropUnits s r p) :=
  .foldl h fun _ _ h => setFrame_kept h

theorem progressRecord_kept {r k first count : Nat} {bitsSet : List Nat} (h : Kept s₀ s) :
    Kept s₀ (progressRecord s r k first count bitsSet) :=
  journal_kept h

theorem restoreGens_kept {r : Nat} (h : Kept s₀ s) : Kept s₀ (restoreGens s r) := by
  unfold restoreGens
  dsimp only
  split
  · exact h
  · exact setRun_kept (.ite h (setRoots_kept h))

theorem clearRunOrder_kept {r : Nat} (h : Kept s₀ s) : Kept s₀ (clearRunOrder s r) :=
  setRun_kept (restoreGens_kept (dropUnits_kept h))

theorem completeOrder_kept {r : Nat} (h : Kept s₀ s) : Kept s₀ (completeOrder s r) :=
  clearRunOrder_kept (setOrder_kept (journalAt_kept (stamp_kept h)))

theorem abandonOrder_kept {n : BitVec 64} {code : BitVec 16} (h : Kept s₀ s) : Kept s₀ (abandonOrder s n code) := by
  unfold abandonOrder
  dsimp only
  split
  · exact h
  · split
    · exact .ite (clearRunOrder_kept (setOrder_kept (journalAt_kept (stamp_kept h)))) (setOrder_kept (journalAt_kept (stamp_kept
        h)))
    · exact setOrder_kept (journalAt_kept (stamp_kept h))

theorem finishOrder_kept {r : Nat} (h : Kept s₀ s) : Kept s₀ (finishOrder s r) := by
  unfold finishOrder
  split
  · exact h
  · split
    · exact h
    · exact .ite (completeOrder_kept h) h

theorem healthCounters_kept {r k tag : Nat} (h : Kept s₀ s) : Kept s₀ (healthCounters s r k tag) := by
  unfold healthCounters
  dsimp only
  split
  · exact h
  · exact .ite h (setRun_kept (logRecord_kept h))

theorem commitInstr_kept {r k : Nat} (h : Kept s₀ s) : Kept s₀ (commitInstr s r k) :=
  finishOrder_kept (healthCounters_kept (progressRecord_kept (setProgress_kept h)))

theorem consumeSeqs_kept {r : Nat} {seqs : List (Nat × Nat)} (h : Kept s₀ s) : Kept s₀ (consumeSeqs s r seqs) :=
  .foldl h fun _ _ h => setRing_kept h

theorem commitUnit_kept {r k u : Nat} (h : Kept s₀ s) : Kept s₀ (commitUnit s r k u) := by
  unfold commitUnit
  dsimp only
  split
  · exact h
  · split
    · exact h
    · exact .ite h (.ite (setFrame_kept (setIssued_kept (setProgress_kept (setIssued_kept h)))) (.ite (commitInstr_kept
        (setProgress_kept (setIssued_kept h))) (setProgress_kept (setIssued_kept h))))

theorem redoUnit_kept {r : Nat} {ref : UnitRef} (h : Kept s₀ s) : Kept s₀ (redoUnit s r ref) := by
  unfold redoUnit
  dsimp only
  split
  · exact h
  · split
    · exact h
    · exact setFrame_kept h

theorem askRebuild_kept {r g : Nat} (h : Kept s₀ s) : Kept s₀ (askRebuild s r g) := by
  unfold askRebuild
  split
  · exact h
  · exact setFrame_kept h

theorem interruptUnit_kept {r : Nat} {ref : UnitRef} (h : Kept s₀ s) : Kept s₀ (interruptUnit s r ref) := by
  unfold interruptUnit
  dsimp only
  split
  · exact .foldl (redoUnit_kept h) fun _ _ h => askRebuild_kept h
  · exact redoUnit_kept h

theorem invalidate_kept {r : Nat} {regions : List Nat} (h : Kept s₀ s) : Kept s₀ (invalidate s r regions) := setOrder_kept h

theorem countCorrected_kept {a : Nat} (h : Kept s₀ s) : Kept s₀ (countCorrected s a) := setFrame_kept h

theorem markPoison_kept {a : Nat} (h : Kept s₀ s) : Kept s₀ (markPoison s a) := setFrame_kept h

theorem layPages_kept {f : Nat} {pairs : List (BitVec 32 × Nat)} (h : Kept s₀ s) : Kept s₀ (layPages s f pairs) :=
  .foldl h fun _ _ h => .ite h (layComb_kept h)

theorem mendPage_kept {a : Nat} (h : Kept s₀ s) : Kept s₀ (mendPage s a) := by
  unfold mendPage
  refine .ite h ?_
  dsimp only
  split
  · exact .ite h (layComb_kept h)
  · exact h

theorem lostData_kept {r : Nat} {ref : UnitRef} {a : Nat} (h : Kept s₀ s) : Kept s₀ (lostData s r ref a) := by
  unfold lostData
  dsimp only
  split
  · exact h
  · exact .ite (mendPage_kept (runFault_kept (invalidate_kept (runFault_kept h)))) (mendPage_kept (interruptUnit_kept
      (runFault_kept (setOrder_kept h))))

theorem combFault_kept {r : Nat} {ref : UnitRef} {a : Nat} (h : Kept s₀ s) : Kept s₀ (combFault s r ref a) :=
  lostData_kept (markPoison_kept h)

/-! ### Frames -/

theorem transmit_kept {n : Nat} {q : TxReq} (h : Kept s₀ s) : Kept s₀ (transmit s n q) := setLink_kept h

theorem sendAck_kept {n type : Nat} (h : Kept s₀ s) : Kept s₀ (sendAck s n type) := transmit_kept h

theorem sendGrants_kept {n : Nat} (h : Kept s₀ s) : Kept s₀ (sendGrants s n) := .foldl h fun _ _ h => .ite (sendAck_kept h) h

theorem sendPlaced_kept {last : Option (Nat × UnitRef)} (h : Kept s₀ s) : Kept s₀ (sendPlaced s last) := by
  unfold sendPlaced
  split
  · exact h
  · split
    · exact h
    · exact commitUnit_kept (consumeSeqs_kept (setForager_kept h))

theorem answerForward_kept {p : Option Pending} {code : BitVec 16} (h : Kept s₀ s) : Kept s₀ (answerForward s p code) := by
  unfold answerForward
  split
  · exact reply_kept h
  · exact h

theorem pumpN_kept {n fuel : Nat} (h : Kept s₀ s) : Kept s₀ (pumpN n fuel s) := by
  induction fuel generalizing s with
  | zero => exact h
  | succ fuel ih =>
    unfold pumpN
    dsimp only
    split
    · exact h
    · exact ih (answerForward_kept (sendPlaced_kept (transmit_kept (setLink_kept h))))

theorem pump_kept {n : Nat} (h : Kept s₀ s) : Kept s₀ (pump s n) := pumpN_kept h

theorem pumpAfter_kept {full : Bool} {n : Nat} (h : Kept s₀ s) : Kept s₀ (pumpAfter full s n) :=
  .ite (.foldl (pump_kept h) fun _ _ h => pump_kept h) (pump_kept h)

theorem sendFrame_kept {n type : Nat} {land payload : Bytes} {last : Option (Nat × UnitRef)} {dl : Bool}
    {forward : Option Pending} (h : Kept s₀ s) : Kept s₀ (sendFrame s n type land payload last dl forward) :=
  pump_kept (setLink_kept h)

theorem dropQueue_kept {n : Nat} (h : Kept s₀ s) : Kept s₀ (dropQueue s n) :=
  .foldl (setLink_kept h) fun _ _ h => answerForward_kept h

theorem mapLanding_kept {n : Nat} {f : Ring → Ring} (h : Kept s₀ s) : Kept s₀ (mapLanding s n f) := by
  unfold mapLanding
  split
  · exact h
  · exact setRun_kept h

theorem loseSession_kept {n : Nat} (h : Kept s₀ s) : Kept s₀ (loseSession s n) :=
  .ite (beginRecovery_kept (pumpAfter_kept (loseTimeLink_kept (setLink_kept (dropQueue_kept (mapLanding_kept h))))))
    (pumpAfter_kept (loseTimeLink_kept (setLink_kept (dropQueue_kept (mapLanding_kept h)))))

theorem retrainLink_kept {n : Nat} (h : Kept s₀ s) : Kept s₀ (retrainLink s n) := setLink_kept (loseSession_kept h)

theorem linkFault_kept {n : Nat} {code : BitVec 16} (h : Kept s₀ s) : Kept s₀ (linkFault s n code) :=
  phaseRecord_kept (retrainLink_kept (beginRecovery_kept (faultRunOpt_kept h)))

theorem failLink_kept {n : Nat} (h : Kept s₀ s) : Kept s₀ (failLink s n) := retrainLink_kept (setLink_kept h)

theorem resend_kept {n : Nat} (h : Kept s₀ s) : Kept s₀ (resend s n) := .ite (failLink_kept (setLink_kept h)) (setLink_kept h)

theorem takeAck_kept {n ack : Nat} (h : Kept s₀ s) : Kept s₀ (takeAck s n ack) := by
  unfold takeAck
  split
  · exact setLink_kept h
  · exact h

theorem sendNak_kept {n : Nat} (h : Kept s₀ s) : Kept s₀ (sendNak s n) := by
  unfold sendNak
  dsimp only
  split
  · exact .ite h (sendAck_kept (setLink_kept h))
  · exact sendAck_kept (setLink_kept h)

theorem dropFrame_kept {n : Nat} (h : Kept s₀ s) : Kept s₀ (dropFrame s n) := setLink_kept h

theorem quarantineLink_kept {n : Nat} (h : Kept s₀ s) : Kept s₀ (quarantineLink s n) :=
  setLink_kept (phaseRecord_kept (loseSession_kept (beginRecovery_kept (faultRunOpt_kept (transmit_kept h)))))

theorem malformed_kept {n bitNo : Nat} (h : Kept s₀ s) : Kept s₀ (malformed s n bitNo) :=
  .ite (quarantineLink_kept (setLink_kept h)) (setLink_kept h)

theorem linkReceive_kept {n t : Nat} {k : Bytes} {fec : FecReport} {f : Bytes → State → State} (h : Kept s₀ s)
    (hf : ∀ pay t, Kept s₀ t → Kept s₀ (f pay t)) : Kept s₀ (linkReceive s n t k fec f) := by
  delta linkReceive
  extract_lets +onlyGivenNames l ty s1
  have h1 : Kept s₀ s1 := setLink_kept h
  refine .ite h (.ite (sendNak_kept (setLink_kept h1)) ?_)
  split
  · exact .ite (sendNak_kept (malformed_kept h1)) (malformed_kept h1)
  · extract_lets +onlyGivenNames seq full tag cost claim back granted checked s2
    have checked_kept {t : State} (ht : Kept s₀ t) : Kept s₀ (checked t) := by
      refine .ite (malformed_kept (setLink_kept ht)) ?_
      extract_lets t1 t2 t3
      have h2 : Kept s₀ t2 := setLink_kept (takeAck_kept ht)
      have h3 : Kept s₀ t3 := setLink_kept h2
      exact .ite (hf _ _ h2) (.ite (malformed_kept h2) (.ite (malformed_kept h3) (hf _ _ h3)))
    exact .ite (pumpAfter_kept (checked_kept h1)) (.ite (pumpAfter_kept (checked_kept (setLink_kept h1)))
      (.ite (pump_kept (setLink_kept h1)) (pump_kept (sendNak_kept h1))))

/-! ### Waggle -/

theorem grantLanding_kept {r g : Nat} (h : Kept s₀ s) : Kept s₀ (grantLanding s r g) := by
  unfold grantLanding
  refine .ite h ?_
  dsimp only
  split
  · exact h
  · exact .foldl (setRing_kept h) fun _ _ h' => sendFrame_kept h'

theorem releaseSlot_kept {r g q : Nat} (h : Kept s₀ s) : Kept s₀ (releaseSlot s r g q) := grantLanding_kept (uncapSlot_kept h)

theorem openLanding_kept {n : Nat} (h : Kept s₀ s) : Kept s₀ (openLanding s n) := by
  unfold openLanding
  dsimp only
  split
  · exact h
  · split
    · exact h
    · exact .ite h (.foldl h fun _ _ h => .ite (grantLanding_kept h) (grantLanding_kept (setRing_kept (sendFrame_kept h))))

theorem closeLanding_kept {r : Nat} (h : Kept s₀ s) : Kept s₀ (closeLanding s r) := by
  unfold closeLanding
  dsimp only
  split
  · exact h
  · exact .foldl h fun _ _ h => .foldl h fun _ _ h => setRing_kept (.ite (sendFrame_kept h) h)

theorem sendChunk_kept {n ring plan seq : Nat} {bytes : Bytes} {last : Option (Nat × UnitRef)} (h : Kept s₀ s) :
    Kept s₀ (sendChunk s n ring plan seq bytes last) :=
  .foldl h fun _ _ h => sendFrame_kept h

theorem bindSend_kept {r : Nat} {i : Issued} (h : Kept s₀ s) : Kept s₀ (bindSend s r i) := by
  delta bindSend
  split
  · extract_lets f c us owed s1 s2 s3 first s4 more s5
    have h2 : Kept s₀ s2 := by
      unfold s2
      split
      · exact setRing_kept (setIssued_kept h)
      · exact setIssued_kept h
    have h3 : Kept s₀ s3 := setProgress_kept h2
    have h4 : Kept s₀ s4 := .ite h3 (.foldl (dropUnits_kept h3) fun _ _ h => setForager_kept h)
    have h5 : Kept s₀ s5 := setFrame_kept h4
    exact .ite h (.ite (runFault_kept (dropUnits_kept h)) (.ite (commitInstr_kept h5) h5))
  · exact h

theorem bindSends_kept {n : Nat} (h : Kept s₀ s) : Kept s₀ (bindSends s n) := by
  unfold bindSends
  split
  · exact h
  · split
    · exact h
    · exact .foldl h fun _ _ h => bindSend_kept h

theorem tryCheck_kept {r : Nat} (h : Kept s₀ s) : Kept s₀ (tryCheck s r) := by
  unfold tryCheck
  dsimp only
  split
  · exact h
  · split
    · exact .ite (commitInstr_kept (.foldl (setRun_kept h) fun _ _ h' => setLink_kept h')) h
    · exact h

theorem takeCheck_kept {n plan count : Nat} (h : Kept s₀ s) : Kept s₀ (takeCheck s n plan count) := by
  unfold takeCheck
  dsimp only
  split
  · exact tryCheck_kept (setLink_kept h)
  · exact setLink_kept h

theorem startHandshake_kept {n : Nat} (h : Kept s₀ s) : Kept s₀ (startHandshake s n) :=
  .foldl (sendFrame_kept (setLink_kept h)) fun _ _ h => sendFrame_kept h

theorem failHandshake_kept {n : Nat} {code : BitVec 16} (h : Kept s₀ s) : Kept s₀ (failHandshake s n code) :=
  setLink_kept (dropQueue_kept h)

theorem setHandshake_kept {n : Nat} {f : Handshake → Handshake} (h : Kept s₀ s) : Kept s₀ (setHandshake s n f) := setLink_kept h

theorem sendResume_kept {n : Nat} (h : Kept s₀ s) : Kept s₀ (sendResume s n) := sendFrame_kept h

theorem linkRecovered_kept {n : Nat} (h : Kept s₀ s) : Kept s₀ (linkRecovered s n) := by
  unfold linkRecovered
  split
  · exact h
  · exact .ite (setKeeper_kept h) (endRecovery_kept h)

theorem beginSession_kept {n : Nat} (h : Kept s₀ s) : Kept s₀ (beginSession s n) := by
  delta beginSession
  extract_lets l
  split
  · exact h
  · extract_lets epoch peer s1 s2 s3 s4 s5
    have h3 : Kept s₀ s3 := linkRecovered_kept (sendGrants_kept (setLink_kept h))
    have h4 : Kept s₀ s4 := by
      unfold s4
      split
      · exact .ite (faultRunOpt_kept h3) h3
      · exact h3
    have h5 : Kept s₀ s5 := .ite (sendResume_kept h4) h4
    exact openLanding_kept h5

theorem sendRouted_kept {out dst src hops : Nat} {dl : Bool} {msg : Bytes} {forward : Option Pending} (h : Kept s₀ s) :
    Kept s₀ (sendRouted s out dst src hops dl msg forward) :=
  sendFrame_kept h

theorem sendRemote_kept {dst : Nat} {msg : Bytes} (h : Kept s₀ s) : Kept s₀ (sendRemote s dst msg) := .ite (sendRouted_kept h) h

theorem queueMail_kept {n : Nat} {msg : Bytes} {src : Nat} (h : Kept s₀ s) : Kept s₀ (queueMail s n msg src) :=
  pullArrived_kept (setMailbox_kept h)

theorem routeFrame_kept {n : Nat} {k pay : Bytes} (h : Kept s₀ s) : Kept s₀ (routeFrame s n k pay) :=
  .ite (.ite (queueMail_kept h) (setLink_kept h)) (.ite (dropFrame_kept h) (sendRouted_kept h))

theorem windowFault_kept {n : Nat} (h : Kept s₀ s) : Kept s₀ (windowFault s n) :=
  .ite (malformed_kept h) (linkFault_kept (malformed_kept h))

theorem landPoison_kept {n r : Nat} {rn : Run} {a : Armed} {addr : Nat} (h : Kept s₀ s) : Kept s₀ (landPoison s n r rn a addr) :=
  .ite (runFault_kept (invalidate_kept (runFault_kept (markPoison_kept h)))) (retrainLink_kept (runFault_kept (setOrder_kept
    (markPoison_kept h))))

theorem landData_kept {n : Nat} {k pay : Bytes} (h : Kept s₀ s) : Kept s₀ (landData s n k pay) := by
  unfold landData
  dsimp only
  split
  · exact dropFrame_kept h
  · refine .ite (windowFault_kept h) ?_
    split
    · exact landPoison_kept h
    · refine .ite (setRing_kept (writeComb_kept h)) ?_
      refine .ite (linkFault_kept (setLink_kept (setRing_kept (writeComb_kept h)))) ?_
      split
      · exact landPoison_kept (setRing_kept (writeComb_kept h))
      · exact grantLanding_kept (commitUnit_kept (fillSlot_kept (setRing_kept (setLink_kept (writeComb_kept (setRing_kept
          (writeComb_kept h)))))))

theorem resendChunk_kept {n ring r : Nat} {rn : Run} {acc : State × Bool} {c : SentChunk} (h : Kept s₀ acc.1) :
    Kept s₀ (resendChunk n ring r rn acc c).1 := by
  unfold resendChunk
  dsimp only
  split
  · split
    · exact h
    · split
      · exact runFault_kept (invalidate_kept (runFault_kept (markPoison_kept h)))
      · exact sendChunk_kept h
  · exact h

theorem resendChunks_kept {n ring low : Nat} (h : Kept s₀ s) : Kept s₀ (resendChunks s n ring low) := by
  unfold resendChunks
  split
  · exact h
  · split
    · exact h
    · exact .foldl_fst h fun _ _ h => resendChunk_kept h

theorem takeResume_kept {n : Nat} {pay : Bytes} (h : Kept s₀ s) : Kept s₀ (takeResume s n pay) :=
  openLanding_kept (mapLanding_kept (.foldl (.foldl (.ite (faultRunOpt_kept (setLink_kept h)) (setLink_kept h)) fun _ _ h =>
    takeCheck_kept h) fun _ _ h => resendChunks_kept h))

theorem execLinkTrainingDone_kept {n : Fin 24} {signal : Bool} {lanes : BitVec 4} (h : Kept s₀ s) :
    Keeps s₀ (execLinkTrainingDone n signal lanes s) :=
  clocked_kept h (.ite h (.ite (setLink_kept h) (startHandshake_kept (sendGrants_kept (setLink_kept (dropQueue_kept h))))))

theorem execHandshakeRetry_kept {n : Fin 24} (h : Kept s₀ s) : Keeps s₀ (execHandshakeRetry n s) :=
  clocked_kept h (.ite (startHandshake_kept h) h)

theorem execHandshakeTimeout_kept {n : Fin 24} (h : Kept s₀ s) : Keeps s₀ (execHandshakeTimeout n s) :=
  clocked_kept h (.ite (failHandshake_kept h) h)

theorem inHandshake_kept {n : Nat} {f : Handshake → State} (h : Kept s₀ s) (hf : ∀ x, Kept s₀ (f x)) :
    Kept s₀ (inHandshake s n f) := by
  unfold inHandshake
  split
  · exact hf _
  · exact malformed_kept h

theorem execHello_kept {n : Fin 24} {k : List (BitVec 8)} {fec : FecReport} (h : Kept s₀ s) : Keeps s₀ (execHello n k fec s) :=
  clocked_kept h (linkReceive_kept h (fun _ _ h => inHandshake_kept h (fun _ => .ite (malformed_kept h) (.ite
    (failHandshake_kept h) (.ite (failHandshake_kept h) (setHandshake_kept h))))))

theorem execCert_kept {n : Fin 24} {k : List (BitVec 8)} {fec : FecReport} (h : Kept s₀ s) : Keeps s₀ (execCert n k fec s) :=
  clocked_kept h (linkReceive_kept h (fun _ _ h => inHandshake_kept h (fun _ => .ite (malformed_kept h) (.ite (setHandshake_kept
    h) (.ite (failHandshake_kept h) (sendFrame_kept (setHandshake_kept h)))))))

theorem execProve_kept {n : Fin 24} {k : List (BitVec 8)} {fec : FecReport} (h : Kept s₀ s) : Keeps s₀ (execProve n k fec s) :=
  clocked_kept h (linkReceive_kept h (fun _ _ h => inHandshake_kept h (fun _ => .ite (malformed_kept h) (.ite
    (failHandshake_kept h) (sendFrame_kept (setHandshake_kept h))))))

theorem execFinish_kept {n : Fin 24} {k : List (BitVec 8)} {fec : FecReport} (h : Kept s₀ s) : Keeps s₀ (execFinish n k fec s) :=
  clocked_kept h (linkReceive_kept h (fun _ _ h => inHandshake_kept h (fun _ => .ite (malformed_kept h) (.ite (malformed_kept h)
    (beginSession_kept (setHandshake_kept h))))))

theorem execResume_kept {n : Fin 24} {k : List (BitVec 8)} {fec : FecReport} (h : Kept s₀ s) : Keeps s₀ (execResume n k fec s) :=
  clocked_kept h (linkReceive_kept h (fun _ _ h => .ite (takeResume_kept h) (malformed_kept h)))

theorem execQuarantine_kept {n : Fin 24} {k : List (BitVec 8)} {fec : FecReport} (h : Kept s₀ s) :
    Keeps s₀ (execQuarantine n k fec s) :=
  clocked_kept h (linkReceive_kept h (fun _ _ h => setLink_kept h))

theorem execAck_kept {n : Fin 24} {k : List (BitVec 8)} {fec : FecReport} (h : Kept s₀ s) : Keeps s₀ (execAck n k fec s) :=
  clocked_kept h (linkReceive_kept h (fun _ _ h => h))

theorem execNak_kept {n : Fin 24} {k : List (BitVec 8)} {fec : FecReport} (h : Kept s₀ s) : Keeps s₀ (execNak n k fec s) :=
  clocked_kept h (linkReceive_kept h (fun _ _ h => resend_kept h))

theorem execAckTimer_kept {n : Fin 24} (h : Kept s₀ s) : Keeps s₀ (execAckTimer n s) :=
  clocked_kept h (.ite h (sendGrants_kept (.ite (sendAck_kept h) h)))

theorem execReplayTimeout_kept {n : Fin 24} (h : Kept s₀ s) : Keeps s₀ (execReplayTimeout n s) :=
  clocked_kept h (.ite h (resend_kept h))

theorem execLinkFail_kept {n : Fin 24} (h : Kept s₀ s) : Keeps s₀ (execLinkFail n s) := clocked_kept h (.ite h (failLink_kept h))

theorem execQuarantineExpiry_kept {n : Fin 24} (h : Kept s₀ s) : Keeps s₀ (execQuarantineExpiry n s) :=
  clocked_kept h (.ite (retrainLink_kept h) h)

theorem execSessionResumeTimeout_kept {n : Fin 24} (h : Kept s₀ s) : Keeps s₀ (execSessionResumeTimeout n s) :=
  clocked_kept h (.ite h (faultRunOpt_kept (setLink_kept h)))

theorem execWaggleData_kept {n : Fin 24} {k : List (BitVec 8)} {fec : FecReport} (h : Kept s₀ s) :
    Keeps s₀ (execWaggleData n k fec s) :=
  clocked_kept h (linkReceive_kept h (fun _ _ h => landData_kept h))

theorem execWaggleMailbox_kept {n : Fin 24} {k : List (BitVec 8)} {fec : FecReport} (h : Kept s₀ s) :
    Keeps s₀ (execWaggleMailbox n k fec s) :=
  clocked_kept h (linkReceive_kept h (fun _ _ h => routeFrame_kept h))

theorem execLinkMailboxDeliver_kept {n : Fin 24} (h : Kept s₀ s) : Keeps s₀ (execLinkMailboxDeliver n s) := by
  unfold execLinkMailboxDeliver
  refine clocked_kept h ?_
  split
  · exact h
  · exact .ite (queueMail_kept (setLink_kept h)) h

theorem execWaggleRingOpen_kept {n : Fin 24} {k : List (BitVec 8)} {fec : FecReport} (h : Kept s₀ s) :
    Keeps s₀ (execWaggleRingOpen n k fec s) :=
  clocked_kept h (linkReceive_kept h (fun _ _ h => bindSends_kept (setLink_kept h)))

theorem execWaggleRingClose_kept {n : Fin 24} {k : List (BitVec 8)} {fec : FecReport} (h : Kept s₀ s) :
    Keeps s₀ (execWaggleRingClose n k fec s) :=
  clocked_kept h (linkReceive_kept h (fun _ _ h => setLink_kept h))

theorem execRcredit_kept {n : Fin 24} {k : List (BitVec 8)} {fec : FecReport} (h : Kept s₀ s) :
    Keeps s₀ (execRcredit n k fec s) :=
  clocked_kept h (linkReceive_kept h (fun _ _ h => .ite (dropFrame_kept h) (setLink_kept h)))

theorem execCheck_kept {n : Fin 24} {k : List (BitVec 8)} {fec : FecReport} (h : Kept s₀ s) : Keeps s₀ (execCheck n k fec s) :=
  clocked_kept h (linkReceive_kept h (fun _ _ h => .ite (dropFrame_kept h) (takeCheck_kept h)))

theorem execTimeReq_kept {n : Fin 24} {k : List (BitVec 8)} {fec : FecReport} (h : Kept s₀ s) :
    Keeps s₀ (execTimeReq n k fec s) :=
  clocked_kept h (linkReceive_kept h (fun _ _ h => sendFrame_kept h))

theorem execLandingTimeout_kept {n : Fin 24} (h : Kept s₀ s) : Keeps s₀ (execLandingTimeout n s) := by
  unfold execLandingTimeout
  refine clocked_kept h ?_
  split
  · exact h
  · split
    · exact h
    · split
      · exact .ite (runFault_kept h) h
      · exact h

theorem execCheckpointTimeout_kept {r : Fin 8} (h : Kept s₀ s) : Keeps s₀ (execCheckpointTimeout r s) := by
  unfold execCheckpointTimeout
  refine clocked_kept h ?_
  dsimp only
  split
  · exact h
  · split
    · exact .ite (runFault_kept h) h
    · exact h

/-! ### Window -/

theorem execStatus_kept {n : Fin 16} (h : Kept s₀ s) : Keeps s₀ (execStatus n s) :=
  clocked_kept h (onRequest_kept h (fun _ _ h => reply_kept h))

theorem execFaultStatus_kept {n : Fin 16} (h : Kept s₀ s) : Keeps s₀ (execFaultStatus n s) :=
  clocked_kept h (onRequest_kept h (fun _ _ h => reply_kept h))

theorem readWindow_kept {p : Pending} (h : Kept s₀ s) : Kept s₀ (readWindow s p) := by
  have page {off n : Nat} : Kept s₀ (readMany readPage s off n).1 := readMany_kept (fun _ _ => readPage_kept) h
  have worker {w off n : Nat} : Kept s₀ (readMany (fun s o => readWorkerReg s w o) s off n).1 :=
    readMany_kept (fun _ _ => readWorkerReg_kept) h
  unfold readWindow
  refine .ite (reject_kept h) (.ite (.ite (reject_kept h) (reply_kept page)) (.ite (reject_kept h) ?_))
  dsimp only
  split
  · exact reject_kept h
  · exact reply_kept worker

theorem execRegReadPage_kept {n : Fin 16} (h : Kept s₀ s) : Keeps s₀ (execRegReadPage n s) :=
  clocked_kept h (onRequest_kept h (fun _ _ h => readWindow_kept h))

theorem execRegReadWorker_kept {n : Fin 16} (h : Kept s₀ s) : Keeps s₀ (execRegReadWorker n s) :=
  clocked_kept h (onRequest_kept h (fun _ _ h => readWindow_kept h))

theorem writeMany_kept {wr : State → Nat → Nat → State} {off n : Nat} {values : Bytes}
    (hwr : ∀ t o v, Kept s₀ t → Kept s₀ (wr t o v)) (h : Kept s₀ s) : Kept s₀ (writeMany wr s off n values) :=
  .foldl h fun _ _ h => hwr _ _ _ h

theorem writeWorkers_kept {p : Pending} {addressed : Option (List Nat)} (h : Kept s₀ s) :
    Kept s₀ (writeWorkers s p addressed) := by
  unfold writeWorkers
  refine .ite (reject_kept h) ?_
  split
  · exact reject_kept h
  · exact .ite (reject_kept h) (reply_kept (.foldl h fun _ _ h => writeMany_kept (fun _ _ _ h => writeWorkerReg_kept h) h))

theorem writeWindow_kept {p : Pending} (h : Kept s₀ s) : Kept s₀ (writeWindow s p) := by
  unfold writeWindow
  dsimp only
  split
  · exact .ite (reject_kept h) (reply_kept (writeMany_kept (fun _ _ _ h => writePage_kept h) h))
  · exact writeWorkers_kept h
  · exact writeWorkers_kept h
  · exact writeWorkers_kept h
  · exact writeWorkers_kept h
  · exact reject_kept h

theorem execRegWritePage_kept {n : Fin 16} (h : Kept s₀ s) : Keeps s₀ (execRegWritePage n s) :=
  clocked_kept h (onRequest_kept h (fun _ _ h => writeWindow_kept h))

theorem execRegWriteWorker_kept {n : Fin 16} (h : Kept s₀ s) : Keeps s₀ (execRegWriteWorker n s) :=
  clocked_kept h (onRequest_kept h (fun _ _ h => writeWindow_kept h))

theorem execRegWriteFrame_kept {n : Fin 16} (h : Kept s₀ s) : Keeps s₀ (execRegWriteFrame n s) :=
  clocked_kept h (onRequest_kept h (fun _ _ h => writeWindow_kept h))

theorem execRegWriteGroup_kept {n : Fin 16} (h : Kept s₀ s) : Keeps s₀ (execRegWriteGroup n s) :=
  clocked_kept h (onRequest_kept h (fun _ _ h => writeWindow_kept h))

theorem execRegWriteAll_kept {n : Fin 16} (h : Kept s₀ s) : Keeps s₀ (execRegWriteAll n s) :=
  clocked_kept h (onRequest_kept h (fun _ _ h => writeWindow_kept h))

theorem execGroupSet_kept {n : Fin 16} (h : Kept s₀ s) : Keeps s₀ (execGroupSet n s) :=
  clocked_kept h (onRequest_kept h (fun _ _ h => .ite (reject_kept h) (reply_kept (setKeeper_kept h))))

theorem execBist_kept {n : Fin 16} (h : Kept s₀ s) : Keeps s₀ (execBist n s) := by
  unfold execBist
  refine clocked_kept h ?_
  refine onRequest_kept h (fun _ _ h => ?_)
  dsimp only
  split
  · exact reject_kept h
  · exact .ite (reject_kept h) (setWorker_kept h)

theorem execPortStatus_kept {n : Fin 16} (h : Kept s₀ s) : Keeps s₀ (execPortStatus n s) :=
  clocked_kept h (onRequest_kept h (fun _ _ h => .ite (reply_kept h) (.ite (reply_kept h) (reject_kept h))))

theorem execLinkStatus_kept {n : Fin 16} (h : Kept s₀ s) : Keeps s₀ (execLinkStatus n s) :=
  clocked_kept h (onRequest_kept h (fun _ _ h => .ite (reject_kept h) (reply_kept h)))

theorem writeRoutes_kept {first : Nat} {es : Bytes} (h : Kept s₀ s) : Kept s₀ (writeRoutes s first es) := h

theorem execLinkRoute_kept {n : Fin 16} (h : Kept s₀ s) : Keeps s₀ (execLinkRoute n s) :=
  clocked_kept h (onRequest_kept h (fun _ _ h => .ite (reject_kept h) (reply_kept (writeRoutes_kept h))))

theorem linkCtl_kept {n action : Nat} {act : State → Pending → Nat → State} (h : Kept s₀ s)
    (hact : ∀ t p x, Kept s₀ t → Kept s₀ (act t p x)) : Kept s₀ (linkCtl s n action act) :=
  onRequest_kept h (fun _ _ h => .ite (reject_kept h) (.ite (reject_kept h) (hact _ _ _ h)))

theorem execLinkCtlRetrain_kept {n : Fin 16} (h : Kept s₀ s) : Keeps s₀ (execLinkCtlRetrain n s) :=
  clocked_kept h (linkCtl_kept h (fun _ _ _ h => reply_kept (.ite h (retrainLink_kept h))))

theorem execLinkCtlEndQuarantine_kept {n : Fin 16} (h : Kept s₀ s) : Keeps s₀ (execLinkCtlEndQuarantine n s) :=
  clocked_kept h (linkCtl_kept h (fun _ _ _ h => reply_kept (.ite (retrainLink_kept h) h)))

theorem execLinkCtlDisable_kept {n : Fin 16} (h : Kept s₀ s) : Keeps s₀ (execLinkCtlDisable n s) :=
  clocked_kept h (linkCtl_kept h (fun _ _ _ h => .ite (reject_kept h) (reply_kept (setLink_kept (loseSession_kept h)))))

theorem execLinkCtlEnable_kept {n : Fin 16} (h : Kept s₀ s) : Keeps s₀ (execLinkCtlEnable n s) :=
  clocked_kept h (linkCtl_kept h (fun _ _ _ h => reply_kept (.ite (retrainLink_kept (setLink_kept h)) (setLink_kept h))))

/-! ### Clock -/

theorem execTimeStatus_kept {n : Fin 16} (h : Kept s₀ s) : Keeps s₀ (execTimeStatus n s) :=
  clocked_kept h (onRequest_kept h (fun _ _ h => reply_kept h))

theorem timeCfg_kept {n action : Nat} {act : State → Pending → State} (h : Kept s₀ s)
    (hact : ∀ t p, Kept s₀ t → Kept s₀ (act t p)) : Kept s₀ (timeCfg s n action act) :=
  onRequest_kept h (fun _ _ h => .ite (reject_kept h) (hact _ _ h))

theorem execTimeCfgSetMode_kept {n : Fin 16} (h : Kept s₀ s) : Keeps s₀ (execTimeCfgSetMode n s) :=
  clocked_kept h (timeCfg_kept h (fun _ _ h => .ite (reject_kept h) (reply_kept (setTimeCfg_kept h))))

theorem execTimeCfgSetEpoch_kept {n : Fin 16} (h : Kept s₀ s) : Keeps s₀ (execTimeCfgSetEpoch n s) :=
  clocked_kept h (timeCfg_kept h (fun _ _ h => reply_kept (setTime_kept h)))

theorem execTimeCfgSetPpsSecond_kept {n : Fin 16} (h : Kept s₀ s) : Keeps s₀ (execTimeCfgSetPpsSecond n s) :=
  clocked_kept h (timeCfg_kept h (fun _ _ h => reply_kept (setTime_kept h)))

theorem rejoin_kept {x : SourceState} (h : Kept s₀ s) : Kept s₀ (rejoin s x) := by
  delta rejoin
  extract_lets old held dur s1 s2 s3 s4
  have h2 : Kept s₀ s2 := setTime_kept (setSource_kept h)
  have h3 : Kept s₀ s3 := .ite h2 (changeRecord_kept h2)
  exact timeRecord_kept (.ite (timeRecord_kept h3) h3)

theorem execTimeCfgRejoin_kept {n : Fin 16} (h : Kept s₀ s) : Keeps s₀ (execTimeCfgRejoin n s) := by
  unfold execTimeCfgRejoin
  refine clocked_kept h ?_
  refine timeCfg_kept h (fun _ _ h => ?_)
  dsimp only
  split
  · exact .ite (reject_kept h) (reply_kept (rejoin_kept h))
  · exact reject_kept h

theorem missExchange_kept {n : Nat} (h : Kept s₀ s) : Kept s₀ (missExchange s n) := by
  unfold missExchange
  split
  · exact .ite (setSource_kept h) h
  · exact h

theorem execTimeReqLaunch_kept (h : Kept s₀ s) : Keeps s₀ (execTimeReqLaunch s) :=
  clocked_kept h (.foldl h fun _ _ h => .ite (sendFrame_kept (setLink_kept (.ite (missExchange_kept h) h))) h)

theorem execWaggleTimeResp_kept {n : Fin 24} {k : List (BitVec 8)} {fec : FecReport} (h : Kept s₀ s) :
    Keeps s₀ (execWaggleTimeResp n k fec s) := by
  unfold execWaggleTimeResp
  refine clocked_kept h ?_
  refine linkReceive_kept h (fun _ _ h => ?_)
  dsimp only
  split
  · exact h
  · exact .ite h (.ite (loseTimeLink_kept (setLink_kept h)) (measure_kept (setLink_kept h)))

theorem setComparator_kept {c : Nat} {y : CompHolder} (h : Kept s₀ s) : Kept s₀ (setComparator s c y) := setTime_kept h

theorem noComparator_kept {p : Pending} (h : Kept s₀ s) : Kept s₀ (noComparator s p) := reply_kept h

theorem execTimeMark_kept {n : Fin 16} (h : Kept s₀ s) : Keeps s₀ (execTimeMark n s) := by
  unfold execTimeMark
  refine clocked_kept h ?_
  refine onRequest_kept h (fun _ _ h => ?_)
  split
  · exact noComparator_kept h
  · exact reply_kept (setComparator_kept h)

theorem execTimeMarkFire_kept {c : Fin 16} (h : Kept s₀ s) : Keeps s₀ (execTimeMarkFire c s) := by
  unfold execTimeMarkFire
  refine clocked_kept h ?_
  split
  · exact sendNotice_kept (setComparator_kept h)
  · exact h

theorem feedStreams_kept {i v hi : Nat} (h : Kept s₀ s) : Kept s₀ (feedStreams s i v hi) := h

theorem execRailCurrentSample_kept {rail : Fin 6} {sample : BitVec 12} (h : Kept s₀ s) :
    Keeps s₀ (execRailCurrentSample rail sample s) :=
  clocked_kept h (feedStreams_kept (setPower_kept h))

theorem execTelemStreamOpen_kept {n : Fin 16} (h : Kept s₀ s) : Keeps s₀ (execTelemStreamOpen n s) := by
  refine clocked_kept h (onRequest_kept h fun t p h => .ite (reject_kept h) ?_)
  split
  · exact noComparator_kept h
  · next c _ => exact reply_kept (setComparator_kept h :)

theorem execTelemStreamClose_kept {n : Fin 16} (h : Kept s₀ s) : Keeps s₀ (execTelemStreamClose n s) := by
  refine clocked_kept h (onRequest_kept h fun t p h => .ite (reject_kept h) ?_)
  split
  · exact reply_kept h
  · next c _ => exact reply_kept (setComparator_kept (c := c) (y := .free) h :)

theorem execTelemStreamPeriod_kept {c : Fin 16} (h : Kept s₀ s) : Keeps s₀ (execTelemStreamPeriod c s) := by
  refine clocked_kept h ?_
  split
  · next kind period _ =>
    have logged : Kept s₀ ((streamBodies s kind period (assocD s.telem.last c.val [])).foldl
        (fun s b => logRecord s kind (dieSource s) b) s) := .foldl h fun _ _ h => logRecord_kept h
    exact logged
  · exact h

theorem execTelemRead_kept {n : Fin 16} (h : Kept s₀ s) : Keeps s₀ (execTelemRead n s) :=
  clocked_kept h (onRequest_kept h (fun _ _ h => .ite (reject_kept h) (reply_kept h)))

/-- The oldest record leaves the buffer (R447). -/
theorem execLogWrite_kept (h : Kept s₀ s) : Keeps s₀ (execLogWrite s) := by
  refine clocked_kept h ?_
  dsimp only
  split
  · exact h
  · next r rest hb =>
    have taken {n d : Nat} {rs : List (Nat × Bytes)} :
        Kept s₀ { s with telem := { s.telem with buffer := rest, next := n, dropped := d, records := rs } } :=
      h.parts fun ⟨boxes, slots, runs, frames, workers, foragers, partners, mems, links, log⟩ =>
        ⟨boxes, slots, runs, frames, workers, foragers, partners, mems, links, by simp [hb] at log ⊢; omega⟩
    exact .ite h (.ite taken (logRecord_kept taken))

/-! ### Governor -/

theorem ungateFrame_kept {f : Nat} (h : Kept s₀ s) : Kept s₀ (ungateFrame s f) := by
  delta ungateFrame
  extract_lets s1 s2
  have h2 : Kept s₀ s2 := .foldl (setFrame_kept h) fun _ _ h => setWorker_kept h
  clear_value s2
  split
  · exact setRun_kept h2
  · exact h2

theorem settleTarget_kept (h : Kept s₀ s) : Kept s₀ (settleTarget s) := .ite h (.ite (setPower_kept h) (setPower_kept h))

theorem setTarget_kept {c : PowerConfig} (h : Kept s₀ s) : Kept s₀ (setTarget s c) :=
  settleTarget_kept (setPower_kept (.foldl (.foldl h fun _ _ h => setFrame_kept h) fun _ _ h => .ite (setFrame_kept h)
    (ungateFrame_kept h)))

theorem flowRecord_kept {kind : Nat} {body : Bytes} {code : Nat} {notify : Bool} (h : Kept s₀ s) :
    Kept s₀ (flowRecord s kind body code notify) := by
  unfold flowRecord
  dsimp only
  split
  · exact .ite (sendNotice_kept (pushLog_kept (stamp_kept h))) (pushLog_kept (stamp_kept h))
  · exact pushLog_kept (stamp_kept h)

theorem closePoint_kept {superseded : Bool} (h : Kept s₀ s) : Kept s₀ (closePoint s superseded) := by
  unfold closePoint
  split
  · exact h
  · cases superseded with
    | true => exact flowRecord_kept (setPower_kept h)
    | false => exact flowRecord_kept (setPower_kept h)

theorem settleFlow_kept (h : Kept s₀ s) : Kept s₀ (settleFlow s) := by
  unfold settleFlow
  dsimp only
  split
  · exact h
  · exact .ite (closePoint_kept h) h

theorem takeSample_kept {m : PowerSample} (h : Kept s₀ s) : Kept s₀ (takeSample s m) := feedStreams_kept (setPower_kept h)

theorem watchFloor_kept (h : Kept s₀ s) : Kept s₀ (watchFloor s) := .ite h (flowRecord_kept (setPower_kept h))

theorem powerDown_kept (h : Kept s₀ s) : Kept s₀ (powerDown s) := setTarget_kept (setPower_kept h)

theorem chooseConfig_kept {meanMw : Nat} (h : Kept s₀ s) : Kept s₀ (chooseConfig s meanMw) := by
  unfold chooseConfig
  refine .ite (powerDown_kept h) ?_
  refine .ite ?_ (.ite (setTarget_kept h) h)
  split
  · exact setTarget_kept (setPower_kept h)
  · exact h

theorem gateIdle_kept (h : Kept s₀ s) : Kept s₀ (gateIdle s) := .foldl h fun _ _ h => .ite (setFrame_kept h) h

theorem governorPeriod_kept {m : PowerSample} (h : Kept s₀ s) : Kept s₀ (governorPeriod s m) :=
  .ite h (settleFlow_kept (gateIdle_kept (chooseConfig_kept (watchFloor_kept (setPower_kept (setPower_kept (takeSample_kept
    h)))))))

theorem execGovernorPeriod_kept {sample : PowerSample} (h : Kept s₀ s) : Keeps s₀ (execGovernorPeriod sample s) :=
  clocked_kept h (governorPeriod_kept h)

theorem execFrameGated_kept {f : Fin 8} (h : Kept s₀ s) : Keeps s₀ (execFrameGated f s) := by
  refine clocked_kept h (.ite h ?_)
  extract_lets s1 s2 s3 s4
  have h3 : Kept s₀ s3 := setPower_kept (.foldl (setFrame_kept h) fun _ _ h => setWorker_kept h)
  have h4 : Kept s₀ s4 := by
    unfold s4
    split
    · exact .ite (setRun_kept h3) h3
    · exact h3
  exact settleFlow_kept (settleTarget_kept h4)

theorem execVclkSwitch_kept (h : Kept s₀ s) : Keeps s₀ (execVclkSwitch s) :=
  clocked_kept h (.ite (settleFlow_kept (setPower_kept h)) h)

theorem setAlert_kept {on : Bool} (h : Kept s₀ s) : Kept s₀ (setAlert s on) :=
  .ite h (logRecord_kept (setPower_kept (setPower_kept h)))

theorem execPmbAlertAssert_kept (h : Kept s₀ s) : Keeps s₀ (execPmbAlertAssert s) :=
  next_kept (.ite (setPower_kept h) (setAlert_kept (setPower_kept h)))

theorem execPmbAlertRelease_kept (h : Kept s₀ s) : Keeps s₀ (execPmbAlertRelease s) :=
  next_kept (.ite (setPower_kept h) (setAlert_kept (setPower_kept h)))

theorem returnLead_kept (h : Kept s₀ s) : Kept s₀ (returnLead s) := setPower_kept (.foldl h fun _ _ h => setFrame_kept h)

theorem beginPoint_kept (h : Kept s₀ s) : Kept s₀ (beginPoint s) := by
  unfold beginPoint
  dsimp only
  split
  · exact h
  · exact setPower_kept (.ite (returnLead_kept (closePoint_kept h)) (setPower_kept (closePoint_kept h)))

theorem execFlowPointBegin_kept (h : Kept s₀ s) : Keeps s₀ (execFlowPointBegin s) := clocked_kept h (.ite (beginPoint_kept h) h)

theorem beginPassed_kept {fuel : Nat} (h : Kept s₀ s) : Kept s₀ (beginPassed fuel s) := by
  induction fuel generalizing s with
  | zero => exact h
  | succ fuel ih =>
    unfold beginPassed
    split
    · exact h
    · exact .ite (ih (beginPoint_kept h)) h

theorem execFlowLead_kept (h : Kept s₀ s) : Keeps s₀ (execFlowLead s) := by
  unfold execFlowLead
  refine clocked_kept h ?_
  dsimp only
  split
  · exact h
  · exact setPower_kept (.foldl h fun _ _ h => ungateFrame_kept h)

theorem execFlowStepEdge_kept {highNs : Nat} (h : Kept s₀ s) : Keeps s₀ (execFlowStepEdge highNs s) := by
  unfold execFlowStepEdge
  refine clocked_kept h ?_
  refine .ite h ?_
  dsimp only
  split
  · exact .ite (setPower_kept h) (setPower_kept h)
  · exact setPower_kept h

theorem execFlowSet_kept {n : Fin 16} (h : Kept s₀ s) : Keeps s₀ (execFlowSet n s) :=
  clocked_kept h (onRequest_kept h (fun _ _ h => .ite (reject_kept h) (.ite (reject_kept h) (reply_kept (.ite (returnLead_kept
    (beginPassed_kept (setPower_kept h))) (beginPassed_kept (setPower_kept h)))))))

theorem execFlowStatus_kept {n : Fin 16} (h : Kept s₀ s) : Keeps s₀ (execFlowStatus n s) :=
  clocked_kept h (onRequest_kept h (fun _ _ h => reply_kept h))

/-! ### Issue -/

theorem loadOrder_kept {r : Nat} {rn : Run} {o : Order} (h : Kept s₀ s) : Kept s₀ (loadOrder s r rn o) :=
  setRun_kept (writeComb_kept h)

theorem startOrder_kept {r : Nat} (h : Kept s₀ s) : Kept s₀ (startOrder s r) := by
  unfold startOrder
  dsimp only
  split
  · exact .ite h (finishOrder_kept (loadOrder_kept (.foldl (setOrder_kept (journal_kept h)) fun _ _ h => setFrame_kept h)))
  · exact h

theorem execWorkOrderStart_kept {r : Fin 8} (h : Kept s₀ s) : Keeps s₀ (execWorkOrderStart r s) :=
  clocked_kept h (startOrder_kept h)

theorem takeBases_kept {r : Nat} {rn : Run} {op : PInstr} {n : Nat} (h : Kept s₀ s) : Kept s₀ (takeBases s r rn op n).1 :=
  setRun_kept h

theorem advanceIssue_kept {n : BitVec 64} (h : Kept s₀ s) : Kept s₀ (advanceIssue s n) := setOrder_kept h

theorem replayFence_kept {r k mask : Nat} {gens : List (BitVec 32)} (h : Kept s₀ s) : Kept s₀ (replayFence s r k mask gens) :=
  .ite (runFault_kept h) (setRoots_kept h)

theorem issueFence_kept {r : Nat} {o : Order} {k mask : Nat} (h : Kept s₀ s) : Kept s₀ (issueFence s r o k mask) := by
  unfold issueFence
  dsimp only
  split
  · exact replayFence_kept h
  · exact setOrder_kept (journal_kept (setRoots_kept h))

theorem issueCheck_kept {r : Nat} {rn : Run} {k : Nat} {op : PInstr} (h : Kept s₀ s) : Kept s₀ (issueCheck s r rn k op) :=
  tryCheck_kept (.foldl (setRun_kept h) fun _ _ h => sendFrame_kept (setLink_kept h))

theorem armLanding_kept {r g k plan : Nat} {units : List Nat} (h : Kept s₀ s) : Kept s₀ (armLanding s r g k plan units) :=
  grantLanding_kept (setRing_kept h)

theorem placeUnits_kept {r : Nat} {im : Image} {i : Issued} (h : Kept s₀ s) : Kept s₀ (placeUnits s r im i) :=
  .foldl h fun _ _ h => .ite h (setFrame_kept h)

theorem issueUnits_kept {r : Nat} {rn : Run} {o : Order} {k : Nat} {op : PInstr} (h : Kept s₀ s) :
    Kept s₀ (issueUnits s r rn o k op) := by
  unfold issueUnits
  dsimp only
  split
  · exact runFault_kept h
  · refine .ite (commitInstr_kept (setProgress_kept (advanceIssue_kept (setRun_kept (takeBases_kept h))))) ?_
    refine .ite ?_ (placeUnits_kept (setProgress_kept (advanceIssue_kept (setRun_kept (takeBases_kept h)))))
    split
    · exact armLanding_kept (setProgress_kept (advanceIssue_kept (setRun_kept (takeBases_kept h))))
    · exact setProgress_kept (advanceIssue_kept (setRun_kept (takeBases_kept h)))

theorem issueOne_kept {r : Nat} {rn : Run} {o : Order} {k : Nat} {op : PInstr} (h : Kept s₀ s) :
    Kept s₀ (issueOne s r rn o k op) := by
  unfold issueOne
  dsimp only
  split
  · exact combFault_kept h
  · exact .ite (runFault_kept h) (.ite (commitInstr_kept (advanceIssue_kept (setRun_kept (issueFence_kept h)))) (.ite
      (issueCheck_kept (advanceIssue_kept (setRun_kept h))) (issueUnits_kept h)))

theorem issueWhere_kept {r : Nat} {p : PInstr → Bool} (h : Kept s₀ s) : Kept s₀ (issueWhere s r p) := by
  unfold issueWhere
  split
  · exact .ite (issueOne_kept h) h
  · exact h

theorem execMicroVectorOp_kept {r : Fin 8} (h : Kept s₀ s) : Keeps s₀ (execMicroVectorOp r s) :=
  clocked_kept h (issueWhere_kept h)

theorem execChain_kept {r : Fin 8} (h : Kept s₀ s) : Keeps s₀ (execChain r s) := clocked_kept h (issueWhere_kept h)

theorem execConvert_kept {r : Fin 8} (h : Kept s₀ s) : Keeps s₀ (execConvert r s) := clocked_kept h (issueWhere_kept h)

theorem execRowGather_kept {r : Fin 8} (h : Kept s₀ s) : Keeps s₀ (execRowGather r s) := clocked_kept h (issueWhere_kept h)

theorem execRsum_kept {r : Fin 8} (h : Kept s₀ s) : Keeps s₀ (execRsum r s) := clocked_kept h (issueWhere_kept h)

theorem execRsumsq_kept {r : Fin 8} (h : Kept s₀ s) : Keeps s₀ (execRsumsq r s) := clocked_kept h (issueWhere_kept h)

theorem execRmean_kept {r : Fin 8} (h : Kept s₀ s) : Keeps s₀ (execRmean r s) := clocked_kept h (issueWhere_kept h)

theorem execRsum2_kept {r : Fin 8} (h : Kept s₀ s) : Keeps s₀ (execRsum2 r s) := clocked_kept h (issueWhere_kept h)

theorem execRmax_kept {r : Fin 8} (h : Kept s₀ s) : Keeps s₀ (execRmax r s) := clocked_kept h (issueWhere_kept h)

theorem execRmin_kept {r : Fin 8} (h : Kept s₀ s) : Keeps s₀ (execRmin r s) := clocked_kept h (issueWhere_kept h)

theorem execRamax_kept {r : Fin 8} (h : Kept s₀ s) : Keeps s₀ (execRamax r s) := clocked_kept h (issueWhere_kept h)

theorem execRargmax_kept {r : Fin 8} (h : Kept s₀ s) : Keeps s₀ (execRargmax r s) := clocked_kept h (issueWhere_kept h)

theorem execRargmin_kept {r : Fin 8} (h : Kept s₀ s) : Keeps s₀ (execRargmin r s) := clocked_kept h (issueWhere_kept h)

theorem execNstats_kept {r : Fin 8} (h : Kept s₀ s) : Keeps s₀ (execNstats r s) := clocked_kept h (issueWhere_kept h)

theorem execRmsstats_kept {r : Fin 8} (h : Kept s₀ s) : Keeps s₀ (execRmsstats r s) := clocked_kept h (issueWhere_kept h)

theorem execNapply_kept {r : Fin 8} (h : Kept s₀ s) : Keeps s₀ (execNapply r s) := clocked_kept h (issueWhere_kept h)

theorem execSmaxStats_kept {r : Fin 8} (h : Kept s₀ s) : Keeps s₀ (execSmaxStats r s) := clocked_kept h (issueWhere_kept h)

theorem execSmaxApply_kept {r : Fin 8} (h : Kept s₀ s) : Keeps s₀ (execSmaxApply r s) := clocked_kept h (issueWhere_kept h)

theorem execSmaxBlock_kept {r : Fin 8} (h : Kept s₀ s) : Keeps s₀ (execSmaxBlock r s) := clocked_kept h (issueWhere_kept h)

theorem execSmaxRescale_kept {r : Fin 8} (h : Kept s₀ s) : Keeps s₀ (execSmaxRescale r s) := clocked_kept h (issueWhere_kept h)

theorem execSmaxSeed_kept {r : Fin 8} (h : Kept s₀ s) : Keeps s₀ (execSmaxSeed r s) := clocked_kept h (issueWhere_kept h)

theorem execSmaxSeedApply_kept {r : Fin 8} (h : Kept s₀ s) : Keeps s₀ (execSmaxSeedApply r s) :=
  clocked_kept h (issueWhere_kept h)

theorem execAdamw_kept {r : Fin 8} (h : Kept s₀ s) : Keeps s₀ (execAdamw r s) := clocked_kept h (issueWhere_kept h)

theorem execAdamL2_kept {r : Fin 8} (h : Kept s₀ s) : Keeps s₀ (execAdamL2 r s) := clocked_kept h (issueWhere_kept h)

theorem execMomentum_kept {r : Fin 8} (h : Kept s₀ s) : Keeps s₀ (execMomentum r s) := clocked_kept h (issueWhere_kept h)

theorem execNwatch_kept {r : Fin 8} (h : Kept s₀ s) : Keeps s₀ (execNwatch r s) := clocked_kept h (issueWhere_kept h)

theorem execFcopy_kept {r : Fin 8} (h : Kept s₀ s) : Keeps s₀ (execFcopy r s) := clocked_kept h (issueWhere_kept h)

theorem execFload_kept {r : Fin 8} (h : Kept s₀ s) : Keeps s₀ (execFload r s) := clocked_kept h (issueWhere_kept h)

theorem execFstore_kept {r : Fin 8} (h : Kept s₀ s) : Keeps s₀ (execFstore r s) := clocked_kept h (issueWhere_kept h)

theorem execFsend_kept {r : Fin 8} (h : Kept s₀ s) : Keeps s₀ (execFsend r s) := clocked_kept h (issueWhere_kept h)

theorem execFtrans_kept {r : Fin 8} (h : Kept s₀ s) : Keeps s₀ (execFtrans r s) := clocked_kept h (issueWhere_kept h)

theorem execFtransStore_kept {r : Fin 8} (h : Kept s₀ s) : Keeps s₀ (execFtransStore r s) := clocked_kept h (issueWhere_kept h)

theorem execCsend_kept {r : Fin 8} (h : Kept s₀ s) : Keeps s₀ (execCsend r s) := clocked_kept h (issueWhere_kept h)

theorem execCland_kept {r : Fin 8} (h : Kept s₀ s) : Keeps s₀ (execCland r s) := clocked_kept h (issueWhere_kept h)

theorem execCcheck_kept {r : Fin 8} (h : Kept s₀ s) : Keeps s₀ (execCcheck r s) := clocked_kept h (issueWhere_kept h)

theorem execTfence_kept {r : Fin 8} (h : Kept s₀ s) : Keeps s₀ (execTfence r s) := clocked_kept h (issueWhere_kept h)

/-! ### Workers -/

theorem askSpare_kept {n : Nat} {withdraw byItself : Bool} (h : Kept s₀ s) : Kept s₀ (askSpare s n withdraw byItself) :=
  setKeeper_kept h

theorem tearUnit_kept {w : Option Nat} {y : Held} (h : Kept s₀ s) : Kept s₀ (tearUnit w s y) := by
  unfold tearUnit
  dsimp only
  split
  · exact h
  · split
    · exact runFault_kept (invalidate_kept h)
    · exact runFault_kept (invalidate_kept h)

theorem noteReset_kept {domain inst : Nat} (h : Kept s₀ s) : Kept s₀ (noteReset s domain inst) := setKeeper_kept h

theorem fenceWorker_kept {w : Nat} {code : BitVec 16} (h : Kept s₀ s) : Kept s₀ (fenceWorker s w code) := by
  delta fenceWorker
  extract_lets wk openUnits s1 s2 second again s3 s4
  have h3 : Kept s₀ s3 := phaseRecord_kept (beginRecovery_kept (setWorker_kept (.foldl h fun _ _ h => interruptUnit_kept h)))
  have h4 : Kept s₀ s4 := .ite (setKeeper_kept (phaseRecord_kept h3)) (.ite (noteReset_kept (phaseRecord_kept h3)) h3)
  clear_value s4
  split
  · exact .ite (askSpare_kept h4) (setWorker_kept (.foldl h4 fun _ _ h => tearUnit_kept h))
  · exact setWorker_kept h4

theorem reloadRoot_kept {w : Nat} (h : Kept s₀ s) : Kept s₀ (reloadRoot s w) := by
  unfold reloadRoot
  dsimp only
  split
  · exact h
  · exact setWorker_kept h

theorem handOver_kept {k : Nat} (h : Kept s₀ s) : Kept s₀ (handOver s k) := by
  unfold handOver
  dsimp only
  split
  · exact h
  · split
    · exact h
    · exact .ite h (setKeeper_kept (setWorker_kept (.ite (reloadRoot_kept (setWorker_kept h)) (.ite (setWorker_kept
        (setWorker_kept h)) (setWorker_kept h)))))

theorem execSpareHandover_kept {k : Fin 4} (h : Kept s₀ s) : Keeps s₀ (execSpareHandover k s) := clocked_kept h (handOver_kept h)

theorem returnIdentity_kept {k : Nat} (h : Kept s₀ s) : Kept s₀ (returnIdentity s k) := by
  unfold returnIdentity
  dsimp only
  split
  · exact h
  · exact .ite h (setKeeper_kept (reloadRoot_kept (setWorker_kept (setWorker_kept h))))

theorem execIdentityReturn_kept {k : Fin 4} (h : Kept s₀ s) : Keeps s₀ (execIdentityReturn k s) :=
  clocked_kept h (returnIdentity_kept h)

theorem failAdmission_kept {w : Nat} {code : BitVec 16} (h : Kept s₀ s) : Kept s₀ (failAdmission s w code) := by
  delta failAdmission
  extract_lets wk s1 s2 s3 s4 s5
  have h2 : Kept s₀ s2 := by
    unfold s2
    split
    · exact .ite (askSpare_kept (faultRecord_kept h)) (faultRecord_kept h)
    · exact faultRecord_kept h
  exact .ite (setKeeper_kept (setWorker_kept (phaseRecord_kept h2)))
    (setWorker_kept (.ite (noteReset_kept (phaseRecord_kept h2)) h2))

theorem stepDone_kept {w : Nat} {pass : Bool} (h : Kept s₀ s) : Kept s₀ (stepDone s w pass) := by
  unfold stepDone
  dsimp only
  split
  · exact .ite (setWorker_kept (setWorker_kept h)) (failAdmission_kept (setWorker_kept h))
  · exact .ite (setWorker_kept (reloadRoot_kept h)) (failAdmission_kept h)
  · exact .ite (setWorker_kept h) (failAdmission_kept h)
  · exact .ite (setWorker_kept h) (failAdmission_kept h)
  · exact h

theorem execReadmissionStepDone_kept {w : Fin 68} {pass : Bool} (h : Kept s₀ s) : Keeps s₀ (execReadmissionStepDone w pass s) :=
  clocked_kept h (stepDone_kept h)

theorem admitWorker_kept {w : Nat} (h : Kept s₀ s) : Kept s₀ (admitWorker s w) := .ite (endRecovery_kept (setWorker_kept h)) h

theorem execWorkerAdmit_kept {w : Fin 68} (h : Kept s₀ s) : Keeps s₀ (execWorkerAdmit w s) := clocked_kept h (admitWorker_kept h)

theorem execBistStart_kept {w : Fin 68} (h : Kept s₀ s) : Keeps s₀ (execBistStart w s) :=
  clocked_kept h (.ite (setWorker_kept h) h)

theorem testDone_kept {w : Nat} {pass : Bool} (h : Kept s₀ s) : Kept s₀ (testDone s w pass) := by
  delta testDone
  extract_lets wk s1 s2 s3
  have h2 : Kept s₀ s2 := by
    unfold s2
    split
    · exact reply_kept (setWorker_kept h)
    · exact setWorker_kept h
  have h3 : Kept s₀ s3 := faultRecord_kept h2
  refine .ite h (.ite h2 ?_)
  split
  · exact .ite (setWorker_kept (askSpare_kept h3)) h3
  · exact h3

theorem execRowStateTestDone_kept {w : Fin 68} {pass : Bool} (h : Kept s₀ s) : Keeps s₀ (execRowStateTestDone w pass s) :=
  clocked_kept h (testDone_kept h)

theorem execRowStateScrubDone_kept {w : Fin 68} (h : Kept s₀ s) : Keeps s₀ (execRowStateScrubDone w s) :=
  clocked_kept h (.ite (endRecovery_kept (setWorker_kept h)) h)

/-! ### Tally -/

theorem rewriteSlot_kept {w : Nat} (h : Kept s₀ s) : Kept s₀ (rewriteSlot s w) := by
  unfold rewriteSlot
  dsimp only
  split
  · exact h
  · exact endRecovery_kept (setWorker_kept h)

theorem takeUnit_kept {r w f : Nat} {u : UnitRef} (h : Kept s₀ s) : Kept s₀ (takeUnit s r w f u) :=
  setWorker_kept (setFrame_kept h)

theorem addCyc_kept {w k n : Nat} (h : Kept s₀ s) : Kept s₀ (addCyc s w k n) := setWorker_kept h

theorem grantUnit_kept {w idle : Nat} (h : Kept s₀ s) : Kept s₀ (grantUnit s w idle) := by
  unfold grantUnit
  dsimp only
  split
  · exact h
  · split
    · exact takeUnit_kept (addCyc_kept (rewriteSlot_kept h))
    · exact addCyc_kept (rewriteSlot_kept h)

theorem execUnitGrant_kept {w : Fin 68} {idleCycles : Nat} (h : Kept s₀ s) : Keeps s₀ (execUnitGrant w idleCycles s) :=
  clocked_kept h (grantUnit_kept h)

theorem stealUnit_kept {w idle : Nat} (h : Kept s₀ s) : Kept s₀ (stealUnit s w idle) := by
  unfold stealUnit
  dsimp only
  split
  · exact h
  · refine .ite h ?_
    split
    · exact addCyc_kept (rewriteSlot_kept h)
    · split
      · exact takeUnit_kept (addCyc_kept (rewriteSlot_kept h))
      · exact addCyc_kept (rewriteSlot_kept h)

theorem execUnitSteal_kept {w : Fin 68} {idleCycles : Nat} (h : Kept s₀ s) : Keeps s₀ (execUnitSteal w idleCycles s) :=
  clocked_kept h (stealUnit_kept h)

theorem healthAt_kept {t kind : Nat} {order : BitVec 64} {instr tag : Nat} {payload : Bytes} (h : Kept s₀ s) :
    Kept s₀ (healthAt s t kind order instr tag payload).1 :=
  pushLog_kept h

theorem tripLayer_kept {r : Nat} {i : Issued} {T : Nat} {cause : BitVec 16} (h : Kept s₀ s) :
    Kept s₀ (tripLayer s r i T cause) := by
  unfold tripLayer
  dsimp only
  split
  · exact h
  · split
    · split
      · exact h
      · exact .foldl (dropUnits_kept (setRun_kept (stamp_kept h))) fun _ _ h => setWorker_kept h
    · exact h

theorem dropHeld_kept {w : Nat} (h : Kept s₀ s) : Kept s₀ (dropHeld s w) := setWorker_kept h

theorem sampleTile_kept {before : State} {rn : Run} {i : Issued} {w : Nat} {c : TileCtx} (h : Kept s₀ s) :
    Kept s₀ (sampleTile s before rn i w c) := by
  unfold sampleTile
  refine .ite h ?_
  dsimp only
  split
  · exact h
  · exact .ite h (.ite (setWorker_kept h) (setWorker_kept h))

theorem workerFault_kept {w r : Nat} {ref : UnitRef} {code : BitVec 16} (h : Kept s₀ s) : Kept s₀ (workerFault s w r ref code) :=
  fenceWorker_kept (runFault_kept h)

theorem partRedo_kept {w r : Nat} {ref : UnitRef} {domain : Nat} {code : BitVec 16} (h : Kept s₀ s) :
    Kept s₀ (partRedo s w r ref domain code) :=
  phaseRecord_kept (beginRecovery_kept (interruptUnit_kept (runFault_kept (dropHeld_kept h))))

theorem passSlots_kept {r : Nat} {reads writes : List (Nat × Nat)} (h : Kept s₀ s) : Kept s₀ (passSlots s r reads writes) :=
  .foldl (.foldl h fun _ _ h => releaseSlot_kept h) fun _ _ h => grantLanding_kept (fillSlot_kept h)

theorem unitDone_kept {r w : Nat} {y : Held} (h : Kept s₀ s) : Kept s₀ (unitDone s r w y) :=
  commitUnit_kept (dropHeld_kept (consumeSeqs_kept h))

theorem copyOutFault_kept {w r : Nat} {y : Held} {places : List (Nat × Nat × Byte)} {copied : Nat} {code : BitVec 16}
    (h : Kept s₀ s) : Kept s₀ (copyOutFault s w r y places copied code) :=
  workerFault_kept (setWorker_kept (writeComb_kept h))

theorem countWindow_kept {w : Nat} {i : Issued} {y : Held} {c : TileCtx} {chain : ChainOut} {ws : List EWrite}
    {ringCycles conflictCycles : Nat} (h : Kept s₀ s) : Kept s₀ (countWindow s w i y c chain ws ringCycles conflictCycles) :=
  .ite (setWorker_kept h) h

theorem tileWritten_kept {w r : Nat} {rn : Run} {i : Issued} {y : Held} {c : TileCtx} {ws : List EWrite} {ev : Ev}
    {rows : List RowEntry} {last : Bool} {upset : Upset} (h : Kept s₀ s) :
    Kept s₀ (tileWritten s w r rn i y c ws ev rows last upset) := by
  delta tileWritten
  extract_lets before direct src homes places reads writes s1 s2 held s3 s4 s5 s6 bad s7
  have h2 : Kept s₀ s2 := .ite (writeComb_kept (writeComb_kept h)) (writeComb_kept h)
  have h4 : Kept s₀ s4 := .ite (addCyc_kept (setWorker_kept h2)) (setWorker_kept h2)
  have h6 : Kept s₀ s6 := sampleTile_kept (passSlots_kept h4)
  have h7 : Kept s₀ s7 := .ite (tripLayer_kept h6) h6
  clear_value s7
  refine .ite h7 ?_
  split
  · exact .ite (copyOutFault_kept h7) (unitDone_kept h7)
  · exact .ite (copyOutFault_kept h7) (unitDone_kept h7)
  · exact .ite (dropHeld_kept (tearUnit_kept h7)) (unitDone_kept h7)
  · exact unitDone_kept h7

theorem runTile_kept {w r : Nat} {rn : Run} {i : Issued} {y : Held} {upset : Upset} {ringCycles conflictCycles : Nat}
    (h : Kept s₀ s) : Kept s₀ (runTile s w r rn i y upset ringCycles conflictCycles) := by
  delta runTile
  extract_lets tiles T ref first last ctxOf c chain
  split
  next ws ev rows _ =>
  extract_lets +onlyGivenNames ev' stops finish s1 s2
  clear_value stops
  have finish_kept {t : State} (ht : Kept s₀ t) : Kept s₀ (finish t) := by
    dsimp only [finish]
    split
    · exact combFault_kept (dropHeld_kept ht)
    · split
      · exact lostData_kept (dropHeld_kept ht)
      · split
        · exact runFault_kept (dropHeld_kept ht)
        · exact tileWritten_kept ht
  have h1 : Kept s₀ s1 := countWindow_kept h
  have h2 : Kept s₀ s2 := .ite (setWorker_kept h1) h1
  clear_value s2 finish
  cases upset with
  | laneParity => exact workerFault_kept h2
  | cellUncorrectable => exact workerFault_kept h2
  | cellCorrected => exact finish_kept (setFrame_kept h2)
  | rowStateUncorrectable => exact .ite (finish_kept h2) (setWorker_kept (partRedo_kept h2))
  | rowStateCorrected => exact finish_kept (setWorker_kept h2)
  | rootStoreUncorrectable n => exact .ite (finish_kept h2) (setWorker_kept (partRedo_kept h2))
  | rootStoreCorrected n => exact finish_kept (setWorker_kept h2)
  | combUncorrectable a => exact combFault_kept (dropHeld_kept h2)
  | combCorrected a => exact finish_kept (countCorrected_kept h2)
  | tileCrc =>
    dsimp only
    split
    · exact lostData_kept (dropHeld_kept h2)
    · exact finish_kept h2
  | none => exact finish_kept h2
  | cellUncorrectableInCopyOut n => exact finish_kept h2
  | laneParityInCopyOut n => exact finish_kept h2
  | commitSlotCrc => exact finish_kept h2

theorem issueTile_kept {w : Nat} {upset : Upset} {ringCycles conflictCycles : Nat} (h : Kept s₀ s) :
    Kept s₀ (issueTile s w upset ringCycles conflictCycles) := by
  unfold issueTile
  dsimp only
  split
  · exact h
  · refine .ite h ?_
    split
    · exact .ite (addCyc_kept (setWorker_kept h)) (setWorker_kept h)
    · exact runTile_kept h

theorem execTileIssue_kept {w : Fin 68} {upset : Upset} {ringCycles conflictCycles : Nat} (h : Kept s₀ s) :
    Keeps s₀ (execTileIssue w upset ringCycles conflictCycles s) :=
  clocked_kept h (issueTile_kept h)

theorem closeUnit_kept {w : Nat} (h : Kept s₀ s) : Kept s₀ (closeUnit s w) := by
  unfold closeUnit
  dsimp only
  split
  · exact h
  · split
    · exact h
    · split
      · exact h
      · refine .ite h ?_
        split
        · exact combFault_kept (dropHeld_kept h)
        · exact unitDone_kept (.ite (addCyc_kept (.ite (healthAt_kept (stamp_kept h)) (sendNotice_kept (healthAt_kept
            (stamp_kept (healthAt_kept (stamp_kept h))))))) (.ite (healthAt_kept (stamp_kept h)) (sendNotice_kept (healthAt_kept
            (stamp_kept (healthAt_kept (stamp_kept h)))))))

theorem execCloseUnit_kept {w : Fin 68} (h : Kept s₀ s) : Keeps s₀ (execCloseUnit w s) := clocked_kept h (closeUnit_kept h)

theorem computeSample_kept {w : Nat} (h : Kept s₀ s) : Kept s₀ (computeSample s w) := by
  unfold computeSample
  dsimp only
  split
  · exact h
  · exact .ite (setWorker_kept h) (setWorker_kept (healthAt_kept (stamp_kept h)))

theorem execShadowSampleCompute_kept {w : Fin 68} (h : Kept s₀ s) : Keeps s₀ (execShadowSampleCompute w s) :=
  clocked_kept h (computeSample_kept h)

theorem advanceGuard_kept {r : Nat} (h : Kept s₀ s) : Kept s₀ (advanceGuard s r) := by
  unfold advanceGuard
  dsimp only
  split
  · exact h
  · split
    · split
      · exact h
      · exact .ite h (.ite (healthAt_kept (setRun_kept (setOrder_kept (journal_kept (dropUnits_kept h))))) (runFault_kept
          (setRun_kept (invalidate_kept (healthAt_kept h)))))
    · exact h

theorem execGuardLevelAdvance_kept {r : Fin 8} (h : Kept s₀ s) : Keeps s₀ (execGuardLevelAdvance r s) :=
  clocked_kept h (advanceGuard_kept h)

theorem ringTimeout_kept {who : Waiter} {producer : Bool} {code : BitVec 16} (h : Kept s₀ s) :
    Kept s₀ (ringTimeout s who producer code) := by
  unfold ringTimeout
  dsimp only
  split
  · split
    · exact .ite (runFault_kept (dropHeld_kept h)) h
    · exact h
  · split
    · exact runFault_kept (setForager_kept h)
    · exact h

theorem execStarveTimeout_kept {waiter : Waiter} (h : Kept s₀ s) : Keeps s₀ (execStarveTimeout waiter s) :=
  clocked_kept h (ringTimeout_kept h)

theorem execBlockTimeout_kept {waiter : Waiter} (h : Kept s₀ s) : Keeps s₀ (execBlockTimeout waiter s) :=
  clocked_kept h (ringTimeout_kept h)

theorem afterDrain_kept {w : Nat} (h : Kept s₀ s) : Kept s₀ (afterDrain s w) := setWorker_kept h

theorem drainSlot_kept {w : Nat} (h : Kept s₀ s) : Kept s₀ (drainSlot s w) := by
  delta drainSlot
  extract_lets wk
  split
  · exact h
  · extract_lets ws s1 s2
    have h1 : Kept s₀ s1 := afterDrain_kept (writeComb_kept h)
    have h2 : Kept s₀ s2 := .ite (addCyc_kept h1) h1
    exact .ite h (.ite (commitUnit_kept (consumeSeqs_kept h2)) (tearUnit_kept h2))

theorem execCommitSlotDrain_kept {w : Fin 68} (h : Kept s₀ s) : Keeps s₀ (execCommitSlotDrain w s) :=
  clocked_kept h (drainSlot_kept h)

theorem execDrainTimeout_kept {w : Fin 68} (h : Kept s₀ s) : Keeps s₀ (execDrainTimeout w s) := by
  unfold execDrainTimeout
  refine clocked_kept h ?_
  split
  · exact tearUnit_kept (afterDrain_kept h)
  · exact h

/-! ### Foragers -/

theorem setMove_kept {g : Nat} {m : Move} {f : Move → Move} (h : Kept s₀ s) : Kept s₀ (setMove s g m f) := setForager_kept h

theorem dropMove_kept {g : Nat} {m : Move} (h : Kept s₀ s) : Kept s₀ (dropMove s g m) := setForager_kept h

theorem commitMove_kept {g : Nat} {m : Move} (h : Kept s₀ s) : Kept s₀ (commitMove s g m) :=
  commitUnit_kept (consumeSeqs_kept (dropMove_kept h))

theorem passReads_kept {g : Nat} {m : Move} {reads : List (Nat × Nat)} (h : Kept s₀ s) : Kept s₀ (passReads s g m reads) :=
  .foldl (setMove_kept h) fun _ _ h => releaseSlot_kept h

theorem withheld_kept {g : Nat} {m : Move} (h : Kept s₀ s) : Kept s₀ (withheld s g m) :=
  interruptUnit_kept (runFault_kept (dropMove_kept h))

theorem readsClean_kept {g : Nat} {m : Move} {rn : Run} {i : Issued} {f : State → State} (h : Kept s₀ s)
    (hf : ∀ t, Kept s₀ t → Kept s₀ (f t)) : Kept s₀ (readsClean s g m rn i f) := by
  unfold readsClean
  split
  · exact combFault_kept (dropMove_kept h)
  · exact hf _ h

theorem sendSlot_kept {g : Nat} {m : Move} {rn : Run} {i : Issued} {bad : Bool} (h : Kept s₀ s) :
    Kept s₀ (sendSlot s g m rn i bad) := by
  delta sendSlot
  extract_lets +onlyGivenNames p id size
  split
  · exact h
  · extract_lets +onlyGivenNames q port
    split
    · exact setMove_kept h
    · refine .ite (runFault_kept (dropMove_kept h)) (.ite (setMove_kept h) (readsClean_kept h fun t h => ?_))
      extract_lets +onlyGivenNames bytes parts sentTo s1 s2 s3
      have h1 : Kept s₀ s1 := .foldl h fun _ _ h => .ite h (setMove_kept (tspSend_kept h))
      exact .ite (withheld_kept h1) (.ite (passReads_kept (setPartnerRings_kept (setMove_kept h1))) h1)

theorem sendUnit_kept {g : Nat} {m : Move} {rn : Run} {i : Issued} {bad : Bool} (h : Kept s₀ s) :
    Kept s₀ (sendUnit s g m rn i bad) := by
  unfold sendUnit
  dsimp only
  split
  · exact setMove_kept h
  · exact .ite (setMove_kept h) (readsClean_kept h (fun _ h => .ite (withheld_kept (.foldl h fun _ _ h => sendFrame_kept h))
      (sendChunk_kept (passReads_kept (setLink_kept (setMove_kept h))))))

theorem copyUnit_kept {g : Nat} {m : Move} {rn : Run} {i : Issued} (h : Kept s₀ s) : Kept s₀ (copyUnit s g m rn i) := by
  unfold copyUnit
  refine .ite ?_ (.ite (runFault_kept (dropMove_kept h)) (.ite (setMove_kept h) (.ite (setMove_kept (setMemPort_kept h))
    (passReads_kept (setMove_kept (writeStack_kept (setMemPort_kept h)))))))
  dsimp only
  split
  · exact combFault_kept (dropMove_kept h)
  · exact commitMove_kept (passSlots_kept (writeComb_kept h))

theorem redoMoves_kept {g : Nat} (h : Kept s₀ s) : Kept s₀ (redoMoves s g) :=
  setForager_kept (.foldl h fun _ _ h => interruptUnit_kept h)

theorem foragerFault_kept {g r : Nat} {ref : UnitRef} (h : Kept s₀ s) : Kept s₀ (foragerFault s g r ref) := by
  delta foragerFault
  extract_lets again second held s1 s2 s3 s4 s5 needs
  have h3 : Kept s₀ s3 := setForager_kept (redoMoves_kept (beginRecovery_kept (runFault_kept h)))
  have h5 : Kept s₀ s5 := setKeeper_kept (phaseRecord_kept h3)
  exact .ite (.ite (runFault_kept h5) h5) (.ite (noteReset_kept (phaseRecord_kept h3)) h3)

theorem tryMove_kept {g : Nat} {m : Move} {upset : MoveUpset} (h : Kept s₀ s) : Kept s₀ (tryMove s g m upset) := by
  unfold tryMove
  split
  · exact dropMove_kept h
  · split
    · exact dropMove_kept h
    · refine .ite h ?_
      split
      · exact setMove_kept h
      · extract_lets stack go
        have go_kept {t : State} {bad : Bool} (ht : Kept s₀ t) : Kept s₀ (go t bad) :=
          .ite (sendSlot_kept ht) (.ite (sendUnit_kept ht) (.ite (withheld_kept ht) (readsClean_kept ht fun _ h => copyUnit_kept h)))
        cases upset with
        | combUncorrectable a => exact combFault_kept (dropMove_kept h)
        | combCorrected a => exact go_kept (countCorrected_kept h)
        | dataCheck => exact go_kept h
        | datapathParity => exact foragerFault_kept h
        | interfaceParity a =>
          exact .ite (interruptUnit_kept (runFault_kept (dropMove_kept (markChannel_kept h)))) (go_kept h)
        | none => exact go_kept h

theorem takeMove_kept {r g f : Nat} {u : UnitRef} {upset : MoveUpset} (h : Kept s₀ s) : Kept s₀ (takeMove s r g f u upset) :=
  tryMove_kept (setForager_kept (setFrame_kept h))

theorem retryMoves_kept {g : Nat} {upset : MoveUpset} (h : Kept s₀ s) : Kept s₀ (retryMoves s g upset).1 := by
  refine .foldl_fst h fun acc m h => ?_
  split
  · exact h
  · exact tryMove_kept h

theorem nextMove_kept {g : Nat} {upset : MoveUpset} (h : Kept s₀ s) : Kept s₀ (nextMove s g upset) := by
  unfold nextMove
  dsimp only
  split
  · exact h
  · split
    · exact h
    · refine .ite h ?_
      refine .ite ?_ ?_
      · split
        · exact takeMove_kept h
        · exact h
      · split
        · exact h
        · split
          · exact takeMove_kept h
          · exact h

theorem foragerTake_kept {g : Nat} {upset : MoveUpset} (h : Kept s₀ s) : Kept s₀ (foragerTake s g upset) :=
  .ite h (.ite (retryMoves_kept h) (nextMove_kept (retryMoves_kept h)))

theorem execForagerUnitTake_kept {g : Fin 32} {upset : MoveUpset} (h : Kept s₀ s) : Keeps s₀ (execForagerUnitTake g upset s) :=
  clocked_kept h (foragerTake_kept h)

theorem execStackWriteAck_kept {m : Fin 4} {g : Fin 32} (h : Kept s₀ s) : Keeps s₀ (execStackWriteAck m g s) := by
  unfold execStackWriteAck
  refine clocked_kept h ?_
  split
  · exact h
  · exact commitMove_kept (setMemPort_kept h)

theorem stackReturn_kept {m g : Nat} {res : StackRead} (h : Kept s₀ s) : Kept s₀ (stackReturn s m g res) := by
  unfold stackReturn
  split
  · exact h
  · extract_lets u s1 land
    have h1 : Kept s₀ s1 := setMemPort_kept h
    have land_kept {t : State} (ht : Kept s₀ t) : Kept s₀ (land t) := by
      dsimp only [land]
      split
      · exact combFault_kept (dropMove_kept ht)
      · exact commitMove_kept (passSlots_kept (writeComb_kept ht))
    cases res with
    | good => exact land_kept h1
    | corrected => exact land_kept (setMemPort_kept h1)
    | uncorrectable a => exact runFault_kept (dropMove_kept (setMemPort_kept h1))
    | interfaceParity a => exact interruptUnit_kept (runFault_kept (dropMove_kept (markChannel_kept h1)))
    | dataCheck => exact withheld_kept h1

theorem execStackReadReturn_kept {m : Fin 4} {g : Fin 32} {result : StackRead} (h : Kept s₀ s) :
    Keeps s₀ (execStackReadReturn m g result s) :=
  clocked_kept h (stackReturn_kept h)

theorem packetAck_kept {p : Nat} {retries : BitVec 32} (h : Kept s₀ s) : Kept s₀ (packetAck s p retries) := by
  unfold packetAck
  dsimp only
  split
  · exact h
  · split
    · exact tspPump_kept (setPartner_kept h)
    · split
      · exact tspPump_kept (setPartner_kept h)
      · exact .ite (commitMove_kept (setMove_kept (tspPump_kept (setPartner_kept h)))) (setMove_kept (tspPump_kept
          (setPartner_kept h)))

theorem execAdapterPacketAck_kept {p : PacketAck} (h : Kept s₀ s) : Keeps s₀ (execAdapterPacketAck p s) :=
  clocked_kept h (packetAck_kept h)

theorem execFsendCreditTimeout_kept {g : Fin 32} (h : Kept s₀ s) : Keeps s₀ (execFsendCreditTimeout g s) := by
  unfold execFsendCreditTimeout
  refine clocked_kept h ?_
  dsimp only
  split
  · exact .ite h (runFault_kept (dropMove_kept h))
  · exact h

theorem execCsendCreditTimeout_kept {g : Fin 32} (h : Kept s₀ s) : Keeps s₀ (execCsendCreditTimeout g s) := by
  unfold execCsendCreditTimeout
  refine clocked_kept h ?_
  dsimp only
  split
  · exact .ite h (runFault_kept (dropMove_kept h))
  · exact h

theorem execForagerReset_kept {g : Fin 32} (h : Kept s₀ s) : Keeps s₀ (execForagerReset g s) :=
  clocked_kept h (.ite (endRecovery_kept (setForager_kept h)) h)

/-! ### Transports -/

theorem sendMgmt_kept {k : Nat} {payload : Bytes} (h : Kept s₀ s) : Kept s₀ (sendMgmt s k payload) := h

theorem carryOut_kept {n : Nat} (h : Kept s₀ s) : Kept s₀ (carryOut s n) :=
  .ite h (.ite (.ite (clearOut_kept (sendMgmt_kept h)) h) (.ite (sendRemote_kept (clearOut_kept h)) h))

theorem fillOut_kept {n : Nat} (h : Kept s₀ s) : Kept s₀ (fillOut s n) := by
  unfold fillOut
  dsimp only
  split
  · exact .ite (carryOut_kept h) (.ite (.ite (setMailbox_kept h) (setMailbox_kept h)) (.ite (tspSend_kept (setMailbox_kept h))
      (carryOut_kept (setMailbox_kept h))))
  · exact carryOut_kept h

theorem execMbxInboundWrite_kept {n : Fin 16} {offset : Nat} {data : List (BitVec 8)} (h : Kept s₀ s) :
    Keeps s₀ (execMbxInboundWrite n offset data s) :=
  clocked_kept h (slotWrite_kept h)

theorem execMbxPost_kept {n : Fin 16} (h : Kept s₀ s) : Keeps s₀ (execMbxPost n s) := clocked_kept h (slotPost_kept h)

theorem execMbxOutAck_kept {n : Fin 16} (h : Kept s₀ s) : Keeps s₀ (execMbxOutAck n s) := clocked_kept h (clearOut_kept h)

theorem execOutboundSlotFill_kept {n : Fin 16} (h : Kept s₀ s) : Keeps s₀ (execOutboundSlotFill n s) :=
  clocked_kept h (fillOut_kept h)

theorem execForward_kept {n : Fin 16} (h : Kept s₀ s) : Keeps s₀ (execForward n s) :=
  clocked_kept h (onRequest_kept h (fun _ _ h => .ite (reject_kept h) (.ite (reject_kept h) (sendRouted_kept h))))

theorem execMailboxRemoteReply_kept {n : Fin 16} (h : Kept s₀ s) : Keeps s₀ (execMailboxRemoteReply n s) := by
  have taken := takeMessage_kept (n := n) h
  refine clocked_kept h ?_
  split
  · next heq => rw [heq] at taken; exact taken
  · next heq =>
    rw [heq] at taken
    dsimp only
    split
    · exact .ite (enqueue_kept taken) (setKeeper_kept taken)
    · exact setKeeper_kept taken
  · exact h

theorem i3cWrite_kept {data : Bytes} (h : Kept s₀ s) : Kept s₀ (i3cWrite s data) :=
  .ite h (.foldl h fun _ _ h => writePage_kept h)

theorem execI3cPrivateWrite_kept {data : List (BitVec 8)} (h : Kept s₀ s) : Keeps s₀ (execI3cPrivateWrite data s) :=
  clocked_kept h (i3cWrite_kept h)

theorem execI3cPrivateRead_kept {count : Nat} (h : Kept s₀ s) : Keeps s₀ (execI3cPrivateRead count s) :=
  clocked_kept h (.ite h (readMany_kept (fun _ _ h => readPage_kept h) h))

theorem execSetdasa_kept {staticAddr dynamicAddr : BitVec 7} (h : Kept s₀ s) : Keeps s₀ (execSetdasa staticAddr dynamicAddr s) :=
  clocked_kept h (.ite h h)

theorem execEntdaa_kept {dynamicAddr : BitVec 7} (h : Kept s₀ s) : Keeps s₀ (execEntdaa dynamicAddr s) :=
  clocked_kept h (.ite h h)

theorem execRstdaa_kept (h : Kept s₀ s) : Keeps s₀ (execRstdaa s) := clocked_kept h h

theorem execEnec_kept (h : Kept s₀ s) : Keeps s₀ (execEnec s) := clocked_kept h h

theorem execDisec_kept (h : Kept s₀ s) : Keeps s₀ (execDisec s) := clocked_kept h h

theorem i3cAnswer_kept {b : Bytes} (h : Kept s₀ s) : Kept s₀ (i3cAnswer s b) := h

theorem execGetpid_kept (h : Kept s₀ s) : Keeps s₀ (execGetpid s) := clocked_kept h (i3cAnswer_kept h)

theorem execGetbcr_kept (h : Kept s₀ s) : Keeps s₀ (execGetbcr s) := clocked_kept h (i3cAnswer_kept h)

theorem execGetdcr_kept (h : Kept s₀ s) : Keeps s₀ (execGetdcr s) := clocked_kept h (i3cAnswer_kept h)

theorem execGetstatus_kept (h : Kept s₀ s) : Keeps s₀ (execGetstatus s) := clocked_kept h (i3cAnswer_kept h)

theorem dropMgmt_kept (h : Kept s₀ s) : Kept s₀ (dropMgmt s) := setKeeper_kept h

theorem mgmtReceive_kept {addr : BitVec 128} {port : BitVec 16} {k : Bytes} {kind : Nat} {f : Nat → State} (h : Kept s₀ s)
    (hf : ∀ x, Kept s₀ (f x)) : Kept s₀ (mgmtReceive s addr port k kind f) := by
  unfold mgmtReceive
  refine .ite h ?_
  split
  · exact dropMgmt_kept h
  · exact .ite (dropMgmt_kept h) (.ite h (hf _))

theorem execMgmtMessageFrame_kept {addr : BitVec 128} {port : BitVec 16} {payload : List (BitVec 8)} (h : Kept s₀ s) :
    Keeps s₀ (execMgmtMessageFrame addr port payload s) :=
  clocked_kept h (mgmtReceive_kept h (fun _ => slotPost_kept (slotWrite_kept h)))

theorem writeImage_kept {slot off : Nat} {data : Bytes} (h : Kept s₀ s) : Kept s₀ (writeImage s slot off data).1 := by
  unfold writeImage
  dsimp only
  split
  · exact h
  · split
    · exact h
    · split
      · exact h
      · exact .foldl (.foldl h fun _ _ h => setMemPort_kept h) fun _ _ h => writeStack_kept h

theorem execMgmtImageData_kept {addr : BitVec 128} {port : BitVec 16} {payload : List (BitVec 8)} (h : Kept s₀ s) :
    Keeps s₀ (execMgmtImageData addr port payload s) :=
  clocked_kept h (mgmtReceive_kept h (fun _ => .ite h (sendMgmt_kept (writeImage_kept h))))

theorem execImageWrite_kept {n : Fin 16} (h : Kept s₀ s) : Keeps s₀ (execImageWrite n s) :=
  clocked_kept h (onRequest_kept h (fun _ _ h => reply_kept (writeImage_kept h)))

theorem execNeighbourRequest_kept {addr fromAddr : BitVec 128} (h : Kept s₀ s) :
    Keeps s₀ (execNeighbourRequest addr fromAddr s) :=
  clocked_kept h (.ite h h)

/-! ### Loading -/

theorem beginScrub_kept {f : Nat} {ranges : List (Nat × Nat)} (h : Kept s₀ s) : Kept s₀ (beginScrub s f ranges) :=
  .ite h (setFrame_kept h)

theorem execScrubComplete_kept {f : Fin 8} (h : Kept s₀ s) : Keeps s₀ (execScrubComplete f s) :=
  clocked_kept h (.ite h (setFrame_kept (.foldl h fun _ _ h => scrubComb_kept h)))

theorem keepMaps_kept {r : Nat} (h : Kept s₀ s) : Kept s₀ (keepMaps s r) := setKeeper_kept h

theorem releaseRun_kept {r : Nat} (h : Kept s₀ s) : Kept s₀ (releaseRun s r) := by
  delta releaseRun
  extract_lets s1 frames stuck jobs accepts broken s2 s3 s4 s5 s6 s7 s8
  have h2 : Kept s₀ s2 := closeLanding_kept (tspCloseAll_kept (keepMaps_kept h))
  have h3 : Kept s₀ s3 := h2.parts (by simp [Whole, s3])
  have h5 : Kept s₀ s5 := setKeeper_kept (.foldl h3 fun _ _ h => endRecovery_kept (setFrame_kept h))
  have h8 : Kept s₀ s8 := .foldl (.foldl (.foldl h5 fun _ _ h => reply_kept h) fun _ _ h => reply_kept h) fun _ _ h => reply_kept h
  exact .foldl h8 fun _ _ h => beginScrub_kept h

theorem imageRecord_kept {r action slot imageId : Nat} {src : BitVec 22} (h : Kept s₀ s) :
    Kept s₀ (imageRecord s r action slot imageId src) :=
  journal_kept h

theorem claimRun_kept {r slot : Nat} {im : Image} (h : Kept s₀ s) : Kept s₀ (claimRun s r slot im) :=
  h.parts (by simp [Whole, claimRun])

theorem beginLoad_kept {p : Pending} (h : Kept s₀ s) : Kept s₀ (beginLoad s p) := by
  unfold beginLoad
  refine .ite (reject_kept h) ?_
  dsimp only
  split
  · exact reply_kept h
  · split
    · exact .ite (reply_kept h) (setKeeper_kept (claimRun_kept h))
    · exact reply_kept h

theorem nextLoads_kept {fuel : Nat} (h : Kept s₀ s) : Kept s₀ (nextLoads fuel s) := by
  induction fuel generalizing s with
  | zero => exact h
  | succ fuel ih =>
    unfold nextLoads
    split
    · exact h
    · exact .ite h (ih (beginLoad_kept (setKeeper_kept h)))

theorem execImageLoad_kept {n : Fin 16} (h : Kept s₀ s) : Keeps s₀ (execImageLoad n s) :=
  clocked_kept h (onRequest_kept h (fun _ _ h => .ite (beginLoad_kept h) (setKeeper_kept h)))

theorem matchResident_kept {im : Image} (h : Kept s₀ s) : Kept s₀ (matchResident s im).1 :=
  setKeeper_kept (.foldl h fun _ _ h => scrubComb_kept h)

theorem archiveTables_kept {banks : List Bank} (h : Kept s₀ s) : Kept s₀ (archiveTables s banks) := setKeeper_kept h

theorem issueGens_kept {n : Nat} (h : Kept s₀ s) : Kept s₀ (issueGens s n) := setKeeper_kept h

theorem archiveTable_kept {file : Bytes} (h : Kept s₀ s) : Kept s₀ (archiveTable s file).1 :=
  archiveTables_kept (issueGens_kept h)

theorem writeBanks_kept {r : Nat} {im : Image} {rd : Nat → Byte} (h : Kept s₀ s) : Kept s₀ (writeBanks s r im rd) :=
  setRoots_kept (archiveTables_kept (issueGens_kept h))

theorem laySet_kept {im : Image} {frames : List Nat} (h : Kept s₀ s) : Kept s₀ (laySet s im frames) :=
  .foldl h fun _ _ h => setFrame_kept (layPages_kept h)

theorem settleRun_kept {r : Nat} {rn : Run} (h : Kept s₀ s) : Kept s₀ (settleRun s r rn).1 :=
  .foldl (tspOpenAll_kept (setKeeper_kept (setRun_kept (.foldl (laySet_kept (writeBanks_kept (matchResident_kept h)))
    fun _ _ h => setWorker_kept h)))) fun _ _ h => openLanding_kept h

theorem finishLoad_kept {j : LoadJob} {rn : Run} (h : Kept s₀ s) : Kept s₀ (finishLoad s j rn) :=
  reply_kept (imageRecord_kept (setKeeper_kept (settleRun_kept h)))

theorem stepsBefore_kept {j : LoadJob} {rn : Run} {failure : LoadFailure} (h : Kept s₀ s) :
    Kept s₀ (stepsBefore s j rn failure) := by
  unfold stepsBefore
  dsimp only
  split
  · exact matchResident_kept h
  · exact archiveTables_kept (issueGens_kept (matchResident_kept h))
  · exact setRoots_kept (archiveTables_kept (issueGens_kept (matchResident_kept h)))
  · exact laySet_kept (setRoots_kept (archiveTables_kept (issueGens_kept (matchResident_kept h))))

theorem failLoad_kept {j : LoadJob} {rn : Run} {failure : LoadFailure} {code : BitVec 16} (h : Kept s₀ s) :
    Kept s₀ (failLoad s j rn failure code) :=
  reply_kept (setKeeper_kept (releaseRun_kept (stepsBefore_kept h)))

theorem execImageLoadProceed_kept {failure : LoadFailure} (h : Kept s₀ s) : Keeps s₀ (execImageLoadProceed failure s) := by
  unfold execImageLoadProceed
  refine clocked_kept h ?_
  dsimp only
  split
  · exact h
  · split
    · exact h
    · refine .ite h ?_
      refine nextLoads_kept ?_
      refine .ite (failLoad_kept h) ?_
      refine .ite (failLoad_kept h) ?_
      split
      · exact finishLoad_kept h
      · exact failLoad_kept h
      · exact failLoad_kept h
      · exact failLoad_kept h

theorem execImageUnload_kept {n : Fin 16} (h : Kept s₀ s) : Keeps s₀ (execImageUnload n s) := by
  unfold execImageUnload
  refine clocked_kept h ?_
  refine onRequest_kept h (fun _ _ h => ?_)
  split
  · exact reject_kept h
  · exact .ite (reject_kept h) (reply_kept (imageRecord_kept (releaseRun_kept h)))

theorem execKill_kept {n : Fin 16} (h : Kept s₀ s) : Keeps s₀ (execKill n s) := by
  unfold execKill
  refine clocked_kept h ?_
  refine onRequest_kept h (fun _ _ h => ?_)
  dsimp only
  split
  · exact reject_kept h
  · exact reply_kept (imageRecord_kept (releaseRun_kept (.foldl h fun _ _ h => abandonOrder_kept h)))

theorem execTableLoad_kept {n : Fin 16} (h : Kept s₀ s) : Keeps s₀ (execTableLoad n s) := by
  unfold execTableLoad
  refine clocked_kept h ?_
  refine onRequest_kept h (fun _ _ h => ?_)
  dsimp only
  split
  · exact reject_kept h
  · refine .ite (reject_kept h) ?_
    refine .ite (reject_kept h) ?_
    refine .ite (reject_kept h) ?_
    split
    · exact reject_kept h
    · exact .ite (reject_kept h) (.ite (reject_kept h) (.ite (reject_kept h) (.ite (reject_kept h) (setKeeper_kept
        (archiveTable_kept h)))))

theorem writeShadow_kept {r slot : Nat} {b : Bank} (h : Kept s₀ s) : Kept s₀ (writeShadow s r slot b) := setRoots_kept h

theorem emptyShadow_kept {r slot : Nat} (h : Kept s₀ s) : Kept s₀ (emptyShadow s r slot) := setRoots_kept h

theorem execTableShadowWrite_kept (h : Kept s₀ s) : Keeps s₀ (execTableShadowWrite s) := by
  refine clocked_kept h ?_
  split
  · exact h
  · extract_lets done
    have done_kept {t : State} (ht : Kept s₀ t) : Kept s₀ (done t) := ht
    exact .ite (reply_kept (done_kept (emptyShadow_kept h))) (reply_kept (done_kept (writeShadow_kept h)))

theorem dropGeneration_kept {gen : BitVec 32} (h : Kept s₀ s) : Kept s₀ (dropGeneration s gen) := setKeeper_kept h

theorem execTableRetire_kept {n : Fin 16} (h : Kept s₀ s) : Keeps s₀ (execTableRetire n s) :=
  clocked_kept h (onRequest_kept h (fun _ _ h => .ite (reject_kept h) (.ite (reject_kept h) (reply_kept (dropGeneration_kept
    h)))))

theorem execArchiveRelease_kept {generation : BitVec 32} (h : Kept s₀ s) : Keeps s₀ (execArchiveRelease generation s) :=
  clocked_kept h (.ite h (dropGeneration_kept h))

/-! ### Orders -/

theorem replyDuplicate_kept {p : Pending} {number : BitVec 64} (h : Kept s₀ s) : Kept s₀ (replyDuplicate s p number) := by
  unfold replyDuplicate
  split
  · exact reply_kept h
  · exact reply_kept h

theorem submitOrder_kept {p : Pending} (h : Kept s₀ s) : Kept s₀ (submitOrder s p) := by
  unfold submitOrder
  refine .ite ?_ ?_
  · split
    · exact setKeeper_kept h
    · exact replyDuplicate_kept h
  · refine .ite (reject_kept h) ?_
    dsimp only
    split
    · exact reject_kept h
    · split
      · exact reject_kept h
      · exact .ite (reject_kept h) (setKeeper_kept (stamp_kept h))

theorem execSubmit_kept {n : Fin 16} (h : Kept s₀ s) : Keeps s₀ (execSubmit n s) :=
  clocked_kept h (onRequest_kept h (fun _ _ h => submitOrder_kept h))

theorem execAcceptRecordWritten_kept (h : Kept s₀ s) : Keeps s₀ (execAcceptRecordWritten s) := by
  unfold execAcceptRecordWritten
  refine clocked_kept h ?_
  dsimp only
  split
  · exact h
  · exact .ite h (.ite (replyDuplicate_kept (setKeeper_kept h)) (reply_kept (journalAt_kept (setKeeper_kept (setKeeper_kept h)))))

theorem execQuery_kept {n : Fin 16} (h : Kept s₀ s) : Keeps s₀ (execQuery n s) := by
  unfold execQuery
  refine clocked_kept h ?_
  refine onRequest_kept h (fun _ _ h => ?_)
  dsimp only
  split
  · exact reply_kept h
  · exact reply_kept h

theorem execProgressMap_kept {n : Fin 16} (h : Kept s₀ s) : Keeps s₀ (execProgressMap n s) := by
  unfold execProgressMap
  refine clocked_kept h ?_
  refine onRequest_kept h (fun _ _ h => ?_)
  dsimp only
  split
  · exact reject_kept h
  · exact .ite (reject_kept h) (reply_kept h)

theorem execNoticeAck_kept {n : Fin 16} (h : Kept s₀ s) : Keeps s₀ (execNoticeAck n s) :=
  clocked_kept h (onRequest_kept h (fun _ _ h => ackNotice_kept h))

theorem sendCompletion_kept {o : Order} (h : Kept s₀ s) : Kept s₀ (sendCompletion s o) := sendNotice_kept (setOrder_kept h)

theorem execCompletionNoticeSend_kept {source : BitVec 22} (h : Kept s₀ s) : Keeps s₀ (execCompletionNoticeSend source s) := by
  unfold execCompletionNoticeSend
  refine clocked_kept h ?_
  split
  · exact .ite (sendCompletion_kept h) h
  · exact h

theorem execNoticeRetransmit_kept {source : BitVec 22} (h : Kept s₀ s) : Keeps s₀ (execNoticeRetransmit source s) := by
  unfold execNoticeRetransmit
  refine clocked_kept h ?_
  dsimp only
  split
  · exact .ite (sendCompletion_kept h) h
  · exact h

theorem resendNotices_kept (h : Kept s₀ s) : Kept s₀ (resendNotices s) := by
  unfold resendNotices
  refine .foldl h fun _ _ h => ?_
  split
  · exact .ite (sendCompletion_kept h) h
  · exact h

theorem dropWaiting_kept {r : Nat} (h : Kept s₀ s) : Kept s₀ (dropWaiting s r) := h.parts (by simp [Whole, dropWaiting])

theorem execRunFaultAbandon_kept {r : Fin 8} (h : Kept s₀ s) : Keeps s₀ (execRunFaultAbandon r s) := by
  unfold execRunFaultAbandon
  refine clocked_kept h ?_
  split
  · split
    · exact .ite (abandonOrder_kept (dropWaiting_kept h)) h
    · exact h
  · exact h

theorem execRunFaultStop_kept {r : Fin 8} (h : Kept s₀ s) : Keeps s₀ (execRunFaultStop r s) := by
  unfold execRunFaultStop
  refine clocked_kept h ?_
  dsimp only
  split
  · split
    · exact .ite (.foldl (setOrder_kept (dropUnits_kept (dropWaiting_kept h))) fun _ _ h => phaseRecord_kept h) h
    · exact h
  · exact h

theorem replayOrder_kept {r : Nat} {rn : Run} {o : Order} {fromStart : Bool} (h : Kept s₀ s) :
    Kept s₀ (replayOrder s r rn o fromStart) :=
  finishOrder_kept (setRun_kept (loadOrder_kept (.foldl (setOrder_kept (setRun_kept h)) fun _ _ h => setFrame_kept h)))

theorem execReplayTableInstall_kept {r : Fin 8} (h : Kept s₀ s) : Keeps s₀ (execReplayTableInstall r s) := by
  unfold execReplayTableInstall
  refine clocked_kept h ?_
  dsimp only
  split
  · exact h
  · split
    · exact h
    · exact .ite h (.ite (runFault_kept h) (replayFence_kept (setRun_kept h)))

theorem resumeOrder_kept {r : Nat} {rn : Run} {o : Order} (h : Kept s₀ s) : Kept s₀ (resumeOrder s r rn o) :=
  finishOrder_kept (.foldl (setRun_kept (setOrder_kept h)) fun _ _ h => .ite h (.ite (setFrame_kept (placeUnits_kept h))
    (placeUnits_kept h)))

theorem resolveRow_kept {n action : Nat} {act : State → Pending → Order → State} (h : Kept s₀ s)
    (hact : ∀ t p x, Kept s₀ t → Kept s₀ (act t p x)) : Kept s₀ (resolveRow s n action act) := by
  unfold resolveRow
  refine onRequest_kept h (fun _ _ h => ?_)
  refine .ite (reject_kept h) ?_
  split
  · exact reject_kept h
  · exact .ite (hact _ _ _ h) (reject_kept h)

theorem execResolveResume_kept {n : Fin 16} (h : Kept s₀ s) : Keeps s₀ (execResolveResume n s) := by
  unfold execResolveResume
  refine clocked_kept h ?_
  refine resolveRow_kept h (fun _ _ _ h => ?_)
  dsimp only
  split
  · exact reject_kept h
  · exact .ite (resumeOrder_kept (reply_kept h)) (replayOrder_kept (reply_kept h))

theorem execResolveRestart_kept {n : Fin 16} (h : Kept s₀ s) : Keeps s₀ (execResolveRestart n s) := by
  unfold execResolveRestart
  refine clocked_kept h ?_
  refine resolveRow_kept h (fun _ _ _ h => ?_)
  split
  · exact reject_kept h
  · exact .ite (replayOrder_kept (clearRunOrder_kept (reply_kept h))) (reject_kept h)

theorem execResolveAbandon_kept {n : Fin 16} (h : Kept s₀ s) : Keeps s₀ (execResolveAbandon n s) :=
  clocked_kept h (resolveRow_kept h (fun _ _ _ h => abandonOrder_kept (reply_kept h)))

theorem execProgressRecord_kept (h : Kept s₀ s) : Keeps s₀ (execProgressRecord s) := by
  unfold execProgressRecord
  refine clocked_kept h ?_
  refine .foldl h fun _ _ h => ?_
  dsimp only
  split
  · exact h
  · split
    · exact h
    · exact .foldl h fun _ _ h => .ite h (setProgress_kept (progressRecord_kept h))

theorem execDeliveredBatch_kept (h : Kept s₀ s) : Keeps s₀ (execDeliveredBatch s) := clocked_kept h (writeDelivered_kept h)

theorem execJournalCheckpoint_kept (h : Kept s₀ s) : Keeps s₀ (execJournalCheckpoint s) :=
  clocked_kept h (.ite h (checkpoint_kept h))

theorem execSourceTableExpiry_kept {source : BitVec 22} (h : Kept s₀ s) : Keeps s₀ (execSourceTableExpiry source s) :=
  clocked_kept h (.ite h (setKeeper_kept h))

theorem reloadImage_kept {j : Nat × Nat × Nat} (h : Kept s₀ s) : Kept s₀ (reloadImage s j) := by
  unfold reloadImage
  refine .ite h ?_
  dsimp only
  split
  · exact settleRun_kept (claimRun_kept h)
  · exact claimRun_kept h

theorem recoverOrder_kept {o : Order} (h : Kept s₀ s) : Kept s₀ (recoverOrder s o) := by
  unfold recoverOrder
  refine .ite h ?_
  dsimp only
  split
  · exact setOrder_kept h
  · split
    · exact replayOrder_kept (faultRecord_kept (setOrder_kept h))
    · exact faultRecord_kept (setOrder_kept h)

theorem scanJournal_kept {failed : List (Nat × Nat)} (h : Kept s₀ s) : Kept s₀ (scanJournal s failed) := by
  delta scanJournal
  extract_lets up rs head next top s1 s2 s3 s4 s5
  have h4 : Kept s₀ s4 := h
  have h5 : Kept s₀ s5 := .foldl h4 fun _ _ h => reloadImage_kept h
  exact .ite h (enterReady_kept (.foldl h5 fun _ _ h => recoverOrder_kept h))

theorem execJournalScan_kept (h : Kept s₀ s) : Keeps s₀ (execJournalScan s) := clocked_kept h (scanJournal_kept h)

/-! ### Tsp -/

theorem portDown_kept {p : Nat} {state : BitVec 3} (h : Kept s₀ s) : Kept s₀ (portDown s p state) := by
  unfold portDown
  dsimp only
  split
  · exact setRun_kept (.foldl (setPartner_kept h) fun _ _ h => .foldl h fun _ _ h => interruptUnit_kept (dropMove_kept h))
  · exact .foldl (setPartner_kept h) fun _ _ h => .foldl h fun _ _ h => interruptUnit_kept (dropMove_kept h)

theorem retrainPartner_kept {p : Nat} (h : Kept s₀ s) : Kept s₀ (retrainPartner s p) := portDown_kept (beginRecovery_kept h)

theorem portFault_kept {p : Nat} {state : BitVec 3} {code : BitVec 16} (h : Kept s₀ s) : Kept s₀ (portFault s p state code) := by
  delta portFault
  extract_lets r s1 s2 stops
  clear_value r
  have h2 : Kept s₀ s2 := by
    refine beginRecovery_kept ?_
    unfold s1
    split
    · exact runFault_kept h
    · exact faultRecord_kept h
  exact portDown_kept (.ite h2 (phaseRecord_kept h2))

theorem execPartnerLinkLoss_kept {p : Fin 8} (h : Kept s₀ s) : Keeps s₀ (execPartnerLinkLoss p s) :=
  clocked_kept h (.ite (portFault_kept h) h)

theorem tspDrop_kept {p bitNo : Nat} {code : Option (BitVec 16)} (h : Kept s₀ s) : Kept s₀ (tspDrop s p bitNo code) := by
  unfold tspDrop
  dsimp only
  split
  · exact .ite (portFault_kept (setPartner_kept h)) (setPartner_kept h)
  · exact setPartner_kept h

theorem tspDrain_kept {p : Nat} {k : Bytes} (h : Kept s₀ s) : Kept s₀ (tspDrain s p k) := setPartner_kept h

theorem takeUnits_kept {p : Nat} {k : Bytes} (h : Kept s₀ s) : Kept s₀ (takeUnits s p k) := tspPump_kept (setPartner_kept h)

theorem tspReceive_kept {p t : Nat} {k : Bytes} {f : State → State} (h : Kept s₀ s) (hf : ∀ t, Kept s₀ t → Kept s₀ (f t)) :
    Kept s₀ (tspReceive s p t k f) :=
  .ite h (.ite (tspDrop_kept h) (.ite (tspDrop_kept (tspDrain_kept h)) (.ite (hf _ (tspDrain_kept h)) (.ite (tspDrop_kept
    (tspDrain_kept h)) (hf _ (takeUnits_kept (tspDrain_kept h)))))))

theorem tspLand_kept {p : Nat} {k : Bytes} (h : Kept s₀ s) : Kept s₀ (tspLand s p k) := by
  delta tspLand
  split
  · exact tspDrop_kept (.ite (takeUnits_kept h) h)
  · extract_lets rg q off pay flags part next s1 s2 crc s3 s4
    have h1 : Kept s₀ s1 := writeComb_kept h
    have h2 : Kept s₀ s2 := takeUnits_kept h1
    have h3 : Kept s₀ s3 := setRing_kept h2
    exact .ite (tspDrop_kept h) (.ite (tspDrop_kept h) (.ite (tspDrop_kept (setRing_kept h1)) (.ite (setRing_kept h2)
      (.ite (tspDrop_kept h3) (fillSlot_kept (setRing_kept h3))))))

theorem execTspData_kept {p : Fin 8} {k : List (BitVec 8)} (h : Kept s₀ s) : Keeps s₀ (execTspData p k s) :=
  clocked_kept h (tspReceive_kept h (fun _ h => tspLand_kept h))

theorem execTspCredit_kept {p : Fin 8} {k : List (BitVec 8)} (h : Kept s₀ s) : Keeps s₀ (execTspCredit p k s) :=
  clocked_kept h (tspReceive_kept h (fun _ h => .ite (tspDrop_kept h) (setPartnerRings_kept h)))

theorem execTspRingOpen_kept {p : Fin 8} {k : List (BitVec 8)} (h : Kept s₀ s) : Keeps s₀ (execTspRingOpen p k s) :=
  clocked_kept h (tspReceive_kept h (fun _ h => setPartnerRings_kept (setPartner_kept h)))

theorem execTspRingClose_kept {p : Fin 8} {k : List (BitVec 8)} (h : Kept s₀ s) : Keeps s₀ (execTspRingClose p k s) :=
  clocked_kept h (tspReceive_kept h (fun _ h => .ite (setPartner_kept h) (setPartnerRings_kept (setPartner_kept h))))

theorem execTspNop_kept {p : Fin 8} {k : List (BitVec 8)} (h : Kept s₀ s) : Keeps s₀ (execTspNop p k s) :=
  clocked_kept h (tspReceive_kept h fun _ h => h)

theorem execTspMailbox_kept {p : Fin 8} {k : List (BitVec 8)} (h : Kept s₀ s) : Keeps s₀ (execTspMailbox p k s) :=
  clocked_kept h (tspReceive_kept h (fun _ h => .ite (tspSend_kept h) (slotPost_kept (slotWrite_kept h))))

theorem execTspMbxAck_kept {p : Fin 8} {k : List (BitVec 8)} (h : Kept s₀ s) : Keeps s₀ (execTspMbxAck p k s) :=
  clocked_kept h (tspReceive_kept h (fun _ h => .ite (clearOut_kept h) (tspDrop_kept h)))

theorem execTspMbxBusy_kept {p : Fin 8} {k : List (BitVec 8)} (h : Kept s₀ s) : Keeps s₀ (execTspMbxBusy p k s) :=
  clocked_kept h (tspReceive_kept h (fun _ h => tspDrop_kept h))

theorem execTspNopSend_kept {p : Fin 8} (h : Kept s₀ s) : Keeps s₀ (execTspNopSend p s) :=
  clocked_kept h (.ite h (tspSend_kept h))

theorem execPartnerTrainingDone_kept {p : Fin 8} {answered : Bool} {modules : BitVec 4} {rate32 : Bool} (h : Kept s₀ s) :
    Keeps s₀ (execPartnerTrainingDone p answered modules rate32 s) := by
  refine clocked_kept h ?_
  extract_lets q ok s1 s2 s3
  have h1 : Kept s₀ s1 := setPartner_kept h
  have h2 : Kept s₀ s2 := by
    unfold s2
    split
    · split
      · exact .ite (.foldl h1 fun _ _ h => tspOpen_kept h) h1
      · exact h1
    · exact h1
  have h3 : Kept s₀ s3 := .ite (tspSend_kept h2) h2
  exact .ite h (.ite (setPartner_kept h) (endRecovery_kept h3))

/-! ### Recovery -/

theorem dropHeldWhere_kept {r g : Nat} {p : UnitRef → Bool} (h : Kept s₀ s) : Kept s₀ (dropHeldWhere s r g p) :=
  .foldl (.foldl h fun _ _ h => .ite h (.foldl (setForager_kept h) fun _ _ h => .foldl (redoUnit_kept h) fun _ _ h =>
    askRebuild_kept h)) fun _ _ h => .ite h (.foldl (setWorker_kept h) fun _ _ h => .foldl (redoUnit_kept h) fun _ _ h =>
    askRebuild_kept h)

theorem redeliver_kept {r g low : Nat} (h : Kept s₀ s) : Kept s₀ (redeliver s r g low) := by
  unfold redeliver
  dsimp only
  split
  · exact h
  · refine .ite ?_ (.ite (retrainLink_kept (setRing_kept h)) (.foldl h fun _ _ h => .ite h (.foldl h fun _ _ h => redoUnit_kept
      h)))
    split
    · exact tspOpen_kept h
    · exact h

theorem rebuildRing_kept {r g : Nat} (h : Kept s₀ s) : Kept s₀ (rebuildRing s r g) := by
  unfold rebuildRing
  dsimp only
  split
  · exact h
  · exact redeliver_kept (setRing_kept (dropHeldWhere_kept h))

theorem endFrame_kept {f : Nat} (h : Kept s₀ s) : Kept s₀ (endFrame s f) := by
  unfold endFrame
  dsimp only
  split
  · exact endRecovery_kept (setFrame_kept h)
  · exact .ite (endRecovery_kept (setFrame_kept h)) (finishOrder_kept (setOrder_kept (setRun_kept (endRecovery_kept
      (setFrame_kept h)))))

theorem frameOut_kept {f : Nat} (h : Kept s₀ s) : Kept s₀ (frameOut s f) := by
  delta frameOut
  extract_lets s1 s2 s3 s4 s5 s6
  have h1 : Kept s₀ s1 := faultRecord_kept h
  have h2 : Kept s₀ s2 := by
    unfold s2
    split
    · exact runFault_kept h1
    · exact phaseRecord_kept h1
  have h6 : Kept s₀ s6 := .foldl (setFrame_kept (setKeeper_kept (phaseRecord_kept h2))) fun _ _ h => setWorker_kept h
  clear_value s6
  split
  · exact h6
  · exact setOrder_kept (setRun_kept h6)

theorem frameReset_kept {f : Nat} {code : BitVec 16} (h : Kept s₀ s) : Kept s₀ (frameReset s f code) := by
  delta frameReset
  extract_lets r order s1 s2 s3 ws s4 s5 s6 s7 rings s8
  clear_value r
  have h2 : Kept s₀ s2 := faultRecord_kept (setFrame_kept (beginRecovery_kept h))
  have h3 : Kept s₀ s3 := by
    unfold s3
    split
    · exact setOrder_kept (setRun_kept h2)
    · exact h2
  have h4 : Kept s₀ s4 := .foldl h3 fun _ _ h => drainSlot_kept h
  have h5 : Kept s₀ s5 := .foldl h4 fun _ _ h => .foldl h fun _ _ h => interruptUnit_kept h
  have h6 : Kept s₀ s6 := .foldl h5 fun _ _ h => setWorker_kept h
  have h7 : Kept s₀ s7 := .foldl h6 fun _ _ h => setForager_kept (redoMoves_kept h)
  have h8 : Kept s₀ s8 := phaseRecord_kept (setFrame_kept h7)
  exact .ite (endFrame_kept h8) h8

theorem execFrameDomainReset_kept {f : Fin 8} (h : Kept s₀ s) : Keeps s₀ (execFrameDomainReset f s) :=
  clocked_kept h (.ite h (.ite (frameOut_kept h) (frameReset_kept h)))

theorem execRingRebuild_kept {r : Fin 8} {ring : Nat} (h : Kept s₀ s) : Keeps s₀ (execRingRebuild r ring s) := by
  unfold execRingRebuild
  refine clocked_kept h ?_
  dsimp only
  split
  · exact h
  · exact .ite (endFrame_kept (setFrame_kept (rebuildRing_kept h))) (setFrame_kept (rebuildRing_kept h))

theorem pairFault_kept {p : Nat} (h : Kept s₀ s) : Kept s₀ (pairFault s p) :=
  .ite (resendNotices_kept (phaseRecord_kept (setKeeper_kept (faultRecord_kept (beginRecovery_kept h))))) (phaseRecord_kept
    (setKeeper_kept (faultRecord_kept (beginRecovery_kept h))))

theorem execKeeperPairResync_kept (h : Kept s₀ s) : Keeps s₀ (execKeeperPairResync s) :=
  clocked_kept h (.ite h (endRecovery_kept (setKeeper_kept h)))

theorem markLost_kept (h : Kept s₀ s) : Kept s₀ (markLost s) := setKeeper_kept h

theorem enterHold_kept (h : Kept s₀ s) : Kept s₀ (enterHold s) := markLost_kept (setKeeper_kept (setJournal_kept h))

theorem leaveHold_kept (h : Kept s₀ s) : Kept s₀ (leaveHold s) := setKeeper_kept (setJournal_kept h)

theorem journalStackGone_kept {m : Nat} {copy : Bool} (h : Kept s₀ s) : Kept s₀ (journalStackGone s m copy) :=
  .ite h (.ite (.ite (setJournal_kept h) h) (.ite h (enterHold_kept h)))

theorem leaveIfWhole_kept (h : Kept s₀ s) : Kept s₀ (leaveIfWhole s) := .ite (leaveHold_kept (setJournal_kept h)) h

theorem journalStackBack_kept {m : Nat} (h : Kept s₀ s) : Kept s₀ (journalStackBack s m) :=
  .ite h (.ite (leaveIfWhole_kept (markLost_kept (setJournal_kept h))) (setJournal_kept h))

theorem execJournalCopyComplete_kept (h : Kept s₀ s) : Keeps s₀ (execJournalCopyComplete s) :=
  clocked_kept h (.ite h (.foldl (.ite (leaveHold_kept (setJournal_kept h)) (setJournal_kept h)) fun _ _ h => endRecovery_kept h))

theorem giveUpLost_kept (h : Kept s₀ s) : Kept s₀ (giveUpLost s) :=
  leaveIfWhole_kept (setJournal_kept (.foldl h fun _ _ h => abandonOrder_kept h))

theorem stackFailed_kept {m : Nat} (h : Kept s₀ s) : Kept s₀ (stackFailed s m) := by
  delta stackFailed
  extract_lets was comes repairLost s1 hit s2 s3 s4 s5 s6
  have h3 : Kept s₀ s3 := .foldl (beginRecovery_kept (setMemPort_kept h)) fun _ _ h => runFault_kept (dropMove_kept h)
  have h5 : Kept s₀ s5 := phaseRecord_kept (.ite (faultRecord_kept h3) h3)
  have h6 : Kept s₀ s6 := .ite (giveUpLost_kept h5) (journalStackGone_kept h5)
  exact .ite h (.ite h6 (endRecovery_kept h6))

theorem execStackFailure_kept {m : Fin 4} (h : Kept s₀ s) : Keeps s₀ (execStackFailure m s) := clocked_kept h (stackFailed_kept h)

theorem copyStore_kept {src dst : Nat} (h : Kept s₀ s) : Kept s₀ (copyStore s src dst) :=
  setMemPort_kept (writeStack_kept (h.change (fun ⟨comb, stack, flash⟩ => ⟨comb, memClear_wf _ _ _ _ stack, flash⟩) id))

theorem mirrorStack_kept {m : Nat} (h : Kept s₀ s) : Kept s₀ (mirrorStack s m) :=
  .ite (setKeeper_kept h) (.ite h (.ite (copyStore_kept h) (copyStore_kept h)))

theorem stackBack_kept {m : Nat} (h : Kept s₀ s) : Kept s₀ (stackBack s m) := journalStackBack_kept (mirrorStack_kept h)

theorem execStackTrainingDone_kept {m : Fin 4} {trained : Bool} {capacity : BitVec 8} {height : BitVec 5} {spareLanes : BitVec 8}
    (h : Kept s₀ s) : Keeps s₀ (execStackTrainingDone m trained capacity height spareLanes s) :=
  clocked_kept h (.ite h (.ite (endRecovery_kept (stackBack_kept (setMemPort_kept h))) (stackFailed_kept h)))

theorem execStackRefresh_kept {m : Fin 4} (h : Kept s₀ s) : Keeps s₀ (execStackRefresh m s) := next_kept (setMemPort_kept h)

theorem execStackRfmRequest_kept {m : Fin 4} (h : Kept s₀ s) : Keeps s₀ (execStackRfmRequest m s) :=
  clocked_kept h (.ite (setMemPort_kept h) h)

theorem execStackPowerDown_kept {m : Fin 4} (h : Kept s₀ s) : Keeps s₀ (execStackPowerDown m s) :=
  clocked_kept h (.ite (setMemPort_kept h) h)

theorem execStackSupplyLoss_kept (h : Kept s₀ s) : Keeps s₀ (execStackSupplyLoss s) :=
  next_kept (h.change (fun ⟨comb, _, flash⟩ => ⟨comb, rfl, flash⟩) (by simp [Whole]))

theorem beginRepair_kept {m : Nat} (h : Kept s₀ s) : Kept s₀ (beginRepair s m) :=
  journalStackGone_kept (setMemPort_kept (beginRecovery_kept h))

theorem execLaneRepairComplete_kept {m : Fin 4} (h : Kept s₀ s) : Keeps s₀ (execLaneRepairComplete m s) :=
  clocked_kept h (.ite h (endRecovery_kept (stackBack_kept (setMemPort_kept h))))

theorem execLaneRepairTimeout_kept {m : Fin 4} (h : Kept s₀ s) : Keeps s₀ (execLaneRepairTimeout m s) :=
  clocked_kept h (.ite (journalStackGone_kept h) h)

theorem service_kept {n action : Nat} {act : State → Pending → Nat → State} (h : Kept s₀ s)
    (hact : ∀ t p x, Kept s₀ t → Kept s₀ (act t p x)) : Kept s₀ (service s n action act) :=
  onRequest_kept h (fun _ _ h => .ite (reject_kept h) (hact _ _ _ h))

theorem substitute_kept {p : Pending} {w : Nat} {withdraw : Bool} (h : Kept s₀ s) : Kept s₀ (substitute s p w withdraw) :=
  .ite (reject_kept h) (.ite (reject_kept h) (reply_kept (setWorker_kept (askSpare_kept h))))

theorem execServiceSubstitute_kept {n : Fin 16} (h : Kept s₀ s) : Keeps s₀ (execServiceSubstitute n s) :=
  clocked_kept h (service_kept h (fun _ _ _ h => substitute_kept h))

theorem execServiceRelease_kept {n : Fin 16} (h : Kept s₀ s) : Keeps s₀ (execServiceRelease n s) := by
  unfold execServiceRelease
  refine clocked_kept h ?_
  refine service_kept h (fun _ _ _ h => ?_)
  dsimp only
  split
  · exact reject_kept h
  · exact reply_kept (setWorker_kept (setKeeper_kept h))

theorem execServiceRetrain_kept {n : Fin 16} (h : Kept s₀ s) : Keeps s₀ (execServiceRetrain n s) :=
  clocked_kept h (service_kept h (fun _ _ _ h => .ite (reject_kept h) (reply_kept (retrainPartner_kept h))))

theorem execServiceRepair_kept {n : Fin 16} (h : Kept s₀ s) : Keeps s₀ (execServiceRepair n s) :=
  clocked_kept h (service_kept h (fun _ _ _ h => .ite (reject_kept h) (.ite (reject_kept h) (reply_kept (beginRepair_kept h)))))

theorem execServiceWithdraw_kept {n : Fin 16} (h : Kept s₀ s) : Keeps s₀ (execServiceWithdraw n s) :=
  clocked_kept h (service_kept h (fun _ _ _ h => .ite (substitute_kept h) (.ite (reject_kept h) (reply_kept (setKeeper_kept
    (setWorker_kept h))))))

theorem scrubRowState_kept {w : Nat} (h : Kept s₀ s) : Kept s₀ (scrubRowState s w) :=
  setWorker_kept (.foldl (beginRecovery_kept h) fun _ _ h => .ite h (interruptUnit_kept h))

theorem resetDomain_kept {d i : Nat} (h : Kept s₀ s) : Kept s₀ (resetDomain s d i) := by
  unfold resetDomain
  refine .ite h ?_
  dsimp only
  split
  · exact fenceWorker_kept h
  · exact endRecovery_kept (reloadRoot_kept (beginRecovery_kept h))
  · exact scrubRowState_kept h
  · exact setForager_kept (redoMoves_kept (beginRecovery_kept h))
  · exact frameReset_kept h
  · exact journalStackGone_kept (setMemPort_kept (.foldl (beginRecovery_kept h) fun _ _ h => interruptUnit_kept (dropMove_kept
      h)))
  · exact setPartner_kept (retrainPartner_kept h)
  · exact setLink_kept (retrainLink_kept (beginRecovery_kept h))
  · exact pairFault_kept h

theorem resetRow_kept {n cls : Nat} (h : Kept s₀ s) : Kept s₀ (resetRow s n cls) :=
  onRequest_kept h (fun _ _ h => .ite (reject_kept h) (.ite (reject_kept h) (resetDomain_kept (reply_kept h))))

theorem execResetDomainRequest_kept {n : Fin 16} (h : Kept s₀ s) : Keeps s₀ (execResetDomainRequest n s) :=
  clocked_kept h (resetRow_kept h)

theorem execResetWorkerRequest_kept {n : Fin 16} (h : Kept s₀ s) : Keeps s₀ (execResetWorkerRequest n s) :=
  clocked_kept h (resetRow_kept h)

/-! ### Boot -/

theorem flashErase_kept {a n : Nat} (h : Kept s₀ s) : Kept s₀ (flashErase s a n) :=
  h.change (fun ⟨comb, stack, flash⟩ => ⟨comb, stack, memClear_wf _ _ a n flash⟩) id

theorem flashProgram_kept {ws : List (Nat × Byte)} (h : Kept s₀ s) : Kept s₀ (flashProgram s ws) :=
  h.change (fun ⟨comb, stack, flash⟩ => ⟨comb, stack, memSetMany_wf _ _ _ flash⟩) id

theorem setStatus_kept {b v : Nat} (h : Kept s₀ s) : Kept s₀ (setStatus s b v) := flashProgram_kept h

theorem tryBank_kept {b : Nat} (h : Kept s₀ s) : Kept s₀ (tryBank s b).1 := by
  delta tryBank
  extract_lets r a s1
  have h1 : Kept s₀ s1 := .ite (flashProgram_kept h) h
  clear_value s1
  split
  · exact setStatus_kept h
  · split
    · exact h1
    · exact setStatus_kept h1

theorem selectBank_kept {bs : List Nat} (h : Kept s₀ s) : Kept s₀ (selectBank s bs).1 := by
  induction bs generalizing s with
  | nil => exact h
  | cons b bs ih =>
    have tried := tryBank_kept (b := b) h
    unfold selectBank
    split
    · next heq => rw [heq] at tried; exact tried
    · next heq => rw [heq] at tried; exact ih tried

theorem applySite_kept {e : Nat × Bytes} (h : Kept s₀ s) : Kept s₀ (applySite s e) := by
  unfold applySite
  refine .ite h ?_
  split
  · exact writePage_kept h
  · split
    · exact writeRoutes_kept h
    · exact h
  · exact setLife_kept h
  · exact setLife_kept h
  · exact setLife_kept h

/-- A cold reset keeps the number of parts, the memories, the queue and the fuses. -/
theorem afterReset_kept (h : Kept s₀ s) : Kept s₀ (afterReset s) := by
  refine h.change (fun ⟨_, stack, flash⟩ => ⟨rfl, stack, flash⟩) fun w => ?_
  obtain ⟨-, -, -, -, -, -, partners, mems, links, -⟩ := w
  have slots : ∀ b ∈ State.reset.mailboxes, b.inbound.length = 256 := by
    intro b hb
    rw [List.eq_of_mem_replicate hb]
    exact List.length_replicate
  exact ⟨rfl, slots, rfl, rfl, rfl, rfl, by simpa [afterReset] using partners, by simpa [afterReset] using mems,
    by simpa [afterReset] using links, Nat.zero_le _⟩

theorem latchFuses_kept (h : Kept s₀ s) : Kept s₀ (latchFuses s) := setLife_kept h

theorem execPowerOnReset_kept {straps : BitVec 4} (h : Kept s₀ s) : Keeps s₀ (execPowerOnReset straps s) :=
  next_kept (latchFuses_kept (afterReset_kept h))

theorem execPorstLow_kept (h : Kept s₀ s) : Keeps s₀ (execPorstLow s) := next_kept (afterReset_kept h)

theorem execColdReset_kept (h : Kept s₀ s) : Keeps s₀ (execColdReset s) :=
  next_kept (.ite h (.ite (afterReset_kept h) (afterReset_kept h)))

theorem execRstNRelease_kept (h : Kept s₀ s) : Keeps s₀ (execRstNRelease s) := next_kept h

theorem execThermalTrip_kept (h : Kept s₀ s) : Keeps s₀ (execThermalTrip s) := next_kept (.ite h h)

theorem execTempSensorUpdate_kept {hottest : BitVec 8} (h : Kept s₀ s) : Keeps s₀ (execTempSensorUpdate hottest s) :=
  clocked_kept h (setPower_kept h)

theorem startFirmware_kept {b : Nat} {fallback : Bool} (h : Kept s₀ s) : Kept s₀ (startFirmware s b fallback) := by
  delta startFirmware
  extract_lets r s1 s2 s3 s4 s5 s6
  have h2 : Kept s₀ s2 := setKeeper_kept (setLife_kept h)
  have h3 : Kept s₀ s3 := by
    unfold s3
    split
    · exact .foldl h2 fun _ _ h => applySite_kept h
    · exact h2
  have h4 : Kept s₀ s4 := .ite h3 (h3.parts (by simp [Whole]))
  have h5 : Kept s₀ s5 := .ite h4 (h4.parts (by simp [Whole]))
  have h6 : Kept s₀ s6 := h5.parts (by simp [Whole, s6])
  exact .ite (setAlert_kept h6) h6

theorem firmwareStart_kept (h : Kept s₀ s) : Kept s₀ (firmwareStart s) := by
  have selected := selectBank_kept (bs := bootOrder s) h
  unfold firmwareStart
  refine .ite h ?_
  dsimp only
  split
  · next heq => rw [heq] at selected; exact startFirmware_kept selected
  · next heq => rw [heq] at selected; exact setKeeper_kept selected

theorem execFirmwareStart_kept (h : Kept s₀ s) : Keeps s₀ (execFirmwareStart s) := clocked_kept h (firmwareStart_kept h)

theorem execTrialWatchdogExpiry_kept (h : Kept s₀ s) : Keeps s₀ (execTrialWatchdogExpiry s) :=
  clocked_kept h (.ite (afterReset_kept h) h)

theorem fusesGrow_rollback {f : Fuses} {n : Nat} : FusesGrow f { f with fwRollback := max f.fwRollback n } :=
  ⟨id, id, Nat.le_refl _, Nat.le_refl _, Nat.le_refl _, Nat.le_max_left _ _, fun _ => id⟩

theorem execTrialBankGood_kept (h : Kept s₀ s) : Keeps s₀ (execTrialBankGood s) :=
  clocked_kept h (.ite h (setLife_kept (setStatus_kept h) fusesGrow_rollback))

theorem activePairFault_kept (h : Kept s₀ s) : Kept s₀ (activePairFault s) := by
  unfold activePairFault
  split
  · exact afterReset_kept h
  · exact pairFault_kept (setLife_kept (endRecovery_kept h))
  · exact .ite (pairFault_kept h) (afterReset_kept h)

theorem execKeeperPairSwitch_kept (h : Kept s₀ s) : Keeps s₀ (execKeeperPairSwitch s) := clocked_kept h (activePairFault_kept h)

theorem execKeeperWatchdogExpiry_kept {both : Bool} (h : Kept s₀ s) : Keeps s₀ (execKeeperWatchdogExpiry both s) :=
  clocked_kept h (.ite h (.ite (afterReset_kept h) (activePairFault_kept h)))

/-! ### Comb -/

theorem execNarrowForcedGrant_kept {f : Fin 8} {bank : Fin 256} {waited : BitVec 7} (h : Kept s₀ s) :
    Keeps s₀ (execNarrowForcedGrant f bank waited s) :=
  clocked_kept h (setFrame_kept h)

theorem execPatrolRead_kept {f : Fin 8} {bank : Fin 256} {line : Fin 1024} {finding : PatrolFinding} (h : Kept s₀ s) :
    Keeps s₀ (execPatrolRead f bank line finding s) := by
  refine clocked_kept h ?_
  extract_lets addr found old s1
  have found_kept {t : State} {a : Nat} (ht : Kept s₀ t) : Kept s₀ (found t a) := mendPage_kept (markPoison_kept ht)
  have h1 : Kept s₀ s1 := .foldl h fun _ _ h => found_kept h
  cases finding with
  | clean => exact h1
  | corrected w => exact .ite h1 (countCorrected_kept h1)
  | uncorrectable w => exact .ite h1 (found_kept h1)

theorem fault_keeps {f : Fault} : Keeps s₀ (.fault f) := fun _ hu => nomatch hu

theorem execTelemetryDebugPortAccess_kept {access : DebugAccess} (h : Kept s₀ s) :
    Keeps s₀ (execTelemetryDebugPortAccess access s) := by
  cases access with
  | bankStatus f bank => exact clocked_kept h h
  | readComb addr =>
    unfold execTelemetryDebugPortAccess
    dsimp only
    split
    · exact fault_keeps
    · exact clocked_kept h (.ite h (.ite (markPoison_kept h) h))
  | writeComb addr data =>
    unfold execTelemetryDebugPortAccess
    dsimp only
    split
    · exact fault_keeps
    · exact clocked_kept h (.ite (writeComb_kept h) h)

/-! ### LifeCycle -/

theorem execResetColdRequest_kept {n : Fin 16} (h : Kept s₀ s) : Keeps s₀ (execResetColdRequest n s) :=
  clocked_kept h (onRequest_kept h (fun _ _ h => .ite (reject_kept h) (.ite (reject_kept h) (reply_kept h))))

theorem execLcChallenge_kept {n : Fin 16} (h : Kept s₀ s) : Keeps s₀ (execLcChallenge n s) :=
  clocked_kept h (onRequest_kept h (fun _ _ h => reply_kept (setLife_kept h)))

theorem execLcNonceExpiry_kept (h : Kept s₀ s) : Keeps s₀ (execLcNonceExpiry s) := clocked_kept h (setLife_kept h)

theorem withNonce_kept {p : Pending} {act : State → Bytes → State} (h : Kept s₀ s)
    (hact : ∀ t nonce, Kept s₀ t → Kept s₀ (act t nonce)) : Kept s₀ (withNonce s p act) := by
  unfold withNonce
  split
  · exact reject_kept h
  · exact hact _ _ (setLife_kept h)

theorem wipe_kept {keepSite : Bool} (h : Kept s₀ s) : Kept s₀ (wipe s keepSite) := by
  have wiped {k : Keeper} {j : Journal} {n : Nat} {rs : List (Nat × Bytes)} {ms : MemPort → MemPort} {ws : Worker → Worker}
      {fs : Frame → Frame} : Kept s₀ { s with
        comb := [], poison := [], stackMem := [], runs := List.replicate 8 none, mems := s.mems.map ms
        workers := s.workers.map ws, frames := s.frames.map fs, keeper := k, journal := j
        telem := { s.telem with next := n, records := rs } } :=
    h.change (fun ⟨_, _, flash⟩ => ⟨rfl, rfl, flash⟩) (by simp +contextual [Whole])
  exact .ite wiped (flashErase_kept (flashErase_kept wiped))

theorem execLcChange_kept {n : Fin 16} (h : Kept s₀ s) : Keeps s₀ (execLcChange n s) :=
  clocked_kept h (onRequest_kept h (fun _ _ h => withNonce_kept h (fun _ _ h => .ite (reject_kept h) (.ite (reject_kept h) (.ite
    (reject_kept h) (.ite (reject_kept h) (setLife_kept (wipe_kept h))))))))

theorem fusesGrow_programFuses {f : Fuses} {st : Lcs} {target : Nat} {body : Bytes} {seed : BitVec 384} :
    FusesGrow f (programFuses f st target body seed) := by
  unfold programFuses burnSeeds
  split
  · exact ⟨id, fun _ => rfl, Nat.le_refl _, Nat.le_refl _, by simp, Nat.le_refl _, fun _ => id⟩
  · split
    · exact ⟨fun _ => rfl, id, Nat.le_refl _, Nat.le_refl _, by simp, Nat.le_refl _, fun _ => id⟩
    · split
      · exact ⟨id, id, Nat.le_succ _, Nat.le_refl _, Nat.le_refl _, Nat.le_refl _, fun _ => id⟩
      · split
        · exact ⟨id, id, Nat.le_refl _, Nat.le_succ _, Nat.le_refl _, Nat.le_refl _, fun _ => id⟩
        · exact ⟨id, id, Nat.le_refl _, Nat.le_refl _, by simp, Nat.le_refl _, fun _ => id⟩

theorem execLcWipeComplete_kept {programmed : Bool} (h : Kept s₀ s) : Keeps s₀ (execLcWipeComplete programmed s) := by
  refine clocked_kept h ?_
  split
  · exact h
  · exact .ite (reply_kept (setLife_kept h)) (latchFuses_kept (reply_kept (setLife_kept (setLife_kept h) fusesGrow_programFuses)))

theorem fusesGrow_revokeImage {f : Fuses} {k : Nat} : FusesGrow f (revokeImage f k) :=
  ⟨id, id, Nat.le_refl _, Nat.le_refl _, by simp [revokeImage], Nat.le_refl _, fun _ => id⟩

theorem fusesGrow_revokeFirmware {f : Fuses} {k : Nat} : FusesGrow f (revokeFirmware f k) :=
  ⟨id, id, Nat.le_refl _, Nat.le_refl _, Nat.le_refl _, Nat.le_refl _, fun i hi => by simp [revokeFirmware, hi]⟩

theorem execKeyRevoke_kept {n : Fin 16} (h : Kept s₀ s) : Keeps s₀ (execKeyRevoke n s) :=
  clocked_kept h (onRequest_kept h fun _ _ h => withNonce_kept h fun _ _ h => .ite (reject_kept h) (.ite (reject_kept h)
    (.ite (reply_kept (setLife_kept h fusesGrow_revokeImage)) (.ite (reject_kept h)
      (reply_kept (setLife_kept h fusesGrow_revokeFirmware))))))

theorem scrubForDebug_kept (h : Kept s₀ s) : Kept s₀ (scrubForDebug s) := setKeeper_kept (.foldl h fun _ _ h => scrubComb_kept h)

theorem debugRow_kept {n action : Nat} {act : State → Pending → Bytes → State} (h : Kept s₀ s)
    (hact : ∀ t p x, Kept s₀ t → Kept s₀ (act t p x)) : Kept s₀ (debugRow s n action act) :=
  onRequest_kept h (fun _ _ h => .ite (reject_kept h) (withNonce_kept h (fun _ _ h => .ite (reject_kept h) (.ite (reject_kept h)
    (hact _ _ _ h)))))

theorem execDebugUnlock_kept {n : Fin 16} (h : Kept s₀ s) : Keeps s₀ (execDebugUnlock n s) :=
  clocked_kept h (debugRow_kept h (fun _ _ _ h => .ite (reject_kept h) (reply_kept (setLife_kept (scrubForDebug_kept h)))))

theorem execDebugLock_kept {n : Fin 16} (h : Kept s₀ s) : Keeps s₀ (execDebugLock n s) :=
  clocked_kept h (debugRow_kept h (fun _ _ _ h => reply_kept (setLife_kept (scrubForDebug_kept h))))

theorem execFwWrite_kept {n : Fin 16} (h : Kept s₀ s) : Keeps s₀ (execFwWrite n s) :=
  clocked_kept h (onRequest_kept h (fun _ _ h => .ite (reject_kept h) (.ite (reject_kept h) (reply_kept (flashProgram_kept (.ite
    (flashErase_kept (flashErase_kept h)) h))))))

theorem execFwCommit_kept {n : Fin 16} (h : Kept s₀ s) : Keeps s₀ (execFwCommit n s) :=
  clocked_kept h (onRequest_kept h (fun _ _ h => .ite (reject_kept h) (.ite (reject_kept h) (.ite (reject_kept h) (reply_kept
    (flashProgram_kept h))))))

theorem activateRow_kept {n action : Nat} {act : State → Pending → State} (h : Kept s₀ s)
    (hact : ∀ t p, Kept s₀ t → Kept s₀ (act t p)) : Kept s₀ (activateRow s n action act) :=
  onRequest_kept h (fun _ _ h => .ite (reject_kept h) (.ite (reject_kept h) (hact _ _ h)))

theorem execFwActivateNow_kept {n : Fin 16} (h : Kept s₀ s) : Keeps s₀ (execFwActivateNow n s) :=
  clocked_kept h (activateRow_kept h (fun _ _ h => .ite (reject_kept h) (.ite (reject_kept h) (setLife_kept h))))

theorem execFwActivateAtReset_kept {n : Fin 16} (h : Kept s₀ s) : Keeps s₀ (execFwActivateAtReset n s) :=
  clocked_kept h (activateRow_kept h (fun _ _ h => reply_kept (setLife_kept h)))

theorem execFwActivateHandover_kept (h : Kept s₀ s) : Keeps s₀ (execFwActivateHandover s) := by
  unfold execFwActivateHandover
  refine clocked_kept h ?_
  dsimp only
  split
  · exact .ite (reply_kept (setLife_kept h)) (reply_kept (resendNotices_kept (beginRecovery_kept (setLife_kept (setKeeper_kept
      h)))))
  · exact h

theorem execFwActivateRejoin_kept (h : Kept s₀ s) : Keeps s₀ (execFwActivateRejoin s) := by
  unfold execFwActivateRejoin
  refine clocked_kept h ?_
  split
  · exact endRecovery_kept (setKeeper_kept (setLife_kept h))
  · exact h

theorem siteRow_kept {n action : Nat} {act : State → Pending → State} (h : Kept s₀ s)
    (hact : ∀ t p, Kept s₀ t → Kept s₀ (act t p)) : Kept s₀ (siteRow s n action act) :=
  onRequest_kept h (fun _ _ h => .ite (reject_kept h) (hact _ _ h))

theorem execSiteWriteData_kept {n : Fin 16} (h : Kept s₀ s) : Keeps s₀ (execSiteWriteData n s) :=
  clocked_kept h (siteRow_kept h fun _ _ h => .ite (reject_kept h)
    (reply_kept (h.change (fun ⟨comb, stack, flash⟩ => ⟨comb, stack, memSetMany_wf _ _ _ flash⟩) id)))

theorem execSiteWriteCommit_kept {n : Fin 16} (h : Kept s₀ s) : Keeps s₀ (execSiteWriteCommit n s) :=
  clocked_kept h (siteRow_kept h (fun _ _ h => .ite (reject_kept h) (reply_kept h)))

/-! ### Dispatch -/

/-- Every command keeps it, each by the lemma of its row. -/
theorem exec_kept (c : Instr) (h : Kept s₀ s) : Keeps s₀ (exec c s) :=
  match c with
  | .powerOnReset .. => execPowerOnReset_kept h
  | .coldReset => execColdReset_kept h
  | .porstLow => execPorstLow_kept h
  | .firmwareStart => execFirmwareStart_kept h
  | .stackTrainingDone .. => execStackTrainingDone_kept h
  | .journalScan => execJournalScan_kept h
  | .partnerTrainingDone .. => execPartnerTrainingDone_kept h
  | .linkTrainingDone .. => execLinkTrainingDone_kept h
  | .freeRunningJoin => execFreeRunningJoin_kept h
  | .keeperWatchdogExpiry .. => execKeeperWatchdogExpiry_kept h
  | .trialWatchdogExpiry => execTrialWatchdogExpiry_kept h
  | .trialBankGood => execTrialBankGood_kept h
  | .thermalTrip => execThermalTrip_kept h
  | .tempSensorUpdate .. => execTempSensorUpdate_kept h
  | .pmbAlertAssert => execPmbAlertAssert_kept h
  | .pmbAlertRelease => execPmbAlertRelease_kept h
  | .flowStepEdge .. => execFlowStepEdge_kept h
  | .syncPpsPulse .. => execSyncPpsPulse_kept h
  | .syncRefLoss => execSyncRefLoss_kept h
  | .railCurrentSample .. => execRailCurrentSample_kept h
  | .messageFragment .. => execMessageFragment_kept h
  | .status .. => execStatus_kept h
  | .forward .. => execForward_kept h
  | .imageWrite .. => execImageWrite_kept h
  | .imageLoad .. => execImageLoad_kept h
  | .imageLoadProceed .. => execImageLoadProceed_kept h
  | .imageUnload .. => execImageUnload_kept h
  | .kill .. => execKill_kept h
  | .submit .. => execSubmit_kept h
  | .acceptRecordWritten => execAcceptRecordWritten_kept h
  | .query .. => execQuery_kept h
  | .noticeAck .. => execNoticeAck_kept h
  | .tableLoad .. => execTableLoad_kept h
  | .tableShadowWrite => execTableShadowWrite_kept h
  | .tableRetire .. => execTableRetire_kept h
  | .archiveRelease .. => execArchiveRelease_kept h
  | .regReadPage .. => execRegReadPage_kept h
  | .regReadWorker .. => execRegReadWorker_kept h
  | .regWritePage .. => execRegWritePage_kept h
  | .regWriteWorker .. => execRegWriteWorker_kept h
  | .regWriteFrame .. => execRegWriteFrame_kept h
  | .regWriteGroup .. => execRegWriteGroup_kept h
  | .regWriteAll .. => execRegWriteAll_kept h
  | .groupSet .. => execGroupSet_kept h
  | .bist .. => execBist_kept h
  | .bistStart .. => execBistStart_kept h
  | .rowStateTestDone .. => execRowStateTestDone_kept h
  | .rowStateScrubDone .. => execRowStateScrubDone_kept h
  | .portStatus .. => execPortStatus_kept h
  | .linkStatus .. => execLinkStatus_kept h
  | .linkRoute .. => execLinkRoute_kept h
  | .linkCtlRetrain .. => execLinkCtlRetrain_kept h
  | .linkCtlEndQuarantine .. => execLinkCtlEndQuarantine_kept h
  | .linkCtlDisable .. => execLinkCtlDisable_kept h
  | .linkCtlEnable .. => execLinkCtlEnable_kept h
  | .timeStatus .. => execTimeStatus_kept h
  | .timeCfgSetMode .. => execTimeCfgSetMode_kept h
  | .timeCfgSetEpoch .. => execTimeCfgSetEpoch_kept h
  | .timeCfgSetPpsSecond .. => execTimeCfgSetPpsSecond_kept h
  | .timeCfgRejoin .. => execTimeCfgRejoin_kept h
  | .flowSet .. => execFlowSet_kept h
  | .flowStatus .. => execFlowStatus_kept h
  | .telemStreamOpen .. => execTelemStreamOpen_kept h
  | .telemStreamClose .. => execTelemStreamClose_kept h
  | .telemRead .. => execTelemRead_kept h
  | .timeMark .. => execTimeMark_kept h
  | .timeMarkFire .. => execTimeMarkFire_kept h
  | .faultStatus .. => execFaultStatus_kept h
  | .progressMap .. => execProgressMap_kept h
  | .resolveResume .. => execResolveResume_kept h
  | .resolveRestart .. => execResolveRestart_kept h
  | .resolveAbandon .. => execResolveAbandon_kept h
  | .resetColdRequest .. => execResetColdRequest_kept h
  | .resetDomainRequest .. => execResetDomainRequest_kept h
  | .resetWorkerRequest .. => execResetWorkerRequest_kept h
  | .lcChallenge .. => execLcChallenge_kept h
  | .lcNonceExpiry => execLcNonceExpiry_kept h
  | .lcChange .. => execLcChange_kept h
  | .lcWipeComplete .. => execLcWipeComplete_kept h
  | .keyRevoke .. => execKeyRevoke_kept h
  | .debugUnlock .. => execDebugUnlock_kept h
  | .debugLock .. => execDebugLock_kept h
  | .fwWrite .. => execFwWrite_kept h
  | .fwCommit .. => execFwCommit_kept h
  | .fwActivateNow .. => execFwActivateNow_kept h
  | .fwActivateHandover => execFwActivateHandover_kept h
  | .fwActivateRejoin => execFwActivateRejoin_kept h
  | .fwActivateAtReset .. => execFwActivateAtReset_kept h
  | .siteWriteData .. => execSiteWriteData_kept h
  | .siteWriteCommit .. => execSiteWriteCommit_kept h
  | .serviceSubstitute .. => execServiceSubstitute_kept h
  | .serviceRelease .. => execServiceRelease_kept h
  | .serviceRetrain .. => execServiceRetrain_kept h
  | .serviceRepair .. => execServiceRepair_kept h
  | .serviceWithdraw .. => execServiceWithdraw_kept h
  | .spareHandover .. => execSpareHandover_kept h
  | .identityReturn .. => execIdentityReturn_kept h
  | .mbxInboundWrite .. => execMbxInboundWrite_kept h
  | .mbxPost .. => execMbxPost_kept h
  | .mbxOutAck .. => execMbxOutAck_kept h
  | .outboundSlotFill .. => execOutboundSlotFill_kept h
  | .completionNoticeSend .. => execCompletionNoticeSend_kept h
  | .noticeRetransmit .. => execNoticeRetransmit_kept h
  | .mailboxRemoteReply .. => execMailboxRemoteReply_kept h
  | .i3cPrivateWrite .. => execI3cPrivateWrite_kept h
  | .i3cPrivateRead .. => execI3cPrivateRead_kept h
  | .setdasa .. => execSetdasa_kept h
  | .entdaa .. => execEntdaa_kept h
  | .rstdaa => execRstdaa_kept h
  | .enec => execEnec_kept h
  | .disec => execDisec_kept h
  | .getpid => execGetpid_kept h
  | .getbcr => execGetbcr_kept h
  | .getdcr => execGetdcr_kept h
  | .getstatus => execGetstatus_kept h
  | .mgmtMessageFrame .. => execMgmtMessageFrame_kept h
  | .mgmtImageData .. => execMgmtImageData_kept h
  | .neighbourRequest .. => execNeighbourRequest_kept h
  | .ptpMessage .. => execPtpMessage_kept h
  | .tspData .. => execTspData_kept h
  | .tspCredit .. => execTspCredit_kept h
  | .tspMailbox .. => execTspMailbox_kept h
  | .tspMbxAck .. => execTspMbxAck_kept h
  | .tspMbxBusy .. => execTspMbxBusy_kept h
  | .tspRingOpen .. => execTspRingOpen_kept h
  | .tspRingClose .. => execTspRingClose_kept h
  | .tspNop .. => execTspNop_kept h
  | .tspNopSend .. => execTspNopSend_kept h
  | .partnerLinkLoss .. => execPartnerLinkLoss_kept h
  | .waggleData .. => execWaggleData_kept h
  | .waggleMailbox .. => execWaggleMailbox_kept h
  | .linkMailboxDeliver .. => execLinkMailboxDeliver_kept h
  | .waggleRingOpen .. => execWaggleRingOpen_kept h
  | .waggleRingClose .. => execWaggleRingClose_kept h
  | .rcredit .. => execRcredit_kept h
  | .check .. => execCheck_kept h
  | .timeReq .. => execTimeReq_kept h
  | .waggleTimeResp .. => execWaggleTimeResp_kept h
  | .hello .. => execHello_kept h
  | .cert .. => execCert_kept h
  | .prove .. => execProve_kept h
  | .finish .. => execFinish_kept h
  | .resume .. => execResume_kept h
  | .quarantine .. => execQuarantine_kept h
  | .ack .. => execAck_kept h
  | .nak .. => execNak_kept h
  | .ackTimer .. => execAckTimer_kept h
  | .replayTimeout .. => execReplayTimeout_kept h
  | .linkFail .. => execLinkFail_kept h
  | .handshakeTimeout .. => execHandshakeTimeout_kept h
  | .handshakeRetry .. => execHandshakeRetry_kept h
  | .quarantineExpiry .. => execQuarantineExpiry_kept h
  | .sessionResumeTimeout .. => execSessionResumeTimeout_kept h
  | .timeReqLaunch => execTimeReqLaunch_kept h
  | .sourceLoss .. => execSourceLoss_kept h
  | .sourceChange => execSourceChange_kept h
  | .timeFaultExclusionEnd .. => execTimeFaultExclusionEnd_kept h
  | .governorPeriod .. => execGovernorPeriod_kept h
  | .flowPointBegin => execFlowPointBegin_kept h
  | .flowLead => execFlowLead_kept h
  | .frameGated .. => execFrameGated_kept h
  | .vclkSwitch => execVclkSwitch_kept h
  | .telemStreamPeriod .. => execTelemStreamPeriod_kept h
  | .logWrite => execLogWrite_kept h
  | .timNowLoRead => execTimNowLoRead_kept h
  | .wrkCycLoRead .. => execWrkCycLoRead_kept h
  | .pwrFrameEnergyLoRead .. => execPwrFrameEnergyLoRead_kept h
  | .registerWrite .. => execRegisterWrite_kept h
  | .workOrderStart .. => execWorkOrderStart_kept h
  | .microVectorOp .. => execMicroVectorOp_kept h
  | .chain .. => execChain_kept h
  | .convert .. => execConvert_kept h
  | .rowGather .. => execRowGather_kept h
  | .rsum .. => execRsum_kept h
  | .rsumsq .. => execRsumsq_kept h
  | .rmean .. => execRmean_kept h
  | .rsum2 .. => execRsum2_kept h
  | .rmax .. => execRmax_kept h
  | .rmin .. => execRmin_kept h
  | .ramax .. => execRamax_kept h
  | .rargmax .. => execRargmax_kept h
  | .rargmin .. => execRargmin_kept h
  | .nstats .. => execNstats_kept h
  | .rmsstats .. => execRmsstats_kept h
  | .napply .. => execNapply_kept h
  | .smaxStats .. => execSmaxStats_kept h
  | .smaxApply .. => execSmaxApply_kept h
  | .smaxBlock .. => execSmaxBlock_kept h
  | .smaxRescale .. => execSmaxRescale_kept h
  | .smaxSeed .. => execSmaxSeed_kept h
  | .smaxSeedApply .. => execSmaxSeedApply_kept h
  | .adamw .. => execAdamw_kept h
  | .adamL2 .. => execAdamL2_kept h
  | .momentum .. => execMomentum_kept h
  | .nwatch .. => execNwatch_kept h
  | .fcopy .. => execFcopy_kept h
  | .fload .. => execFload_kept h
  | .fstore .. => execFstore_kept h
  | .fsend .. => execFsend_kept h
  | .ftrans .. => execFtrans_kept h
  | .ftransStore .. => execFtransStore_kept h
  | .csend .. => execCsend_kept h
  | .cland .. => execCland_kept h
  | .ccheck .. => execCcheck_kept h
  | .tfence .. => execTfence_kept h
  | .unitGrant .. => execUnitGrant_kept h
  | .unitSteal .. => execUnitSteal_kept h
  | .tileIssue .. => execTileIssue_kept h
  | .closeUnit .. => execCloseUnit_kept h
  | .shadowSampleCompute .. => execShadowSampleCompute_kept h
  | .guardLevelAdvance .. => execGuardLevelAdvance_kept h
  | .starveTimeout .. => execStarveTimeout_kept h
  | .blockTimeout .. => execBlockTimeout_kept h
  | .foragerUnitTake .. => execForagerUnitTake_kept h
  | .stackWriteAck .. => execStackWriteAck_kept h
  | .stackReadReturn .. => execStackReadReturn_kept h
  | .fsendCreditTimeout .. => execFsendCreditTimeout_kept h
  | .csendCreditTimeout .. => execCsendCreditTimeout_kept h
  | .landingTimeout .. => execLandingTimeout_kept h
  | .checkpointTimeout .. => execCheckpointTimeout_kept h
  | .narrowForcedGrant .. => execNarrowForcedGrant_kept h
  | .scrubComplete .. => execScrubComplete_kept h
  | .patrolRead .. => execPatrolRead_kept h
  | .stackRefresh .. => execStackRefresh_kept h
  | .stackRfmRequest .. => execStackRfmRequest_kept h
  | .stackPowerDown .. => execStackPowerDown_kept h
  | .stackFailure .. => execStackFailure_kept h
  | .journalCopyComplete => execJournalCopyComplete_kept h
  | .laneRepairComplete .. => execLaneRepairComplete_kept h
  | .laneRepairTimeout .. => execLaneRepairTimeout_kept h
  | .journalCheckpoint => execJournalCheckpoint_kept h
  | .deliveredBatch => execDeliveredBatch_kept h
  | .progressRecord => execProgressRecord_kept h
  | .sourceTableExpiry .. => execSourceTableExpiry_kept h
  | .runFaultAbandon .. => execRunFaultAbandon_kept h
  | .runFaultStop .. => execRunFaultStop_kept h
  | .commitSlotDrain .. => execCommitSlotDrain_kept h
  | .drainTimeout .. => execDrainTimeout_kept h
  | .readmissionStepDone .. => execReadmissionStepDone_kept h
  | .workerAdmit .. => execWorkerAdmit_kept h
  | .frameDomainReset .. => execFrameDomainReset_kept h
  | .ringRebuild .. => execRingRebuild_kept h
  | .foragerReset .. => execForagerReset_kept h
  | .keeperPairSwitch => execKeeperPairSwitch_kept h
  | .keeperPairResync => execKeeperPairResync_kept h
  | .replayTableInstall .. => execReplayTableInstall_kept h
  | .rstNRelease => execRstNRelease_kept h
  | .syncRefLock => execSyncRefLock_kept h
  | .stackSupplyLoss => execStackSupplyLoss_kept h
  | .telemetryDebugPortAccess .. => execTelemetryDebugPortAccess_kept h
  | .adapterPacketAck .. => execAdapterPacketAck_kept h

end Kept

/-! ### The step -/

/-- A command runs on the state that holds the rest of the queue. -/
theorem step_kept_of_pending {s t : State} {c : Instr} {rest : List Instr} (hp : s.pending = c :: rest) (ht : step s = .next t) :
    Kept { s with pending := rest } t := by
  unfold step at ht
  rw [hp] at ht
  exact exec_kept c (kept_refl _) t ht

/-- Settles O7: an idle step changes only the clock, and every command keeps a sound state sound, by the lemma of its row. -/
theorem soundStep : Obligations.SoundStep := by
  intro s t sound ht
  cases hp : s.pending with
  | nil =>
    obtain rfl : tick s = t := by simpa [step, hp] using ht
    exact (tick_kept (kept_refl s)).1 sound
  | cons c rest => exact (step_kept_of_pending hp ht).1 sound

end Sys2Proof.Machine
end

section
namespace Sys2Proof.Machine

/-! ## What a write of a register stores (R10, R29, R49, R308) -/

/-! ### The fields of a flush register -/

theorem testBit_foldl_or_shiftLeft (fields : List (Nat × Nat)) (acc k : Nat) :
    (fields.foldl (fun acc p => acc ||| p.1 <<< p.2) acc).testBit k
      = (acc.testBit k || fields.any fun p => (p.1 <<< p.2).testBit k) := by
  induction fields generalizing acc with
  | nil => simp
  | cons p fields ih => simp [ih, Nat.testBit_or, Bool.or_assoc]

theorem testBit_regOf (fields : List (Nat × Nat)) (k : Nat) :
    (regOf fields).toNat.testBit k = (decide (k < 32) && fields.any fun p => (p.1 <<< p.2).testBit k) := by
  rw [regOf, BitVec.toNat_ofNat, Nat.testBit_mod_two_pow, testBit_foldl_or_shiftLeft, Nat.zero_testBit, Bool.false_or]

/-- The field of six bits at `6 * j` reaches no bit of the field at `6 * i`. -/
theorem testBit_sixBits_shiftLeft {x i j k : Nat} (hx : x < 64) (hk : k < 6) :
    (x <<< (6 * j)).testBit (6 * i + k) = (decide (j = i) && x.testBit k) := by
  rw [Nat.testBit_shiftLeft]
  obtain hlt | rfl | hgt := Nat.lt_trichotomy j i
  · have above : x.testBit (6 * i + k - 6 * j) = false :=
      Nat.testBit_lt_two_pow (Nat.lt_of_lt_of_le (m := 2 ^ 6) hx (Nat.pow_le_pow_right (by decide) (by omega)))
    simp [above, Nat.ne_of_lt hlt]
  · simp
  · have below : ¬ 6 * j ≤ 6 * i + k := by omega
    simp [below, Nat.ne_of_gt hgt]

theorem storedFlush_field {widths : List Nat} {v i : Nat} (hw : ∀ w ∈ widths, w < 64) (hlen : widths.length ≤ 5)
    (hi : i < widths.length) :
    bits (storedFlush widths v).toNat (6 * i + 5) (6 * i) = min (nth widths i) (bits v (6 * i + 5) (6 * i)) := by
  have cap_lt {j : Nat} (hj : j < widths.length) : capAt widths[j] (bits v (6 * j + 5) (6 * j)) < 64 :=
    Nat.lt_of_le_of_lt (Nat.min_le_left _ _) (hw _ (List.getElem_mem hj))
  have hnth : nth widths i = widths[i] := by simp [nth, hi]
  change _ = capAt (nth widths i) (bits v (6 * i + 5) (6 * i))
  rw [hnth]
  refine Nat.eq_of_testBit_eq fun k => ?_
  have hsix : 6 * i + 5 + 1 - 6 * i = 6 := by omega
  rw [bits, hsix, Nat.testBit_mod_two_pow, Nat.testBit_shiftRight]
  by_cases hk : k < 6
  · have h32 : 6 * i + k < 32 := by omega
    rw [storedFlush, testBit_regOf, Bool.eq_iff_iff]
    simp only [hk, h32, decide_true, Bool.true_and, List.any_eq_true, List.mem_mapIdx]
    constructor
    · rintro ⟨_, ⟨j, hj, rfl⟩, hbit⟩
      rw [testBit_sixBits_shiftLeft (cap_lt hj) hk, Bool.and_eq_true, decide_eq_true_eq] at hbit
      obtain ⟨rfl, hbit⟩ := hbit
      exact hbit
    · intro hbit
      refine ⟨_, ⟨i, hi, rfl⟩, ?_⟩
      rw [testBit_sixBits_shiftLeft (cap_lt hi) hk]
      simpa using hbit
  · have above : (capAt widths[i] (bits v (6 * i + 5) (6 * i))).testBit k = false :=
      Nat.testBit_lt_two_pow (Nat.lt_of_lt_of_le (m := 2 ^ 6) (cap_lt hi) (Nat.pow_le_pow_right (by decide) (by omega)))
    simp [hk, above]

/-! ### Which write reaches which register -/

section Writes
variable {s : State} {v : BitVec 32}

theorem exec_registerWrite (target : Option (Fin 68)) (o : BitVec 32) (hs : standing s = false) :
    exec (.registerWrite target o v) s = .next (
      if o.toNat % 4 != 0 then s
      else match target with
        | none => if sessionReg o.toNat then s else writePage s o.toNat v.toNat
        | some w => if (getWorker s w).run.isSome then s else writeWorkerReg s w o.toNat v.toNat) := by
  change Host.Outcome.next (if standing s then s else _) = _
  rw [hs]
  rfl

theorem exec_registerWrite_misaligned (target : Option (Fin 68)) {o : BitVec 32} (hs : standing s = false) (ho : o.toNat % 4 ≠ 0) :
    exec (.registerWrite target o v) s = .next s := by
  rw [exec_registerWrite target o hs, if_pos (by simpa using ho)]

theorem exec_registerWrite_sessionReg {o : BitVec 32} (hs : standing s = false) (ho : sessionReg o.toNat = true) :
    exec (.registerWrite none o v) s = .next s := by
  simp [exec_registerWrite none o hs, ho]

theorem exec_registerWrite_page {o : BitVec 32} (hs : standing s = false) (ho : o.toNat % 4 = 0) (hf : sessionReg o.toNat = false) :
    exec (.registerWrite none o v) s = .next (writePage s o.toNat v.toNat) := by
  simp [exec_registerWrite none o hs, ho, hf]

theorem exec_registerWrite_runWorker {w : Fin 68} (o : BitVec 32) (hs : standing s = false) (hr : (getWorker s w).run.isSome = true) :
    exec (.registerWrite (some w) o v) s = .next s := by
  simp [exec_registerWrite (some w) o hs, hr]

theorem exec_registerWrite_freeWorker {w : Fin 68} {o : BitVec 32} (hs : standing s = false) (ho : o.toNat % 4 = 0)
    (hr : (getWorker s w).run = none) :
    exec (.registerWrite (some w) o v) s = .next (writeWorkerReg s w o.toNat v.toNat) := by
  simp [exec_registerWrite (some w) o hs, ho, hr]

/-- Below the mailbox registers the page holds only what a write leaves alone (R10). -/
theorem writePage_of_lt {off u : Nat} (h : off < 0x1100) : writePage s off u = s := by
  have below {a : Nat} (ha : 0x1100 ≤ a) : ¬ a ≤ off := by omega
  simp [writePage, below]

theorem exec_registerWrite_belowMailboxes {o : BitVec 32} (hs : standing s = false) (ho : o.toNat < 0x1100) :
    exec (.registerWrite none o v) s = .next s := by
  simp [exec_registerWrite none o hs, writePage_of_lt ho]

theorem writeWorkerReg_readOnly {w off u : Nat} (h : off ∉ [0x180, 0x184, 0x228, 0x248]) : writeWorkerReg s w off u = s := by
  have other : off ≠ 0x180 ∧ off ≠ 0x184 ∧ off ≠ 0x228 ∧ off ≠ 0x248 := by simpa using h
  simp [writeWorkerReg, other]

theorem exec_registerWrite_readOnlyWorkerReg (w : Fin 68) {o : BitVec 32} (hs : standing s = false)
    (ho : o.toNat ∉ [0x180, 0x184, 0x228, 0x248]) : exec (.registerWrite (some w) o v) s = .next s := by
  simp [exec_registerWrite (some w) o hs, writeWorkerReg_readOnly ho]

/-- PAR_ERR of partner port `p`. -/
theorem writePage_partnerErr (p : Fin 8) (u : Nat) :
    writePage s (0x3008 + 64 * p.val) u = setPartner s p (fun x => { x with err := x.err &&& ~~~ BitVec.ofNat 6 u }) := by
  have hp := p.isLt
  have past {a : Nat} (ha : a ≤ 0x3008) : ¬ 0x3008 + 64 * p.val < a := by omega
  have page : 0x3000 ≤ 0x3008 + 64 * p.val ∧ 0x3008 + 64 * p.val < 0x3200 := by omega
  have hreg : (0x3008 + 64 * p.val) % 64 = 8 := by omega
  have hport : (0x3008 + 64 * p.val - 0x3000) / 64 = p.val := by omega
  simp [writePage, past, page, hreg, hport]

/-- PWR_LIMIT. -/
theorem writePage_powerLimit : writePage s 0x4108 v.toNat = { s with power := { s.power with
    alertCap := BitVec.ofNat 16 (min 1440 (v.toNat / 2 ^ 16)), boardCap := BitVec.ofNat 16 (min 1440 (v.toNat % 2 ^ 16)) } } := by
  have upper : bits v.toNat 31 16 = v.toNat / 2 ^ 16 := by
    rw [bits, Nat.shiftRight_eq_div_pow]
    exact Nat.mod_eq_of_lt (by omega)
  have lower : bits v.toNat 15 0 = v.toNat % 2 ^ 16 := rfl
  rw [← upper, ← lower]
  rfl

/-- WRK_NUM_FLAGS: a bit written as 1 clears its flag. -/
theorem writeWorkerReg_flags (w : Nat) : writeWorkerReg s w 0x248 v.toNat = setWorker s w (fun x =>
    { x with flagAllNeginf := x.flagAllNeginf && !v.getLsbD 1, flagCancel := x.flagCancel && !v.getLsbD 0 }) := by
  have cleared (b : Bool) (i : Nat) : (if bit v.toNat i then false else b) = (b && !v.getLsbD i) := by
    have written : bit v.toNat i = v.getLsbD i := by
      rw [← BitVec.testBit_toNat, Nat.testBit_eq_decide_div_mod_eq, bit, Nat.shiftRight_eq_div_pow]
      rfl
    rw [written]
    cases v.getLsbD i <;> simp
  simp [writeWorkerReg, cleared]

end Writes

/-- Settles O17: each part is the lemma of the registers it speaks of. -/
theorem registerWrites : Obligations.RegisterWrites := by
  intro s v hs
  refine ⟨fun target o ho => exec_registerWrite_misaligned target hs ho, fun w o hr => exec_registerWrite_runWorker o hs hr,
    fun o ho => exec_registerWrite_sessionReg hs ho, fun w count hr => ⟨?flushA, ?flushB⟩,
    fun o ho => exec_registerWrite_belowMailboxes hs ho, fun w o ho => exec_registerWrite_readOnlyWorkerReg w hs ho,
    fun w hr => ⟨exec_registerWrite_freeWorker hs (by decide) hr, ?flags⟩, ?caps, fun p => ?err⟩
  case flushA =>
    refine ⟨_, exec_registerWrite_freeWorker hs (by decide) hr, ?_⟩
    have stored : (getWorker (writeWorkerReg s w 0x180 v.toNat) w).flushA = storedFlush [52, 28, 23, 7, 10] v.toNat := by
      simp [writeWorkerReg, getWorker_setWorker_same, count, w.isLt]
    exact ⟨stored ▸ rfl, fun i hi => stored ▸ storedFlush_field (by decide) (by decide) hi⟩
  case flushB =>
    refine ⟨_, exec_registerWrite_freeWorker hs (by decide) hr, ?_⟩
    have stored : (getWorker (writeWorkerReg s w 0x184 v.toNat) w).flushB = storedFlush [3, 2, 2, 3, 1] v.toNat := by
      simp [writeWorkerReg, getWorker_setWorker_same, count, w.isLt]
    exact ⟨stored ▸ rfl, fun i hi => stored ▸ storedFlush_field (by decide) (by decide) hi⟩
  case flags =>
    rw [exec_registerWrite_freeWorker hs (by decide) hr]
    exact congrArg _ (writeWorkerReg_flags w.val)
  case caps =>
    rw [exec_registerWrite_page hs (by decide) (by decide)]
    exact congrArg _ writePage_powerLimit
  case err =>
    have hp := p.isLt
    have offset : (BitVec.ofNat 32 (0x3008 + 64 * p.val)).toNat = 0x3008 + 64 * p.val := by
      rw [BitVec.toNat_ofNat]
      omega
    rw [exec_registerWrite_page hs (by omega) (by simp [sessionReg, offset]; omega), offset, writePage_partnerErr]

end Sys2Proof.Machine
end

section
namespace Sys2Proof.Machine

/-! ## The parts that a whole die has -/

section Parts
variable {s : State} (h : Whole s)
include h

theorem Whole.mailboxes : s.mailboxes.length = 16 := by
  obtain ⟨count, _⟩ := h
  exact count

theorem Whole.frames : s.frames.length = 8 := by
  obtain ⟨_, _, _, count, _⟩ := h
  exact count

theorem Whole.workers : s.workers.length = 68 := by
  obtain ⟨_, _, _, _, count, _⟩ := h
  exact count

theorem Whole.foragers : s.foragers.length = 32 := by
  obtain ⟨_, _, _, _, _, count, _⟩ := h
  exact count

theorem Whole.mems : s.mems.length = 4 := by
  obtain ⟨_, _, _, _, _, _, _, count, _⟩ := h
  exact count

end Parts

/-! ## Commands while the die is clocked -/

/-- A command that the die takes while it is clocked leads to one state. -/
theorem clocked_of_clocked {s t : State} (h : standing s = false) : clocked s t = .next t := by
  simp [clocked, h]

/-! ## Fields of byte strings (R8, R9) -/

@[simp] theorem natLe_length (n v : Nat) : (natLe n v).length = n := by
  induction n generalizing v with
  | zero => rfl
  | succ n ih => simp [natLe, ih]

theorem leNat_natLe (n v : Nat) : leNat (natLe n v) = v % 256 ^ n := by
  induction n generalizing v with
  | zero => simp [natLe, leNat, Nat.mod_one]
  | succ n ih =>
    have low : (BitVec.ofNat 8 v).toNat = v % 256 := BitVec.toNat_ofNat ..
    rw [natLe, leNat, ih, low, Nat.pow_succ', Nat.mod_mul]

/-- A value written little-endian reads back at its place (R8, R9). -/
theorem field_append_natLe (pre post : Bytes) {off : Nat} (n v : Nat) (h : pre.length = off) :
    field (pre ++ (natLe n v ++ post)) off n = v % 256 ^ n := by
  subst h
  have taken : (natLe n v ++ post).take n = natLe n v := by simp
  simp [field, fieldBytes, taken, leNat_natLe]

theorem logHeader_length (t kind : Nat) (src : BitVec 22) : (logHeader t kind src).length = 16 := by
  simp [logHeader, stampNs, stampFrac]

/-! ## Fault records (R453, Table 14.6) -/

/-- The place of the code, the domain, the part and the phase in a fault record. -/
theorem faultBytes_eq (s : State) (t : Nat) (i : FaultInfo) : ∃ rest,
    faultBytes s t i = logHeader t 48 (dieSource s) ++ (natLe 2 i.code.toNat ++ (natLe 1 i.domain ++ (natLe 1 i.inst ++ (natLe 1 i.phase
      ++ rest)))) := by
  unfold faultBytes padTo
  rw [List.take_of_length_le (by simp [logHeader_length])]
  simp only [List.append_assoc]
  exact ⟨_, rfl⟩

theorem faultRecord_lastFault (s : State) (i : FaultInfo) (o : Option (BitVec 64)) :
    (faultRecord s i o).keeper.lastFault = faultBytes (stamp s).1 (stamp s).2 i := rfl

/-- A fault record tells what it is made of. -/
theorem faultTold_faultRecord (s : State) (i : FaultInfo) (o : Option (BitVec 64)) (hd : i.domain < 256) (hi : i.inst < 256)
    (hp : i.phase < 256) : FaultTold (faultRecord s i o) i.code.toNat i.domain i.inst i.phase := by
  obtain ⟨rest, e⟩ := faultBytes_eq (stamp s).1 (stamp s).2 i
  have hc : i.code.toNat < 256 ^ 2 := i.code.isLt
  have at16 := logHeader_length (stamp s).2 48 (dieSource (stamp s).1)
  unfold FaultTold
  rw [faultRecord_lastFault, e]
  refine ⟨?_, ?_, ?_, ?_⟩
  · rw [field_append_natLe _ _ _ _ at16, Nat.mod_eq_of_lt hc]
  · rw [← List.append_assoc, field_append_natLe _ _ _ _ (by simp [at16])]
    exact Nat.mod_eq_of_lt hd
  · rw [← List.append_assoc, ← List.append_assoc, field_append_natLe _ _ _ _ (by simp [at16])]
    exact Nat.mod_eq_of_lt hi
  · rw [← List.append_assoc, ← List.append_assoc, ← List.append_assoc, field_append_natLe _ _ _ _ (by simp [at16])]
    exact Nat.mod_eq_of_lt hp

/-- Nothing but a report differs: the last stamp, the log, the messages, and the Keeper's last record with its count. -/
def Reported (s t : State) : Prop :=
  ∃ time telem boxes last count, t = { s with
    time := time, telem := telem, mailboxes := boxes, keeper := { s.keeper with lastFault := last, faultCount := count } }

section Reported
variable {s₀ s : State}

theorem reported_refl (s : State) : Reported s s := ⟨_, _, _, _, _, rfl⟩

theorem stamp_reported (h : Reported s₀ s) : Reported s₀ (stamp s).1 := by
  obtain ⟨_, _, _, _, _, rfl⟩ := h
  exact ⟨_, _, _, _, _, rfl⟩

theorem pushLog_reported {rec : Bytes} (h : Reported s₀ s) : Reported s₀ (pushLog s rec) := by
  obtain ⟨_, _, _, _, _, rfl⟩ := h
  unfold pushLog
  dsimp only
  split
  · exact ⟨_, _, _, _, _, rfl⟩
  · split
    · exact ⟨_, _, _, _, _, rfl⟩
    · split <;> exact ⟨_, _, _, _, _, rfl⟩

theorem enqueue_reported {n : Nat} {ms : List OutMsg} (h : Reported s₀ s) : Reported s₀ (enqueue s n ms) := by
  obtain ⟨_, _, _, _, _, rfl⟩ := h
  exact ⟨_, _, _, _, _, rfl⟩

theorem noted_reported {last : Bytes} {count : Keeper → BitVec 32} (h : Reported s₀ s) :
    Reported s₀ (setKeeper s (fun k => { k with lastFault := last, faultCount := count k })) := by
  obtain ⟨_, _, _, _, _, rfl⟩ := h
  exact ⟨_, _, _, _, _, rfl⟩

theorem Reported.ite {t : State} {c : Prop} [Decidable c] (hs : Reported s₀ s) (ht : Reported s₀ t) : Reported s₀ (if c then s else t) := by
  split
  · exact hs
  · exact ht

theorem faultRecord_reported (s : State) (i : FaultInfo) (o : Option (BitVec 64)) : Reported s (faultRecord s i o) := by
  unfold faultRecord
  refine noted_reported ?_
  have logged {rec : Bytes} : Reported s (pushLog (stamp s).1 rec) := pushLog_reported (stamp_reported (reported_refl s))
  cases o with
  | none => exact enqueue_reported logged
  | some o => exact .ite (enqueue_reported logged) (enqueue_reported (enqueue_reported logged))

theorem Reported.field {α : Type} {t : State} (h : Reported s t) (f : State → α)
    (hf : ∀ time telem boxes last count, f { s with
      time := time, telem := telem, mailboxes := boxes, keeper := { s.keeper with lastFault := last, faultCount := count } } = f s) :
    f t = f s := by
  obtain ⟨_, _, _, _, _, rfl⟩ := h
  exact hf ..

end Reported

section Record
variable (s : State) (i : FaultInfo) (o : Option (BitVec 64))

@[simp] theorem faultRecord_comb : (faultRecord s i o).comb = s.comb := (faultRecord_reported s i o).field State.comb fun _ _ _ _ _ => rfl
@[simp] theorem faultRecord_poison : (faultRecord s i o).poison = s.poison := (faultRecord_reported s i o).field State.poison fun _ _ _ _ _ => rfl
@[simp] theorem faultRecord_stackMem : (faultRecord s i o).stackMem = s.stackMem := (faultRecord_reported s i o).field State.stackMem fun _ _ _ _ _ => rfl
@[simp] theorem faultRecord_mems : (faultRecord s i o).mems = s.mems := (faultRecord_reported s i o).field State.mems fun _ _ _ _ _ => rfl
@[simp] theorem faultRecord_runs : (faultRecord s i o).runs = s.runs := (faultRecord_reported s i o).field State.runs fun _ _ _ _ _ => rfl
@[simp] theorem faultRecord_frames : (faultRecord s i o).frames = s.frames := (faultRecord_reported s i o).field State.frames fun _ _ _ _ _ => rfl
@[simp] theorem faultRecord_workers : (faultRecord s i o).workers = s.workers := (faultRecord_reported s i o).field State.workers fun _ _ _ _ _ => rfl
@[simp] theorem faultRecord_foragers : (faultRecord s i o).foragers = s.foragers := (faultRecord_reported s i o).field State.foragers fun _ _ _ _ _ => rfl
@[simp] theorem faultRecord_journal : (faultRecord s i o).journal = s.journal := (faultRecord_reported s i o).field State.journal fun _ _ _ _ _ => rfl
@[simp] theorem faultRecord_life : (faultRecord s i o).life = s.life := (faultRecord_reported s i o).field State.life fun _ _ _ _ _ => rfl
@[simp] theorem faultRecord_wall : (faultRecord s i o).wall = s.wall := (faultRecord_reported s i o).field State.wall fun _ _ _ _ _ => rfl
@[simp] theorem faultRecord_routes : (faultRecord s i o).routes = s.routes := (faultRecord_reported s i o).field State.routes fun _ _ _ _ _ => rfl
@[simp] theorem faultRecord_orders : (faultRecord s i o).keeper.orders = s.keeper.orders :=
  (faultRecord_reported s i o).field (fun t => t.keeper.orders) fun _ _ _ _ _ => rfl
@[simp] theorem faultRecord_recoveries : (faultRecord s i o).keeper.recoveries = s.keeper.recoveries :=
  (faultRecord_reported s i o).field (fun t => t.keeper.recoveries) fun _ _ _ _ _ => rfl
@[simp] theorem faultRecord_resetParts : (faultRecord s i o).keeper.resetParts = s.keeper.resetParts :=
  (faultRecord_reported s i o).field (fun t => t.keeper.resetParts) fun _ _ _ _ _ => rfl
@[simp] theorem faultRecord_oosWorker : (faultRecord s i o).keeper.oosWorker = s.keeper.oosWorker :=
  (faultRecord_reported s i o).field (fun t => t.keeper.oosWorker) fun _ _ _ _ _ => rfl
@[simp] theorem faultRecord_activePair : (faultRecord s i o).keeper.activePair = s.keeper.activePair :=
  (faultRecord_reported s i o).field (fun t => t.keeper.activePair) fun _ _ _ _ _ => rfl
@[simp] theorem faultRecord_standbyOk : (faultRecord s i o).keeper.standbyOk = s.keeper.standbyOk :=
  (faultRecord_reported s i o).field (fun t => t.keeper.standbyOk) fun _ _ _ _ _ => rfl

end Record

end Sys2Proof.Machine
end

section
namespace Sys2Proof.Machine

/-! ## A failed test asks for a spare that does not exist (R18, R325) -/

/-- The die after reset, but worker 0 serves the number 64, which no frame has, and its row-state memory is being tested. -/
def serving64 : State := setWorker State.reset 0 (fun x => { x with serves := some 64, rsState := .testing })

theorem serving64_sound : Sound serving64 :=
  (setWorker_kept (kept_refl State.reset)).1 (by
    refine ⟨⟨rfl, rfl, rfl⟩, List.length_replicate, fun b hb => ?_, List.length_replicate, List.length_replicate,
      List.length_map _, List.length_replicate, List.length_replicate, List.length_replicate, List.length_replicate, Nat.zero_le _⟩
    rw [List.eq_of_mem_replicate hb]
    exact List.length_replicate)

/-- Beyond the 68 workers there is none that could begin the sequence of Table 14.3. -/
theorem getWorker_of_le {s : State} {i : Nat} (h : s.workers.length ≤ i) : getWorker s i = default := by
  simp [getWorker, nth, h]

/-- Refutes O57: the pair's spare is taken to be worker 64 + n / 16, and `Whole` lets a worker serve the number n = 64, whose
pair has none: its failed test asks for spare 4, and no worker 68 is there to begin the scrub. -/
theorem not_workerService : ¬ Obligations.WorkerService := by
  intro h
  obtain ⟨workers, -⟩ := h serving64 serving64_sound.2 (by decide)
  obtain ⟨-, -, -, -, -, failed, -⟩ := workers 0
  obtain ⟨t, ht, -, -, -, -, -, -, spare⟩ := failed rfl
  obtain ⟨-, begins⟩ := spare 64 rfl (by decide) (by decide)
  have parts := ((exec_kept _ (kept_refl _) t ht).1 serving64_sound).2
  rw [getWorker_of_le (i := 64 + spareOf 64) parts.workers.le, getWorker_of_le (i := 64 + spareOf 64) serving64_sound.2.workers.le] at begins
  exact absurd begins (by decide)

end Sys2Proof.Machine
end

section
namespace Sys2Proof.Machine

/-! ## Run faults (R453, R455 to R457) -/

section RunFault
variable {s : State} {r : Nat} {code : BitVec 16} {instr unit domain inst redone phase : Nat}

/-- What a run fault does to a run that there is: its record, and the stop of an order that it is the first to fault. -/
theorem runFault_eq {rn : Run} (h : getRun s r = some rn) : ∃ i o, i.code = code ∧ i.domain = domain ∧ i.inst = inst ∧ i.phase = phase
    ∧ runFault s r code instr unit domain inst redone phase =
      if faultClass code == 2 || rn.fault.isSome || rn.order.isNone then faultRecord s i o
      else setRun (faultRecord s i o) r (fun rn => { rn with fault := some { code := code, instr := instr, unit := unit } }) := by
  unfold runFault
  rw [h]
  exact ⟨_, _, rfl, rfl, rfl, rfl, rfl⟩

theorem runFault_none (h : getRun s r = none) : runFault s r code instr unit domain inst redone phase = s := by
  unfold runFault
  rw [h]

/-- What neither a record nor the runs show, a run fault leaves alone. -/
theorem runFault_field {α : Type} (f : State → α) (hf : ∀ i o, f (faultRecord s i o) = f s)
    (hr : ∀ (t : State) (g : Run → Run), f (setRun t r g) = f t) :
    f (runFault s r code instr unit domain inst redone phase) = f s := by
  cases h : getRun s r with
  | none => rw [runFault_none h]
  | some rn =>
    obtain ⟨i, o, -, -, -, -, e⟩ := runFault_eq (code := code) (instr := instr) (unit := unit) (domain := domain) (inst := inst)
      (redone := redone) (phase := phase) h
    rw [e]
    split
    · exact hf i o
    · rw [hr, hf]

@[simp] theorem runFault_comb : (runFault s r code instr unit domain inst redone phase).comb = s.comb :=
  runFault_field State.comb (faultRecord_comb s) fun _ _ => rfl
@[simp] theorem runFault_stackMem : (runFault s r code instr unit domain inst redone phase).stackMem = s.stackMem :=
  runFault_field State.stackMem (faultRecord_stackMem s) fun _ _ => rfl
@[simp] theorem runFault_mems : (runFault s r code instr unit domain inst redone phase).mems = s.mems :=
  runFault_field State.mems (faultRecord_mems s) fun _ _ => rfl
@[simp] theorem runFault_frames : (runFault s r code instr unit domain inst redone phase).frames = s.frames :=
  runFault_field State.frames (faultRecord_frames s) fun _ _ => rfl
@[simp] theorem runFault_workers : (runFault s r code instr unit domain inst redone phase).workers = s.workers :=
  runFault_field State.workers (faultRecord_workers s) fun _ _ => rfl
@[simp] theorem runFault_foragers : (runFault s r code instr unit domain inst redone phase).foragers = s.foragers :=
  runFault_field State.foragers (faultRecord_foragers s) fun _ _ => rfl
@[simp] theorem runFault_wall : (runFault s r code instr unit domain inst redone phase).wall = s.wall :=
  runFault_field State.wall (faultRecord_wall s) fun _ _ => rfl
@[simp] theorem runFault_orders : (runFault s r code instr unit domain inst redone phase).keeper.orders = s.keeper.orders :=
  runFault_field (fun t => t.keeper.orders) (faultRecord_orders s) fun _ _ => rfl
@[simp] theorem runFault_resetParts :
    (runFault s r code instr unit domain inst redone phase).keeper.resetParts = s.keeper.resetParts :=
  runFault_field (fun t => t.keeper.resetParts) (faultRecord_resetParts s) fun _ _ => rfl

/-- A fault of class B leaves the order running (R456). -/
theorem runFault_runs_of_classB (h : faultClass code = 2) : (runFault s r code instr unit domain inst redone phase).runs = s.runs := by
  cases hr : getRun s r with
  | none => rw [runFault_none hr]
  | some rn =>
    obtain ⟨i, o, -, -, -, -, e⟩ := runFault_eq (code := code) (instr := instr) (unit := unit) (domain := domain) (inst := inst)
      (redone := redone) (phase := phase) hr
    simp [e, h]

theorem faultTold_runFault {rn : Run} (h : getRun s r = some rn) (hd : domain < 256 := by omega) (hi : inst < 256 := by omega)
    (hp : phase < 256 := by omega) :
    FaultTold (runFault s r code instr unit domain inst redone phase) code.toNat domain inst phase := by
  obtain ⟨i, o, rfl, rfl, rfl, rfl, e⟩ := runFault_eq (code := code) (instr := instr) (unit := unit) (domain := domain) (inst := inst)
      (redone := redone) (phase := phase) h
  have told := faultTold_faultRecord s i o hd hi hp
  rw [e]
  split
  · exact told
  · exact told

/-- The first fault of class A or C of an order is the run's (R455, R457). -/
theorem faultedAt_runFault {x : UnitRef} (hf : Faultable s r) (hc : faultClass code ≠ 2) :
    FaultedAt (runFault s r code x.instr x.unit domain inst redone phase) r code x := by
  obtain ⟨rn, hr, free, busy⟩ := hf
  obtain ⟨i, o, -, -, -, -, e⟩ := runFault_eq (code := code) (instr := x.instr) (unit := x.unit) (domain := domain) (inst := inst)
      (redone := redone) (phase := phase) hr
  have kept : getRun (faultRecord s i o) r = some rn := by rw [← hr, getRun, faultRecord_runs, getRun]
  have first : (faultClass code == 2 || rn.fault.isSome || rn.order.isNone) = false := by
    simp only [free, Bool.or_eq_false_iff, beq_eq_false_iff_ne, Option.isSome_none, Option.isNone_eq_false_iff]
    exact ⟨⟨hc, trivial⟩, busy⟩
  rw [FaultedAt, e, if_neg (by simp [first]), getRun_setRun_same, kept]
  rfl

end RunFault

/-! ## Parts under recovery (R452, R468) -/

section Recovery
variable {s : State} {domain inst : Nat} {code : BitVec 16}

theorem findRecovery_congr {s t : State} (h : t.keeper.recoveries = s.keeper.recoveries) (domain inst : Nat) :
    findRecovery t domain inst = findRecovery s domain inst := by
  unfold findRecovery
  rw [h]

theorem findRecovery_beginRecovery : (findRecovery (beginRecovery s domain inst code) domain inst).isSome = true := by
  unfold beginRecovery
  split
  · assumption
  · simp [findRecovery]

theorem beginRecovery_keeper : ∃ rs, beginRecovery s domain inst code = setKeeper s (fun k => { k with recoveries := rs }) := by
  unfold beginRecovery
  split
  · exact ⟨_, rfl⟩
  · exact ⟨_, rfl⟩

theorem beginRecovery_field {α : Type} (f : State → α)
    (hf : ∀ rs, f (setKeeper s (fun k => { k with recoveries := rs })) = f s) :
    f (beginRecovery s domain inst code) = f s := by
  obtain ⟨rs, e⟩ := beginRecovery_keeper (s := s) (domain := domain) (inst := inst) (code := code)
  rw [e, hf]

@[simp] theorem beginRecovery_comb : (beginRecovery s domain inst code).comb = s.comb := beginRecovery_field State.comb fun _ => rfl
@[simp] theorem beginRecovery_stackMem : (beginRecovery s domain inst code).stackMem = s.stackMem := beginRecovery_field State.stackMem fun _ => rfl
@[simp] theorem beginRecovery_runs : (beginRecovery s domain inst code).runs = s.runs := beginRecovery_field State.runs fun _ => rfl
@[simp] theorem beginRecovery_frames : (beginRecovery s domain inst code).frames = s.frames := beginRecovery_field State.frames fun _ => rfl
@[simp] theorem beginRecovery_workers : (beginRecovery s domain inst code).workers = s.workers := beginRecovery_field State.workers fun _ => rfl
@[simp] theorem beginRecovery_foragers : (beginRecovery s domain inst code).foragers = s.foragers := beginRecovery_field State.foragers fun _ => rfl
@[simp] theorem beginRecovery_journal : (beginRecovery s domain inst code).journal = s.journal := beginRecovery_field State.journal fun _ => rfl
@[simp] theorem beginRecovery_life : (beginRecovery s domain inst code).life = s.life := beginRecovery_field State.life fun _ => rfl
@[simp] theorem beginRecovery_routes : (beginRecovery s domain inst code).routes = s.routes := beginRecovery_field State.routes fun _ => rfl
@[simp] theorem beginRecovery_orders : (beginRecovery s domain inst code).keeper.orders = s.keeper.orders :=
  beginRecovery_field (fun t => t.keeper.orders) fun _ => rfl
@[simp] theorem beginRecovery_activePair : (beginRecovery s domain inst code).keeper.activePair = s.keeper.activePair :=
  beginRecovery_field (fun t => t.keeper.activePair) fun _ => rfl

/-- The record of a phase is a fault record of the part (R453). -/
theorem phaseRecord_eq (s : State) (domain inst phase : Nat) (code : BitVec 16) (redone instr unit : Nat) : ∃ i, i.code = code
    ∧ i.domain = domain ∧ i.inst = inst ∧ i.phase = phase ∧ phaseRecord s domain inst phase code redone instr unit = faultRecord s i none :=
  ⟨_, rfl, rfl, rfl, rfl, rfl⟩

theorem faultTold_phaseRecord {phase redone instr unit : Nat} (hd : domain < 256 := by omega) (hi : inst < 256 := by omega)
    (hp : phase < 256 := by omega) : FaultTold (phaseRecord s domain inst phase code redone instr unit) code.toNat domain inst phase := by
  obtain ⟨i, rfl, rfl, rfl, rfl, e⟩ := phaseRecord_eq s domain inst phase code redone instr unit
  rw [e]
  exact faultTold_faultRecord s i none hd hi hp

/-- The end of a recovery is told, and the part is under recovery no more. -/
theorem endRecovery_eq {x : Recovery} (h : findRecovery s domain inst = some x) : endRecovery s domain inst =
    setKeeper (phaseRecord s domain inst 3 x.code)
      (fun k => { k with recoveries := k.recoveries.filter (fun y => !(y.domain == domain && y.inst == inst)) }) := by
  unfold endRecovery
  rw [h]

theorem faultTold_endRecovery {x : Recovery} (h : findRecovery s domain inst = some x) (hd : domain < 256 := by omega)
    (hi : inst < 256 := by omega) : FaultTold (endRecovery s domain inst) x.code.toNat domain inst 3 := by
  have told : FaultTold (phaseRecord s domain inst 3 x.code) x.code.toNat domain inst 3 := faultTold_phaseRecord hd hi
  rw [endRecovery_eq h]
  generalize phaseRecord s domain inst 3 x.code = t at told ⊢
  exact told

/-- What neither a record nor the list of recoveries shows, the end of a recovery leaves alone. -/
theorem endRecovery_field {α : Type} (f : State → α) (hf : ∀ t i, f (faultRecord t i none) = f t)
    (hr : ∀ (t : State) (g : List Recovery → List Recovery), f (setKeeper t (fun k => { k with recoveries := g k.recoveries })) = f t) :
    f (endRecovery s domain inst) = f s := by
  cases h : findRecovery s domain inst with
  | none =>
    unfold endRecovery
    rw [h]
  | some x =>
    obtain ⟨i, -, -, -, -, e⟩ := phaseRecord_eq s domain inst 3 x.code 0 0xFFFFFFFF 0
    rw [endRecovery_eq h, hr _ (List.filter _), e, hf]

theorem findRecovery_endRecovery : findRecovery (endRecovery s domain inst) domain inst = none := by
  cases h : findRecovery s domain inst with
  | none =>
    unfold endRecovery
    rw [h]
    exact h
  | some x =>
    rw [endRecovery_eq h]
    simp only [findRecovery, setKeeper_keeper, List.find?_eq_none, List.mem_filter]
    rintro y ⟨-, other⟩ same
    simp [same] at other

end Recovery

/-! ## Units that are done again (R458, R461) -/

/-- Nothing but the queues of the frames differs, and no unit has left a replay queue. -/
def Requeued (s t : State) : Prop :=
  ∃ frames, t = { s with frames := frames } ∧ frames.length = s.frames.length
    ∧ ∀ f, (nth s.frames f).replay ⊆ (nth frames f).replay ∧ (nth s.frames f).moveReplay ⊆ (nth frames f).moveReplay

section Requeued
variable {s₀ s t : State}

theorem requeued_refl (s : State) : Requeued s s := ⟨_, rfl, rfl, fun _ => ⟨List.Subset.refl _, List.Subset.refl _⟩⟩

theorem Requeued.trans {u : State} (h : Requeued s t) (h' : Requeued t u) : Requeued s u := by
  obtain ⟨frames, rfl, count, grow⟩ := h
  obtain ⟨frames', rfl, count', grow'⟩ := h'
  exact ⟨frames', rfl, count'.trans count, fun f => ⟨List.Subset.trans (grow f).1 (grow' f).1, List.Subset.trans (grow f).2 (grow' f).2⟩⟩

theorem setFrame_requeued (s : State) (f : Nat) (g : Frame → Frame)
    (hg : ∀ x : Frame, x.replay ⊆ (g x).replay ∧ x.moveReplay ⊆ (g x).moveReplay) : Requeued s (setFrame s f g) := by
  refine ⟨updAt s.frames f g, rfl, updAt_length .., fun k => ?_⟩
  rw [nth_updAt]
  split
  · exact hg _
  · exact ⟨List.Subset.refl _, List.Subset.refl _⟩

/-- A unit appended to a replay queue where it does not stand yet. -/
theorem subset_appendNew {α : Type} [BEq α] (l : List α) (x : α) : l ⊆ (if l.contains x then l else l ++ [x]) := by
  split
  · exact List.Subset.refl _
  · exact List.subset_append_left _ _

theorem mem_appendNew {α : Type} [BEq α] [LawfulBEq α] (l : List α) (x : α) : x ∈ (if l.contains x then l else l ++ [x]) := by
  split
  · next h => simpa using h
  · simp

theorem redoUnit_eq {r : Nat} {ref : UnitRef} {rn : Run} {i : Issued} (hr : getRun s r = some rn) (hi : findIssued rn ref.instr = some i) :
    redoUnit s r ref = setFrame s (homeOf rn.image i ref.unit) (fun f =>
      if i.op.micro || isTiled i.op then { f with replay := if f.replay.contains ref then f.replay else f.replay ++ [ref] }
      else { f with moveReplay := if f.moveReplay.contains ref then f.moveReplay else f.moveReplay ++ [ref] }) := by
  unfold redoUnit
  simp only [hr, hi]
  congr 1
  funext f
  repeat' split
  all_goals rfl

theorem redoUnit_requeued (s : State) (r : Nat) (ref : UnitRef) : Requeued s (redoUnit s r ref) := by
  cases hr : getRun s r with
  | none => simp [redoUnit, hr, requeued_refl]
  | some rn =>
    cases hi : findIssued rn ref.instr with
    | none => simp [redoUnit, hr, hi, requeued_refl]
    | some i =>
      rw [redoUnit_eq hr hi]
      refine setFrame_requeued s _ _ fun x => ?_
      split
      · exact ⟨subset_appendNew _ _, List.Subset.refl _⟩
      · exact ⟨List.Subset.refl _, subset_appendNew _ _⟩

theorem askRebuild_requeued (s : State) (r g : Nat) : Requeued s (askRebuild s r g) := by
  unfold askRebuild
  split
  · exact requeued_refl s
  · refine setFrame_requeued s _ _ fun x => ?_
    split <;> exact ⟨List.Subset.refl _, List.Subset.refl _⟩

theorem foldl_requeued {α : Type} (f : State → α → State) (l : List α) (hf : ∀ t a, Requeued t (f t a)) (s : State) :
    Requeued s (l.foldl f s) := by
  induction l generalizing s with
  | nil => exact requeued_refl s
  | cons a l ih => exact (hf s a).trans (ih _)

/-- After the redo of the unit only rings are asked for. -/
theorem redoUnit_requeued_interruptUnit (s : State) (r : Nat) (ref : UnitRef) : Requeued (redoUnit s r ref) (interruptUnit s r ref) := by
  unfold interruptUnit
  dsimp only
  split
  · exact foldl_requeued _ _ (fun t g => askRebuild_requeued t r g) _
  · exact requeued_refl _

theorem interruptUnit_requeued (s : State) (r : Nat) (ref : UnitRef) : Requeued s (interruptUnit s r ref) :=
  (redoUnit_requeued s r ref).trans (redoUnit_requeued_interruptUnit s r ref)

theorem Requeued.field {α : Type} (h : Requeued s t) (f : State → α) (hf : ∀ frames, f { s with frames := frames } = f s) :
    f t = f s := by
  obtain ⟨frames, rfl, -⟩ := h
  exact hf frames

theorem Requeued.frameCount (h : Requeued s t) : t.frames.length = s.frames.length := by
  obtain ⟨frames, rfl, count, -⟩ := h
  exact count

theorem Requeued.replay (h : Requeued s t) (f : Nat) : (getFrame s f).replay ⊆ (getFrame t f).replay := by
  obtain ⟨frames, rfl, -, grow⟩ := h
  exact (grow f).1

theorem Requeued.moveReplay (h : Requeued s t) (f : Nat) : (getFrame s f).moveReplay ⊆ (getFrame t f).moveReplay := by
  obtain ⟨frames, rfl, -, grow⟩ := h
  exact (grow f).2

/-- A unit of tiles that is interrupted waits in its home frame's replay queue. -/
theorem mem_replay_interruptUnit {r : Nat} {ref : UnitRef} {rn : Run} {i : Issued} (hr : getRun s r = some rn)
    (hi : findIssued rn ref.instr = some i) (ht : i.op.micro = true ∨ isTiled i.op = true)
    (hf : homeOf rn.image i ref.unit < s.frames.length) :
    ref ∈ (getFrame (interruptUnit s r ref) (homeOf rn.image i ref.unit)).replay := by
  refine (redoUnit_requeued_interruptUnit s r ref).replay _ ?_
  rw [redoUnit_eq hr hi, getFrame_setFrame_same s _ _ hf, if_pos (by simpa using ht)]
  exact mem_appendNew _ _

/-- A unit of a move that is interrupted waits among the moves of its home frame that are done again. -/
theorem mem_moveReplay_interruptUnit {r : Nat} {ref : UnitRef} {rn : Run} {i : Issued} (hr : getRun s r = some rn)
    (hi : findIssued rn ref.instr = some i) (ht : i.op.micro = false ∧ isTiled i.op = false)
    (hf : homeOf rn.image i ref.unit < s.frames.length) :
    ref ∈ (getFrame (interruptUnit s r ref) (homeOf rn.image i ref.unit)).moveReplay := by
  refine (redoUnit_requeued_interruptUnit s r ref).moveReplay _ ?_
  rw [redoUnit_eq hr hi, getFrame_setFrame_same s _ _ hf, if_neg (by simp [ht])]
  exact mem_appendNew _ _

end Requeued

section Interrupt
variable (s : State) (r : Nat) (ref : UnitRef)

@[simp] theorem interruptUnit_comb : (interruptUnit s r ref).comb = s.comb := (interruptUnit_requeued s r ref).field State.comb fun _ => rfl
@[simp] theorem interruptUnit_stackMem : (interruptUnit s r ref).stackMem = s.stackMem :=
  (interruptUnit_requeued s r ref).field State.stackMem fun _ => rfl
@[simp] theorem interruptUnit_mems : (interruptUnit s r ref).mems = s.mems := (interruptUnit_requeued s r ref).field State.mems fun _ => rfl
@[simp] theorem interruptUnit_runs : (interruptUnit s r ref).runs = s.runs := (interruptUnit_requeued s r ref).field State.runs fun _ => rfl
@[simp] theorem interruptUnit_workers : (interruptUnit s r ref).workers = s.workers := (interruptUnit_requeued s r ref).field State.workers fun _ => rfl
@[simp] theorem interruptUnit_foragers : (interruptUnit s r ref).foragers = s.foragers :=
  (interruptUnit_requeued s r ref).field State.foragers fun _ => rfl
@[simp] theorem interruptUnit_keeper : (interruptUnit s r ref).keeper = s.keeper := (interruptUnit_requeued s r ref).field State.keeper fun _ => rfl

end Interrupt

end Sys2Proof.Machine
end

section
namespace Sys2Proof.Machine

/-! ## Trials (R489) -/

theorem afterReset_cleared (s : State) : Cleared s (afterReset s) := by
  unfold Cleared
  refine ⟨rfl, rfl, rfl, rfl, rfl, rfl, rfl, rfl, rfl, rfl, rfl, rfl, rfl, ?_, ?_, ?_, rfl, rfl, rfl, rfl, rfl⟩
  · rintro l hl
    obtain ⟨_, -, rfl⟩ := List.mem_map.mp hl
    exact ⟨rfl, rfl, rfl⟩
  · rintro p hp
    obtain ⟨_, -, rfl⟩ := List.mem_map.mp hp
    exact ⟨rfl, rfl⟩
  · rintro m hm
    obtain ⟨_, -, rfl⟩ := List.mem_map.mp hm
    rfl

/-- A status byte is programmed: the bits that it clears, and no other byte (R487). -/
theorem memGet_setStatus {s : State} (b v a : Nat) (h : memWf flashDefault s.flash = true) :
    memGet flashDefault (setStatus s b v).flash a = if a = bootRecordAt b + 176
      then BitVec.ofNat 8 v &&& memGet flashDefault s.flash a else memGet flashDefault s.flash a := by
  have byte : (setStatus s b v).flash = memSet flashDefault (bootRecordAt b + 176)
      (BitVec.ofNat 8 v &&& memGet flashDefault s.flash (bootRecordAt b + 176)) s.flash := rfl
  rw [byte, memGet_memSet _ _ _ _ _ h]
  by_cases e : a = bootRecordAt b + 176
  · simp [e]
  · rw [if_neg e, if_neg (Ne.symm e)]

/-! ## The notices after a pair switch (R333) -/

theorem replyMailbox_lt (s : State) (src : BitVec 22) : replyMailbox s src < 16 := by
  unfold replyMailbox sourceMailbox
  repeat' split
  all_goals simp_all
  all_goals omega

theorem fragments_ne_nil (type : BitVec 16) (tag : BitVec 32) (src : BitVec 22) (status : BitVec 16) (time : Nat) (body : Bytes) :
    fragments type tag src status time body ≠ [] := by
  unfold fragments
  cases body with
  | nil => simp
  | cons b rest => simp [chunksOf]

theorem outgoing_putOut (b : Mailbox) (ms : List OutMsg) : outgoing (putOut b ms) = ms := List.take_append_drop 64 ms

theorem outgoing_enqueue {s : State} {n : Nat} (ms : List OutMsg) (hn : n < s.mailboxes.length) :
    outgoing (getMailbox (enqueue s n ms) n) = outgoing (getMailbox s n) ++ ms := by
  rw [enqueue, getMailbox_setMailbox_same s n _ hn, outgoing_putOut]

theorem outgoing_subset_enqueue (s : State) (n m : Nat) (ms : List OutMsg) :
    outgoing (getMailbox s m) ⊆ outgoing (getMailbox (enqueue s n ms) m) := by
  by_cases e : n = m
  · subst e
    by_cases hn : n < s.mailboxes.length
    · rw [outgoing_enqueue ms hn]
      exact List.subset_append_left _ _
    · have none_there : getMailbox s n = default := by simp [getMailbox, nth, Nat.not_lt.mp hn]
      rw [none_there]
      exact List.nil_subset _
  · rw [enqueue, getMailbox_setMailbox_ne s n m _ e]
    exact List.Subset.refl _

/-- An order without what it keeps of its notice. -/
def unnoticed (o : Order) : Order := { o with notice := 0, noticeSentAt := 0 }

/-- Orders and mailboxes alone differ: the orders in their notices, the mailboxes in that they have more to send. -/
def Resent (s t : State) : Prop :=
  ∃ orders boxes, t = { s with mailboxes := boxes, keeper := { s.keeper with orders := orders } }
    ∧ orders.map unnoticed = s.keeper.orders.map unnoticed ∧ boxes.length = s.mailboxes.length
    ∧ ∀ m, outgoing (nth s.mailboxes m) ⊆ outgoing (nth boxes m)

theorem resent_refl (s : State) : Resent s s := ⟨_, _, rfl, rfl, rfl, fun _ => List.Subset.refl _⟩

theorem Resent.trans {s t u : State} (h : Resent s t) (h' : Resent t u) : Resent s u := by
  obtain ⟨_, _, rfl, orders, count, grow⟩ := h
  obtain ⟨_, _, rfl, orders', count', grow'⟩ := h'
  exact ⟨_, _, rfl, orders'.trans orders, count'.trans count, fun m => List.Subset.trans (grow m) (grow' m)⟩

theorem sendCompletion_resent (s : State) (o : Order) : Resent s (sendCompletion s o) := by
  refine ⟨_, _, rfl, ?_, updAt_length .., fun m => outgoing_subset_enqueue _ _ m _⟩
  rw [List.map_map]
  refine List.map_congr_left fun x _ => ?_
  simp only [Function.comp_apply]
  split <;> rfl

/-- The notice that is sent waits in the mailbox of its source. -/
theorem mem_outgoing_sendCompletion {s : State} (o : Order) (count : s.mailboxes.length = 16) :
    ∃ q ∈ outgoing (getMailbox (sendCompletion s o) (replyMailbox s (orderSource o.number))), q.completion = some o.number := by
  have there : replyMailbox s (orderSource o.number) < s.mailboxes.length := count ▸ replyMailbox_lt s _
  have put := outgoing_enqueue (s := setOrder s o.number (fun o => { o with notice := 1, noticeSentAt := s.wall }))
    ((fragments 0x4020 0 (orderSource o.number) 0 (s.time.now / 65536) (completionBody o)).map
      (fun b => ({ bytes := b, completion := some o.number } : OutMsg))) there
  obtain ⟨b, hb⟩ := List.exists_mem_of_ne_nil _ (fragments_ne_nil 0x4020 0 (orderSource o.number) 0 (s.time.now / 65536) (completionBody o))
  exact ⟨⟨b, some o.number⟩, put ▸ List.mem_append_right _ (List.mem_map.mpr ⟨b, hb, rfl⟩), rfl⟩

theorem firstUnacked_congr {s t : State} (h : t.keeper.orders = s.keeper.orders) (src : BitVec 22) : firstUnacked t src = firstUnacked s src := by
  rw [firstUnacked, firstUnacked, h]

/-- A change of elements that a filter drops before and after it. -/
theorem filter_map_ite {α : Type} (p c : α → Bool) (f : α → α) (h : ∀ x, c x = true → p x = false ∧ p (f x) = false) (l : List α) :
    (l.map (fun x => if c x then f x else x)).filter p = l.filter p := by
  induction l with
  | nil => rfl
  | cons x l ih =>
    cases e : c x with
    | true => simp [e, h x e, ih]
    | false => simp [e, List.filter_cons, ih]

/-- The orders of one source, in their sequence, are not touched by a notice to another. -/
theorem firstUnacked_sendCompletion {s : State} {o : Order} {src : BitVec 22} (h : orderSource o.number ≠ src) :
    firstUnacked (sendCompletion s o) src = firstUnacked s src := by
  have same := filter_map_ite (fun x : Order => orderSource x.number == src && x.notice < 2) (fun x => x.number == o.number)
    (fun x => { x with notice := 1, noticeSentAt := s.wall })
    (fun x e => by simp [eq_of_beq e, h]) s.keeper.orders
  unfold firstUnacked
  rw [← same]
  rfl

theorem mem_of_firstUnacked {s : State} {src : BitVec 22} {o : Order} (h : firstUnacked s src = some o) :
    o ∈ s.keeper.orders ∧ orderSource o.number = src := by
  have found := List.mem_mergeSort.mp (List.mem_of_mem_head? h)
  obtain ⟨there, own⟩ := List.mem_filter.mp found
  exact ⟨there, by simpa using (Bool.and_eq_true_iff.mp own).1⟩

/-- What a pair switch does for one source. -/
def resendOf (s : State) (src : BitVec 22) : State :=
  match firstUnacked s src with
  | some o =>
    if o.notice == 1 && !(outgoing (getMailbox s (replyMailbox s src))).any (fun q => q.completion == some o.number) then sendCompletion s o
    else s
  | none => s

theorem resendNotices_eq (s : State) :
    resendNotices s = ((s.keeper.orders.map (fun o => orderSource o.number)).eraseDups).foldl resendOf s := rfl

theorem resendOf_resent (s : State) (src : BitVec 22) : Resent s (resendOf s src) := by
  unfold resendOf
  split
  · split
    · exact sendCompletion_resent ..
    · exact resent_refl s
  · exact resent_refl s

theorem foldl_resendOf_resent (l : List (BitVec 22)) (s : State) : Resent s (l.foldl resendOf s) := by
  induction l generalizing s with
  | nil => exact resent_refl s
  | cons src l ih => exact (resendOf_resent s src).trans (ih _)

theorem firstUnacked_resendOf {s : State} {src src' : BitVec 22} (h : src' ≠ src) : firstUnacked (resendOf s src') src = firstUnacked s src := by
  unfold resendOf
  split
  · next o ho =>
    split
    · exact firstUnacked_sendCompletion ((mem_of_firstUnacked ho).2 ▸ h)
    · rfl
  · rfl

theorem Resent.replyMailbox {s t : State} (h : Resent s t) (src : BitVec 22) : replyMailbox t src = replyMailbox s src := by
  obtain ⟨_, _, rfl, -⟩ := h
  rfl

theorem Resent.mailboxCount {s t : State} (h : Resent s t) : t.mailboxes.length = s.mailboxes.length := by
  obtain ⟨_, _, rfl, -, count, -⟩ := h
  exact count

theorem Resent.outgoing {s t : State} (h : Resent s t) (m : Nat) : outgoing (getMailbox s m) ⊆ outgoing (getMailbox t m) := by
  obtain ⟨_, _, rfl, -, -, grow⟩ := h
  exact grow m

/-- The notice of an order waits to be sent to a source. -/
def NoticeWaits (s : State) (src : BitVec 22) (o : Order) : Prop :=
  ∃ q ∈ outgoing (getMailbox s (replyMailbox s src)), q.completion = some o.number

theorem Resent.noticeWaits {s t : State} {src : BitVec 22} {o : Order} (h : Resent s t) (w : NoticeWaits s src o) : NoticeWaits t src o := by
  obtain ⟨q, hq, named⟩ := w
  exact ⟨q, h.replyMailbox src ▸ h.outgoing _ hq, named⟩

theorem noticeWaits_resendOf {s : State} {src : BitVec 22} {o : Order} (count : s.mailboxes.length = 16)
    (ho : firstUnacked s src = some o) (sent : o.notice = 1) : NoticeWaits (resendOf s src) src o := by
  unfold resendOf
  rw [ho]
  dsimp only
  split
  · obtain ⟨q, hq, named⟩ := mem_outgoing_sendCompletion o count
    rw [(mem_of_firstUnacked ho).2] at hq
    exact ⟨q, (sendCompletion_resent s o).replyMailbox src ▸ hq, named⟩
  · next waits =>
    simp only [sent, beq_self_eq_true, Bool.true_and, Bool.not_eq_true', Bool.not_eq_false, List.any_eq_true, beq_iff_eq] at waits
    exact waits

theorem noticeWaits_foldl {src : BitVec 22} {o : Order} (sent : o.notice = 1) (l : List (BitVec 22)) (hl : src ∈ l) (s : State)
    (count : s.mailboxes.length = 16) (ho : firstUnacked s src = some o) : NoticeWaits (l.foldl resendOf s) src o := by
  induction l generalizing s with
  | nil => cases hl
  | cons src' l ih =>
    by_cases e : src' = src
    · subst e
      exact (foldl_resendOf_resent l _).noticeWaits (noticeWaits_resendOf count ho sent)
    · refine ih ((List.mem_cons.mp hl).resolve_left (Ne.symm e)) _ ?_ ?_
      · rw [(resendOf_resent s src').mailboxCount, count]
      · rw [firstUnacked_resendOf e, ho]

/-- The oldest unacknowledged notice of a source, once sent, waits in its mailbox after the switch (R333). -/
theorem noticeWaits_resendNotices {s : State} {src : BitVec 22} {o : Order} (count : s.mailboxes.length = 16)
    (ho : firstUnacked s src = some o) (sent : o.notice = 1) : NoticeWaits (resendNotices s) src o := by
  obtain ⟨there, own⟩ := mem_of_firstUnacked ho
  rw [resendNotices_eq]
  refine noticeWaits_foldl sent _ ?_ s count ho
  rw [List.mem_eraseDups]
  exact List.mem_map.mpr ⟨o, there, own⟩

/-! ## The fault of the active pair (R37, R492) -/

/-- The detection of a pair's fault as it is recorded (R453). -/
def pairInfo (p : Nat) : FaultInfo where
  code := 0
  domain := 9
  inst := p
  phase := 1
  run := 0xFF
  order := 0
  instr := 0xFFFFFFFF
  redone := 0
  unit := 0
  duration := 0

/-- The other pair is active, without redundancy. -/
def otherPair (p : Nat) (k : Keeper) : Keeper :=
  { k with activePair := if k.activePair == p then 1 - p else k.activePair, standbyOk := false }

/-- A pair under recovery, recorded, and the other active: the state in which the notices are sent again. -/
def pairSwitched (s : State) (p : Nat) : State :=
  phaseRecord (setKeeper (faultRecord (beginRecovery s 9 p 0) (pairInfo p) none) (otherPair p)) 9 p 2 0

theorem pairFault_active {s : State} {p : Nat} (h : s.keeper.activePair = p) : pairFault s p = resendNotices (pairSwitched s p) := by
  have switches : ((faultRecord (beginRecovery s 9 p 0) (pairInfo p) none).keeper.activePair == p) = true := by simp [h]
  exact if_pos switches

/-- What the switch of the pairs leaves alone. -/
theorem pairSwitched_field {α : Type} (s : State) (p : Nat) (f : State → α) (hf : ∀ t i, f (faultRecord t i none) = f t)
    (hk : ∀ t, f (setKeeper t (otherPair p)) = f t) (hr : f (beginRecovery s 9 p 0) = f s) : f (pairSwitched s p) = f s := by
  unfold pairSwitched phaseRecord
  rw [hf, hk, hf, hr]

theorem pairSwitched_activePair {s : State} {p : Nat} (h : s.keeper.activePair = p) : (pairSwitched s p).keeper.activePair = 1 - p := by
  simp [pairSwitched, phaseRecord, otherPair, h]

theorem pairSwitched_standbyOk (s : State) (p : Nat) : (pairSwitched s p).keeper.standbyOk = false := by
  simp [pairSwitched, phaseRecord, otherPair]

theorem findRecovery_pairSwitched (s : State) (p : Nat) : (findRecovery (pairSwitched s p) 9 p).isSome = true := by
  have list : (pairSwitched s p).keeper.recoveries = (beginRecovery s 9 p 0).keeper.recoveries := by
    simp [pairSwitched, phaseRecord, otherPair]
  rw [findRecovery_congr list]
  exact findRecovery_beginRecovery

theorem faultTold_pairSwitched (s : State) {p : Nat} (h : p < 2) : FaultTold (pairSwitched s p) 0 9 p 2 := faultTold_phaseRecord

/-- What the fault of the active pair `p` shows: the other is active without redundancy; runs, orders, journal and comb stay;
notices are sent again, and the fault is contained and recorded. -/
def PairTaken (s : State) (p : Nat) (u : State) : Prop :=
  u.keeper.activePair = 1 - p ∧ u.keeper.standbyOk = false ∧ u.life.activating = none ∧ u.runs = s.runs ∧ u.journal = s.journal
    ∧ u.comb = s.comb ∧ u.keeper.orders.map unnoticed = s.keeper.orders.map unnoticed
    ∧ (∀ src o, firstUnacked s src = some o → o.notice = 1 →
        ∃ q ∈ outgoing (getMailbox u (replyMailbox s src)), q.completion = some o.number)
    ∧ (findRecovery u 9 p).isSome = true ∧ FaultTold u 0 9 p 2

theorem replyMailbox_congr {s t : State} (hl : t.life = s.life) (hr : t.routes = s.routes) (src : BitVec 22) :
    replyMailbox t src = replyMailbox s src := by
  unfold replyMailbox
  rw [hl, hr]

theorem pairSwitched_kept {s : State} (p : Nat) : Kept s (pairSwitched s p) :=
  phaseRecord_kept (setKeeper_kept (faultRecord_kept (beginRecovery_kept (kept_refl s))))

/-- The notices that are sent again change nothing else that the fault shows. -/
theorem Resent.pairTaken {s t u : State} {p : Nat} (h : Resent t u) (active : t.keeper.activePair = 1 - p) (alone : t.keeper.standbyOk = false)
    (life : t.life = s.life) (routes : t.routes = s.routes) (runs : t.runs = s.runs) (journal : t.journal = s.journal)
    (comb : t.comb = s.comb) (orders : t.keeper.orders = s.keeper.orders) (found : (findRecovery t 9 p).isSome = true)
    (told : FaultTold t 0 9 p 2) (la : s.life.activating = none)
    (waits : ∀ src o, firstUnacked t src = some o → o.notice = 1 → NoticeWaits u src o) : PairTaken s p u := by
  have sentAgain : ∀ src o, firstUnacked s src = some o → o.notice = 1 →
      ∃ q ∈ Machine.outgoing (getMailbox u (Machine.replyMailbox s src)), q.completion = some o.number := fun src o ho sent => by
    rw [← replyMailbox_congr life routes, ← h.replyMailbox]
    exact waits src o (firstUnacked_congr orders src ▸ ho) sent
  obtain ⟨_, _, rfl, orders', -⟩ := h
  exact ⟨active, alone, life ▸ la, runs, journal, comb, orders ▸ orders', sentAgain, found, told⟩

theorem pairFault_pairTaken {s : State} {p : Nat} (sound : Sound s) (hp : s.keeper.activePair = p) (small : p < 2)
    (la : s.life.activating = none) : PairTaken s p (pairFault s p) := by
  have count := ((pairSwitched_kept p).1 sound).2.mailboxes
  have resent : Resent (pairSwitched s p) (resendNotices (pairSwitched s p)) := resendNotices_eq _ ▸ foldl_resendOf_resent _ _
  rw [pairFault_active hp]
  refine resent.pairTaken (pairSwitched_activePair hp) (pairSwitched_standbyOk s p) ?_ ?_ ?_ ?_ ?_ ?_ (findRecovery_pairSwitched s p)
    (faultTold_pairSwitched s small) la fun src o ho sent => noticeWaits_resendNotices count ho sent
  · exact pairSwitched_field s p State.life (by simp) (by simp) (by simp)
  · exact pairSwitched_field s p State.routes (by simp) (by simp) (by simp)
  · exact pairSwitched_field s p State.runs (by simp) (by simp) (by simp)
  · exact pairSwitched_field s p State.journal (by simp) (by simp) (by simp)
  · exact pairSwitched_field s p State.comb (by simp) (by simp) (by simp)
  · exact pairSwitched_field s p (fun t => t.keeper.orders) (by simp) (by simp [otherPair]) (by simp)

/-- The activation of firmware ends, and with it the other pair's recovery. -/
def activationEnded (s : State) : State :=
  setLife (endRecovery s 9 (1 - s.keeper.activePair)) (fun l => { l with activating := none })

theorem activationEnded_field {α : Type} (s : State) (f : State → α) (hl : ∀ t, f (setLife t (fun l => { l with activating := none })) = f t)
    (hf : ∀ t i, f (faultRecord t i none) = f t)
    (hr : ∀ (t : State) (g : List Recovery → List Recovery), f (setKeeper t (fun k => { k with recoveries := g k.recoveries })) = f t) :
    f (activationEnded s) = f s := by
  rw [activationEnded, hl, endRecovery_field f hf hr]

theorem activationEnded_kept (s : State) : Kept s (activationEnded s) := setLife_kept (endRecovery_kept (kept_refl s))

/-- After the handover the fault ends the activation too. -/
theorem pairFault_activationEnded_pairTaken {s : State} {p : Nat} (sound : Sound s) (hp : s.keeper.activePair = p) (small : p < 2) :
    PairTaken s p (pairFault (activationEnded s) p) := by
  have active : (activationEnded s).keeper.activePair = s.keeper.activePair :=
    activationEnded_field s (fun t => t.keeper.activePair) (fun _ => rfl) (by simp) (fun _ _ => rfl)
  have orders : (activationEnded s).keeper.orders = s.keeper.orders :=
    activationEnded_field s (fun t => t.keeper.orders) (fun _ => rfl) (by simp) (fun _ _ => rfl)
  have runs : (activationEnded s).runs = s.runs := activationEnded_field s State.runs (fun _ => rfl) (by simp) (fun _ _ => rfl)
  have journal : (activationEnded s).journal = s.journal := activationEnded_field s State.journal (fun _ => rfl) (by simp) (fun _ _ => rfl)
  have comb : (activationEnded s).comb = s.comb := activationEnded_field s State.comb (fun _ => rfl) (by simp) (fun _ _ => rfl)
  have reply (src : BitVec 22) : replyMailbox (activationEnded s) src = replyMailbox s src :=
    activationEnded_field s (fun t => replyMailbox t src) (fun _ => rfl) (fun t i => replyMailbox_congr (by simp) (by simp) src) (fun _ _ => rfl)
  obtain ⟨a, b, c, d, e, f, g, h, i⟩ := pairFault_pairTaken ((activationEnded_kept s).1 sound) (active.trans hp) small rfl
  refine ⟨a, b, c, d.trans runs, e.trans journal, f.trans comb, orders ▸ g, fun src o ho sent => ?_, i⟩
  exact reply src ▸ h src o (firstUnacked_congr orders src ▸ ho) sent

theorem activePairFault_pairTaken {s : State} (sound : Sound s) (small : s.keeper.activePair < 2)
    (side : (s.life.activating = none ∧ s.keeper.standbyOk = true) ∨ ∃ p, s.life.activating = some (p, true)) :
    PairTaken s s.keeper.activePair (activePairFault s) := by
  obtain ⟨idle, ok⟩ | ⟨p, handed⟩ := side
  · have e : activePairFault s = pairFault s s.keeper.activePair := by simp [activePairFault, idle, ok]
    rw [e]
    exact pairFault_pairTaken sound rfl small idle
  · have e : activePairFault s = pairFault (activationEnded s) s.keeper.activePair := by simp [activePairFault, handed, activationEnded]
    rw [e]
    exact pairFault_activationEnded_pairTaken sound rfl small

theorem activePairFault_cleared {s : State}
    (side : (s.life.activating = none ∧ s.keeper.standbyOk = false) ∨ ∃ p, s.life.activating = some (p, false)) :
    Cleared s (activePairFault s) := by
  have e : activePairFault s = afterReset s := by
    obtain ⟨idle, alone⟩ | ⟨p, before⟩ := side
    · simp [activePairFault, idle, alone]
    · simp [activePairFault, before]
  rw [e]
  exact afterReset_cleared s

/-- Settles O36: a reset clears, a status byte is programmed, and a switch of the pairs is followed by the notices, each of
which is sent to its own source. -/
theorem trialsAndPairs : Obligations.TrialsAndPairs := by
  unfold Obligations.TrialsAndPairs
  intro s sound clock
  have leads {c : Instr} {t u : State} (e : exec c s = clocked s t) (h : t = u) : exec c s = .next u :=
    h ▸ e.trans (clocked_of_clocked clock)
  have gives {c : Instr} {t u : State} {P : State → Prop} (e : exec c s = clocked s t) (h : t = u) (hu : P u) : Gives c s P :=
    ⟨u, leads e h, hu⟩
  refine ⟨fun trial boot => gives rfl (if_pos (by simp [trial, boot])) (afterReset_cleared s), fun done => leads rfl (if_neg ?_),
    fun trial ready state => gives rfl (if_neg ?_) ⟨rfl, rfl, rfl, fun a => memGet_setStatus _ _ a sound.1.2.2⟩,
    fun off => leads rfl (if_pos ?_), fun side small => gives rfl rfl (activePairFault_pairTaken sound small side),
    fun side => gives rfl rfl (activePairFault_cleared side), fun off both => leads rfl (if_pos ?_),
    fun rom failed => ⟨gives rfl ((if_neg ?_).trans (if_pos rfl)) (afterReset_cleared s),
      leads rfl ((if_neg ?_).trans (if_neg Bool.false_ne_true)) |>.trans (leads rfl rfl).symm⟩⟩
  · obtain trial | state := done <;> simp [*]
  · simp [trial, state, Option.isNone_eq_false_iff.mpr ready]
  · obtain trial | ready | state := off <;> simp [*]
  · obtain rom | failed := off <;> simp [*]
  · simp [rom, failed]
  · simp [rom, failed]

end Sys2Proof.Machine
end

section
namespace Sys2Proof.Machine

/-! ## What the books leave alone

Records, commits, ring tokens, the frames and packets that carry them, and shadow samples change neither memories nor memory
ports, of the workers only root tables and samples, and of the foragers' units only that some leave. -/

/-- A worker but for its root tables and its sample. -/
def WorkerKept (x y : Worker) : Prop := y = { x with root := y.root, sample := y.sample, sfnSkip := y.sfnSkip }

theorem workerKept_refl (x : Worker) : WorkerKept x x := rfl

theorem WorkerKept.trans {x y z : Worker} (h : WorkerKept x y) (h' : WorkerKept y z) : WorkerKept x z := by
  unfold WorkerKept at *
  rw [h', h]

structure Books (s t : State) : Prop where
  comb : t.comb = s.comb
  stackMem : t.stackMem = s.stackMem
  poison : t.poison = s.poison
  mems : t.mems = s.mems
  workerCount : t.workers.length = s.workers.length
  worker : ∀ w, WorkerKept (getWorker s w) (getWorker t w)
  foragerCount : t.foragers.length = s.foragers.length
  moves : ∀ g, (getForager t g).moves ⊆ (getForager s g).moves

section Books
variable {s₀ s t : State}

theorem books_refl (s : State) : Books s s := ⟨rfl, rfl, rfl, rfl, rfl, fun _ => workerKept_refl _, rfl, fun _ => List.Subset.refl _⟩

/-- The parts of the state of which `Books` speaks. -/
def booked (s : State) : List Host.Cell × List Host.Cell × List Nat × List MemPort × List Worker × List Forager :=
  (s.comb, s.stackMem, s.poison, s.mems, s.workers, s.foragers)

/-- A change of parts that the books do not speak of. -/
theorem Books.parts (h : Books s₀ s) (e : booked t = booked s) : Books s₀ t := by
  simp only [booked, Prod.mk.injEq] at e
  obtain ⟨hc, hs, hp, hm, hw, hf⟩ := e
  refine ⟨hc.trans h.comb, hs.trans h.stackMem, hp.trans h.poison, hm.trans h.mems, hw ▸ h.workerCount, fun w => ?_,
    hf ▸ h.foragerCount, fun g => ?_⟩
  · have same : getWorker t w = getWorker s w := by rw [getWorker, hw, getWorker]
    rw [same]
    exact h.worker w
  · have same : getForager t g = getForager s g := by rw [getForager, hf, getForager]
    rw [same]
    exact h.moves g

theorem Books.ite {c : Prop} [Decidable c] (hs : Books s₀ s) (ht : Books s₀ t) : Books s₀ (if c then s else t) := by
  split
  · exact hs
  · exact ht

theorem Books.foldl {α : Type} {f : State → α → State} {l : List α} (h : Books s₀ s) (hf : ∀ t a, Books s₀ t → Books s₀ (f t a)) :
    Books s₀ (l.foldl f s) := by
  induction l generalizing s with
  | nil => exact h
  | cons a l ih => exact ih (hf s a h)

/-! ### Records -/

theorem pushLog_books {rec : Bytes} (h : Books s₀ s) : Books s₀ (pushLog s rec) :=
  h.parts ((pushLog_reported (rec := rec) (reported_refl s)).field booked fun _ _ _ _ _ => rfl)

theorem logRecord_books {kind : Nat} {src : BitVec 22} {body : Bytes} (h : Books s₀ s) : Books s₀ (logRecord s kind src body) :=
  pushLog_books (s := (stamp s).1) (h.parts rfl)

theorem deliverAcks_books (h : Books s₀ s) : Books s₀ (deliverAcks s) :=
  .ite h (.foldl (h.parts rfl) fun _ _ h => h.parts rfl)

theorem checkpointDue_books (h : Books s₀ s) : Books s₀ (checkpointDue s) := .ite h ((deliverAcks_books h).parts rfl)

theorem journalAt_books {t kind run : Nat} {order : BitVec 64} {src : BitVec 22} {body : Bytes} (h : Books s₀ s) :
    Books s₀ (journalAt s t kind run order src body) :=
  checkpointDue_books (h.parts rfl)

theorem journal_books {kind run : Nat} {order : BitVec 64} {src : BitVec 22} {body : Bytes} (h : Books s₀ s) :
    Books s₀ (journal s kind run order src body) :=
  journalAt_books (s := (stamp s).1) (h.parts rfl)

/-! ### Commits -/

theorem setProgress_books {r k : Nat} {f : Progress → Progress} (h : Books s₀ s) : Books s₀ (setProgress s r k f) := by
  unfold setProgress
  split
  · split
    · exact h.parts rfl
    · exact h
  · exact h

/-- The root tables of a worker, and its sample, are not the books' concern. -/
theorem setWorker_books {w : Nat} {f : Worker → Worker} (h : Books s₀ s) (hf : ∀ x, WorkerKept x (f x)) : Books s₀ (setWorker s w f) :=
  { h with
    workerCount := by simp [h.workerCount]
    worker := fun v => by
      refine (h.worker v).trans ?_
      unfold getWorker setWorker
      rw [nth_updAt]
      split
      · exact hf _
      · exact workerKept_refl _ }

theorem setRoots_books {r : Nat} {f : List RootSlot → List RootSlot} (h : Books s₀ s) : Books s₀ (setRoots s r f) :=
  .foldl (h.parts rfl) fun _ _ h => setWorker_books h fun _ => rfl

theorem dropUnits_books {r : Nat} {p : Nat → Bool} (h : Books s₀ s) : Books s₀ (dropUnits s r p) := .foldl h fun _ _ h => h.parts rfl

theorem restoreGens_books {r : Nat} (h : Books s₀ s) : Books s₀ (restoreGens s r) := by
  unfold restoreGens
  dsimp only
  split
  · exact h
  · exact Books.parts (.ite h (setRoots_books h)) rfl

theorem clearRunOrder_books {r : Nat} (h : Books s₀ s) : Books s₀ (clearRunOrder s r) :=
  Books.parts (s := restoreGens (dropUnits s r (fun _ => true)) r) (restoreGens_books (dropUnits_books h)) rfl

theorem setOrder_books {n : BitVec 64} {f : Order → Order} (h : Books s₀ s) : Books s₀ (setOrder s n f) := h.parts rfl

theorem completeOrder_books {r : Nat} (h : Books s₀ s) : Books s₀ (completeOrder s r) :=
  clearRunOrder_books (setOrder_books (journalAt_books (s := (stamp s).1) (h.parts rfl)))

theorem finishOrder_books {r : Nat} (h : Books s₀ s) : Books s₀ (finishOrder s r) := by
  unfold finishOrder
  split
  · exact h
  · split
    · exact h
    · exact .ite (completeOrder_books h) h

theorem healthCounters_books {r k tag : Nat} (h : Books s₀ s) : Books s₀ (healthCounters s r k tag) := by
  unfold healthCounters
  dsimp only
  split
  · exact h
  · exact .ite h ((logRecord_books h).parts rfl)

theorem commitInstr_books {r k : Nat} (h : Books s₀ s) : Books s₀ (commitInstr s r k) :=
  finishOrder_books (healthCounters_books (journal_books (setProgress_books h)))

theorem consumeSeqs_books {r : Nat} {seqs : List (Nat × Nat)} (h : Books s₀ s) : Books s₀ (consumeSeqs s r seqs) :=
  .foldl h fun _ _ h => h.parts rfl

theorem commitUnit_books {r k u : Nat} (h : Books s₀ s) : Books s₀ (commitUnit s r k u) := by
  unfold commitUnit
  dsimp only
  split
  · exact h
  · next rn hr =>
    split
    · exact h
    · next i hi =>
      have counted : Books s₀ (setProgress (setIssued s r k (fun i => { i with committed := i.committed ++ [u] })) r k
          (fun p => { p with live := p.live ++ [u] })) := setProgress_books (h.parts rfl)
      exact .ite h (.ite (counted.parts rfl) (.ite (commitInstr_books counted) counted))

/-! ### Tokens, packets and frames -/

theorem tspCredits_books {p ring : Nat} {seqs : List Nat} (h : Books s₀ s) : Books s₀ (tspCredits s p ring seqs) :=
  .foldl h fun _ _ h => .ite h (h.parts rfl)

theorem setRing_books {r g : Nat} {f : Ring → Ring} (h : Books s₀ s) : Books s₀ (setRing s r g f) := h.parts rfl

theorem uncapSlot_books {r g q : Nat} (h : Books s₀ s) : Books s₀ (uncapSlot s r g q) := by
  unfold uncapSlot
  refine .ite ?_ (setRing_books h)
  dsimp only
  split
  · split
    · exact tspCredits_books (setRing_books (setRing_books h))
    · exact setRing_books h
  · exact setRing_books h

theorem fillSlot_books {r g q : Nat} {crc : Option (BitVec 32)} (h : Books s₀ s) : Books s₀ (fillSlot s r g q crc) :=
  .ite (uncapSlot_books (setRing_books (setRing_books h))) (setRing_books h)

/-- A unit that leaves its forager. -/
theorem leaveForager_books {g : Nat} {p : Move → Bool} (h : Books s₀ s) :
    Books s₀ (setForager s g (fun x => { x with moves := x.moves.filter p })) :=
  { h with
    foragerCount := by simp [h.foragerCount]
    moves := fun k => by
      refine List.Subset.trans ?_ (h.moves k)
      unfold getForager setForager
      rw [nth_updAt]
      split
      · exact fun _ hx => (List.mem_filter.mp hx).1
      · exact List.Subset.refl _ }

theorem sendPlaced_books {last : Option (Nat × UnitRef)} (h : Books s₀ s) : Books s₀ (sendPlaced s last) := by
  unfold sendPlaced
  split
  · exact h
  · split
    · exact h
    · exact commitUnit_books (consumeSeqs_books (leaveForager_books h))

theorem answerForward_books {p : Option Pending} {code : BitVec 16} (h : Books s₀ s) : Books s₀ (answerForward s p code) := by
  unfold answerForward
  split
  · exact h.parts rfl
  · exact h

theorem pumpN_books {n fuel : Nat} (h : Books s₀ s) : Books s₀ (pumpN n fuel s) := by
  induction fuel generalizing s with
  | zero => exact h
  | succ fuel ih =>
    unfold pumpN
    dsimp only
    split
    · exact h
    · next i _ =>
      exact ih (answerForward_books (sendPlaced_books (Books.parts (t := transmit _ n (nth (getLink s n).txQueue i)) h rfl)))

theorem grantLanding_books {r g : Nat} (h : Books s₀ s) : Books s₀ (grantLanding s r g) := by
  unfold grantLanding
  refine .ite h ?_
  dsimp only
  split
  · exact h
  · exact .foldl (setRing_books h) fun _ _ h => pumpN_books (h.parts rfl)

theorem passSlots_books {r : Nat} {reads writes : List (Nat × Nat)} (h : Books s₀ s) : Books s₀ (passSlots s r reads writes) :=
  .foldl (.foldl h fun _ _ h => grantLanding_books (uncapSlot_books h)) fun _ _ h => grantLanding_books (fillSlot_books h)

/-! ### Samples (R266 to R268, R271) -/

theorem skipSample_workerKept (x : Worker) : WorkerKept x (skipSample x) := by
  unfold skipSample
  split
  · rfl
  · rfl

theorem sampleTile_books {before : State} {rn : Run} {i : Issued} {w : Nat} {c : TileCtx} (h : Books s₀ s) :
    Books s₀ (sampleTile s before rn i w c) := by
  unfold sampleTile
  refine .ite h ?_
  split
  · exact h
  · exact .ite h (.ite (setWorker_books h fun _ => rfl) (setWorker_books h fun _ => rfl))

theorem tripLayer_books {r T : Nat} {i : Issued} {cause : BitVec 16} (h : Books s₀ s) : Books s₀ (tripLayer s r i T cause) := by
  unfold tripLayer
  split
  · exact h
  · split
    · split
      · exact h
      · refine .foldl (dropUnits_books (h.parts rfl)) fun _ _ h => setWorker_books h fun x => ?_
        split
        · split
          · exact skipSample_workerKept x
          · exact workerKept_refl x
        · exact workerKept_refl x
    · exact h

end Books

end Sys2Proof.Machine
end

section
namespace Sys2Proof.Machine

/-! ## Orders by number -/

theorem findOrder_setOrder {s : State} {n m : BitVec 64} {f : Order → Order} (hf : ∀ o, (f o).number = o.number) :
    findOrder (setOrder s n f) m = (findOrder s m).map (fun o => if o.number == n then f o else o) := by
  have same : (fun o : Order => o.number == m) ∘ (fun o => if o.number == n then f o else o) = fun o => o.number == m := by
    funext o
    simp only [Function.comp_apply]
    split
    · rw [hf]
    · rfl
  unfold findOrder setOrder
  rw [setKeeper_keeper, List.find?_map, same]

theorem number_of_findOrder {s : State} {n : BitVec 64} {o : Order} (h : findOrder s n = some o) : o.number = n :=
  eq_of_beq (List.find?_some (p := fun o : Order => o.number == n) h)

theorem findOrder_setOrder_same {s : State} {n : BitVec 64} {f : Order → Order} {o : Order} (hf : ∀ o, (f o).number = o.number)
    (h : findOrder s n = some o) : findOrder (setOrder s n f) n = some (f o) := by
  rw [findOrder_setOrder hf, h, Option.map_some, if_pos (beq_iff_eq.mpr (number_of_findOrder h))]

/-- The first that is looked for is found in what a filter keeps when the filter keeps it. -/
theorem find?_filter_of_find? {α : Type} {p q : α → Bool} {l : List α} {x : α} (h : l.find? q = some x) (hp : p x = true) :
    (l.filter p).find? q = some x := by
  obtain ⟨hq, before, after, rfl, first⟩ := List.find?_eq_some_iff_append.mp h
  refine List.find?_eq_some_iff_append.mpr ⟨hq, before.filter p, after.filter p, by simp [hp], fun a ha => ?_⟩
  exact first a (List.mem_filter.mp ha).1

/-! ## What the journal touches (R337 to R339) -/

/-- A record is appended and no CHECKPOINT is due. -/
theorem journalAt_few {s : State} {t kind run : Nat} {order : BitVec 64} {src : BitVec 22} {body : Bytes}
    (h : s.journal.sinceCheckpoint + 1 < 4096) : journalAt s t kind run order src body = appendRecord s t kind run order src body :=
  if_pos h

/-- Time, journal and orders alone differ. -/
def BooksOnly (s t : State) : Prop :=
  ∃ time j orders, t = { s with time := time, journal := j, keeper := { s.keeper with orders := orders } }

/-- Time, journal and orders alone differ, and an order that has not ended is there, but for its notice. -/
def Journaled (s t : State) : Prop :=
  BooksOnly s t ∧ ∀ n o, findOrder s n = some o → ended o = false → ∃ notice, findOrder t n = some { o with notice := notice }

section Journaled
variable {s₀ s t : State}

theorem journaled_refl (s : State) : Journaled s s := ⟨⟨_, _, _, rfl⟩, fun _ o h _ => ⟨o.notice, h⟩⟩

theorem setOrders_booksOnly {f : List Order → List Order} (h : BooksOnly s₀ s) :
    BooksOnly s₀ (setKeeper s (fun k => { k with orders := f k.orders })) := by
  obtain ⟨_, _, _, rfl⟩ := h
  exact ⟨_, _, _, rfl⟩

theorem stamp_journaled (h : Journaled s₀ s) : Journaled s₀ (stamp s).1 := by
  obtain ⟨⟨_, _, _, rfl⟩, live⟩ := h
  exact ⟨⟨_, _, _, rfl⟩, live⟩

theorem setJournal_journaled {f : Journal → Journal} (h : Journaled s₀ s) : Journaled s₀ (setJournal s f) := by
  obtain ⟨⟨_, _, _, rfl⟩, live⟩ := h
  exact ⟨⟨_, _, _, rfl⟩, live⟩

theorem Journaled.foldl {α : Type} {f : State → α → State} {l : List α} (h : Journaled s₀ s)
    (hf : ∀ t a, Journaled s₀ t → Journaled s₀ (f t a)) : Journaled s₀ (l.foldl f s) := by
  induction l generalizing s with
  | nil => exact h
  | cons a l ih => exact ih (hf s a h)

theorem setNotice_journaled {n : BitVec 64} {notice : Nat} (h : Journaled s₀ s) :
    Journaled s₀ (setOrder s n (fun o => { o with notice := notice })) := by
  obtain ⟨only, live⟩ := h
  refine ⟨setOrders_booksOnly only, fun m o ho running => ?_⟩
  obtain ⟨k, found⟩ := live m o ho running
  rw [findOrder_setOrder (f := fun o => { o with notice := notice }) (fun _ => rfl), found, Option.map_some]
  split
  · exact ⟨_, rfl⟩
  · exact ⟨_, rfl⟩

/-- Orders that have ended are forgotten. -/
theorem forgetOrders_journaled {p : Order → Bool} (hp : ∀ o, ended o = false → p o = true) (h : Journaled s₀ s) :
    Journaled s₀ (setKeeper s (fun k => { k with orders := k.orders.filter p })) := by
  obtain ⟨only, live⟩ := h
  refine ⟨setOrders_booksOnly only, fun m o ho running => ?_⟩
  obtain ⟨k, found⟩ := live m o ho running
  exact ⟨k, find?_filter_of_find? found (hp _ running)⟩

theorem deliverAcks_journaled (h : Journaled s₀ s) : Journaled s₀ (deliverAcks s) := by
  unfold deliverAcks
  dsimp only
  split
  · exact h
  · exact .foldl (setJournal_journaled (setJournal_journaled (stamp_journaled h))) fun _ _ h => setNotice_journaled h

theorem checkpoint_journaled (h : Journaled s₀ s) : Journaled s₀ (checkpoint s) := by
  unfold checkpoint
  refine forgetOrders_journaled (fun o running => by simp [running]) ?_
  exact setJournal_journaled (setJournal_journaled (stamp_journaled (deliverAcks_journaled h)))

theorem journalAt_journaled {t kind run : Nat} {order : BitVec 64} {src : BitVec 22} {body : Bytes} (h : Journaled s₀ s) :
    Journaled s₀ (journalAt s t kind run order src body) := by
  have appended : Journaled s₀ (appendRecord s t kind run order src body) := setJournal_journaled h
  unfold journalAt checkpointDue
  split
  · exact appended
  · exact checkpoint_journaled appended

theorem journal_journaled {kind run : Nat} {order : BitVec 64} {src : BitVec 22} {body : Bytes} (h : Journaled s₀ s) :
    Journaled s₀ (journal s kind run order src body) :=
  journalAt_journaled (stamp_journaled h)

end Journaled

end Sys2Proof.Machine
end

section
namespace Sys2Proof.Machine

/-! ## Byte strings laid in a memory -/

theorem memSetMany_cons (d : Byte) (w : Nat × Byte) (ws : List (Nat × Byte)) (m : List Host.Cell) :
    memSetMany d (w :: ws) m = memSetMany d ws (memSet d w.1 w.2 m) := rfl

theorem memGet_bytesAt {d : Byte} {bs : Bytes} {a i : Nat} {m : List Host.Cell} (wf : memWf d m = true) (h : i < bs.length) :
    memGet d (memSetMany d (bytesAt a bs) m) (a + i) = bs[i] := by
  induction bs generalizing a i m with
  | nil => cases h
  | cons b bs ih =>
    rw [bytesAt_cons, memSetMany_cons]
    have wf' := memSet_wf d a b m wf
    cases i with
    | zero =>
      have above : ∀ w ∈ bytesAt (a + 1) bs, w.1 ≠ a + 0 := fun w hw => by
        have := (bytesAt_lt bs (a + 1) w hw).1
        omega
      rw [memGet_memSetMany_other d _ _ _ wf' above, memGet_memSet d a _ b m wf]
      simp
    | succ i =>
      have next := ih (a := a + 1) (i := i) wf' (Nat.lt_of_succ_lt_succ h)
      rw [Nat.add_right_comm, Nat.add_assoc] at next
      exact next

theorem memGet_bytesAt_outside {d : Byte} {bs : Bytes} {a x : Nat} {m : List Host.Cell} (wf : memWf d m = true)
    (h : x < a ∨ a + bs.length ≤ x) : memGet d (memSetMany d (bytesAt a bs) m) x = memGet d m x := by
  refine memGet_memSetMany_other d _ _ _ wf fun w hw => ?_
  have := bytesAt_lt bs a w hw
  omega

/-! ## The generations in a START record (R242) -/

theorem field_flatMap_natLe {l : List (BitVec 32)} {n : Nat} (h : n < l.length) :
    field (l.flatMap (fun g => natLe 4 g.toNat)) (4 * n) 4 = l[n].toNat := by
  have cut : l = l.take n ++ l[n] :: l.drop (n + 1) := by rw [List.getElem_cons_drop, List.take_append_drop]
  have pre : ((l.take n).flatMap (fun g => natLe 4 g.toNat)).length = 4 * n := by
    simp [List.length_flatMap, Nat.min_eq_left (Nat.le_of_lt h), Nat.mul_comm]
  have read := field_append_natLe _ ((l.drop (n + 1)).flatMap (fun g => natLe 4 g.toNat)) 4 l[n].toNat pre
  have whole : l.flatMap (fun g => natLe 4 g.toNat) = (l.take n).flatMap (fun g => natLe 4 g.toNat)
      ++ (natLe 4 l[n].toNat ++ (l.drop (n + 1)).flatMap (fun g => natLe 4 g.toNat)) := by
    conv_lhs => rw [cut]
    rw [List.flatMap_append, List.flatMap_cons]
  rw [whole]
  exact read.trans (Nat.mod_eq_of_lt l[n].isLt)

theorem field_startGens (s : State) (r : Nat) (prog : List PInstr) {n : Nat} (h : n < 16) :
    field ((startGens s r prog).flatMap (fun g => natLe 4 g.toNat)) (4 * n) 4
      = if n ∈ programSlots prog then (genInForce s r n).toNat else 0 := by
  have len : n < (startGens s r prog).length := by simpa [startGens] using h
  rw [field_flatMap_natLe len]
  simp only [startGens, List.getElem_map, List.getElem_range, List.contains_eq_mem, decide_eq_true_eq]
  split <;> rfl

/-! ## The next order of a run (R331) -/

/-- The head of a sorted list is its least. -/
theorem head_mergeSort_le {α : Type} {f : α → Nat} {l : List α} {x : α}
    (h : (l.mergeSort (fun a b => decide (f a ≤ f b))).head? = some x) : x ∈ l ∧ ∀ y ∈ l, f x ≤ f y := by
  have sorted := List.pairwise_mergeSort (le := fun a b => decide (f a ≤ f b))
    (fun a b c => by simpa using Nat.le_trans) (fun a b => by simpa using Nat.le_total _ _) l
  have mem : ∀ y, y ∈ l ↔ y ∈ l.mergeSort (fun a b => decide (f a ≤ f b)) := fun y => List.mem_mergeSort.symm
  cases e : l.mergeSort (fun a b => decide (f a ≤ f b)) with
  | nil => simp [e] at h
  | cons y rest =>
    simp only [e, List.head?_cons, Option.some.injEq] at h sorted mem
    subst h
    refine ⟨(mem _).mpr List.mem_cons_self, fun z hz => ?_⟩
    rcases List.mem_cons.mp ((mem z).mp hz) with rfl | later
    · exact Nat.le_refl _
    · simpa using (List.pairwise_cons.mp sorted).1 z later

theorem nextOrder_least {s : State} {r : Nat} {o : Order} (h : nextOrder s r = some o) :
    o.state = .accepted ∧ ∀ x ∈ ordersOf s r, x.state = .accepted → x.acceptLost = false → o.acceptStamp ≤ x.acceptStamp := by
  obtain ⟨there, least⟩ := head_mergeSort_le h
  have waits := (List.mem_filter.mp there).2
  refine ⟨by simp_all, fun x hx accepted kept => least x (List.mem_filter.mpr ⟨hx, by simp [accepted, kept]⟩)⟩

/-! ## A run stops executing an order -/

/-- Frames, workers and run `r` alone differ. -/
def RunOnly (r : Nat) (s t : State) : Prop :=
  (∃ frames workers runs, t = { s with frames := frames, workers := workers, runs := runs }) ∧ ∀ q, q ≠ r → getRun t q = getRun s q

section RunOnly
variable {s₀ s : State} {r : Nat}

theorem runOnly_refl (s : State) : RunOnly r s s := ⟨⟨_, _, _, rfl⟩, fun _ _ => rfl⟩

theorem setFrame_runOnly {f : Nat} {g : Frame → Frame} (h : RunOnly r s₀ s) : RunOnly r s₀ (setFrame s f g) := by
  obtain ⟨⟨_, _, _, rfl⟩, others⟩ := h
  exact ⟨⟨_, _, _, rfl⟩, others⟩

theorem setWorker_runOnly {w : Nat} {g : Worker → Worker} (h : RunOnly r s₀ s) : RunOnly r s₀ (setWorker s w g) := by
  obtain ⟨⟨_, _, _, rfl⟩, others⟩ := h
  exact ⟨⟨_, _, _, rfl⟩, others⟩

theorem setRun_runOnly {g : Run → Run} (h : RunOnly r s₀ s) : RunOnly r s₀ (setRun s r g) := by
  obtain ⟨only, others⟩ := h
  refine ⟨?_, fun q hq => (getRun_setRun_ne s r q g hq.symm).trans (others q hq)⟩
  obtain ⟨_, _, _, rfl⟩ := only
  exact ⟨_, _, _, rfl⟩

theorem RunOnly.foldl {α : Type} {f : State → α → State} {l : List α} (h : RunOnly r s₀ s)
    (hf : ∀ t a, RunOnly r s₀ t → RunOnly r s₀ (f t a)) : RunOnly r s₀ (l.foldl f s) := by
  induction l generalizing s with
  | nil => exact h
  | cons a l ih => exact ih (hf s a h)

theorem clearRunOrder_runOnly (s : State) (r : Nat) : RunOnly r s (clearRunOrder s r) := by
  have dropped : RunOnly r s (dropUnits s r (fun _ => true)) := .foldl (runOnly_refl s) fun _ _ h => setFrame_runOnly h
  refine setRun_runOnly ?_
  unfold restoreGens
  dsimp only
  split
  · exact dropped
  · refine setRun_runOnly ?_
    split
    · exact dropped
    · exact .foldl (setRun_runOnly dropped) fun _ _ h => setWorker_runOnly h

end RunOnly

/-! ## The completion of an order (R332) -/

theorem completeOrder_eq (s : State) (r : Nat) : ∃ t body, completeOrder s r = clearRunOrder
    (setOrder (journalAt (stamp s).1 t 6 r (runOrder s r) (orderSource (runOrder s r)) body) (runOrder s r)
      (fun o => { o with state := .complete, endStamp := t })) r :=
  ⟨_, _, rfl⟩

theorem runOrder_eq {s : State} {r : Nat} {rn : Run} {n : BitVec 64} (hr : getRun s r = some rn) (hn : rn.order = some n) :
    runOrder s r = n := by
  unfold runOrder
  rw [hr]
  dsimp only
  rw [hn, Option.getD_some]

theorem BooksOnly.getRun {s t : State} (h : BooksOnly s t) (r : Nat) : getRun t r = getRun s r := by
  obtain ⟨_, _, _, rfl⟩ := h
  rfl

theorem getRun_completeOrder_ne (s : State) {r q : Nat} (h : q ≠ r) : getRun (completeOrder s r) q = getRun s q := by
  obtain ⟨t, body, e⟩ := completeOrder_eq s r
  rw [e, (clearRunOrder_runOnly _ r).2 q h]
  exact (journalAt_journaled (stamp_journaled (journaled_refl s))).1.getRun q

theorem findOrder_completeOrder {s : State} {r : Nat} {rn : Run} {n : BitVec 64} {o : Order} (hr : getRun s r = some rn)
    (hn : rn.order = some n) (ho : findOrder s n = some o) (running : ended o = false) :
    ∃ notice t, findOrder (completeOrder s r) n = some { o with notice := notice, state := .complete, endStamp := t } := by
  obtain ⟨t, body, e⟩ := completeOrder_eq s r
  rw [runOrder_eq hr hn] at e
  obtain ⟨notice, kept⟩ := (journalAt_journaled (t := t) (kind := 6) (run := r) (order := n) (src := orderSource n) (body := body)
    (stamp_journaled (journaled_refl s))).2 n o ho running
  have done := findOrder_setOrder_same (f := fun o => { o with state := .complete, endStamp := t }) (fun _ => rfl) kept
  obtain ⟨⟨_, _, _, cleared⟩, -⟩ := clearRunOrder_runOnly (setOrder (journalAt (stamp s).1 t 6 r n (orderSource n) body) n
    (fun o => { o with state := .complete, endStamp := t })) r
  rw [e, cleared]
  exact ⟨notice, t, done⟩

theorem records_completeOrder {s : State} {r : Nat} (few : s.journal.sinceCheckpoint + 1 < 4096) :
    ∃ x, (completeOrder s r).journal.records = s.journal.records ++ [x] := by
  obtain ⟨t, body, e⟩ := completeOrder_eq s r
  rw [journalAt_few (s := (stamp s).1) few] at e
  obtain ⟨⟨_, _, _, cleared⟩, -⟩ := clearRunOrder_runOnly (setOrder (appendRecord (stamp s).1 t 6 r (runOrder s r)
    (orderSource (runOrder s r)) body) (runOrder s r) (fun o => { o with state := .complete, endStamp := t })) r
  rw [e, cleared]
  exact ⟨_, rfl⟩

/-! ## The order begins (R331) -/

/-- The program of an order in the image of its run. -/
def startProgram (s : State) (rn : Run) (o : Order) : List PInstr := programOf (runImage s rn) rn.image o.entry

/-- The order runs from instruction 0, with nothing issued. -/
def begun (s : State) (prog : List PInstr) (gens : List (BitVec 32)) (o : Order) : Order :=
  { o with
    state := .running
    nextIssue := 0
    startGens := gens
    fenceGens := []
    levels := []
    invalid := []
    progress := (List.range prog.length).map (fun k =>
      { instr := k, live := [], durable := [], done := false, units := 0, recordedAt := s.wall }) }

/-- The START record is written. -/
def startRecorded (s : State) (r : Nat) (rn : Run) (o : Order) : State :=
  journal s 2 r o.number (orderSource o.number) ((startGens s r (startProgram s rn o)).flatMap (fun g => natLe 4 g.toNat))

/-- The order is under way, but that its parameters are not loaded. -/
def orderBegun (s : State) (r : Nat) (rn : Run) (o : Order) : State :=
  let t := startRecorded s r rn o
  (runFrames t r).foldl (fun s f => setFrame s f (fun f => { f with granted := [] }))
    (setOrder t o.number (begun t (startProgram s rn o) (startGens s r (startProgram s rn o))))

/-- What an order that starts finds (R105, R275, R331). -/
structure Starts (s : State) (r : Nat) (rn : Run) (o : Order) : Prop where
  run : getRun s r = some rn
  ready : rn.ready = true
  going : rn.paused = false
  idle : rn.order = none
  next : nextOrder s r = some o
  free : sourceHeld s (orderSource o.number) = false
  scrubbed : ∀ f ∈ runFrames s r, (getFrame s f).scrubBusy = false
  alone : ∀ x ∈ ordersOf s r, x.state ≠ .running ∧ x.state ≠ .partial_
  found : findOrder s o.number = some o

section Start
variable {s : State} {r : Nat} {rn : Run} {o : Order}

theorem startOrder_eq (h : Starts s r rn o) : startOrder s r = finishOrder (loadOrder (orderBegun s r rn o) r rn o) r := by
  have clean : (runFrames s r).any (fun f => (getFrame s f).scrubBusy) = false := by simpa using h.scrubbed
  have single : (ordersOf s r).any (fun x => x.state == .running || x.state == .partial_) = false := by simpa using h.alone
  unfold startOrder
  rw [h.run, h.next]
  simp only [h.ready, h.going, h.idle, h.free, clean, single]
  rfl

theorem startRecorded_journaled : Journaled s (startRecorded s r rn o) := journal_journaled (journaled_refl s)

theorem records_startRecorded (few : s.journal.sinceCheckpoint + 1 < 4096) : ∃ x, x.kind = 2 ∧ x.order = o.number ∧ x.lsn = s.journal.nextLsn
    ∧ x.body = (startGens s r (startProgram s rn o)).flatMap (fun g => natLe 4 g.toNat)
    ∧ (startRecorded s r rn o).journal.records = s.journal.records ++ [x]
    ∧ (startRecorded s r rn o).journal.sinceCheckpoint = s.journal.sinceCheckpoint + 1 := by
  have appended := journalAt_few (s := (stamp s).1) (t := (stamp s).2) (kind := 2) (run := r) (order := o.number)
    (src := orderSource o.number) (body := (startGens s r (startProgram s rn o)).flatMap (fun g => natLe 4 g.toNat)) few
  have e : startRecorded s r rn o = _ := appended
  rw [e]
  exact ⟨_, rfl, rfl, rfl, rfl, rfl, rfl⟩

theorem foldl_setFrame (l : List Nat) (g : Frame → Frame) (s : State) :
    ∃ frames, l.foldl (fun s f => setFrame s f g) s = { s with frames := frames } := by
  induction l generalizing s with
  | nil => exact ⟨_, rfl⟩
  | cons f l ih =>
    obtain ⟨_, e⟩ := ih (setFrame s f g)
    exact ⟨_, e⟩

/-- What a run holds once its order is loaded. -/
def loadedRun (rn : Run) (o : Order) : Run :=
  { rn with order := some o.number, orderSeeds := o.seeds, issued := [], trip := none, fault := none, checkWait := none }

/-- The order that is under way, as the Keeper holds it. -/
def startedOrder (s : State) (r : Nat) (rn : Run) (o : Order) : Order :=
  begun (startRecorded s r rn o) (startProgram s rn o) (startGens s r (startProgram s rn o)) o

/-- The order begun, and its parameters loaded. -/
def orderLoaded (s : State) (r : Nat) (rn : Run) (o : Order) : State := loadOrder (orderBegun s r rn o) r rn o

/-- The shape record and the parameter block of an order (R79). -/
def parameterBytes (o : Order) : Bytes := o.shapes.flatMap (fun v => natLe 4 v.toNat) ++ o.params

theorem orderLoaded_parts : ∃ time frames poison orders, orderLoaded s r rn o = setRun { s with
      time := time, journal := (startRecorded s r rn o).journal, frames := frames, poison := poison
      comb := memSetMany combDefault (bytesAt (paramBase rn.image) (parameterBytes o)) s.comb
      keeper := { s.keeper with orders := orders } } r (fun rn => loadedRun rn o) := by
  obtain ⟨⟨time, j, orders, e⟩, -⟩ := startRecorded_journaled (s := s) (r := r) (rn := rn) (o := o)
  obtain ⟨frames, b⟩ := foldl_setFrame (runFrames (startRecorded s r rn o) r) (fun f => { f with granted := [] })
    (setOrder (startRecorded s r rn o) o.number (begun (startRecorded s r rn o) (startProgram s rn o) (startGens s r (startProgram s rn o))))
  have begunAs : orderBegun s r rn o = _ := b
  rw [orderLoaded, begunAs]
  generalize startRecorded s r rn o = t at e ⊢
  subst e
  exact ⟨_, _, _, _, rfl⟩

theorem findOrder_orderLoaded (h : findOrder s o.number = some o) (live : ended o = false) :
    ∃ notice, findOrder (orderLoaded s r rn o) o.number = some { startedOrder s r rn o with notice := notice } := by
  obtain ⟨notice, kept⟩ := (startRecorded_journaled (s := s) (r := r) (rn := rn) (o := o)).2 _ _ h live
  obtain ⟨frames, b⟩ := foldl_setFrame (runFrames (startRecorded s r rn o) r) (fun f => { f with granted := [] })
    (setOrder (startRecorded s r rn o) o.number (begun (startRecorded s r rn o) (startProgram s rn o) (startGens s r (startProgram s rn o))))
  have begunAs : orderBegun s r rn o = _ := b
  have there := findOrder_setOrder_same
    (f := begun (startRecorded s r rn o) (startProgram s rn o) (startGens s r (startProgram s rn o))) (fun _ => rfl) kept
  rw [orderLoaded, begunAs]
  exact ⟨notice, there⟩

theorem getRun_orderLoaded (h : getRun s r = some rn) : getRun (orderLoaded s r rn o) r = some (loadedRun rn o) := by
  obtain ⟨_, _, _, _, e⟩ := orderLoaded_parts (s := s) (r := r) (rn := rn) (o := o)
  rw [e, getRun_setRun_same]
  exact congrArg (Option.map _) h

theorem getRun_orderLoaded_ne {q : Nat} (h : q ≠ r) : getRun (orderLoaded s r rn o) q = getRun s q := by
  obtain ⟨_, _, _, _, e⟩ := orderLoaded_parts (s := s) (r := r) (rn := rn) (o := o)
  rw [e, getRun_setRun_ne _ _ _ _ h.symm]
  rfl

theorem orderProgram_orderLoaded {notice : Nat} :
    orderProgram (orderLoaded s r rn o) (loadedRun rn o) { startedOrder s r rn o with notice := notice } = startProgram s rn o := by
  obtain ⟨_, _, _, _, e⟩ := orderLoaded_parts (s := s) (r := r) (rn := rn) (o := o)
  rw [e]
  rfl

/-- An order that starts completes at once when its program is empty (R332). -/
theorem finishOrder_orderLoaded (hr : getRun s r = some rn) (h : findOrder s o.number = some o) (live : ended o = false) :
    finishOrder (orderLoaded s r rn o) r
      = if startProgram s rn o = [] then completeOrder (orderLoaded s r rn o) r else orderLoaded s r rn o := by
  obtain ⟨notice, found⟩ := findOrder_orderLoaded (r := r) (rn := rn) h live
  have order : orderOf (orderLoaded s r rn o) (loadedRun rn o) = some { startedOrder s r rn o with notice := notice } := found
  unfold finishOrder
  rw [getRun_orderLoaded hr]
  dsimp only
  rw [order]
  dsimp only
  rw [orderProgram_orderLoaded]
  cases startProgram s rn o with
  | nil => simp [loadedRun, startedOrder, begun]
  | cons op rest => simp [loadedRun, startedOrder, begun]

/-- What stands in the comb once the order has started. -/
theorem comb_startOrder (h : Starts s r rn o) :
    (startOrder s r).comb = memSetMany combDefault (bytesAt (paramBase rn.image) (parameterBytes o)) s.comb := by
  obtain ⟨_, _, _, _, e⟩ := orderLoaded_parts (s := s) (r := r) (rn := rn) (o := o)
  have books : Books (orderLoaded s r rn o) (finishOrder (orderLoaded s r rn o) r) := finishOrder_books (books_refl _)
  rw [startOrder_eq h]
  exact books.comb.trans (by rw [e]; rfl)

theorem stackMem_startOrder (h : Starts s r rn o) : (startOrder s r).stackMem = s.stackMem := by
  obtain ⟨_, _, _, _, e⟩ := orderLoaded_parts (s := s) (r := r) (rn := rn) (o := o)
  have books : Books (orderLoaded s r rn o) (finishOrder (orderLoaded s r rn o) r) := finishOrder_books (books_refl _)
  rw [startOrder_eq h]
  exact books.stackMem.trans (by rw [e]; rfl)

theorem Starts.live (h : Starts s r rn o) : ended o = false := by
  simp [ended, (nextOrder_least h.next).1]

theorem startOrder_cases (h : Starts s r rn o) : startOrder s r
    = if startProgram s rn o = [] then completeOrder (orderLoaded s r rn o) r else orderLoaded s r rn o := by
  rw [← finishOrder_orderLoaded h.run h.found h.live]
  exact startOrder_eq h

theorem findOrder_startOrder (h : Starts s r rn o) : ∃ o', findOrder (startOrder s r) o.number = some o' ∧ o'.nextIssue = 0
    ∧ o'.fenceGens = [] ∧ o'.levels = [] ∧ o'.state = (if startProgram s rn o = [] then .complete else .running) := by
  obtain ⟨notice, found⟩ := findOrder_orderLoaded (r := r) (rn := rn) h.found h.live
  rw [startOrder_cases h]
  split
  · obtain ⟨notice', t, complete⟩ := findOrder_completeOrder (getRun_orderLoaded (o := o) h.run) rfl found rfl
    exact ⟨_, complete, rfl, rfl, rfl, rfl⟩
  · exact ⟨_, found, rfl, rfl, rfl, rfl⟩

theorem getRun_startOrder_ne (h : Starts s r rn o) {q : Nat} (hq : q ≠ r) : getRun (startOrder s r) q = getRun s q := by
  rw [startOrder_cases h]
  split
  · rw [getRun_completeOrder_ne _ hq, getRun_orderLoaded_ne hq]
  · exact getRun_orderLoaded_ne hq

theorem records_startOrder (h : Starts s r rn o) (few : s.journal.sinceCheckpoint < 4094) : ∃ x rest, x.kind = 2 ∧ x.order = o.number
    ∧ x.lsn = s.journal.nextLsn ∧ x.body = (startGens s r (startProgram s rn o)).flatMap (fun g => natLe 4 g.toNat)
    ∧ (startOrder s r).journal.records = s.journal.records ++ x :: rest := by
  obtain ⟨x, kind, order, lsn, body, records, since⟩ := records_startRecorded (s := s) (r := r) (rn := rn) (o := o) (by omega)
  have journal : (orderLoaded s r rn o).journal = (startRecorded s r rn o).journal := by
    obtain ⟨_, _, _, _, e⟩ := orderLoaded_parts (s := s) (r := r) (rn := rn) (o := o)
    rw [e]
    rfl
  rw [startOrder_cases h]
  split
  · obtain ⟨y, more⟩ := records_completeOrder (s := orderLoaded s r rn o) (r := r) (by rw [journal, since]; omega)
    refine ⟨x, [y], kind, order, lsn, body, ?_⟩
    rw [more, journal, records, List.append_assoc]
    rfl
  · refine ⟨x, [], kind, order, lsn, body, ?_⟩
    rw [journal, records]

/-- Without a reason to start an order nothing happens. -/
theorem startOrder_idle (h : ∀ rn, getRun s r = some rn → rn.ready = false ∨ rn.paused = true ∨ rn.order.isSome = true ∨ nextOrder s r = none
    ∨ (∃ o, nextOrder s r = some o ∧ sourceHeld s (orderSource o.number) = true)
    ∨ (∃ f ∈ runFrames s r, (getFrame s f).scrubBusy = true)
    ∨ (∃ x ∈ ordersOf s r, x.state = .running ∨ x.state = .partial_)) : startOrder s r = s := by
  unfold startOrder
  split
  · next rn o hr ho =>
    refine if_pos ?_
    obtain unready | paused | busy | without | ⟨o', next, held⟩ | ⟨f, hf, scrub⟩ | ⟨x, hx, other⟩ := h rn hr
    · simp [unready]
    · simp [paused]
    · simp [busy]
    · simp [without] at ho
    · have own : o' = o := Option.some.inj (next.symm.trans ho)
      simp [own ▸ held]
    · have due : (runFrames s r).any (fun f => (getFrame s f).scrubBusy) = true := List.any_eq_true.mpr ⟨f, hf, scrub⟩
      simp [due]
    · have under : (ordersOf s r).any (fun x => x.state == .running || x.state == .partial_) = true :=
        List.any_eq_true.mpr ⟨x, hx, by simpa using other⟩
      simp [under]
  · rfl

end Start

/-- Settles O50: the order is begun, its parameters are loaded, and it completes at once when there is nothing to issue. -/
theorem orderStart : Obligations.OrderStart := by
  unfold Obligations.OrderStart
  intro s r sound clock
  have clocked : exec (.workOrderStart r) s = .next (startOrder s r) := clocked_of_clocked clock
  refine ⟨fun idle => ?_, fun rn o run ready going idle next free scrubbed alone found => ?_⟩
  · rw [clocked, startOrder_idle idle]
  · have starts : Starts s r rn o := ⟨run, ready, going, idle, next, free, scrubbed, alone, found⟩
    obtain ⟨accepted, least⟩ := nextOrder_least next
    refine ⟨accepted, least, startOrder s r, clocked, findOrder_startOrder starts, fun some_program => ?_, fun few => ?_, fun i hi => ?_,
      fun a outside => ?_, fun q hq => getRun_startOrder_ne starts hq, stackMem_startOrder starts⟩
    · rw [startOrder_cases starts, if_neg (c := startProgram s rn o = []) some_program]
      obtain ⟨_, _, _, _, e⟩ := orderLoaded_parts (s := s) (r := r) (rn := rn) (o := o)
      exact ⟨by rw [e]; rfl, _, getRun_orderLoaded run, rfl, rfl, rfl, rfl, rfl, rfl, rfl⟩
    · obtain ⟨x, rest, kind, order, lsn, body, records⟩ := records_startOrder starts few
      refine ⟨x, by rw [records]; simp, kind, order, lsn, fun n hn => ?_⟩
      rw [body]
      exact field_startGens s r _ hn
    · rw [readComb, comb_startOrder starts]
      exact memGet_bytesAt sound.1.1 hi
    · rw [readComb, comb_startOrder starts]
      exact memGet_bytesAt_outside sound.1.1 outside

end Sys2Proof.Machine
end

section
namespace Sys2Proof.Machine

/-! ## The commit of a unit (R458) -/

/-- The orders are the same, and the runs execute the same with the same issued. -/
def SameDuties (s t : State) : Prop :=
  t.keeper.orders = s.keeper.orders ∧ ∀ r, (getRun t r).map (fun rn => (rn.order, rn.issued)) = (getRun s r).map (fun rn => (rn.order, rn.issued))

theorem sameDuties_refl (s : State) : SameDuties s s := ⟨rfl, fun _ => rfl⟩

theorem SameDuties.trans {s t u : State} (h : SameDuties s t) (h' : SameDuties t u) : SameDuties s u :=
  ⟨h'.1.trans h.1, fun r => (h'.2 r).trans (h.2 r)⟩

theorem sameDuties_of_eq {s t : State} (ho : t.keeper.orders = s.keeper.orders) (hr : t.runs = s.runs) : SameDuties s t :=
  ⟨ho, fun r => by rw [getRun, hr, getRun]⟩

/-- A change of a run that leaves its order and what it has issued alone. -/
theorem setRun_sameDuties {s : State} {r : Nat} {f : Run → Run} (hf : ∀ rn, (f rn).order = rn.order ∧ (f rn).issued = rn.issued) :
    SameDuties s (setRun s r f) := by
  refine ⟨rfl, fun q => ?_⟩
  by_cases e : r = q
  · subst e
    rw [getRun_setRun_same, Option.map_map]
    congr 1
    funext rn
    simp [hf rn]
  · rw [getRun_setRun_ne _ _ _ _ e]

theorem setRing_sameDuties {s : State} {r g : Nat} {f : Ring → Ring} : SameDuties s (setRing s r g f) := setRun_sameDuties fun _ => ⟨rfl, rfl⟩

theorem SameDuties.run {s t : State} (h : SameDuties s t) {r : Nat} {rn : Run} (ht : getRun t r = some rn) :
    ∃ rn', getRun s r = some rn' ∧ rn'.order = rn.order ∧ rn'.issued = rn.issued := by
  have same := h.2 r
  rw [ht] at same
  cases hs : getRun s r with
  | none => simp [hs] at same
  | some rn' =>
    simp only [hs, Option.map_some, Option.some.injEq, Prod.mk.injEq] at same
    exact ⟨rn', rfl, same.1.symm, same.2.symm⟩

theorem SameDuties.symm {s t : State} (h : SameDuties s t) : SameDuties t s := ⟨h.1.symm, fun r => (h.2 r).symm⟩

theorem SameDuties.findOrder {s t : State} (h : SameDuties s t) (n : BitVec 64) : findOrder t n = findOrder s n := by
  unfold Machine.findOrder
  rw [h.1]

/-- A unit that an order has still to commit. -/
def Due (s : State) (r : Nat) (n : BitVec 64) (x : UnitRef) : Prop :=
  ∃ rn i, getRun s r = some rn ∧ rn.order = some n ∧ findIssued rn x.instr = some i ∧ (findOrder s n).isSome = true ∧ x.unit ∉ i.committed
    ∧ s.journal.sinceCheckpoint + 2 < 4096

theorem due_of_owes {s : State} {r : Nat} {rn : Run} {i : Issued} {n : BitVec 64} {x : UnitRef} (h : Owes s r rn i n x) : Due s r n x := by
  obtain ⟨hr, hi, hn, ho, fresh, few⟩ := h
  exact ⟨rn, i, hr, hn, hi, ho, fresh, few⟩

theorem Due.mono {s t : State} {r : Nat} {n : BitVec 64} {x : UnitRef} (h : Due s r n x) (same : SameDuties s t) (hj : t.journal = s.journal) :
    Due t r n x := by
  obtain ⟨rn, i, hr, hn, hi, ho, fresh, few⟩ := h
  obtain ⟨rn', hr', order, issued⟩ := same.symm.run hr
  refine ⟨rn', i, hr', order.trans hn, ?_, same.findOrder n ▸ ho, fresh, hj ▸ few⟩
  rw [findIssued, issued]
  exact hi

section UnitCommitted
variable {s t : State} {r : Nat} {n : BitVec 64} {x : UnitRef}

theorem UnitCommitted.mono (h : UnitCommitted s r n x) (same : SameDuties s t) : UnitCommitted t r n x := by
  obtain ⟨⟨o, ho, live⟩, committed⟩ := h
  refine ⟨⟨o, (same.findOrder n).trans ho, live⟩, fun rn hr hn => ?_⟩
  obtain ⟨rn', hr', order, issued⟩ := same.run hr
  rw [← issued]
  exact committed rn' hr' (order.trans hn)

/-- A change of an order that keeps what its progress says is live. -/
theorem setOrder_unitCommitted {m : BitVec 64} {f : Order → Order} (hf : ∀ o, (f o).number = o.number)
    (live : ∀ o, ∀ g ∈ (f o).progress, ∃ g' ∈ o.progress, g'.instr = g.instr ∧ g'.live ⊆ g.live) (h : UnitCommitted s r n x) :
    UnitCommitted (setOrder s m f) r n x := by
  obtain ⟨⟨o, ho, there⟩, committed⟩ := h
  refine ⟨?_, committed⟩
  rw [findOrder_setOrder hf, ho, Option.map_some]
  refine ⟨_, rfl, fun g hg hi => ?_⟩
  split at hg
  · obtain ⟨g', hg', same, sub⟩ := live o g hg
    exact sub (there g' hg' (same.trans hi))
  · exact there g hg hi

/-- A change of what is issued that takes no commit back. -/
theorem setIssued_unitCommitted {q k : Nat} {f : Issued → Issued} (hf : ∀ i, (f i).instr = i.instr ∧ i.committed ⊆ (f i).committed)
    (h : UnitCommitted s r n x) : UnitCommitted (setIssued s q k f) r n x := by
  obtain ⟨order, committed⟩ := h
  refine ⟨order, fun rn hr hn i hi hk => ?_⟩
  by_cases e : q = r
  · subst e
    rw [setIssued, getRun_setRun_same] at hr
    obtain ⟨old, ho, rfl⟩ := Option.map_eq_some_iff.mp hr
    obtain ⟨j, hj, rfl⟩ := List.mem_map.mp hi
    have was := committed old ho hn j hj
    by_cases c : (j.instr == k) = true
    · rw [if_pos c] at hk ⊢
      exact (hf j).2 (was ((hf j).1 ▸ hk))
    · rw [if_neg c] at hk ⊢
      exact was hk
  · rw [setIssued, getRun_setRun_ne _ _ _ _ e] at hr
    exact committed rn hr hn i hi hk

/-- A run that executes no order has nothing more to hold as committed. -/
theorem clearRunOrder_unitCommitted (h : UnitCommitted s r n x) : UnitCommitted (clearRunOrder s r) r n x := by
  obtain ⟨⟨_, _, _, e⟩, -⟩ := clearRunOrder_runOnly s r
  refine ⟨?_, fun rn hr hn => ?_⟩
  · rw [e]
    exact h.1
  · rw [clearRunOrder, getRun_setRun_same] at hr
    obtain ⟨old, -, rfl⟩ := Option.map_eq_some_iff.mp hr
    cases hn

theorem completeOrder_unitCommitted (few : s.journal.sinceCheckpoint + 1 < 4096) (h : UnitCommitted s r n x) :
    UnitCommitted (completeOrder s r) r n x := by
  obtain ⟨t, body, e⟩ := completeOrder_eq s r
  rw [e, journalAt_few (s := (stamp s).1) few]
  refine clearRunOrder_unitCommitted (setOrder_unitCommitted (fun _ => rfl) (fun o g hg => ⟨g, hg, rfl, fun _ => id⟩) ?_)
  exact h.mono (sameDuties_of_eq rfl rfl)

theorem finishOrder_unitCommitted (few : s.journal.sinceCheckpoint + 1 < 4096) (h : UnitCommitted s r n x) :
    UnitCommitted (finishOrder s r) r n x := by
  unfold finishOrder
  split
  · exact h
  · split
    · exact h
    · split
      · exact completeOrder_unitCommitted few h
      · exact h

theorem setProgress_unitCommitted {q k : Nat} {f : Progress → Progress} (hf : ∀ p, (f p).instr = p.instr ∧ p.live ⊆ (f p).live)
    (h : UnitCommitted s r n x) : UnitCommitted (setProgress s q k f) r n x := by
  unfold setProgress
  split
  · split
    · refine setOrder_unitCommitted (fun _ => rfl) (fun o g hg => ?_) h
      obtain ⟨p, hp, rfl⟩ := List.mem_map.mp hg
      refine ⟨p, hp, ?_⟩
      split
      · exact ⟨(hf p).1.symm, (hf p).2⟩
      · exact ⟨rfl, fun _ => id⟩
    · exact h
  · exact h

/-- The log records of an instruction's commit leave orders, runs' duties and journal alone. -/
theorem healthCounters_sameDuties {q k tag : Nat} : SameDuties s (healthCounters s q k tag) ∧ (healthCounters s q k tag).journal = s.journal := by
  have logged {kind : Nat} {src : BitVec 22} {body : Bytes} : Reported s (logRecord s kind src body) :=
    pushLog_reported (stamp_reported (reported_refl s))
  unfold healthCounters
  dsimp only
  split
  · exact ⟨sameDuties_refl s, rfl⟩
  · split
    · exact ⟨sameDuties_refl s, rfl⟩
    · refine ⟨(sameDuties_of_eq (logged.field (fun t => t.keeper.orders) fun _ _ _ _ _ => rfl)
        (logged.field State.runs fun _ _ _ _ _ => rfl)).trans (setRun_sameDuties fun _ => ⟨rfl, rfl⟩), ?_⟩
      exact logged.field State.journal fun _ _ _ _ _ => rfl

theorem progressRecord_few {q k first count : Nat} {bits : List Nat} (few : s.journal.sinceCheckpoint + 1 < 4096) :
    SameDuties s (progressRecord s q k first count bits)
      ∧ (progressRecord s q k first count bits).journal.sinceCheckpoint = s.journal.sinceCheckpoint + 1 := by
  have e : progressRecord s q k first count bits = _ := journalAt_few (s := (stamp s).1) few
  rw [e]
  exact ⟨sameDuties_of_eq rfl rfl, rfl⟩

theorem setProgress_journal {q k : Nat} {f : Progress → Progress} : (setProgress s q k f).journal = s.journal := by
  unfold setProgress
  split
  · split <;> rfl
  · rfl

theorem commitInstr_unitCommitted {k : Nat} (few : s.journal.sinceCheckpoint + 2 < 4096) (h : UnitCommitted s r n x) :
    UnitCommitted (commitInstr s r k) r n x := by
  have marked : UnitCommitted (setProgress s r k (fun p => { p with done := true })) r n x :=
    setProgress_unitCommitted (fun _ => ⟨rfl, fun _ => id⟩) h
  have since : (setProgress s r k (fun p => { p with done := true })).journal.sinceCheckpoint + 2 < 4096 := by
    rw [setProgress_journal]
    exact few
  obtain ⟨recorded, more⟩ := progressRecord_few (q := r) (k := k) (first := 0) (count := 0) (bits := [])
    (Nat.lt_of_succ_lt since)
  have finished (tag : Nat) : UnitCommitted (finishOrder (healthCounters
      (progressRecord (setProgress s r k (fun p => { p with done := true })) r k 0 0 []) r k tag) r) r n x := by
    obtain ⟨counted, journal⟩ := healthCounters_sameDuties
      (s := progressRecord (setProgress s r k (fun p => { p with done := true })) r k 0 0 []) (q := r) (k := k) (tag := tag)
    refine finishOrder_unitCommitted ?_ ((marked.mono recorded).mono counted)
    rw [journal, more]
    exact since
  exact finished _

/-- A unit stands among those committed, in the run and in the progress of its order. -/
def unitCounted (s : State) (r : Nat) (x : UnitRef) : State :=
  setProgress (setIssued s r x.instr (fun i => { i with committed := i.committed ++ [x.unit] })) r x.instr
    (fun p => { p with live := p.live ++ [x.unit] })

theorem unitCounted_journal : (unitCounted s r x).journal = s.journal := setProgress_journal

theorem unitCounted_unitCommitted {rn : Run} {o : Order} (hr : getRun s r = some rn) (hn : rn.order = some n) (ho : findOrder s n = some o) :
    UnitCommitted (unitCounted s r x) r n x := by
  have issued : getRun (setIssued s r x.instr (fun i => { i with committed := i.committed ++ [x.unit] })) r
      = some { rn with issued := rn.issued.map (fun i => if i.instr == x.instr then { i with committed := i.committed ++ [x.unit] } else i) } := by
    rw [setIssued, getRun_setRun_same, hr]
    rfl
  have progressed : unitCounted s r x = setOrder (setIssued s r x.instr (fun i => { i with committed := i.committed ++ [x.unit] })) n
      (fun o => { o with progress := o.progress.map (fun p => if p.instr == x.instr then { p with live := p.live ++ [x.unit] } else p) }) := by
    unfold unitCounted setProgress
    rw [issued]
    dsimp only
    rw [hn]
  rw [progressed]
  refine ⟨⟨_, findOrder_setOrder_same (fun _ => rfl) ho, fun g hg hk => ?_⟩, fun rn' hr' _ j hj hk => ?_⟩
  · obtain ⟨p, -, rfl⟩ := List.mem_map.mp hg
    split at hk
    · next c => rw [if_pos c]; simp
    · next c => exact absurd (beq_iff_eq.mpr hk) c
  · obtain rfl := Option.some.inj (issued.symm.trans hr')
    obtain ⟨p, -, rfl⟩ := List.mem_map.mp hj
    split at hk
    · next c => rw [if_pos c]; simp
    · next c => exact absurd (beq_iff_eq.mpr hk) c

/-- The close unit of a watched instruction enters a tally (R261), which no commit is taken back by. -/
theorem close_unitCommitted {f k : Nat} {g : Frame → Frame} (h : UnitCommitted s r n x) :
    UnitCommitted (setFrame (setIssued s r k (fun i => { i with closing := true })) f g) r n x :=
  (setIssued_unitCommitted (f := fun i => { i with closing := true }) (fun _ => ⟨rfl, fun _ => id⟩) h).mono (sameDuties_of_eq rfl rfl)

/-- A unit that its order has still to commit is committed. -/
theorem commitUnit_unitCommitted (h : Due s r n x) : UnitCommitted (commitUnit s r x.instr x.unit) r n x := by
  obtain ⟨rn, i, hr, hn, hi, ho, fresh, few⟩ := h
  obtain ⟨o, ho⟩ := Option.isSome_iff_exists.mp ho
  have counted := unitCounted_unitCommitted (x := x) hr hn ho
  have since : (unitCounted s r x).journal.sinceCheckpoint + 2 < 4096 := by
    rw [unitCounted_journal]
    exact few
  unfold commitUnit
  rw [hr]
  dsimp only
  rw [hi]
  dsimp only
  rw [if_neg (by simpa using fresh)]
  split
  · exact close_unitCommitted counted
  · split
    · exact commitInstr_unitCommitted since counted
    · exact counted

end UnitCommitted

/-! ## What quiet links leave to do (R394, R403) -/

/-- No waiting frame is the last of a CSEND's unit. -/
def NoLast (s : State) : Prop := ∀ n, ∀ q ∈ (getLink s n).txQueue, q.last = none

theorem noLast_of_quietLinks {s : State} (w : Whole s) (h : QuietLinks s) : NoLast s := by
  obtain ⟨_, _, _, _, _, _, _, _, count, _⟩ := w
  intro n q hq
  by_cases hn : n < 24
  · simp [h n hn] at hq
  · have beyond : getLink s n = default := by simp [getLink, nth, count, Nat.not_lt.mp hn]
    rw [beyond] at hq
    cases hq

/-- While no unit of CSEND waits to be sent, nothing commits, and no order or run has other duties. -/
def Undisturbed (s t : State) : Prop := NoLast s → NoLast t ∧ SameDuties s t ∧ t.journal = s.journal

section Undisturbed
variable {s₀ s t : State}

theorem undisturbed_refl (s : State) : Undisturbed s s := fun h => ⟨h, sameDuties_refl s, rfl⟩

theorem Undisturbed.step (h : Undisturbed s₀ s) (ht : Undisturbed s t) : Undisturbed s₀ t := fun quiet => by
  obtain ⟨quiet', same, journal⟩ := h quiet
  obtain ⟨quiet'', same', journal'⟩ := ht quiet'
  exact ⟨quiet'', same.trans same', journal'.trans journal⟩

theorem Undisturbed.ite {c : Prop} [Decidable c] (hs : Undisturbed s₀ s) (ht : Undisturbed s₀ t) : Undisturbed s₀ (if c then s else t) := by
  split
  · exact hs
  · exact ht

theorem Undisturbed.foldl {α : Type} {f : State → α → State} {l : List α} (h : Undisturbed s₀ s)
    (hf : ∀ t a, Undisturbed s₀ t → Undisturbed s₀ (f t a)) : Undisturbed s₀ (l.foldl f s) := by
  induction l generalizing s with
  | nil => exact h
  | cons a l ih => exact ih (hf s a h)

/-- The parts that decide what is left to do. -/
def dutyParts (s : State) : List Order × Journal × List (Option Run) × List Link := (s.keeper.orders, s.journal, s.runs, s.links)

/-- A change of other parts. -/
theorem Undisturbed.parts (h : Undisturbed s₀ s) (e : dutyParts t = dutyParts s) : Undisturbed s₀ t := by
  simp only [dutyParts, Prod.mk.injEq] at e
  obtain ⟨orders, journal, runs, links⟩ := e
  refine h.step fun quiet => ⟨?_, sameDuties_of_eq orders runs, journal⟩
  intro n
  rw [getLink, links]
  exact quiet n

theorem setRing_undisturbed {r g : Nat} {f : Ring → Ring} (h : Undisturbed s₀ s) : Undisturbed s₀ (setRing s r g f) :=
  h.step fun quiet => ⟨quiet, setRing_sameDuties, rfl⟩

/-- A change of a port after which no frame waits that is the last of a CSEND's unit. -/
theorem setLink_undisturbed {n : Nat} {f : Link → Link} (h : Undisturbed s₀ s)
    (hf : ∀ l, (∀ q ∈ l.txQueue, q.last = none) → ∀ q ∈ (f l).txQueue, q.last = none) : Undisturbed s₀ (setLink s n f) := by
  refine h.step fun quiet => ⟨fun m => ?_, sameDuties_refl s, rfl⟩
  unfold getLink setLink
  rw [nth_updAt]
  split
  · exact hf _ (quiet m)
  · exact quiet m

theorem tspCredits_undisturbed {p ring : Nat} {seqs : List Nat} (h : Undisturbed s₀ s) : Undisturbed s₀ (tspCredits s p ring seqs) :=
  .foldl h fun _ _ h => .ite h (h.parts rfl)

theorem uncapSlot_undisturbed {r g q : Nat} (h : Undisturbed s₀ s) : Undisturbed s₀ (uncapSlot s r g q) := by
  unfold uncapSlot
  refine .ite ?_ (setRing_undisturbed h)
  dsimp only
  split
  · split
    · exact tspCredits_undisturbed (setRing_undisturbed (setRing_undisturbed h))
    · exact setRing_undisturbed h
  · exact setRing_undisturbed h

theorem fillSlot_undisturbed {r g q : Nat} {crc : Option (BitVec 32)} (h : Undisturbed s₀ s) : Undisturbed s₀ (fillSlot s r g q crc) :=
  .ite (uncapSlot_undisturbed (setRing_undisturbed (setRing_undisturbed h))) (setRing_undisturbed h)

theorem transmit_undisturbed {n : Nat} {q : TxReq} (h : Undisturbed s₀ s) : Undisturbed s₀ (transmit s n q) := by
  refine setLink_undisturbed h fun l quiet => ?_
  dsimp only
  split
  · exact quiet
  · exact quiet

theorem answerForward_undisturbed {p : Option Pending} {code : BitVec 16} (h : Undisturbed s₀ s) : Undisturbed s₀ (answerForward s p code) := by
  unfold answerForward
  split
  · exact h.parts rfl
  · exact h

theorem NoLast.nth (h : NoLast s) (n i : Nat) : (nth (getLink s n).txQueue i).last = none := by
  unfold Machine.nth
  cases e : (getLink s n).txQueue[i]? with
  | none => rfl
  | some q => exact h n q (List.mem_of_getElem? e)

theorem pumpN_undisturbed {n fuel : Nat} (h : Undisturbed s₀ s) : Undisturbed s₀ (pumpN n fuel s) := by
  refine h.step ?_
  clear h
  induction fuel generalizing s with
  | zero => exact undisturbed_refl s
  | succ fuel ih =>
    unfold pumpN
    dsimp only
    split
    · exact undisturbed_refl s
    · intro quiet
      rw [quiet.nth]
      refine Undisturbed.step (answerForward_undisturbed (transmit_undisturbed (setLink_undisturbed (undisturbed_refl s) ?_))) ih quiet
      intro l old q hq
      rcases List.mem_append.mp hq with left | right
      · exact old q (List.mem_of_mem_take left)
      · exact old q (List.mem_of_mem_drop right)

theorem sendFrame_undisturbed {n type : Nat} {land payload : Bytes} (h : Undisturbed s₀ s) : Undisturbed s₀ (sendFrame s n type land payload) := by
  refine pumpN_undisturbed (setLink_undisturbed h fun l quiet q hq => ?_)
  rcases List.mem_append.mp hq with old | new
  · exact quiet q old
  · rw [List.mem_singleton.mp new]

theorem grantLanding_undisturbed {r g : Nat} (h : Undisturbed s₀ s) : Undisturbed s₀ (grantLanding s r g) := by
  unfold grantLanding
  refine .ite h ?_
  dsimp only
  split
  · exact h
  · exact .foldl (setRing_undisturbed h) fun _ _ h => sendFrame_undisturbed h

theorem releaseSlot_undisturbed {r g q : Nat} (h : Undisturbed s₀ s) : Undisturbed s₀ (releaseSlot s r g q) :=
  grantLanding_undisturbed (uncapSlot_undisturbed h)

theorem passSlots_undisturbed {r : Nat} {reads writes : List (Nat × Nat)} (h : Undisturbed s₀ s) : Undisturbed s₀ (passSlots s r reads writes) :=
  .foldl (.foldl h fun _ _ h => releaseSlot_undisturbed h) fun _ _ h => grantLanding_undisturbed (fillSlot_undisturbed h)

theorem setRun_undisturbed {r : Nat} {f : Run → Run} (h : Undisturbed s₀ s) (hf : ∀ rn, (f rn).order = rn.order ∧ (f rn).issued = rn.issued) :
    Undisturbed s₀ (setRun s r f) :=
  h.step fun quiet => ⟨quiet, setRun_sameDuties hf, rfl⟩

theorem sampleTile_undisturbed {before : State} {rn : Run} {i : Issued} {w : Nat} {c : TileCtx} (h : Undisturbed s₀ s) :
    Undisturbed s₀ (sampleTile s before rn i w c) := by
  unfold sampleTile
  refine .ite h ?_
  split
  · exact h
  · exact .ite h (.ite (h.parts rfl) (h.parts rfl))

theorem tripLayer_undisturbed {r T : Nat} {i : Issued} {cause : BitVec 16} (h : Undisturbed s₀ s) :
    Undisturbed s₀ (tripLayer s r i T cause) := by
  unfold tripLayer
  split
  · exact h
  · split
    · split
      · exact h
      · refine .foldl (.foldl (setRun_undisturbed (s := (stamp s).1) (h.parts rfl) fun _ => ⟨rfl, rfl⟩) fun _ _ h => h.parts rfl)
          fun _ _ h => h.parts rfl
    · exact h

/-- What is due stays due. -/
theorem Undisturbed.due {r : Nat} {n : BitVec 64} {x : UnitRef} (h : Undisturbed s t) (quiet : NoLast s) (due : Due s r n x) : Due t r n x := by
  obtain ⟨-, same, journal⟩ := h quiet
  exact due.mono same journal

end Undisturbed

end Sys2Proof.Machine
end

section
namespace Sys2Proof.Machine

/-! ## Units in a forager (R368) -/

section Moves
variable {s t : State} {g : Nat} {m : Move}

/-- A unit is gone, and stays gone while units only leave. -/
theorem MoveGone.mono (h : MoveGone s g m) (sub : (getForager t g).moves ⊆ (getForager s g).moves) : MoveGone t g m :=
  fun y hy => h y (sub hy)

theorem moves_setForager (s : State) (g : Nat) {f : List Move → List Move} (hf : f [] = []) :
    (getForager (setForager s g (fun x => { x with moves := f x.moves })) g).moves = f (getForager s g).moves := by
  unfold getForager setForager
  rw [nth_updAt]
  split
  · rfl
  · next beyond =>
    have none_there : nth s.foragers g = default := by
      simp only [true_and, not_lt] at beyond
      simp [nth, beyond]
    rw [none_there]
    exact hf.symm

theorem moves_dropMove (s : State) (g : Nat) (m : Move) :
    (getForager (dropMove s g m) g).moves = (getForager s g).moves.filter (fun y => !(y.run == m.run && y.ref == m.ref)) :=
  moves_setForager s g rfl

theorem moves_setMove (s : State) (g : Nat) (m : Move) (f : Move → Move) : (getForager (setMove s g m f) g).moves
    = (getForager s g).moves.map (fun y => if y.run == m.run && y.ref == m.ref then f y else y) :=
  moves_setForager s g rfl

theorem dropMove_moveGone (s : State) (g : Nat) (m : Move) : MoveGone (dropMove s g m) g m := by
  intro y hy same ref
  rw [moves_dropMove] at hy
  have kept := (List.mem_filter.mp hy).2
  simp [same, ref] at kept

/-- What every entry of a unit is after a change of it. -/
theorem setMove_all {f : Move → Move} {P : Move → Prop} (hP : ∀ y, P (f y)) :
    ∀ y ∈ (getForager (setMove s g m f) g).moves, y.run = m.run → y.ref = m.ref → P y := by
  intro y hy same ref
  rw [moves_setMove] at hy
  obtain ⟨x, -, rfl⟩ := List.mem_map.mp hy
  split at same
  · next c => rw [if_pos c]; exact hP x
  · next c =>
    rw [if_neg c] at ref
    simp [same, ref] at c

theorem dropMove_books : Books s (dropMove s g m) := leaveForager_books (books_refl s)

theorem commitMove_books : Books s (commitMove s g m) := commitUnit_books (consumeSeqs_books dropMove_books)

theorem commitMove_moveGone : MoveGone (commitMove s g m) g m := by
  have books : Books (dropMove s g m) (commitMove s g m) := commitUnit_books (consumeSeqs_books (books_refl _))
  exact (dropMove_moveGone s g m).mono (books.moves g)

theorem consumeSeqs_sameDuties (s : State) (r : Nat) (seqs : List (Nat × Nat)) :
    SameDuties s (consumeSeqs s r seqs) ∧ (consumeSeqs s r seqs).journal = s.journal := by
  unfold consumeSeqs
  induction seqs generalizing s with
  | nil => exact ⟨sameDuties_refl s, rfl⟩
  | cons p seqs ih =>
    obtain ⟨same, journal⟩ := ih (setRing s r p.1 (fun rg => { rg with
      consumed := if rg.consumed.contains p.2 then rg.consumed else rg.consumed ++ [p.2] }))
    exact ⟨setRing_sameDuties.trans same, journal⟩

/-- The unit of a move that its order has still to commit is committed. -/
theorem commitMove_unitCommitted {n : BitVec 64} (due : Due s m.run n m.ref) : UnitCommitted (commitMove s g m) m.run n m.ref := by
  obtain ⟨same, journal⟩ := consumeSeqs_sameDuties (dropMove s g m) m.run m.seqs
  refine commitUnit_unitCommitted (Due.mono (s := dropMove s g m) ?_ same journal)
  exact due.mono (sameDuties_of_eq rfl rfl) rfl

end Moves

/-! ## STACK_WRITE_ACK (R368) -/

theorem stackMove_some {s : State} {k g : Nat} {st : MoveStage} {m : Move} {rn : Run} {i : Issued} (h : stackMove s k g st = some (m, rn, i)) :
    m ∈ (getForager s g).moves ∧ m.stage = st ∧ getRun s m.run = some rn ∧ findIssued rn m.ref.instr = some i ∧ onStack i.op 1 = true
      ∧ moveStack i = k := by
  obtain ⟨mv, there, found⟩ := List.exists_of_findSome?_eq_some h
  split at found
  · cases found
  · next stage =>
    cases hr : getRun s mv.run with
    | none => simp [hr] at found
    | some run =>
      cases hi : findIssued run mv.ref.instr with
      | none => simp [hr, hi] at found
      | some issued =>
        simp only [hr, hi, Option.ite_none_right_eq_some, Bool.and_eq_true, beq_iff_eq, Option.some.injEq, Prod.mk.injEq] at found
        obtain ⟨⟨stack, own⟩, rfl, rfl, rfl⟩ := found
        exact ⟨there, by simpa using stage, hr, hi, stack, own⟩

end Sys2Proof.Machine
end

section
namespace Sys2Proof.Machine

/-! ## A unit that is tried (R362 to R368, R372, R452) -/

/-- A waiting unit of a plain move stands in a forager, and no comb word is poisoned. -/
structure Trial (s : State) (g : Nat) (m : Move) (rn : Run) (i : Issued) : Prop where
  sound : Sound s
  there : m ∈ (getForager s g).moves
  run : getRun s m.run = some rn
  issued : findIssued rn m.ref.instr = some i
  plain : plainMove i.op = true
  clean : s.poison = []

/-- Does the move address a stack? -/
def OnStack (i : Issued) : Prop := i.op.opcode = 0x71 ∨ i.op.opcode = 0x72 ∨ i.op.opcode = 0x75

/-- A parity error on a stack's interface while a unit is under way (R362). -/
def parityMet (s : State) (k g : Nat) (m : Move) (i : Issued) (a : BitVec 39) : State :=
  interruptUnit (runFault (dropMove (markChannel s k a.toNat) g m) m.run 0x0402 i.instr m.ref.unit 6 k (redone := 1)) m.run m.ref

section Trial
variable {s : State} {g : Nat} {m : Move} {rn : Run} {i : Issued}

theorem plainMove_iff {op : PInstr} :
    plainMove op = true ↔ op.opcode = 0x70 ∨ op.opcode = 0x71 ∨ op.opcode = 0x72 ∨ op.opcode = 0x74 ∨ op.opcode = 0x75 := by
  simp [plainMove, or_assoc]

theorem onStack_iff : onStack i.op 1 = true ↔ OnStack i := by
  simp [onStack, OnStack, or_assoc]

theorem Trial.opcode_of_not_onStack (h : Trial s g m rn i) (off : ¬ OnStack i) : i.op.opcode = 0x70 ∨ i.op.opcode = 0x74 := by
  rcases plainMove_iff.mp h.plain with e | e | e | e | e
  · exact .inl e
  · exact absurd (.inl e) off
  · exact absurd (.inr (.inl e)) off
  · exact .inr e
  · exact absurd (.inr (.inr e)) off

theorem Trial.not_sends (h : Trial s g m rn i) : (i.op.opcode == 0x73) = false ∧ (i.op.opcode == 0x80) = false := by
  rcases plainMove_iff.mp h.plain with e | e | e | e | e <;> simp [e]

theorem Trial.not_tiled (h : Trial s g m rn i) : isTiled i.op = false := by
  rcases plainMove_iff.mp h.plain with e | e | e | e | e <;> simp [isTiled, e]

theorem Trial.instr (h : Trial s g m rn i) : i.instr = m.ref.instr :=
  eq_of_beq (List.find?_some (p := fun i : Issued => i.instr == m.ref.instr) h.issued)

/-- Only units of FSEND and CSEND wait behind earlier ones. -/
theorem Trial.first (h : Trial s g m rn i) : behind s g m i = false := by
  obtain ⟨packet, frame⟩ := h.not_sends
  simp [behind, packet, frame]

theorem tryMove_blocked (h : Trial s g m rn i) {up : MoveUpset} {wt : Wait} (b : moveBlocked s m.run rn i m.ref.unit = some wt) :
    tryMove s g m up = setMove s g m (fun m => { m with wait := some wt }) := by
  unfold tryMove
  simp only [h.run, h.issued, h.first, b]
  rfl

theorem tryMove_none (h : Trial s g m rn i) (b : moveBlocked s m.run rn i m.ref.unit = none) :
    tryMove s g m .none = copyUnit s g m rn i := by
  obtain ⟨packet, frame⟩ := h.not_sends
  unfold tryMove
  simp only [h.run, h.issued, h.first, b, packet, frame, readsClean, h.clean]
  rfl

theorem tryMove_dataCheck (h : Trial s g m rn i) (b : moveBlocked s m.run rn i m.ref.unit = none) :
    tryMove s g m .dataCheck = withheld s g m := by
  obtain ⟨packet, frame⟩ := h.not_sends
  unfold tryMove
  simp only [h.run, h.issued, h.first, b, packet, frame]
  rfl

theorem tryMove_datapathParity (h : Trial s g m rn i) (b : moveBlocked s m.run rn i m.ref.unit = none) :
    tryMove s g m .datapathParity = foragerFault s g m.run m.ref := by
  unfold tryMove
  simp only [h.run, h.issued, h.first, b]
  rfl

theorem tryMove_interfaceParity (h : Trial s g m rn i) (b : moveBlocked s m.run rn i m.ref.unit = none) (on : OnStack i) (a : BitVec 39) :
    tryMove s g m (.interfaceParity a) = parityMet s (moveStack i) g m i a := by
  unfold tryMove
  simp only [h.run, h.issued, h.first, b, onStack_iff.mpr on]
  rfl

/-! ### Copies within the comb (R364, R366, R367) -/

/-- A unit of FCOPY or FTRANS: its bits written, its ring slots passed, and it commits. -/
theorem copyUnit_comb (h : Trial s g m rn i) (off : ¬ OnStack i) : copyUnit s g m rn i
    = commitMove (passSlots (writeComb s (moveWrites s rn i m.ref.unit)) m.run (moveReadSlots rn i m.ref.unit) (moveWriteSlots rn i m.ref.unit))
        g { m with seqs := moveReadSlots rn i m.ref.unit } := by
  have opcode : (i.op.opcode == 0x70 || i.op.opcode == 0x74) = true := by
    rcases h.opcode_of_not_onStack off with e | e <;> simp [e]
  have merged : mergePoison s (moveWrites s rn i m.ref.unit) = none := if_pos (by simp [h.clean])
  unfold copyUnit
  simp only [opcode, merged]
  rfl

/-- The slots of a unit pass, and it commits: the comb and the stacks keep what stands there. -/
theorem commitPassed_books {t : State} {r : Nat} {reads writes : List (Nat × Nat)} : Books t (commitMove (passSlots t r reads writes) g m) :=
  commitUnit_books (consumeSeqs_books (leaveForager_books (passSlots_books (books_refl t))))

theorem commitPassed_unitCommitted {t : State} {reads writes : List (Nat × Nat)} {n : BitVec 64} (w : Whole t) (quiet : QuietLinks t)
    (due : Due t m.run n m.ref) : UnitCommitted (commitMove (passSlots t m.run reads writes) g m) m.run n m.ref :=
  commitMove_unitCommitted ((passSlots_undisturbed (undisturbed_refl t)).due (noLast_of_quietLinks w quiet) due)

theorem moveTried_copied (h : Trial s g m rn i) (off : ¬ OnStack i) : let u := copyUnit s g m rn i
    u.comb = memSetMany combDefault (moveWrites s rn i m.ref.unit) s.comb ∧ u.stackMem = s.stackMem
      ∧ (∀ a, (∀ b ∈ moveWrites s rn i m.ref.unit, b.1 ≠ a) → readComb u a = readComb s a)
      ∧ MoveGone u g m ∧ (QuietLinks s → ∀ n, Owes s m.run rn i n m.ref → UnitCommitted u m.run n m.ref) := by
  intro u
  have e : u = _ := copyUnit_comb h off
  have books : Books (writeComb s (moveWrites s rn i m.ref.unit)) u := e ▸ commitPassed_books
  refine ⟨books.comb, books.stackMem, fun a outside => ?_, ?_, fun quiet n owes => ?_⟩
  · rw [readComb, books.comb]
    exact memGet_memSetMany_other _ _ _ _ h.sound.1.1 outside
  · rw [e]
    exact commitMove_moveGone
  · rw [e]
    exact commitPassed_unitCommitted (m := { m with seqs := moveReadSlots rn i m.ref.unit }) (t := writeComb s (moveWrites s rn i m.ref.unit))
      h.sound.2 quiet ((due_of_owes owes).mono (sameDuties_of_eq rfl rfl) rfl)

/-! ### Units to and from a stack (R362, R368, R372) -/

theorem OnStack.not_comb (on : OnStack i) : (i.op.opcode == 0x70 || i.op.opcode == 0x74) = false := by
  rcases on with e | e | e <;> simp [e]

theorem copyUnit_failed (on : OnStack i) (failed : (getMemPort s (moveStack i)).state = 4#3) : copyUnit s g m rn i
    = runFault (dropMove s g m) m.run 0x0403 i.instr m.ref.unit 6 (moveStack i) := by
  unfold copyUnit
  simp only [on.not_comb, failed]
  rfl

theorem copyUnit_waits (on : OnStack i) (whole : (getMemPort s (moveStack i)).state ≠ 4#3)
    (full : stackUp s (moveStack i) = false ∨ 8192 < (getMemPort s (moveStack i)).outstanding + moveShare rn i m.ref.unit) :
    copyUnit s g m rn i = setMove s g m (fun m => { m with wait := none }) := by
  have later : (!stackUp s (moveStack i) || decide (8192 < (getMemPort s (moveStack i)).outstanding + min 8192 (stackAccesses rn i m.ref.unit))) = true := by
    rcases full with down | taken
    · simp [down]
    · simpa [moveShare] using .inr taken
  have standing : ((getMemPort s (moveStack i)).state == 4#3) = false := by simpa using whole
  unfold copyUnit
  simp only [on.not_comb, standing, later]
  rfl

/-- The accesses of a unit are outstanding at its port. -/
def portTaken (s : State) (rn : Run) (i : Issued) (u : Nat) : State :=
  setMemPort s (moveStack i) (fun p => { p with outstanding := p.outstanding + moveShare rn i u, powerDown := false })

theorem copyUnit_goes (on : OnStack i) (up : stackUp s (moveStack i) = true)
    (room : (getMemPort s (moveStack i)).outstanding + moveShare rn i m.ref.unit ≤ 8192) : copyUnit s g m rn i
      = if i.op.opcode == 0x71 then setMove (portTaken s rn i m.ref.unit) g m
          (fun y => { y with stage := .reading, acks := moveShare rn i m.ref.unit, wait := none })
        else passReads (setMove (writeStack (portTaken s rn i m.ref.unit) (moveWrites s rn i m.ref.unit)) g m
          (fun y => { y with stage := .writing, acks := moveShare rn i m.ref.unit, wait := none })) g m (moveReadSlots rn i m.ref.unit) := by
  have now : (!stackUp s (moveStack i) || decide (8192 < (getMemPort s (moveStack i)).outstanding + min 8192 (stackAccesses rn i m.ref.unit))) = false := by
    simpa [up, moveShare] using room
  have standing : ((getMemPort s (moveStack i)).state == 4#3) = false := by
    have state : (getMemPort s (moveStack i)).state = 2#3 := by simpa [stackUp] using up
    simp [state]
  unfold copyUnit
  simp only [on.not_comb, standing, now]
  rfl

theorem Whole.memPort_lt (w : Whole s) {k : Nat} (h : (getMemPort s k).state ≠ 0#3) : k < 4 := by
  by_contra beyond
  have none_there : getMemPort s k = default := by simp [getMemPort, nth, w.mems, Nat.not_lt.mp beyond]
  rw [none_there] at h
  exact h rfl

/-- Comb and stacks keep what stands there, and a forager holds a unit no more. -/
def KeptWithout (s : State) (g : Nat) (m : Move) (u : State) : Prop := u.comb = s.comb ∧ u.stackMem = s.stackMem ∧ MoveGone u g m

theorem keptWithout_of_foragers {t u : State} (comb : u.comb = s.comb) (stack : u.stackMem = s.stackMem) (h : MoveGone t g m)
    (foragers : u.foragers = t.foragers) : KeptWithout s g m u := by
  refine ⟨comb, stack, h.mono ?_⟩
  rw [getForager, foragers, getForager]
  exact fun _ => id

theorem moveTried_failed (h : Trial s g m rn i) (on : OnStack i) (failed : (getMemPort s (moveStack i)).state = 4#3) :
    let u := copyUnit s g m rn i
    KeptWithout s g m u ∧ FaultTold u 0x0403 6 (moveStack i) 1 ∧ (Faultable s m.run → FaultedAt u m.run 0x0403 m.ref) := by
  intro u
  have e : u = _ := copyUnit_failed on failed
  have low : moveStack i < 4 := h.sound.2.memPort_lt (by rw [failed]; decide)
  rw [h.instr] at e
  rw [e]
  refine ⟨keptWithout_of_foragers (by simp [dropMove]) (by simp [dropMove]) (dropMove_moveGone s g m) (by simp), ?_, fun faultable => ?_⟩
  · exact faultTold_runFault (s := dropMove s g m) h.run
  · exact faultedAt_runFault (s := dropMove s g m) (x := m.ref) faultable (by decide)

theorem getMemPort_portTaken (w : Whole s) {u : Nat} (up : stackUp s (moveStack i) = true) : getMemPort (portTaken s rn i u) (moveStack i)
    = { getMemPort s (moveStack i) with outstanding := (getMemPort s (moveStack i)).outstanding + moveShare rn i u, powerDown := false } := by
  have state : (getMemPort s (moveStack i)).state = 2#3 := by simpa [stackUp] using up
  have low : moveStack i < s.mems.length := w.mems ▸ w.memPort_lt (by rw [state]; decide)
  exact getMemPort_setMemPort_same s _ _ low

/-- The last read of a unit's slots touches no memory, no port, and no unit. -/
theorem passReads_books {reads : List (Nat × Nat)} : Books (setMove s g m (fun y => { y with seqs := reads })) (passReads s g m reads) :=
  .foldl (books_refl _) fun _ _ h => grantLanding_books (uncapSlot_books h)

theorem moveTried_stored (h : Trial s g m rn i) (up : stackUp s (moveStack i) = true) :
    let u := passReads (setMove (writeStack (portTaken s rn i m.ref.unit) (moveWrites s rn i m.ref.unit)) g m
          (fun y => { y with stage := .writing, acks := moveShare rn i m.ref.unit, wait := none })) g m (moveReadSlots rn i m.ref.unit)
    getMemPort u (moveStack i) = { getMemPort s (moveStack i) with
        outstanding := (getMemPort s (moveStack i)).outstanding + moveShare rn i m.ref.unit, powerDown := false }
      ∧ u.comb = s.comb ∧ u.stackMem = memSetMany stackDefault (moveWrites s rn i m.ref.unit) s.stackMem
      ∧ (∀ a, (∀ b ∈ moveWrites s rn i m.ref.unit, b.1 ≠ a) → readStack u a = readStack s a)
      ∧ ∀ y ∈ (getForager u g).moves, y.run = m.run → y.ref = m.ref → y.stage = .writing ∧ y.acks = moveShare rn i m.ref.unit := by
  intro u
  have books : Books (setMove (setMove (writeStack (portTaken s rn i m.ref.unit) (moveWrites s rn i m.ref.unit)) g m
      (fun y => { y with stage := .writing, acks := moveShare rn i m.ref.unit, wait := none })) g m
      (fun y => { y with seqs := moveReadSlots rn i m.ref.unit })) u := passReads_books
  refine ⟨?_, books.comb, books.stackMem, fun a outside => ?_, fun y hy same ref => ?_⟩
  · rw [getMemPort, books.mems]
    exact getMemPort_portTaken h.sound.2 up
  · rw [readStack, books.stackMem]
    exact memGet_memSetMany_other _ _ _ _ h.sound.1.2.1 outside
  · have hy := books.moves g hy
    rw [moves_setMove] at hy
    obtain ⟨x, hx, rfl⟩ := List.mem_map.mp hy
    have placed := setMove_all (s := writeStack (portTaken s rn i m.ref.unit) (moveWrites s rn i m.ref.unit)) (g := g) (m := m)
      (f := fun y => { y with stage := .writing, acks := moveShare rn i m.ref.unit, wait := none })
      (P := fun y => y.stage = .writing ∧ y.acks = moveShare rn i m.ref.unit) (fun _ => ⟨rfl, rfl⟩) x hx
    split at same
    · next c => rw [if_pos c] at ref ⊢; exact placed same ref
    · next c => rw [if_neg c] at ref ⊢; exact placed same ref

/-! ### Errors on the way (R354, R363, R452, R458) -/

/-- A unit is interrupted after a fault of class B: it stands among the moves that its home frame does again. -/
theorem interrupted_moveAgain {t : State} {code : BitVec 16} {k n domain inst redone phase : Nat} (w : Whole s)
    (run : getRun s m.run = some rn) (issued : findIssued rn m.ref.instr = some i) (tiled : isTiled i.op = false)
    (runs : t.runs = s.runs) (frames : t.frames = s.frames) (mild : faultClass code = 2) :
    MoveAgain (interruptUnit (runFault t m.run code k n domain inst redone phase) m.run m.ref) rn i m := by
  intro plain low
  have same : getRun (runFault t m.run code k n domain inst redone phase) m.run = some rn := by
    rw [getRun, runFault_runs_of_classB mild, runs]
    exact run
  refine mem_moveReplay_interruptUnit same issued ⟨plain, tiled⟩ ?_
  rw [runFault_frames, frames, w.frames]
  exact low

theorem withheld_redone (w : Whole s) (run : getRun s m.run = some rn) (issued : findIssued rn m.ref.instr = some i)
    (tiled : isTiled i.op = false) : let u := withheld s g m
    KeptWithout s g m u ∧ u.runs = s.runs ∧ FaultTold u 0x0222 0 0xFF 1 ∧ MoveAgain u rn i m := by
  have mild : faultClass 0x0222 = 2 := by decide
  refine ⟨keptWithout_of_foragers (by simp [withheld, dropMove]) (by simp [withheld, dropMove]) (dropMove_moveGone s g m)
    (by simp [withheld]), ?_, ?_, interrupted_moveAgain w run issued tiled rfl rfl mild⟩
  · rw [withheld, interruptUnit_runs, runFault_runs_of_classB mild]
    rfl
  · rw [withheld, FaultTold, interruptUnit_keeper]
    exact faultTold_runFault (s := dropMove s g m) run

theorem parityMet_redone (w : Whole s) (run : getRun s m.run = some rn) (issued : findIssued rn m.ref.instr = some i)
    (tiled : isTiled i.op = false) (k : Nat) (a : BitVec 39) :
    let u := parityMet s k g m i a
    KeptWithout s g m u ∧ u.runs = s.runs ∧ MoveAgain u rn i m
      ∧ (k < 4 → FaultTold u 0x0402 6 k 1 ∧ pseudoChannel (a.toNat % 2 ^ 37) ∈ (getMemPort u k).marked) := by
  have mild : faultClass 0x0402 = 2 := by decide
  refine ⟨keptWithout_of_foragers (by simp [parityMet, dropMove, markChannel]) (by simp [parityMet, dropMove, markChannel])
    (dropMove_moveGone (markChannel s k a.toNat) g m) (by simp [parityMet]), ?_, interrupted_moveAgain w run issued tiled rfl rfl mild,
    fun low => ⟨?_, ?_⟩⟩
  · rw [parityMet, interruptUnit_runs, runFault_runs_of_classB mild]
    rfl
  · rw [parityMet, FaultTold, interruptUnit_keeper]
    exact faultTold_runFault (s := dropMove (markChannel s k a.toNat) g m) run
  · have port := getMemPort_setMemPort_same s k (fun p =>
      if p.marked.contains (pseudoChannel (a.toNat % 2 ^ 37)) then p else { p with marked := p.marked ++ [pseudoChannel (a.toNat % 2 ^ 37)] })
      (w.mems ▸ low)
    have marked : getMemPort (markChannel s k a.toNat) k = _ := port
    rw [getMemPort, parityMet, interruptUnit_mems, runFault_mems]
    change _ ∈ (getMemPort (markChannel s k a.toNat) k).marked
    rw [marked]
    split
    · next c => simpa using c
    · simp

end Trial

end Sys2Proof.Machine
end

section
namespace Sys2Proof.Machine

/-! ## A forager fails (R452, R458, R468) -/

/-- The forager is stopped, under recovery, and every unit that it held is to be done again. -/
def foragerDown (s : State) (g r : Nat) (ref : UnitRef) : State :=
  setForager (redoMoves (beginRecovery (runFault s r 0 ref.instr ref.unit 4 g (redone := (getForager s g).moves.length)) 4 g 0) g) g
    (fun x => { x with faulted := true })

/-- What follows is told, and may be the fault of the run. -/
theorem foragerFault_field {α : Type} {s : State} {g r : Nat} {ref : UnitRef} (f : State → α) (hf : ∀ t i o, f (faultRecord t i o) = f t)
    (hk : ∀ t h, f (setKeeper t h) = f t) (hr : ∀ t q h, f (setRun t q h) = f t) :
    f (foragerFault s g r ref) = f (foragerDown s g r ref) := by
  have told {t : State} {phase : Nat} : f (phaseRecord t 4 g phase 0) = f t := by
    unfold phaseRecord
    exact hf ..
  unfold foragerFault
  extract_lets again second held t₁ t₂ t₃ t₄ t₅ needs
  have down : t₃ = foragerDown s g r ref := rfl
  have left : f t₅ = f t₃ := (hk ..).trans told
  clear_value t₅ t₃ needs
  rw [← down]
  split
  · split
    · exact (runFault_field f (hf _) fun t h => hr t r h).trans left
    · exact left
  · split
    · exact (hk ..).trans told
    · rfl

/-- All the units that a forager holds are interrupted. -/
def interruptMoves (s : State) (ms : List Move) : State := ms.foldl (fun s m => interruptUnit s m.run m.ref) s

theorem interruptMoves_requeued (s : State) (ms : List Move) : Requeued s (interruptMoves s ms) :=
  foldl_requeued _ ms (fun t (m : Move) => interruptUnit_requeued t m.run m.ref) s

/-- Each of them stands among the moves that its home frame does again. -/
theorem mem_moveReplay_interruptMoves {ms : List Move} {s : State} {m : Move} {rn : Run} {i : Issued} (there : m ∈ ms)
    (hr : getRun s m.run = some rn) (hi : findIssued rn m.ref.instr = some i) (ht : i.op.micro = false ∧ isTiled i.op = false)
    (hf : homeOf rn.image i m.ref.unit < s.frames.length) :
    m.ref ∈ (getFrame (interruptMoves s ms) (homeOf rn.image i m.ref.unit)).moveReplay := by
  obtain ⟨before, after, rfl⟩ := List.append_of_mem there
  have split : interruptMoves s (before ++ m :: after) = interruptMoves (interruptUnit (interruptMoves s before) m.run m.ref) after := by
    simp [interruptMoves]
  have first := interruptMoves_requeued s before
  have same : getRun (interruptMoves s before) m.run = some rn := by
    rw [getRun, first.field State.runs fun _ => rfl]
    exact hr
  rw [split]
  exact (interruptMoves_requeued _ after).moveReplay _ (mem_moveReplay_interruptUnit same hi ht (first.frameCount ▸ hf))

theorem redoMoves_eq (s : State) (g : Nat) :
    redoMoves s g = setForager (interruptMoves s (getForager s g).moves) g (fun x => { x with moves := [] }) := rfl

theorem redoMoves_field {α : Type} {s : State} {g : Nat} (f : State → α) (hf : ∀ (t : State) frames, f { t with frames := frames } = f t)
    (hg : ∀ t h, f (setForager t g h) = f t) : f (redoMoves s g) = f s := by
  rw [redoMoves_eq, hg]
  exact (interruptMoves_requeued s _).field f (hf s)

section Down
variable {s : State} {g : Nat} {m : Move} {rn : Run} {i : Issued}

theorem foragerFault_comb {r : Nat} {ref : UnitRef} : (foragerFault s g r ref).comb = s.comb := by
  rw [foragerFault_field State.comb (by simp) (fun _ _ => rfl) (fun _ _ _ => rfl), foragerDown, setForager_comb,
    redoMoves_field State.comb (fun _ _ => rfl) (fun _ _ => rfl), beginRecovery_comb, runFault_comb]

theorem foragerFault_stackMem {r : Nat} {ref : UnitRef} : (foragerFault s g r ref).stackMem = s.stackMem := by
  rw [foragerFault_field State.stackMem (by simp) (fun _ _ => rfl) (fun _ _ _ => rfl), foragerDown, setForager_stackMem,
    redoMoves_field State.stackMem (fun _ _ => rfl) (fun _ _ => rfl), beginRecovery_stackMem, runFault_stackMem]

/-- The forager is stopped, and holds nothing. -/
theorem getForager_foragerFault (w : Whole s) (low : g < 32) {r : Nat} {ref : UnitRef} :
    (getForager (foragerFault s g r ref) g).faulted = true ∧ (getForager (foragerFault s g r ref) g).moves = [] := by
  have foragers : (foragerFault s g r ref).foragers = (foragerDown s g r ref).foragers :=
    foragerFault_field State.foragers (by simp) (fun _ _ => rfl) (fun _ _ _ => rfl)
  generalize start : beginRecovery (runFault s r 0 ref.instr ref.unit 4 g (redone := (getForager s g).moves.length)) 4 g 0 = t
  have count : (interruptMoves t (getForager t g).moves).foragers.length = 32 := by
    rw [(interruptMoves_requeued _ _).field State.foragers fun _ => rfl, ← start, beginRecovery_foragers, runFault_foragers, w.foragers]
  have inside : g < (redoMoves t g).foragers.length := by simpa [redoMoves_eq, count] using low
  have down : foragerDown s g r ref = setForager (redoMoves t g) g (fun x => { x with faulted := true }) := by rw [foragerDown, start]
  have stopped : getForager (foragerFault s g r ref) g = { getForager (redoMoves t g) g with faulted := true } := by
    rw [getForager, foragers, down]
    exact getForager_setForager_same _ _ _ inside
  have emptied : getForager (redoMoves t g) g = { getForager (interruptMoves t (getForager t g).moves) g with moves := [] } :=
    getForager_setForager_same _ _ _ (count ▸ low)
  rw [stopped, emptied]
  exact ⟨rfl, rfl⟩

theorem foragerFault_moveAgain (h : Trial s g m rn i) : MoveAgain (foragerFault s g m.run m.ref) rn i m := by
  have mild : faultClass 0 = 2 := by decide
  intro plain low
  have frames : (foragerFault s g m.run m.ref).frames = (foragerDown s g m.run m.ref).frames :=
    foragerFault_field State.frames (by simp) (fun _ _ => rfl) (fun _ _ _ => rfl)
  rw [getFrame, frames, foragerDown, redoMoves_eq]
  refine mem_moveReplay_interruptMoves ?_ ?_ h.issued ⟨plain, h.not_tiled⟩ ?_
  · rw [getForager, beginRecovery_foragers, runFault_foragers]
    exact h.there
  · rw [getRun, beginRecovery_runs, runFault_runs_of_classB mild]
    exact h.run
  · rw [beginRecovery_frames, runFault_frames, h.sound.2.frames]
    exact low

theorem noteReset_recoveries (t : State) (domain inst : Nat) : (noteReset t domain inst).keeper.recoveries = t.keeper.recoveries := rfl

theorem phaseRecord_recoveries (t : State) {domain inst phase : Nat} {code : BitVec 16} :
    (phaseRecord t domain inst phase code).keeper.recoveries = t.keeper.recoveries := by
  unfold phaseRecord
  exact faultRecord_recoveries ..

theorem findRecovery_foragerFault {r : Nat} {ref : UnitRef} (fresh : resetBefore s 4 g = false) :
    (findRecovery (foragerFault s g r ref) 4 g).isSome = true := by
  have listed : (foragerFault s g r ref).keeper.recoveries = (foragerDown s g r ref).keeper.recoveries := by
    unfold foragerFault
    extract_lets again second held t₁ t₂ t₃ t₄ t₅ needs
    have down : t₃ = foragerDown s g r ref := rfl
    clear_value t₃
    rw [← down, if_neg (by simp [again, fresh])]
    split
    · rw [noteReset_recoveries, phaseRecord_recoveries]
    · rfl
  have begun : (foragerDown s g r ref).keeper.recoveries
      = (beginRecovery (runFault s r 0 ref.instr ref.unit 4 g (redone := (getForager s g).moves.length)) 4 g 0).keeper.recoveries := by
    rw [foragerDown, setForager_keeper, redoMoves_field State.keeper (fun _ _ => rfl) (fun _ _ => rfl)]
  rw [findRecovery_congr (listed.trans begun)]
  exact findRecovery_beginRecovery

/-! ## The trial of a unit, and the next one that a forager takes (R26, R368) -/

theorem moveTried (h : Trial s g m rn i) (up : MoveUpset) : MoveTried s g m rn i up (tryMove s g m up) := by
  refine ⟨fun wt b => ?_, fun b => ⟨?_, ?_, ?_, ?_, ?_⟩⟩
  · rw [tryMove_blocked h b]
    refine ⟨rfl, setMove_all fun _ => rfl, fun k other => ?_⟩
    exact getForager_setForager_ne s g k _ (Ne.symm other)
  · rintro rfl off
    rw [tryMove_none h b]
    exact moveTried_copied h off
  · rintro rfl on
    rw [tryMove_none h b]
    refine ⟨fun failed => moveTried_failed h on failed, fun whole full => ?_, fun up room => ?_⟩
    · rw [copyUnit_waits on whole full]
      exact ⟨rfl, setMove_all fun _ => rfl⟩
    · rw [copyUnit_goes on up room]
      split
      · next load =>
        have load : i.op.opcode = 0x71 := by simpa using load
        exact ⟨getMemPort_portTaken h.sound.2 up, rfl, fun _ => ⟨rfl, setMove_all fun _ => ⟨rfl, rfl⟩, rfl⟩, fun other => absurd load other⟩
      · next store =>
        have store : i.op.opcode ≠ 0x71 := by simpa using store
        obtain ⟨port, comb, stack, outside, placed⟩ := moveTried_stored h up
        exact ⟨port, comb, fun load => absurd load store, fun _ => ⟨stack, outside, placed⟩⟩
  · rintro rfl
    rw [tryMove_dataCheck h b]
    exact withheld_redone h.sound.2 h.run h.issued h.not_tiled
  · rintro a rfl on
    rw [tryMove_interfaceParity h b on]
    exact parityMet_redone h.sound.2 h.run h.issued h.not_tiled _ a
  · rintro rfl
    rw [tryMove_datapathParity h b]
    exact ⟨foragerFault_comb, foragerFault_stackMem, foragerFault_moveAgain h, fun low => getForager_foragerFault h.sound.2 low,
      findRecovery_foragerFault⟩

end Down

end Sys2Proof.Machine
end

section
namespace Sys2Proof.Machine

/-! ## FORAGER_UNIT_TAKE (R26, R368) -/

section Take
variable {s : State} {g : Nat} {m : Move} {rn : Run} {i : Issued} {up : MoveUpset}

/-- Is the run of a forager's frame paused? -/
def PausedAt (s : State) (f : Nat) : Prop := ∃ rn, (getFrame s f).run.bind (getRun s) = some rn ∧ rn.paused = true

theorem foragerTake_stopped (h : (getForager s g).faulted = true ∨ (getFrame s (g / 4)).recovering = true ∨ PausedAt s (g / 4)) :
    foragerTake s g up = s := by
  refine if_pos ?_
  rcases h with faulted | recovering | ⟨rn, run, paused⟩
  · simp [faulted]
  · simp [recovering]
  · simp [run, paused]

theorem foragerTake_open (working : (getForager s g).faulted = false) (whole : (getFrame s (g / 4)).recovering = false)
    (going : ¬ PausedAt s (g / 4)) :
    foragerTake s g up = if (retryMoves s g up).2 then (retryMoves s g up).1 else nextMove (retryMoves s g up).1 g up := by
  refine if_neg ?_
  have unpaused : (match (getFrame s (g / 4)).run.bind (getRun s) with | some rn => rn.paused | none => false) = false := by
    split
    · next rn run =>
      by_contra paused
      exact going ⟨rn, run, by simpa using paused⟩
    · rfl
  simp only [working, whole, Bool.false_or, Bool.not_eq_true]
  exact unpaused

/-- Has a unit that was tried gone on? -/
def wentOn (t : State) (g : Nat) (m : Move) : Bool :=
  !(getForager t g).moves.any (fun y => y.run == m.run && y.ref == m.ref && y.stage == .waiting && y.sent == m.sent)

/-- One unit is tried, unless one before it has gone on. -/
def retryStep (g : Nat) (up : MoveUpset) (acc : State × Bool) (m : Move) : State × Bool :=
  if acc.2 then acc else (tryMove acc.1 g m up, wentOn (tryMove acc.1 g m up) g m)

theorem retryMoves_eq (s : State) (g : Nat) (up : MoveUpset) :
    retryMoves s g up = ((getForager s g).moves.filter (fun m => m.stage == .waiting)).foldl (retryStep g up) (s, false) := rfl

theorem foldl_retryStep_went (t : State) (ms : List Move) : ms.foldl (retryStep g up) (t, true) = (t, true) := by
  induction ms with
  | nil => rfl
  | cons m ms ih => exact ih

theorem wentOn_of_stage {t : State} (h : ∀ y ∈ (getForager t g).moves, y.run = m.run → y.ref = m.ref → y.stage ≠ .waiting) :
    wentOn t g m = true := by
  simp only [wentOn, Bool.not_eq_true', List.any_eq_false, Bool.and_eq_true, beq_iff_eq, not_and]
  rintro y hy ⟨⟨same, ref⟩, waiting⟩
  exact absurd waiting (h y hy same ref)

theorem wentOn_of_moveGone {t : State} (h : MoveGone t g m) : wentOn t g m = true :=
  wentOn_of_stage fun y hy same ref => absurd ref (h y hy same)

/-- What is said of a tried unit: of corrected and uncorrectable comb words, and of a stack's parity at a move within the comb,
nothing. -/
def Silent (i : Issued) (up : MoveUpset) : Prop :=
  (∃ a, up = .combCorrected a) ∨ (∃ a, up = .combUncorrectable a) ∨ ∃ a, up = .interfaceParity a ∧ ¬ OnStack i

theorem Silent.spoken (h : Silent i up) :
    up ≠ .none ∧ up ≠ .dataCheck ∧ up ≠ .datapathParity ∧ ∀ a, up = .interfaceParity a → ¬ OnStack i := by
  rcases h with ⟨a, rfl⟩ | ⟨a, rfl⟩ | ⟨a, rfl, off⟩
  · simp
  · simp
  · simp [off]

theorem moveTried_silent (b : moveBlocked s m.run rn i m.ref.unit = none) (silent : Silent i up) (u : State) : MoveTried s g m rn i up u := by
  obtain ⟨calm, check, parity, stack⟩ := silent.spoken
  refine ⟨fun wt b' => ?_, fun _ => ⟨fun e => absurd e calm, fun e => absurd e calm, fun e => absurd e check,
    fun a e on => absurd on (stack a e), fun e => absurd e parity⟩⟩
  rw [b] at b'
  cases b'

/-- Does a unit's stack make it wait? -/
def StackWaits (s : State) (m : Move) (rn : Run) (i : Issued) : Prop :=
  OnStack i ∧ (getMemPort s (moveStack i)).state ≠ 4#3
    ∧ (stackUp s (moveStack i) = false ∨ 8192 < (getMemPort s (moveStack i)).outstanding + moveShare rn i m.ref.unit)

/-- A unit of which something is said goes on, or waits on its stack. -/
theorem wentOn_tryMove (h : Trial s g m rn i) (low : g < 32) (b : moveBlocked s m.run rn i m.ref.unit = none) (spoken : ¬ Silent i up) :
    wentOn (tryMove s g m up) g m = true ∨ (up = .none ∧ StackWaits s m rn i) := by
  obtain ⟨-, outcome⟩ := moveTried h up
  obtain ⟨copied, stacked, withheld, parity, down⟩ := outcome b
  cases up with
  | combUncorrectable a => exact absurd (.inr (.inl ⟨a, rfl⟩)) spoken
  | combCorrected a => exact absurd (.inl ⟨a, rfl⟩) spoken
  | dataCheck =>
    obtain ⟨⟨-, -, gone⟩, -⟩ := withheld rfl
    exact .inl (wentOn_of_moveGone gone)
  | datapathParity =>
    obtain ⟨-, -, -, held, -⟩ := down rfl
    obtain ⟨-, none_left⟩ := held low
    exact .inl (wentOn_of_stage (by simp [none_left]))
  | interfaceParity a =>
    by_cases on : OnStack i
    · obtain ⟨⟨-, -, gone⟩, -⟩ := parity a rfl on
      exact .inl (wentOn_of_moveGone gone)
    · exact absurd (.inr (.inr ⟨a, rfl, on⟩)) spoken
  | none =>
    by_cases on : OnStack i
    · obtain ⟨failed, -, goes⟩ := stacked rfl on
      by_cases lost : (getMemPort s (moveStack i)).state = 4#3
      · obtain ⟨⟨-, -, gone⟩, -⟩ := failed lost
        exact .inl (wentOn_of_moveGone gone)
      · by_cases room : stackUp s (moveStack i) = true ∧ (getMemPort s (moveStack i)).outstanding + moveShare rn i m.ref.unit ≤ 8192
        · obtain ⟨-, -, load, store⟩ := goes room.1 room.2
          refine .inl (wentOn_of_stage fun y hy same ref => ?_)
          by_cases opcode : i.op.opcode = 0x71
          · obtain ⟨-, placed, -⟩ := load opcode
            simp [(placed y hy same ref).1]
          · obtain ⟨-, -, placed⟩ := store opcode
            simp [(placed y hy same ref).1]
        · refine .inr ⟨rfl, on, lost, ?_⟩
          rcases not_and_or.mp room with down | full
          · exact .inl (by simpa using down)
          · exact .inr (Nat.not_le.mp full)
    · obtain ⟨-, -, -, gone, -⟩ := copied rfl on
      exact .inl (wentOn_of_moveGone gone)

/-- No frame has a unit that a forager could take from it. -/
theorem find?_victims_nothing {r f : Nat} (hf : f < 8) (empty : ∀ x < 8, (getFrame s x).moveReplay = [] ∧ (getFrame s x).moves = []) :
    (((List.range 8).drop 1).map (fun x => f ^^^ x)).find? (fun x => (getFrame s x).run == some r
      && !(getFrame s x).recovering && !((getFrame s x).moveReplay ++ (getFrame s x).moves).isEmpty) = none := by
  refine List.find?_eq_none.mpr fun x hx => ?_
  obtain ⟨k, hk, rfl⟩ := List.mem_map.mp hx
  have inside : f ^^^ k < 2 ^ 3 := Nat.xor_lt_two_pow hf (by simpa using List.mem_range.mp (List.mem_of_mem_drop hk))
  obtain ⟨replay, queue⟩ := empty _ inside
  simp [replay, queue]

theorem nextMove_nothing (low : g < 32) (h : NothingToTake s g) : nextMove s g up = s := by
  cases hf : (getFrame s (g / 4)).run with
  | none => simp [nextMove, hf]
  | some r =>
    cases hr : getRun s r with
    | none => simp [nextMove, hf, hr]
    | some rn =>
      unfold nextMove
      simp only [hf, hr]
      rcases h r rn hf hr with recovering | faulted | full | empty
      · exact if_pos (by simp [recovering])
      · exact if_pos (by simp [faulted])
      · exact if_pos (by simp [full])
      · obtain ⟨replay, queue⟩ := empty (g / 4) (by omega)
        rw [find?_victims_nothing (by omega) empty]
        simp [replay, queue]

theorem nothingToTake_setMove {f : Move → Move} (h : NothingToTake s g) : NothingToTake (setMove s g m f) g := by
  intro r rn hf hr
  have count : (getForager (setMove s g m f) g).moves.length = (getForager s g).moves.length := by rw [moves_setMove, List.length_map]
  rw [count]
  exact h r rn hf hr

/-- A waiting unit that a token, or its stack, keeps waiting only has its wait noted. -/
theorem tryMove_waits (h : Trial s g m rn i) (waits : moveBlocked s m.run rn i m.ref.unit ≠ none ∨ (up = .none ∧ StackWaits s m rn i)) :
    ∃ f, tryMove s g m up = setMove s g m f := by
  cases b : moveBlocked s m.run rn i m.ref.unit with
  | some wt => exact ⟨_, tryMove_blocked h b⟩
  | none =>
    obtain ⟨rfl, on, whole, full⟩ := waits.resolve_left (fun other => other b)
    exact ⟨_, (tryMove_none h b).trans (copyUnit_waits on whole full)⟩

/-- The first unit that waits is tried; where it does not go on and nothing else can be done, its trial is all that happens. -/
theorem moveTried_foragerTake {rest : List Move} (h : Trial s g m rn i) (low : g < 32) (working : (getForager s g).faulted = false)
    (whole : (getFrame s (g / 4)).recovering = false) (going : ¬ PausedAt s (g / 4))
    (waiting : (getForager s g).moves.filter (fun m => m.stage == .waiting) = m :: rest)
    (go : goesOn s m rn i up ∨ (rest = [] ∧ NothingToTake s g)) : MoveTried s g m rn i up (foragerTake s g up) := by
  have tried := moveTried h up
  have retried : retryMoves s g up = rest.foldl (retryStep g up) (tryMove s g m up, wentOn (tryMove s g m up) g m) := by
    rw [retryMoves_eq, waiting]
    rfl
  rw [foragerTake_open working whole going]
  by_cases silent : moveBlocked s m.run rn i m.ref.unit = none ∧ Silent i up
  · exact moveTried_silent silent.1 silent.2 _
  · cases went : wentOn (tryMove s g m up) g m with
    | true =>
      rw [retried, went, foldl_retryStep_went]
      exact tried
    | false =>
      have waits : moveBlocked s m.run rn i m.ref.unit ≠ none ∨ (up = .none ∧ StackWaits s m rn i) := by
        by_cases b : moveBlocked s m.run rn i m.ref.unit = none
        · refine .inr ((wentOn_tryMove h low b fun quiet => silent ⟨b, quiet⟩).resolve_left ?_)
          simp [went]
        · exact .inl b
      have ended : rest = [] ∧ NothingToTake s g := by
        refine go.resolve_left ?_
        rintro ⟨b, goes⟩
        obtain ⟨calm, on, lost, full⟩ := waits.resolve_left (fun other => other b)
        rcases goes with noisy | copies | turns | failed | ⟨up, room⟩
        · exact noisy calm
        · simp [OnStack, copies] at on
        · simp [OnStack, turns] at on
        · exact lost failed
        · rcases full with down | taken
          · rw [up] at down
            cases down
          · omega
      obtain ⟨rfl, nothing⟩ := ended
      obtain ⟨f, e⟩ := tryMove_waits h waits
      rw [retried, List.foldl_nil, went, if_neg Bool.false_ne_true]
      dsimp only
      rw [e, nextMove_nothing low (nothingToTake_setMove nothing), ← e]
      exact tried

theorem takeMove_eq (s : State) (r g f : Nat) (x : UnitRef) (up : MoveUpset) :
    takeMove s r g f x up = tryMove (takenBy s g f r x) g (freshMove r x) up := by
  have frame : (fun fr : Frame => if fr.moveReplay.contains x then { fr with moveReplay := fr.moveReplay.erase x }
      else { fr with moves := fr.moves.erase x, granted := assocSet fr.granted x.instr (assocD fr.granted x.instr 0 + 1) })
      = fun fr => if x ∈ fr.moveReplay then { fr with moveReplay := fr.moveReplay.erase x }
        else { fr with moves := fr.moves.erase x, granted := assocSet fr.granted x.instr (assocD fr.granted x.instr 0 + 1) } := by
    funext fr
    simp
  unfold takeMove takenBy
  rw [frame]
  rfl

theorem takenBy_kept (s : State) (g f r : Nat) (x : UnitRef) : Kept s (takenBy s g f r x) :=
  setForager_kept (setFrame_kept (kept_refl s))

/-- A unit that has just been taken is ready for its trial. -/
theorem trial_takenBy {r f : Nat} {x : UnitRef} (sound : Sound s) (low : g < 32) (run : getRun s r = some rn)
    (issued : findIssued rn x.instr = some i) (plain : plainMove i.op = true) (clean : s.poison = []) :
    Trial (takenBy s g f r x) g (freshMove r x) rn i where
  sound := (takenBy_kept s g f r x).1 sound
  there := by
    have count : g < (setFrame s f (fun fr => if x ∈ fr.moveReplay then { fr with moveReplay := fr.moveReplay.erase x }
      else { fr with moves := fr.moves.erase x, granted := assocSet fr.granted x.instr (assocD fr.granted x.instr 0 + 1) })).foragers.length :=
        sound.2.foragers ▸ low
    rw [takenBy, getForager_setForager_same _ g _ count]
    exact List.mem_append_right _ (List.mem_singleton_self _)
  run := run
  issued := issued
  plain := plain
  clean := clean

/-- A forager without waiting units tries the first that it may take. -/
theorem foragerTake_next {r : Nat} {x : UnitRef} (working : (getForager s g).faulted = false)
    (whole : (getFrame s (g / 4)).recovering = false) (going : ¬ PausedAt s (g / 4))
    (idle : (getForager s g).moves.filter (fun m => m.stage == .waiting) = []) (hf : (getFrame s (g / 4)).run = some r)
    (hr : getRun s r = some rn) (steady : rn.recovering = false) (sane : rn.fault = none) (room : (getForager s g).moves.length < 32)
    (first : ((getFrame s (g / 4)).moveReplay ++ (getFrame s (g / 4)).moves).find? (mayTake s r g (g / 4)) = some x) :
    foragerTake s g up = tryMove (takenBy s g (g / 4) r x) g (freshMove r x) up := by
  have queued : ((getFrame s (g / 4)).moveReplay ++ (getFrame s (g / 4)).moves).isEmpty = false := by
    cases e : (getFrame s (g / 4)).moveReplay ++ (getFrame s (g / 4)).moves with
    | nil => simp [e] at first
    | cons y ys => rfl
  rw [foragerTake_open working whole going, retryMoves_eq, idle, ← takeMove_eq]
  simp only [List.foldl_nil, nextMove, hf, hr, steady, sane, first, queued]
  refine (if_neg Bool.false_ne_true).trans ((if_neg ?_).trans rfl)
  simp only [Option.isSome_none, Bool.false_or, Bool.not_eq_true]
  exact decide_eq_false (Nat.not_le.mpr room)

end Take

end Sys2Proof.Machine
end

section
namespace Sys2Proof.Machine

/-! ## What a stack returns (R362, R363, R368) -/

section Returns
variable {s t : State} {k g : Nat} {m : Move} {rn : Run} {i : Issued}

/-- The accesses of a unit are no longer outstanding at its port. -/
def portReturned (s : State) (k : Nat) (m : Move) : State := setMemPort s k (fun p => { p with outstanding := p.outstanding - m.acks })

theorem isTiled_of_onStack (on : onStack i.op 1 = true) : isTiled i.op = false := by
  rcases onStack_iff.mp on with e | e | e <;> simp [isTiled, e]

theorem commitMove_portReturned (w : Whole s) (low : k < 4) :
    let u := commitMove (portReturned s k m) g m
    getMemPort u k = { getMemPort s k with outstanding := (getMemPort s k).outstanding - m.acks } ∧ u.comb = s.comb ∧ u.stackMem = s.stackMem
      ∧ MoveGone u g m ∧ ∀ n, Owes s m.run rn i n m.ref → UnitCommitted u m.run n m.ref := by
  intro u
  have books : Books (portReturned s k m) u := commitMove_books
  refine ⟨?_, books.comb, books.stackMem, commitMove_moveGone, fun n owes => ?_⟩
  · rw [getMemPort, books.mems]
    exact getMemPort_setMemPort_same s k _ (w.mems ▸ low)
  · exact commitMove_unitCommitted ((due_of_owes owes).mono (sameDuties_of_eq rfl rfl) rfl)

/-- The data of a unit of FLOAD as it lands: its bits written, its ring slots passed, and it commits. -/
def loadLanded (t : State) (g : Nat) (m : Move) (rn : Run) (i : Issued) : State :=
  commitMove (passSlots (writeComb t (moveWrites t rn i m.ref.unit)) m.run [] (moveWriteSlots rn i m.ref.unit)) g m

theorem loadLanded_landed {ports : List MemPort} (sound : Sound s) : let u := loadLanded { s with mems := ports } g m rn i
    u.mems = ports ∧ u.comb = memSetMany combDefault (moveWrites s rn i m.ref.unit) s.comb ∧ u.stackMem = s.stackMem
      ∧ (∀ a, (∀ b ∈ moveWrites s rn i m.ref.unit, b.1 ≠ a) → readComb u a = readComb s a) ∧ MoveGone u g m
      ∧ (QuietLinks s → ∀ n, Owes s m.run rn i n m.ref → UnitCommitted u m.run n m.ref) := by
  intro u
  have books : Books (writeComb { s with mems := ports } (moveWrites s rn i m.ref.unit)) u := commitPassed_books
  refine ⟨books.mems, books.comb, books.stackMem, fun a outside => ?_, commitMove_moveGone, fun quiet n owes => ?_⟩
  · rw [readComb, books.comb]
    exact memGet_memSetMany_other _ _ _ _ sound.1.1 outside
  · have quiet' := noLast_of_quietLinks sound.2 quiet
    have passed := (passSlots_undisturbed (r := m.run) (reads := []) (writes := moveWriteSlots rn i m.ref.unit)
      (undisturbed_refl (writeComb { s with mems := ports } (moveWrites s rn i m.ref.unit))))
    exact commitMove_unitCommitted (passed.due quiet' ((due_of_owes owes).mono (sameDuties_of_eq rfl rfl) rfl))

theorem stackReturn_good (h : stackMove s k g .reading = some (m, rn, i)) (clean : s.poison = []) :
    stackReturn s k g .good = loadLanded (portReturned s k m) g m rn i := by
  have merged : mergePoison (portReturned s k m) (moveWrites (portReturned s k m) rn i m.ref.unit) = none :=
    if_pos (by simp [portReturned, clean])
  unfold stackReturn
  simp only [h]
  change (match mergePoison (portReturned s k m) (moveWrites (portReturned s k m) rn i m.ref.unit) with | some a => _ | none => _) = _
  rw [merged]
  rfl

/-- A corrected read is counted at its port. -/
def readCorrected (s : State) (k : Nat) : State := setMemPort s k (fun p => { p with ceCount := satAdd p.ceCount 1 })

theorem stackReturn_corrected (h : stackMove s k g .reading = some (m, rn, i)) (clean : s.poison = []) :
    stackReturn s k g .corrected = loadLanded (readCorrected (portReturned s k m) k) g m rn i := by
  have merged : mergePoison (readCorrected (portReturned s k m) k) (moveWrites (readCorrected (portReturned s k m) k) rn i m.ref.unit) = none :=
    if_pos (by simp [readCorrected, portReturned, clean])
  unfold stackReturn
  simp only [h]
  change (match mergePoison (readCorrected (portReturned s k m) k) (moveWrites (readCorrected (portReturned s k m) k) rn i m.ref.unit) with
    | some a => _ | none => _) = _
  rw [merged]
  rfl

/-- An uncorrectable read is noted at its port, the first of them with its address. -/
def readLost (s : State) (k : Nat) (a : BitVec 39) : State :=
  setMemPort s k (fun p => { p with ueCount := satAdd p.ueCount 1, ueValid := true, ueAddr := if p.ueValid then p.ueAddr else a })

theorem stackReturn_uncorrectable (h : stackMove s k g .reading = some (m, rn, i)) (a : BitVec 39) :
    stackReturn s k g (.uncorrectable a)
      = runFault (dropMove (readLost (portReturned s k m) k a) g m) m.run 0x0401 i.instr m.ref.unit 6 k := by
  unfold stackReturn
  simp only [h]
  rfl

theorem stackReturn_parity (h : stackMove s k g .reading = some (m, rn, i)) (a : BitVec 39) :
    stackReturn s k g (.interfaceParity a) = parityMet (portReturned s k m) k g m i a := by
  unfold stackReturn
  simp only [h]
  rfl

theorem stackReturn_dataCheck (h : stackMove s k g .reading = some (m, rn, i)) :
    stackReturn s k g .dataCheck = withheld (portReturned s k m) g m := by
  unfold stackReturn
  simp only [h]
  rfl

/-- Good data lands, whether or not it was corrected on the way. -/
theorem stackReturn_landed (sound : Sound s) (low : k < 4) (h : stackMove s k g .reading = some (m, rn, i)) (clean : s.poison = [])
    {res : StackRead} (hres : res = .good ∨ res = .corrected) : let u := stackReturn s k g res
    u.comb = memSetMany combDefault (moveWrites s rn i m.ref.unit) s.comb ∧ u.stackMem = s.stackMem
      ∧ (∀ a, (∀ b ∈ moveWrites s rn i m.ref.unit, b.1 ≠ a) → readComb u a = readComb s a)
      ∧ (getMemPort u k).outstanding = (getMemPort s k).outstanding - m.acks
      ∧ (getMemPort u k).ceCount = (if res = .corrected then satAdd (getMemPort s k).ceCount 1 else (getMemPort s k).ceCount)
      ∧ MoveGone u g m ∧ (QuietLinks s → ∀ n, Owes s m.run rn i n m.ref → UnitCommitted u m.run n m.ref) := by
  have inside : k < s.mems.length := sound.2.mems ▸ low
  have returned : getMemPort (portReturned s k m) k = { getMemPort s k with outstanding := (getMemPort s k).outstanding - m.acks } :=
    getMemPort_setMemPort_same s k _ inside
  rcases hres with rfl | rfl
  · rw [stackReturn_good h clean]
    obtain ⟨ports, comb, stack, outside, gone, commits⟩ :=
      loadLanded_landed (g := g) (m := m) (rn := rn) (i := i) (ports := (portReturned s k m).mems) sound
    have port : getMemPort (loadLanded (portReturned s k m) g m rn i) k = getMemPort (portReturned s k m) k := by
      rw [getMemPort, getMemPort]
      exact congrArg (nth · k) ports
    refine ⟨comb, stack, outside, ?_, ?_, gone, commits⟩
    · rw [port, returned]
    · rw [port, returned, if_neg (by simp)]
  · rw [stackReturn_corrected h clean]
    obtain ⟨ports, comb, stack, outside, gone, commits⟩ :=
      loadLanded_landed (g := g) (m := m) (rn := rn) (i := i) (ports := (readCorrected (portReturned s k m) k).mems) sound
    have port : getMemPort (loadLanded (readCorrected (portReturned s k m) k) g m rn i) k = getMemPort (readCorrected (portReturned s k m) k) k := by
      rw [getMemPort, getMemPort]
      exact congrArg (nth · k) ports
    have corrected : getMemPort (readCorrected (portReturned s k m) k) k
        = { getMemPort (portReturned s k m) k with ceCount := satAdd (getMemPort (portReturned s k m) k).ceCount 1 } :=
      getMemPort_setMemPort_same (portReturned s k m) k _ (by simpa [portReturned] using inside)
    refine ⟨comb, stack, outside, ?_, ?_, gone, commits⟩
    · rw [port, corrected, returned]
    · rw [port, corrected, returned, if_pos rfl]

theorem stackReturn_lost (w : Whole s) (low : k < 4) (h : stackMove s k g .reading = some (m, rn, i)) (a : BitVec 39) :
    let u := stackReturn s k g (.uncorrectable a)
    u.comb = s.comb ∧ (getMemPort u k).ueCount = satAdd (getMemPort s k).ueCount 1 ∧ (getMemPort u k).ueValid = true
      ∧ ((getMemPort s k).ueValid = false → (getMemPort u k).ueAddr = a) ∧ FaultTold u 0x0401 6 k 1 ∧ MoveGone u g m
      ∧ (Faultable s m.run → FaultedAt u m.run 0x0401 m.ref) := by
  obtain ⟨-, -, run, issued, -⟩ := stackMove_some h
  have instr : i.instr = m.ref.instr := eq_of_beq (List.find?_some (p := fun i : Issued => i.instr == m.ref.instr) issued)
  have inside : k < s.mems.length := w.mems ▸ low
  have port : getMemPort (readLost (portReturned s k m) k a) k = { getMemPort s k with
      outstanding := (getMemPort s k).outstanding - m.acks, ueCount := satAdd (getMemPort s k).ueCount 1, ueValid := true,
      ueAddr := if (getMemPort s k).ueValid then (getMemPort s k).ueAddr else a } := by
    have lost := getMemPort_setMemPort_same (portReturned s k m) k (fun p =>
      { p with ueCount := satAdd p.ueCount 1, ueValid := true, ueAddr := if p.ueValid then p.ueAddr else a })
      (by simpa [portReturned] using inside)
    have returned : getMemPort (portReturned s k m) k = { getMemPort s k with outstanding := (getMemPort s k).outstanding - m.acks } :=
      getMemPort_setMemPort_same s k _ inside
    rw [returned] at lost
    exact lost
  have kept : getMemPort (runFault (dropMove (readLost (portReturned s k m) k a) g m) m.run 0x0401 m.ref.instr m.ref.unit 6 k) k
      = getMemPort (readLost (portReturned s k m) k a) k := by
    rw [getMemPort, runFault_mems]
    rfl
  rw [stackReturn_uncorrectable h, instr]
  dsimp only
  rw [kept, port]
  refine ⟨by simp [dropMove, readLost, portReturned], rfl, rfl, fun invalid => if_neg (by simp [invalid]), ?_, ?_, fun faultable => ?_⟩
  · exact faultTold_runFault (s := dropMove (readLost (portReturned s k m) k a) g m) run
  · refine (dropMove_moveGone (readLost (portReturned s k m) k a) g m).mono ?_
    rw [getForager, runFault_foragers, getForager]
    exact fun _ => id
  · exact faultedAt_runFault (s := dropMove (readLost (portReturned s k m) k a) g m) (x := m.ref) faultable (by decide)

/-- FORAGER_RESET: the forager works again, and its recovery is over (R452). -/
theorem foragerReset_working (w : Whole s) (low : g < 32) {x : Recovery} (under : findRecovery s 4 g = some x) :
    let u := endRecovery (setForager s g (fun y => { y with faulted := false })) 4 g
    getForager u g = { getForager s g with faulted := false } ∧ findRecovery u 4 g = none ∧ (∃ code, FaultTold u code 4 g 3)
      ∧ u.comb = s.comb ∧ u.runs = s.runs := by
  refine ⟨?_, findRecovery_endRecovery, ⟨x.code.toNat, ?_⟩, ?_, ?_⟩
  · rw [getForager, endRecovery_field State.foragers (fun _ _ => faultRecord_foragers ..) fun _ _ => rfl]
    exact getForager_setForager_same s g _ (w.foragers ▸ low)
  · exact faultTold_endRecovery (s := setForager s g (fun y => { y with faulted := false })) under
  · exact endRecovery_field State.comb (fun _ _ => faultRecord_comb ..) fun _ _ => rfl
  · exact endRecovery_field State.runs (fun _ _ => faultRecord_runs ..) fun _ _ => rfl

end Returns

/-- Settles O55: a plain move that is tried is copied, sent to its stack or left waiting, and what its stack answers commits
it, faults its run or has it done again. -/
theorem moveUnits : Obligations.MoveUnits := by
  unfold Obligations.MoveUnits
  intro s g sound clock
  have leads {c : Instr} {t : State} (e : exec c s = clocked s t) : exec c s = .next t := e.trans (clocked_of_clocked clock)
  refine ⟨fun up stopped => ?_, fun r rn i x working whole going idle hf hr steady sane room first issued plain clean up => ?_,
    fun m rest rn i working whole going waiting run issued plain clean up go => ?_, fun k => ⟨fun absent => ?_, fun absent res => ?_,
      fun m rn i there => ?_, fun m rn i there clean => ⟨fun res good => ?_, fun a => ?_, fun a => ?_, ?_⟩⟩, fun faulted under => ?_, fun off => ?_⟩
  · exact (leads rfl).trans (congrArg _ (foragerTake_stopped stopped))
  · exact ⟨_, (leads rfl).trans (congrArg _ (foragerTake_next working whole going idle hf hr steady sane room first)),
      moveTried (trial_takenBy sound g.isLt hr issued plain clean) up⟩
  · have there : m ∈ (getForager s g).moves := (List.mem_filter.mp (waiting ▸ List.mem_cons_self)).1
    exact ⟨_, leads rfl, moveTried_foragerTake ⟨sound, there, run, issued, plain, clean⟩ g.isLt working whole going waiting go⟩
  · refine (leads rfl).trans (congrArg _ ?_)
    rw [absent]
  · refine (leads rfl).trans (congrArg _ ?_)
    unfold stackReturn
    rw [absent]
  · refine ⟨_, (leads rfl).trans (congrArg _ ?_), commitMove_portReturned sound.2 k.isLt⟩
    rw [there]
    rfl
  · exact ⟨_, leads rfl, stackReturn_landed sound k.isLt there clean good⟩
  · exact ⟨_, leads rfl, stackReturn_lost sound.2 k.isLt there a⟩
  · obtain ⟨-, -, run, issued, on, -⟩ := stackMove_some there
    obtain ⟨⟨comb, -, gone⟩, runs, again, told⟩ := parityMet_redone (s := portReturned s k m) (g := g)
      (((setMemPort_kept (kept_refl s)).1 sound).2) run issued (isTiled_of_onStack on) k a
    obtain ⟨told, marked⟩ := told k.isLt
    exact ⟨_, (leads rfl).trans (congrArg _ (stackReturn_parity there a)), comb, runs, gone, marked, told, again⟩
  · obtain ⟨-, -, run, issued, on, -⟩ := stackMove_some there
    obtain ⟨⟨comb, -, gone⟩, runs, told, again⟩ := withheld_redone (s := portReturned s k m) (g := g)
      (((setMemPort_kept (kept_refl s)).1 sound).2) run issued (isTiled_of_onStack on)
    exact ⟨_, (leads rfl).trans (congrArg _ (stackReturn_dataCheck there)), comb, runs, gone, told, again⟩
  · obtain ⟨x, hx⟩ := Option.isSome_iff_exists.mp under
    exact ⟨_, (leads rfl).trans (congrArg _ (if_pos (by simp [faulted, under]))), foragerReset_working sound.2 g.isLt hx⟩
  · refine (leads rfl).trans (congrArg _ (if_neg ?_))
    rcases off with working | ended <;> simp [*]

end Sys2Proof.Machine
end

section
namespace Sys2Proof.Machine

/-! ## The bytes that element writes reach (R99) -/

/-- Where a write of an element, or of a byte, goes. -/
def writeAddrs : EWrite → List Nat
  | .byte a _ => [a]
  | .elem f b e _ => (elemBytes f b e).map Int.toNat

theorem storeElem_addrs (rd : Nat → Byte) (f : Nat) (b e : Int) (raw : Nat) :
    (storeElem rd f b e raw).map Prod.fst = (elemBytes f b e).map Int.toNat := by
  unfold storeElem
  exact List.map_fst_zip (by simp)

/-- The bytes written lie where the elements lie, whatever their neighbours hold. -/
theorem flattenWrites_addrs (rd : Nat → Byte) (ws : List EWrite) : (flattenWrites rd ws).map Prod.fst = ws.flatMap writeAddrs := by
  have append (acc : List (Nat × Byte)) : (ws.foldl (fun acc w =>
      match w with
      | .byte a v => acc ++ [(a, v)]
      | .elem f b e raw =>
        let rd' := fun a => if fmtBits f % 8 == 0 then rd a else
          match acc.reverse.find? (fun p => p.1 == a) with | some p => p.2 | none => rd a
        acc ++ storeElem rd' f b e raw) acc).map Prod.fst = acc.map Prod.fst ++ ws.flatMap writeAddrs := by
    induction ws generalizing acc with
    | nil => simp
    | cons w ws ih =>
      rw [List.foldl_cons, ih, List.flatMap_cons]
      cases w with
      | byte a v => simp [writeAddrs]
      | elem f b e raw => simp [writeAddrs, storeElem_addrs]
  exact append []

/-- Some of the writes reach no byte that not all of them reach. -/
theorem flattenWrites_filter_addrs {rd rd' : Nat → Byte} {ws : List EWrite} {p : EWrite → Bool} {b : Nat × Byte}
    (h : b ∈ flattenWrites rd (ws.filter p)) : ∃ b' ∈ flattenWrites rd' ws, b'.1 = b.1 := by
  have there : b.1 ∈ (flattenWrites rd (ws.filter p)).map Prod.fst := List.mem_map.mpr ⟨b, h, rfl⟩
  rw [flattenWrites_addrs] at there
  obtain ⟨w, hw, at_w⟩ := List.mem_flatMap.mp there
  have all : b.1 ∈ (flattenWrites rd' ws).map Prod.fst := by
    rw [flattenWrites_addrs]
    exact List.mem_flatMap.mpr ⟨w, (List.mem_filter.mp hw).1, at_w⟩
  obtain ⟨b', hb', same⟩ := List.mem_map.mp all
  exact ⟨b', hb', same⟩

end Sys2Proof.Machine
end

section
namespace Sys2Proof.Machine

/-! ## A worker's own changes -/

/-- Nothing but worker `w` differs. -/
def WorkerOnly (w : Nat) (s t : State) : Prop :=
  (∃ workers, t = { s with workers := workers } ∧ workers.length = s.workers.length) ∧ ∀ v, v ≠ w → getWorker t v = getWorker s v

section WorkerOnly
variable {s₀ s t : State} {w : Nat}

theorem workerOnly_refl (s : State) : WorkerOnly w s s := ⟨⟨_, rfl, rfl⟩, fun _ _ => rfl⟩

theorem setWorker_workerOnly {f : Worker → Worker} (h : WorkerOnly w s₀ s) : WorkerOnly w s₀ (setWorker s w f) := by
  obtain ⟨only, others⟩ := h
  refine ⟨?_, fun v hv => (getWorker_setWorker_ne s w v f hv.symm).trans (others v hv)⟩
  obtain ⟨_, rfl, count⟩ := only
  exact ⟨_, rfl, (updAt_length ..).trans count⟩

theorem WorkerOnly.ite {c : Prop} [Decidable c] (hs : WorkerOnly w s₀ s) (ht : WorkerOnly w s₀ t) : WorkerOnly w s₀ (if c then s else t) := by
  split
  · exact hs
  · exact ht

theorem WorkerOnly.field {α : Type} (h : WorkerOnly w s t) (f : State → α) (hf : ∀ workers, f { s with workers := workers } = f s) : f t = f s := by
  obtain ⟨⟨_, rfl, -⟩, -⟩ := h
  exact hf _

theorem WorkerOnly.workerCount (h : WorkerOnly w s t) : t.workers.length = s.workers.length := by
  obtain ⟨⟨_, rfl, count⟩, -⟩ := h
  exact count

end WorkerOnly

/-! ## The unit that a worker holds -/

theorem heldTile_some {s : State} {w : Nat} {h : Held} {rn : Run} {i : Issued} (e : heldTile s w = some (h, rn, i)) :
    (∃ rest, (getWorker s w).held = h :: rest) ∧ getRun s h.run = some rn ∧ findIssued rn h.ref.instr = some i ∧ h.copyOut = false := by
  unfold heldTile at e
  cases held : (getWorker s w).held with
  | nil => simp [held] at e
  | cons h' rest =>
    cases hr : getRun s h'.run with
    | none => simp [held, hr] at e
    | some rn' =>
      cases hi : findIssued rn' h'.ref.instr with
      | none => simp [held, hr, hi] at e
      | some i' =>
        simp only [held, hr, hi, Option.ite_none_left_eq_some, Bool.or_eq_true, not_or, Option.some.injEq, Prod.mk.injEq] at e
        obtain ⟨⟨copy, -⟩, rfl, rfl, rfl⟩ := e
        exact ⟨⟨rest, rfl⟩, hr, hi, by simpa using copy⟩

section Issue
variable {s : State} {w : Nat} {h : Held} {rn : Run} {i : Issued} {up : Upset} {ring conflict : Nat}

theorem issueTile_idle (idle : heldTile s w = none ∨ (getWorker s w).admission ≠ .admitted ∨ (getFrame s (workerFrame s w)).recovering = true) :
    issueTile s w up ring conflict = s := by
  unfold issueTile
  rcases idle with empty | shut | recovering
  · rw [empty]
  · split
    · rfl
    · exact if_pos (by simp [shut])
  · split
    · rfl
    · exact if_pos (by simp [recovering])

theorem issueTile_ready (held : heldTile s w = some (h, rn, i)) (admitted : (getWorker s w).admission = .admitted)
    (whole : (getFrame s (workerFrame s w)).recovering = false) : issueTile s w up ring conflict
      = match blockedSlot rn i (nth (unitTiles i.op i.tiling h.ref.unit) h.tile) with
        | some wt =>
          if cyclesCount (getWorker (setWorker s w (fun x => { x with wait := some wt })) w) i.op
            then addCyc (setWorker s w (fun x => { x with wait := some wt })) w 2 ring else setWorker s w (fun x => { x with wait := some wt })
        | none => runTile s w h.run rn i h up ring conflict := by
  unfold issueTile
  rw [held]
  simp only [admitted, whole]
  rfl

/-- A tile that a token does not allow yet: the worker waits, and the cycles of its wait are counted (R95, R178). -/
theorem issueTile_waits (width : s.workers.length = 68) (low : w < 68) (held : heldTile s w = some (h, rn, i))
    (admitted : (getWorker s w).admission = .admitted) (whole : (getFrame s (workerFrame s w)).recovering = false) {wt : Wait}
    (blocked : blockedSlot rn i (nth (unitTiles i.op i.tiling h.ref.unit) h.tile) = some wt) : let u := issueTile s w up ring conflict
    WorkerOnly w s u ∧ getWorker u w = { getWorker s w with
      wait := some wt
      cyc := if cyclesCount (getWorker s w) i.op then updAt (getWorker s w).cyc 2 (fun n => wrapAdd n ring) else (getWorker s w).cyc } := by
  have inside : w < s.workers.length := width ▸ low
  have waiting := getWorker_setWorker_same s w (fun x => { x with wait := some wt }) inside
  have e : issueTile s w up ring conflict = _ := issueTile_ready held admitted whole
  rw [blocked] at e
  have counts : cyclesCount (getWorker (setWorker s w (fun x => { x with wait := some wt })) w) i.op = cyclesCount (getWorker s w) i.op := by
    rw [waiting]
    rfl
  rw [e]
  dsimp only
  rw [counts]
  refine ⟨.ite (setWorker_workerOnly (setWorker_workerOnly (workerOnly_refl s))) (setWorker_workerOnly (workerOnly_refl s)), ?_⟩
  split
  · have ticked := getWorker_setWorker_same (setWorker s w (fun x => { x with wait := some wt })) w
      (fun x => { x with cyc := updAt x.cyc 2 (fun c => wrapAdd c ring) }) (by simpa using inside)
    rw [waiting] at ticked
    exact ticked
  · exact waiting

end Issue

end Sys2Proof.Machine
end

section
namespace Sys2Proof.Machine

/-! ## A tile's issue (R95, R178) -/

/-- The cycles of a worker after a tile's issue window, ring wait and turnaround (R150, R176, R177). -/
def windowCyc (x : Worker) (i : Issued) (first : Bool) (win : Nat × Nat) (pivots ring conflict : Nat) : List (BitVec 64) :=
  if cyclesCount x i.op then
    x.cyc.mapIdx (fun k n => wrapAdd n (if k = 0 then win.1 + (if first then pivots else 0) else if k = 1 then win.2 + conflict
      else if k = 2 then ring else if k = 3 ∧ first = true then 5 else 0))
  else x.cyc

/-- The state in which a tile's work begins: its window counted, and a sample that a seed or a table operation loses skipped. -/
def tileBegun (s : State) (w : Nat) (i : Issued) (h : Held) (c : TileCtx) (chain : ChainOut) (ws : List EWrite) (ring conflict : Nat) : State :=
  let s := countWindow s w i h c chain ws ring conflict
  if !i.op.micro && (i.op.opcode == 0x34 || i.op.opcode == 0x35) then setWorker s w skipSample else s

/-- The events of a tile, with those of its unit's issue when it is the first (R68). -/
def tileEvents (i : Issued) (h : Held) (c : TileCtx) (ev : Ev) : Ev :=
  if (h.tile == 0) = true ∧ h.ref.unit = i.units.headD h.ref.unit then ev.add (issueEvents c i) else ev

/-- The events that stop a tile: those that no guard takes up (R68, R271). -/
def tileStops (c : TileCtx) (ev : Ev) : List (BitVec 16) := ev.faults.filter (fun f => !(c.guarded && (f == 0x0210 || f == 0x0211)))

/-- A pending sample is gone or left, and the skips are counted. -/
theorem skipSample_eq (x : Worker) : skipSample x = { x with sample := (skipSample x).sample, sfnSkip := (skipSample x).sfnSkip } := by
  unfold skipSample
  split
  · rfl
  · rfl

section Begun
variable {s : State} {w : Nat} {i : Issued} {h : Held} {c : TileCtx} {chain : ChainOut} {ws : List EWrite} {ring conflict : Nat}

theorem tileBegun_workerOnly : WorkerOnly w s (tileBegun s w i h c chain ws ring conflict) := by
  have counted : WorkerOnly w s (countWindow s w i h c chain ws ring conflict) :=
    .ite (setWorker_workerOnly (workerOnly_refl s)) (workerOnly_refl s)
  exact .ite (setWorker_workerOnly counted) counted

theorem countWindow_worker (inside : w < s.workers.length) : getWorker (countWindow s w i h c chain ws ring conflict) w = { getWorker s w with
    cyc := windowCyc (getWorker s w) i (h.tile == 0) (tileWindow s w c chain ws) (pivotSlot c) ring conflict } := by
  unfold countWindow windowCyc
  dsimp only
  split
  · rw [getWorker_setWorker_same s w _ inside]
    simp
  · rfl

/-- Only its cycles and its sample change in a worker when a tile begins. -/
theorem tileBegun_worker (inside : w < s.workers.length) : ∃ sample skip, getWorker (tileBegun s w i h c chain ws ring conflict) w = { getWorker s w with
    cyc := windowCyc (getWorker s w) i (h.tile == 0) (tileWindow s w c chain ws) (pivotSlot c) ring conflict, sample := sample, sfnSkip := skip } := by
  have counted := countWindow_worker (s := s) (i := i) (h := h) (c := c) (chain := chain) (ws := ws) (ring := ring) (conflict := conflict) inside
  unfold tileBegun
  dsimp only
  split
  · have only : WorkerOnly w s (countWindow s w i h c chain ws ring conflict) :=
      .ite (setWorker_workerOnly (workerOnly_refl s)) (workerOnly_refl s)
    rw [getWorker_setWorker_same _ w _ (only.workerCount ▸ inside), counted]
    exact ⟨_, _, skipSample_eq _⟩
  · exact ⟨_, _, counted⟩

end Begun

section Run
variable {s : State} {w r : Nat} {rn : Run} {i : Issued} {h : Held} {ring conflict : Nat}

theorem runTile_upset {up : Upset} (hup : up = .laneParity ∨ up = .cellUncorrectable) : ∃ c chain ws code, faultClass code = 2 ∧
    runTile s w r rn i h up ring conflict = workerFault (tileBegun s w i h c chain ws ring conflict) w r h.ref code := by
  rcases hup with rfl | rfl
  · exact ⟨_, _, _, _, rfl, rfl⟩
  · exact ⟨_, _, _, _, rfl, rfl⟩

/-- The end of a tile's work without an upset: it meets poison, or a slot that does not hold what its CRC covers, or a fault of
its values, or it is written. -/
def tileFinished (s : State) (w r : Nat) (rn : Run) (i : Issued) (h : Held) (c : TileCtx) (ws : List EWrite) (ev : Ev) (rows : List RowEntry)
    (reads : List (Nat × Nat)) (last : Bool) : State :=
  match poisonMet s c (runChain c) (flattenWrites c.rd ws) with
  | some a => combFault (dropHeld s w) r h.ref a
  | none =>
    match crcMismatch s rn reads with
    | some p => lostData (dropHeld s w) r h.ref (slotBase (nth rn.rings p.1) p.2)
    | none =>
      match tileStops c ev with
      | f :: _ => runFault (dropHeld s w) r f h.ref.instr h.ref.unit
      | [] => tileWritten s w r rn i h c ws ev rows last .none

theorem runTile_none : let T := nth (unitTiles i.op i.tiling h.ref.unit) h.tile
    let last := h.tile + 1 == (unitTiles i.op i.tiling h.ref.unit).length
    let c := tileCtx s rn i w T
    let work := tileWork (tileCtx s rn i w) i h.ref.unit T (h.tile == 0) last (heldRows (getWorker s w) i)
    runTile s w r rn i h .none ring conflict
      = tileFinished (tileBegun s w i h c (runChain c) work.1 ring conflict) w r rn i h c work.1 (tileEvents i h c work.2.1) work.2.2
          (tileReadSlots rn i T) last := by
  intro T last c work
  have events : (if h.tile == 0 && h.ref.unit == i.units.headD h.ref.unit then work.2.1.add (issueEvents c i) else work.2.1)
      = tileEvents i h c work.2.1 := by
    simp [tileEvents]
  rw [← events]
  rfl

section Finished
variable {c : TileCtx} {ws : List EWrite} {ev : Ev} {rows : List RowEntry} {reads : List (Nat × Nat)} {last : Bool}

theorem tileFinished_mismatch (clean : s.poison = []) {p : Nat × Nat} (bad : crcMismatch s rn reads = some p) :
    tileFinished s w r rn i h c ws ev rows reads last = lostData (dropHeld s w) r h.ref (slotBase (nth rn.rings p.1) p.2) := by
  simp [tileFinished, poisonMet, clean, bad]

theorem tileFinished_faulted (clean : s.poison = []) (good : crcMismatch s rn reads = none) {f : BitVec 16} {rest : List (BitVec 16)}
    (stops : tileStops c ev = f :: rest) :
    tileFinished s w r rn i h c ws ev rows reads last = runFault (dropHeld s w) r f h.ref.instr h.ref.unit := by
  simp [tileFinished, poisonMet, clean, good, stops]

theorem tileFinished_written (clean : s.poison = []) (good : crcMismatch s rn reads = none) (stops : tileStops c ev = []) :
    tileFinished s w r rn i h c ws ev rows reads last = tileWritten s w r rn i h c ws ev rows last .none := by
  simp [tileFinished, poisonMet, clean, good, stops]

end Finished

theorem crcMismatch_congr {t : State} (comb : t.comb = s.comb) (reads : List (Nat × Nat)) : crcMismatch t rn reads = crcMismatch s rn reads := by
  unfold crcMismatch combBytes
  rw [comb]

end Run

end Sys2Proof.Machine
end

section
namespace Sys2Proof.Machine

/-! ## Data that is lost (R36, R151, R352) -/

theorem mendPage_of_low {s : State} {a : Nat} (h : a % 2 ^ 25 < 0x1F00000) : mendPage s a = s := if_pos h

/-- Has an order lost the word at an address before? -/
def LostBefore (s : State) (rn : Run) (a : Nat) : Prop := ∃ o, orderOf s rn = some o ∧ a / 8 ∈ o.redoneAt

theorem getRun_congr {s t : State} (h : t.runs = s.runs) (r : Nat) : getRun t r = getRun s r := by rw [getRun, h, getRun]

theorem faultable_congr {s t : State} (h : t.runs = s.runs) {r : Nat} : Faultable t r ↔ Faultable s r := by
  simp only [Faultable, getRun_congr h]

section Lost
variable {s : State} {r : Nat} {rn : Run} {ref : UnitRef} {a : Nat}

theorem lostBefore_iff : (match orderOf s rn with | some o => o.redoneAt.contains (a / 8) | none => false) = true ↔ LostBefore s rn a := by
  unfold LostBefore
  split
  · next o h => simp [h]
  · next h => simp [h]

theorem lostData_eq_again (hr : getRun s r = some rn) (low : a % 2 ^ 25 < 0x1F00000) (before : LostBefore s rn a) : lostData s r ref a
    = runFault (invalidate (runFault s r 0x0222 ref.instr ref.unit) r (regionsAt rn.image a)) r 0x0292 ref.instr ref.unit (phase := 4) := by
  unfold lostData
  rw [hr]
  exact (if_pos (lostBefore_iff.mpr before)).trans (mendPage_of_low low)

theorem lostData_eq_first (hr : getRun s r = some rn) (low : a % 2 ^ 25 < 0x1F00000) (fresh : ¬ LostBefore s rn a) : lostData s r ref a
    = interruptUnit (runFault (setOrder s (runOrder s r) (fun o => { o with redoneAt := o.redoneAt ++ [a / 8] })) r 0x0222 ref.instr ref.unit
        (redone := 1)) r ref := by
  unfold lostData
  rw [hr]
  exact (if_neg (mt lostBefore_iff.mp fresh)).trans (mendPage_of_low low)

/-- No byte of the comb and no worker changes when data is lost outside a Heirloom page. -/
theorem lostData_leaves (hr : getRun s r = some rn) (low : a % 2 ^ 25 < 0x1F00000) :
    (lostData s r ref a).comb = s.comb ∧ (lostData s r ref a).workers = s.workers := by
  by_cases before : LostBefore s rn a
  · rw [lostData_eq_again hr low before]
    exact ⟨runFault_comb.trans (runFault_comb (s := s)), runFault_workers.trans (runFault_workers (s := s))⟩
  · rw [lostData_eq_first hr low before]
    exact ⟨(interruptUnit_comb ..).trans runFault_comb, (interruptUnit_workers ..).trans runFault_workers⟩

/-- Data that is lost a second time there faults the run (R36). -/
theorem lostData_again (hr : getRun s r = some rn) (low : a % 2 ^ 25 < 0x1F00000) (before : LostBefore s rn a) :
    FaultTold (lostData s r ref a) 0x0292 0 0xFF 4 ∧ (Faultable s r → FaultedAt (lostData s r ref a) r 0x0292 ref) := by
  have runs : (invalidate (runFault s r 0x0222 ref.instr ref.unit) r (regionsAt rn.image a)).runs = s.runs :=
    runFault_runs_of_classB rfl
  rw [lostData_eq_again hr low before]
  exact ⟨faultTold_runFault ((getRun_congr runs r).trans hr), fun h => faultedAt_runFault ((faultable_congr runs).mpr h) (by decide)⟩

/-- Data that is lost the first time there has its unit done again (R36). -/
theorem lostData_first {i : Issued} (hr : getRun s r = some rn) (low : a % 2 ^ 25 < 0x1F00000) (fresh : ¬ LostBefore s rn a)
    (hi : findIssued rn ref.instr = some i) :
    FaultTold (lostData s r ref a) 0x0222 0 0xFF 1 ∧ (lostData s r ref a).runs = s.runs
      ∧ (i.op.micro = true ∨ isTiled i.op = true → homeOf rn.image i ref.unit < s.frames.length →
          ref ∈ (getFrame (lostData s r ref a) (homeOf rn.image i ref.unit)).replay) := by
  have told : FaultTold (runFault (setOrder s (runOrder s r) (fun o => { o with redoneAt := o.redoneAt ++ [a / 8] })) r 0x0222 ref.instr ref.unit
      (redone := 1)) 0x0222 0 0xFF 1 := faultTold_runFault (s := setOrder s _ _) hr
  have runs : (runFault (setOrder s (runOrder s r) (fun o => { o with redoneAt := o.redoneAt ++ [a / 8] })) r 0x0222 ref.instr ref.unit
      (redone := 1)).runs = s.runs := runFault_runs_of_classB rfl
  have frames : (runFault (setOrder s (runOrder s r) (fun o => { o with redoneAt := o.redoneAt ++ [a / 8] })) r 0x0222 ref.instr ref.unit
      (redone := 1)).frames = s.frames := runFault_frames
  rw [lostData_eq_first hr low fresh]
  generalize runFault (setOrder s _ _) r 0x0222 ref.instr ref.unit (redone := 1) = t at told runs frames ⊢
  refine ⟨?_, ?_, fun tiled home => ?_⟩
  · unfold FaultTold
    rw [interruptUnit_keeper]
    exact told
  · rw [interruptUnit_runs, runs]
  · exact mem_replay_interruptUnit ((getRun_congr runs r).trans hr) hi tiled (frames ▸ home)

end Lost

section Drop
variable {s : State} {w : Nat}

theorem getWorker_dropHeld (inside : w < s.workers.length) : getWorker (dropHeld s w) w = { getWorker s w with held := [], wait := none } :=
  getWorker_setWorker_same s w _ inside

theorem dropHeld_workerOnly : WorkerOnly w s (dropHeld s w) := setWorker_workerOnly (workerOnly_refl s)

theorem WorkerOnly.trans {t u : State} (h : WorkerOnly w s t) (h' : WorkerOnly w t u) : WorkerOnly w s u := by
  obtain ⟨⟨_, rfl, count⟩, others⟩ := h
  obtain ⟨⟨_, rfl, count'⟩, others'⟩ := h'
  exact ⟨⟨_, rfl, count'.trans count⟩, fun v hv => (others' v hv).trans (others v hv)⟩

theorem getWorker_congr {t : State} (h : t.workers = s.workers) (v : Nat) : getWorker t v = getWorker s v := by rw [getWorker, h, getWorker]

/-- A worker that has dropped its unit holds none, whatever else then happens that changes no worker. -/
theorem held_dropHeld {t : State} (inside : w < s.workers.length) (h : t.workers = (dropHeld s w).workers) : (getWorker t w).held = [] := by
  rw [getWorker_congr h, getWorker_dropHeld inside]

end Drop

end Sys2Proof.Machine
end

section
namespace Sys2Proof.Machine

/-! ## A worker is fenced (R464) -/

section Tear
variable {s : State} {who : Option Nat} {h : Held}

/-- What is invalid after a tile is torn: the regions that its unit writes in place. -/
def tornRegions (rn : Run) (h : Held) : List Nat :=
  match findIssued rn h.ref.instr with
  | some i => (roleDescs i.op 3).flatMap (fun j => reachedRegions rn.image (nth i.op.descs j) (nth i.sizes j))
  | none => []

theorem tearUnit_eq {rn : Run} (hr : getRun s h.run = some rn) : ∃ domain inst phase, tearUnit who s h
    = runFault (invalidate s h.run (tornRegions rn h)) h.run 0x0292 h.ref.instr h.ref.unit domain inst 0 phase := by
  unfold tearUnit
  rw [hr]
  cases who with
  | none => exact ⟨_, _, _, rfl⟩
  | some w => exact ⟨_, _, _, rfl⟩

/-- What neither a record, nor the runs, nor the orders show, a torn tile leaves alone. -/
theorem tearUnit_field {α : Type} (f : State → α) (hf : ∀ t i o, f (faultRecord t i o) = f t)
    (hr : ∀ (t : State) (r : Nat) (g : Run → Run), f (setRun t r g) = f t)
    (ho : ∀ (t : State) (n : BitVec 64) (g : Order → Order), f (setOrder t n g) = f t) : f (tearUnit who s h) = f s := by
  cases run : getRun s h.run with
  | none =>
    unfold tearUnit
    rw [run]
  | some rn =>
    obtain ⟨_, _, _, e⟩ := tearUnit_eq (who := who) run
    rw [e, runFault_field f (hf _) fun _ _ => hr _ _ _]
    exact ho _ _ _

end Tear

/-- The parts of which no step of a fence but those named for them takes any. -/
def fencedParts (s : State) : List Host.Cell × List Host.Cell × List Frame × List Recovery × List Nat :=
  (s.comb, s.stackMem, s.frames, s.keeper.recoveries, s.keeper.oosWorker)

theorem tearUnit_fencedParts {s : State} {who : Option Nat} {h : Held} : fencedParts (tearUnit who s h) = fencedParts s :=
  tearUnit_field fencedParts (fun t i o => by simp [fencedParts]) (fun _ _ _ => rfl) fun _ _ _ => rfl

theorem tearUnit_workers {s : State} {who : Option Nat} {h : Held} : (tearUnit who s h).workers = s.workers :=
  tearUnit_field State.workers (fun _ _ _ => faultRecord_workers ..) (fun _ _ _ => rfl) fun _ _ _ => rfl

/-- A value that every step of a fold keeps. -/
theorem foldl_field {α β : Type} (f : State → β) (g : State → α → State) (hg : ∀ t a, f (g t a) = f t) (l : List α) (s : State) :
    f (l.foldl g s) = f s := by
  induction l generalizing s with
  | nil => rfl
  | cons a l ih => exact (ih _).trans (hg s a)

/-! ### The units that are redone -/

theorem mem_replay_foldl_interrupt {s : State} {l : List Held} {h : Held} {rn : Run} {i : Issued} (there : h ∈ l) (hr : getRun s h.run = some rn)
    (hi : findIssued rn h.ref.instr = some i) (ht : i.op.micro = true ∨ isTiled i.op = true)
    (hf : homeOf rn.image i h.ref.unit < s.frames.length) :
    h.ref ∈ (getFrame (l.foldl (fun s h => interruptUnit s h.run h.ref) s) (homeOf rn.image i h.ref.unit)).replay := by
  induction l generalizing s with
  | nil => cases there
  | cons k l ih =>
    have step := interruptUnit_requeued s k.run k.ref
    rcases List.mem_cons.mp there with rfl | later
    · exact (foldl_requeued _ l (fun t k => interruptUnit_requeued t k.run k.ref) _).replay _ (mem_replay_interruptUnit hr hi ht hf)
    · exact ih later ((step.field (getRun · h.run) fun _ => rfl).trans hr) (step.frameCount ▸ hf)

/-! ### The fence -/

/-- The worker is cut off: its epoch advances, and its open units are done again. -/
def fenceCut (s : State) (w : Nat) : State :=
  setWorker (((getWorker s w).held.filter (fun h => !h.copyOut)).foldl (fun s h => interruptUnit s h.run h.ref) s) w
    (fun x => skipSample { x with epoch := x.epoch + 1, admission := .fenced, held := x.held.filter Held.copyOut, wait := none, rowState := [] })

/-- The recovery of a worker begins, and its second phase is recorded (R453). -/
def fenceBegun (s : State) (w : Nat) (code : BitVec 16) (redone instr unit : Nat) : State :=
  phaseRecord (beginRecovery s 1 w code) 1 w 2 code redone instr unit

/-- The phases that the recovery of a worker passes at once (R468). -/
def fenceNoted (s : State) (w : Nat) (code : BitVec 16) (again second : Bool) : State :=
  if again then
    setKeeper (phaseRecord s 1 w 5 code) (fun k =>
      { k with oosWorker := k.oosWorker ++ [w], recoveries := k.recoveries.filter (fun x => !(x.domain == 1 && x.inst == w)) })
  else if second then noteReset (phaseRecord s 1 w 4 code) 1 w else s

/-- What a fenced worker leaves: a spare is asked for, or the worker is reset (R465). -/
def fenceLeft (s : State) (x : Worker) (w : Nat) (again : Bool) : State :=
  match x.serves with
  | some n =>
    if w < 64 && spareFree s (spareOf n) then askSpare s n again true
    else setWorker ((x.held.filter Held.copyOut).foldl (tearUnit (some w)) s) w (leaveOrReadmit again)
  | none => setWorker s w (leaveOrReadmit again)

theorem fenceWorker_eq (s : State) (w : Nat) (code : BitVec 16) : ∃ redone instr unit second, fenceWorker s w code
    = fenceLeft (fenceNoted (fenceBegun (fenceCut s w) w code redone instr unit) w code (resetBefore (fenceCut s w) 1 w) second) (getWorker s w) w
        (resetBefore (fenceCut s w) 1 w) :=
  ⟨_, _, _, _, rfl⟩

section Fence
variable {s : State} {w : Nat} {code : BitVec 16} {again second : Bool} {x : Worker}

theorem interrupted_requeued (s : State) (l : List Held) : Requeued s (l.foldl (fun s h => interruptUnit s h.run h.ref) s) :=
  foldl_requeued _ l (fun t k => interruptUnit_requeued t k.run k.ref) s

theorem resetBefore_fenceCut : resetBefore (fenceCut s w) 1 w = resetBefore s 1 w :=
  (interrupted_requeued s ((getWorker s w).held.filter (fun h => !h.copyOut))).field (resetBefore · 1 w) fun _ => rfl

theorem getWorker_fenceCut (inside : w < s.workers.length) : (getWorker (fenceCut s w) w).epoch = (getWorker s w).epoch + 1
    ∧ (getWorker (fenceCut s w) w).admission = .fenced := by
  have cut := interrupted_requeued s ((getWorker s w).held.filter (fun h => !h.copyOut))
  unfold fenceCut
  rw [getWorker_setWorker_same _ w _ ((cut.field (fun t => t.workers.length) fun _ => rfl) ▸ inside), cut.field (getWorker · w) fun _ => rfl,
    skipSample_eq]
  exact ⟨rfl, rfl⟩

theorem phaseRecord_field {α : Type} (f : State → α) (hf : ∀ i, f (faultRecord s i none) = f s) {domain inst phase redone instr unit : Nat} :
    f (phaseRecord s domain inst phase code redone instr unit) = f s := by
  obtain ⟨i, -, -, -, -, e⟩ := phaseRecord_eq s domain inst phase code redone instr unit
  rw [e, hf]

theorem fenceBegun_field {α : Type} (f : State → α) (hf : ∀ t i, f (faultRecord t i none) = f t)
    (hk : ∀ (t : State) (g : Keeper → Keeper), f (setKeeper t g) = f t) {redone instr unit : Nat} : f (fenceBegun s w code redone instr unit) = f s :=
  (phaseRecord_field f (hf _)).trans (beginRecovery_field f fun _ => hk _ _)

theorem findRecovery_fenceBegun {redone instr unit : Nat} : (findRecovery (fenceBegun s w code redone instr unit) 1 w).isSome = true := by
  have same : (fenceBegun s w code redone instr unit).keeper.recoveries = (beginRecovery s 1 w code).keeper.recoveries :=
    phaseRecord_field (fun t => t.keeper.recoveries) fun i => faultRecord_recoveries _ i none
  rw [findRecovery_congr same]
  exact findRecovery_beginRecovery

/-- What neither a record nor the Keeper shows, the phases of a recovery leave alone. -/
theorem fenceNoted_field {α : Type} (f : State → α) (hf : ∀ i, f (faultRecord s i none) = f s)
    (hk : ∀ (t : State) (g : Keeper → Keeper), f (setKeeper t g) = f t) : f (fenceNoted s w code again second) = f s := by
  unfold fenceNoted noteReset
  split
  · exact (hk _ _).trans (phaseRecord_field f hf)
  · split
    · exact (hk _ _).trans (phaseRecord_field f hf)
    · rfl

/-- A first failure leaves the recovery that has begun (R468). -/
theorem findRecovery_fenceNoted (under : (findRecovery s 1 w).isSome = true) :
    (findRecovery (fenceNoted s w code false second) 1 w).isSome = true := by
  cases second with
  | false => exact under
  | true =>
    have noted : fenceNoted s w code false true = noteReset (phaseRecord s 1 w 4 code) 1 w := rfl
    rw [noted, findRecovery_congr (noteReset_recoveries ..), findRecovery_congr (phaseRecord_recoveries ..)]
    exact under

/-- A second failure in the hour takes the worker out of service (R468). -/
theorem mem_oosWorker_fenceNoted : w ∈ (fenceNoted s w code true second).keeper.oosWorker := by
  unfold fenceNoted
  rw [if_pos rfl, setKeeper_keeper]
  exact List.mem_append_right _ (List.mem_singleton.mpr rfl)

theorem fenceLeft_parts : fencedParts (fenceLeft s x w again) = fencedParts s := by
  unfold fenceLeft
  split
  · split
    · rfl
    · exact foldl_field fencedParts _ (fun _ _ => tearUnit_fencedParts) _ s
  · rfl

theorem wipeWorker_epoch : (wipeWorker x).epoch = x.epoch := by
  unfold wipeWorker clearCounters
  rw [skipSample_eq]

theorem leaveOrReadmit_worker : (leaveOrReadmit again x).epoch = x.epoch ∧ (leaveOrReadmit again x).admission ≠ .admitted := by
  cases again with
  | true => exact ⟨wipeWorker_epoch, nofun⟩
  | false => exact ⟨wipeWorker_epoch, nofun⟩

theorem fenceLeft_worker (inside : w < s.workers.length) (fenced : (getWorker s w).admission = .fenced) :
    (getWorker (fenceLeft s x w again) w).epoch = (getWorker s w).epoch ∧ (getWorker (fenceLeft s x w again) w).admission ≠ .admitted := by
  have left {t : State} (same : t.workers = s.workers) : (getWorker (setWorker t w (leaveOrReadmit again)) w).epoch = (getWorker s w).epoch
      ∧ (getWorker (setWorker t w (leaveOrReadmit again)) w).admission ≠ .admitted := by
    rw [getWorker_setWorker_same t w _ (same ▸ inside), getWorker_congr same]
    exact leaveOrReadmit_worker
  unfold fenceLeft
  split
  · split
    · refine ⟨rfl, ?_⟩
      show (getWorker s w).admission ≠ .admitted
      rw [fenced]
      exact nofun
    · exact left (foldl_field State.workers _ (fun _ _ => tearUnit_workers) _ s)
  · exact left rfl

/-- A fenced worker: no byte changes, its epoch advances, it takes no unit, and it recovers or leaves service. -/
theorem fenceWorker_leaves (inside : w < s.workers.length) : let u := fenceWorker s w code
    u.comb = s.comb ∧ u.stackMem = s.stackMem ∧ u.frames = (fenceCut s w).frames
      ∧ (getWorker u w).epoch = (getWorker s w).epoch + 1 ∧ (getWorker u w).admission ≠ .admitted
      ∧ (resetBefore s 1 w = false → (findRecovery u 1 w).isSome = true) ∧ (resetBefore s 1 w = true → w ∈ u.keeper.oosWorker) := by
  intro u
  obtain ⟨redone, instr, unit, second, e⟩ := fenceWorker_eq s w code
  have cut := interrupted_requeued s ((getWorker s w).held.filter (fun h => !h.copyOut))
  have comb : (fenceCut s w).comb = s.comb := cut.field State.comb fun _ => rfl
  have stackMem : (fenceCut s w).stackMem = s.stackMem := cut.field State.stackMem fun _ => rfl
  have count : (fenceCut s w).workers.length = s.workers.length :=
    (updAt_length ..).trans (cut.field (fun t => t.workers.length) fun _ => rfl)
  obtain ⟨epoch, fenced⟩ := getWorker_fenceCut inside
  rw [resetBefore_fenceCut] at e
  generalize fenceCut s w = t at e comb stackMem count epoch fenced ⊢
  have under : (findRecovery (fenceBegun t w code redone instr unit) 1 w).isSome = true := findRecovery_fenceBegun
  have keeps {α : Type} (f : State → α) (hf : ∀ t i, f (faultRecord t i none) = f t)
      (hk : ∀ (t : State) (g : Keeper → Keeper), f (setKeeper t g) = f t) :
      f (fenceNoted (fenceBegun t w code redone instr unit) w code (resetBefore s 1 w) second) = f t :=
    (fenceNoted_field f (hf _) hk).trans (fenceBegun_field f hf hk)
  generalize fenceBegun t w code redone instr unit = p at e under keeps
  have noted : fencedParts (fenceLeft (fenceNoted p w code (resetBefore s 1 w) second) (getWorker s w) w (resetBefore s 1 w))
      = fencedParts (fenceNoted p w code (resetBefore s 1 w) second) := fenceLeft_parts
  rw [← e] at noted
  simp only [fencedParts, Prod.mk.injEq] at noted
  obtain ⟨comb', stackMem', frames', recoveries, oos⟩ := noted
  have workers := keeps State.workers (fun t i => faultRecord_workers t i none) fun _ _ => rfl
  obtain ⟨same, shut⟩ := fenceLeft_worker (x := getWorker s w) (again := resetBefore s 1 w) ((workers ▸ count) ▸ inside)
    ((congrArg Worker.admission (getWorker_congr workers w)).trans fenced)
  rw [← e] at same shut
  refine ⟨?_, ?_, ?_, ?_, shut, fun first => ?_, fun later => ?_⟩
  · exact comb'.trans ((keeps State.comb (fun t i => faultRecord_comb t i none) fun _ _ => rfl).trans comb)
  · exact stackMem'.trans ((keeps State.stackMem (fun t i => faultRecord_stackMem t i none) fun _ _ => rfl).trans stackMem)
  · exact frames'.trans (keeps State.frames (fun t i => faultRecord_frames t i none) fun _ _ => rfl)
  · rw [same, getWorker_congr workers, epoch]
  · rw [findRecovery_congr recoveries, first]
    exact findRecovery_fenceNoted under
  · rw [oos, later]
    exact mem_oosWorker_fenceNoted

/-- A fault of a worker's domain while it runs a unit's tile (R108, R151, R464). -/
theorem workerFault_leaves {r : Nat} {h : Held} {rn : Run} {i : Issued} (classB : faultClass code = 2) (inside : w < s.workers.length)
    (there : h ∈ (getWorker s w).held) (now : h.copyOut = false) (hr : getRun s h.run = some rn) (hi : findIssued rn h.ref.instr = some i) :
    let u := workerFault s w r h.ref code
    u.comb = s.comb ∧ u.stackMem = s.stackMem ∧ (getWorker u w).epoch = (getWorker s w).epoch + 1 ∧ (getWorker u w).admission ≠ .admitted
      ∧ (resetBefore s 1 w = false → (findRecovery u 1 w).isSome = true) ∧ (resetBefore s 1 w = true → w ∈ u.keeper.oosWorker)
      ∧ (i.op.micro = true ∨ isTiled i.op = true → homeOf rn.image i h.ref.unit < s.frames.length →
          h.ref ∈ (getFrame u (homeOf rn.image i h.ref.unit)).replay) := by
  intro u
  have e : u = fenceWorker (runFault s r code h.ref.instr h.ref.unit 1 w) w code := rfl
  have comb : (runFault s r code h.ref.instr h.ref.unit 1 w).comb = s.comb := runFault_comb
  have stackMem : (runFault s r code h.ref.instr h.ref.unit 1 w).stackMem = s.stackMem := runFault_stackMem
  have workers : (runFault s r code h.ref.instr h.ref.unit 1 w).workers = s.workers := runFault_workers
  have frames : (runFault s r code h.ref.instr h.ref.unit 1 w).frames = s.frames := runFault_frames
  have runs : (runFault s r code h.ref.instr h.ref.unit 1 w).runs = s.runs := runFault_runs_of_classB classB
  have reset : resetBefore (runFault s r code h.ref.instr h.ref.unit 1 w) 1 w = resetBefore s 1 w := by
    simp [resetBefore]
  generalize runFault s r code h.ref.instr h.ref.unit 1 w = t at e comb stackMem workers frames runs reset
  obtain ⟨comb', stackMem', frames', epoch, shut, recovers, leaves⟩ := fenceWorker_leaves (s := t) (code := code) (workers ▸ inside)
  rw [← e] at comb' stackMem' frames' epoch shut recovers leaves
  rw [getWorker_congr workers] at epoch
  rw [reset] at recovers leaves
  refine ⟨comb'.trans comb, stackMem'.trans stackMem, epoch, shut, recovers, leaves, fun tiled home => ?_⟩
  have kept : h ∈ (getWorker t w).held.filter (fun h => !h.copyOut) := by
    rw [getWorker_congr workers]
    exact List.mem_filter.mpr ⟨there, by simp [now]⟩
  rw [getFrame, frames']
  exact mem_replay_foldl_interrupt kept ((getRun_congr runs _).trans hr) hi tiled (frames ▸ home)

end Fence

end Sys2Proof.Machine
end

section
namespace Sys2Proof.Machine

/-! ## A tile is written (R94, R133, R178, R458) -/

/-- What of a tile's writes reaches the comb at once. -/
def directWrites (c : TileCtx) (ws : List EWrite) : List (Nat × Byte) := flattenWrites c.rd (ws.filter (fun x => !homeWrite c x))

/-- The bytes of a tile's writes to the descriptor `j` that lies in place. -/
def homeBytes (c : TileCtx) (ws : List EWrite) (j : Nat) : List (Nat × Byte) :=
  flattenWrites c.rd (ws.filter (homeWrite { c with op := { c.op with descs := c.op.descs.mapIdx (fun k d =>
    if d.role == 3 && k != j then { d with role := 1 } else d) } }))

/-- What of a tile's writes reaches the comb by way of the commit slot (R99). -/
def homeWrites (i : Issued) (c : TileCtx) (ws : List EWrite) : List (Nat × Byte) :=
  (slotPlaces ((roleDescs i.op 3).map (homeBytes c ws))).map (fun p => (p.2.1, p.2.2))

/-- The state when a tile's bytes, events, rows and fold are in place. -/
def tileStored (s : State) (w : Nat) (i : Issued) (h : Held) (c : TileCtx) (ws : List EWrite) (ev : Ev) (rows : List RowEntry) (last : Bool) :
    State :=
  let s := writeComb (writeComb s (directWrites c ws)) (homeWrites i c ws)
  let s := setWorker s w (fun x => { keepRows (stageTile c i (countEvents x ev)) i rows with held := [h], wait := none })
  if last && cyclesCount (getWorker s w) i.op then addCyc s w 3 (foldWait i) else s

/-- The slots that a tile passes on, its sample, and the trip of its layer. -/
def tileBooked (s before : State) (w r : Nat) (rn : Run) (i : Issued) (c : TileCtx) (ws : List EWrite) (ev : Ev) : State :=
  let s := sampleTile (passSlots s r (tileReadSlots rn i c.tile) (tileWriteSlots rn i c.tile)) before rn i w c
  if c.guarded && (ws.any nonFiniteWrite || !ev.faults.isEmpty)
    then tripLayer s r i c.tile (if ws.any nonFiniteWrite && ev.faults.isEmpty then 0 else ev.faults.headD 0) else s

/-- The unit that a worker holds after a tile: at its next tile, with the slots that it has read. -/
def nextTile (h : Held) (rn : Run) (i : Issued) (c : TileCtx) : Held := { h with tile := h.tile + 1, seqs := h.seqs ++ tileReadSlots rn i c.tile }

section Written
variable {s s₀ before : State} {w r : Nat} {rn : Run} {i : Issued} {h : Held} {c : TileCtx} {ws : List EWrite} {ev : Ev} {rows : List RowEntry} {last : Bool}

theorem tileWritten_none : tileWritten s w r rn i h c ws ev rows last .none
    = if !last then tileBooked (tileStored s w i (nextTile h rn i c) c ws ev rows last) s w r rn i c ws ev
      else unitDone (tileBooked (tileStored s w i (nextTile h rn i c) c ws ev rows last) s w r rn i c ws ev) r w (nextTile h rn i c) :=
  rfl

theorem tileBooked_books (h : Books s₀ s) : Books s₀ (tileBooked s before w r rn i c ws ev) :=
  .ite (tripLayer_books (sampleTile_books (passSlots_books h))) (sampleTile_books (passSlots_books h))

theorem tileBooked_undisturbed (h : Undisturbed s₀ s) : Undisturbed s₀ (tileBooked s before w r rn i c ws ev) :=
  .ite (tripLayer_undisturbed (sampleTile_undisturbed (passSlots_undisturbed h))) (sampleTile_undisturbed (passSlots_undisturbed h))

theorem setWorker_undisturbed {f : Worker → Worker} (h : Undisturbed s₀ s) : Undisturbed s₀ (setWorker s w f) := h.parts rfl

theorem writeComb_undisturbed {bs : List (Nat × Byte)} (h : Undisturbed s₀ s) : Undisturbed s₀ (writeComb s bs) := h.parts rfl

theorem tileStored_undisturbed (h' : Undisturbed s₀ s) : Undisturbed s₀ (tileStored s w i h c ws ev rows last) := by
  have stored {f : Worker → Worker} : Undisturbed s₀ (setWorker (writeComb (writeComb s (directWrites c ws)) (homeWrites i c ws)) w f) :=
    setWorker_undisturbed (writeComb_undisturbed (writeComb_undisturbed h'))
  unfold tileStored
  dsimp only
  split
  · exact setWorker_undisturbed stored
  · exact stored

/-- After a tile its unit's entries stand in the row-state memory, or in a cell; its events are counted. -/
theorem keptTile_eq (x : Worker) : keepRows (stageTile c i (countEvents x ev)) i rows = { countEvents x ev with
    rowState := (keepRows x i rows).rowState, cells := (keepRows (stageTile c i x) i rows).cells } := by
  unfold keepRows stageTile
  split
  · split
    · rfl
    · rfl
  · split
    · split
      · rfl
      · rfl
    · split
      · rfl
      · rfl

theorem keptSeed_cells (x : Worker) (seed : isSeedOp i.op = true) (some_ : rows ≠ []) :
    (keepRows (stageTile c i x) i rows).cells = memLay 0 seedCell (seedBytes rows) x.cells := by
  have once : readsTwice i.op = false := by
    simp only [isSeedOp, Bool.and_eq_true, beq_iff_eq] at seed
    simp [readsTwice, seed.2]
  have same : stageTile c i x = x := by simp [stageTile, once]
  simp [keepRows, same, seed, some_]

/-- A worker after its tile: the unit that it holds then, its events, rows and cycles. -/
def storedWorker (x : Worker) (i : Issued) (c : TileCtx) (ev : Ev) (rows : List RowEntry) (last : Bool) (held : List Held) : Worker :=
  { countEvents x ev with
    rowState := (keepRows x i rows).rowState, cells := (keepRows (stageTile c i x) i rows).cells, held := held, wait := none
    cyc := if last && cyclesCount x i.op then updAt x.cyc 3 (fun n => wrapAdd n (foldWait i)) else x.cyc }

theorem tileStored_worker (inside : w < s.workers.length) :
    getWorker (tileStored s w i h c ws ev rows last) w = storedWorker (getWorker s w) i c ev rows last [h] := by
  unfold tileStored
  dsimp only
  have stored := getWorker_setWorker_same (writeComb (writeComb s (directWrites c ws)) (homeWrites i c ws)) w
    (fun x => { keepRows (stageTile c i (countEvents x ev)) i rows with held := [h], wait := none }) inside
  have same : getWorker (writeComb (writeComb s (directWrites c ws)) (homeWrites i c ws)) w = getWorker s w := rfl
  rw [same, keptTile_eq] at stored
  have counts : cyclesCount (getWorker s w) i.op = cyclesCount (getWorker (setWorker (writeComb (writeComb s (directWrites c ws)) (homeWrites i c ws)) w
      (fun x => { keepRows (stageTile c i (countEvents x ev)) i rows with held := [h], wait := none })) w) i.op := by
    rw [stored]
    rfl
  unfold storedWorker
  rw [counts]
  split
  · unfold addCyc
    rw [getWorker_setWorker_same _ w _ ((updAt_length ..).trans_gt inside), stored]
    rfl
  · exact stored

theorem tileStored_comb : (tileStored s w i h c ws ev rows last).comb
    = memSetMany combDefault (homeWrites i c ws) (memSetMany combDefault (directWrites c ws) s.comb)
    ∧ (tileStored s w i h c ws ev rows last).stackMem = s.stackMem ∧ (tileStored s w i h c ws ev rows last).workers.length = s.workers.length := by
  unfold tileStored
  dsimp only
  split
  · exact ⟨rfl, rfl, (updAt_length ..).trans (updAt_length ..)⟩
  · exact ⟨rfl, rfl, updAt_length ..⟩

/-- What is kept is kept without the unit. -/
theorem WorkerKept.dropped {x y : Worker} (h : WorkerKept x y) : WorkerKept { x with held := [], wait := none } { y with held := [], wait := none } := by
  unfold WorkerKept at h ⊢
  rw [h]

/-- What neither root tables nor samples show is the same in a worker that is kept. -/
theorem WorkerKept.field {α : Type} {x y : Worker} (h : WorkerKept x y) (f : Worker → α)
    (hf : ∀ x root sample skip, f { x with root := root, sample := sample, sfnSkip := skip } = f x) : f y = f x := by
  unfold WorkerKept at h
  rw [h, hf]

/-- The unit's end keeps a worker but for what it held. -/
theorem unitDone_worker (inside : w < s.workers.length) :
    WorkerKept { getWorker s w with held := [], wait := none } (getWorker (unitDone s r w h) w) := by
  have consumed : Books s (consumeSeqs s r h.seqs) := consumeSeqs_books (books_refl s)
  have committed : Books (dropHeld (consumeSeqs s r h.seqs) w) (unitDone s r w h) := commitUnit_books (books_refl _)
  have dropped := committed.worker w
  rw [getWorker_dropHeld (consumed.workerCount ▸ inside)] at dropped
  exact (consumed.worker w).dropped.trans dropped

theorem unitDone_memories : (unitDone s r w h).comb = s.comb ∧ (unitDone s r w h).stackMem = s.stackMem := by
  have consumed : Books s (consumeSeqs s r h.seqs) := consumeSeqs_books (books_refl s)
  have committed : Books (dropHeld (consumeSeqs s r h.seqs) w) (unitDone s r w h) := commitUnit_books (books_refl _)
  exact ⟨committed.comb.trans consumed.comb, committed.stackMem.trans consumed.stackMem⟩

theorem unitDone_unitCommitted {n : BitVec 64} (due : Due s r n h.ref) : UnitCommitted (unitDone s r w h) r n h.ref := by
  obtain ⟨same, journal⟩ := consumeSeqs_sameDuties s r h.seqs
  exact commitUnit_unitCommitted ((due.mono same journal).mono (sameDuties_of_eq rfl rfl) rfl)

/-- What a tile that is written leaves: its bytes in the comb, and the worker at its next tile or without a unit. -/
theorem tileWritten_leaves (inside : w < s.workers.length) {u : State} (e : u = tileWritten s w r rn i h c ws ev rows last .none) :
    u.comb = memSetMany combDefault (homeWrites i c ws) (memSetMany combDefault (directWrites c ws) s.comb) ∧ u.stackMem = s.stackMem
      ∧ WorkerKept (storedWorker (getWorker s w) i c ev rows last
          (if last then [] else [nextTile h rn i c])) (getWorker u w) := by
  have stored := tileStored_worker (i := i) (h := nextTile h rn i c) (c := c) (ws := ws)
    (ev := ev) (rows := rows) (last := last) inside
  obtain ⟨comb, stackMem, count⟩ := tileStored_comb (s := s) (w := w) (i := i)
    (h := nextTile h rn i c) (c := c) (ws := ws) (ev := ev) (rows := rows) (last := last)
  have books : Books (tileStored s w i (nextTile h rn i c) c ws ev rows last)
      (tileBooked (tileStored s w i (nextTile h rn i c) c ws ev rows last) s w r rn i c ws ev) := tileBooked_books (books_refl _)
  have kept := books.worker w
  have comb' := books.comb.trans comb
  have stackMem' := books.stackMem.trans stackMem
  have count' := books.workerCount.trans count
  rw [stored] at kept
  rw [tileWritten_none] at e
  generalize tileBooked (tileStored s w i (nextTile h rn i c) c ws ev rows last) s w r rn i c ws ev = t at e kept comb' stackMem' count'
  subst e
  cases last with
  | false => exact ⟨comb', stackMem', kept⟩
  | true =>
    obtain ⟨comb'', stackMem''⟩ := unitDone_memories (s := t) (w := w) (r := r) (h := nextTile h rn i c)
    exact ⟨comb''.trans comb', stackMem''.trans stackMem', kept.dropped.trans (unitDone_worker (count' ▸ inside))⟩

/-- The unit of a last tile that its order has still to commit is committed. -/
theorem tileWritten_unitCommitted {n : BitVec 64} (quiet : NoLast s) (due : Due s r n h.ref) :
    UnitCommitted (tileWritten s w r rn i h c ws ev rows true .none) r n h.ref := by
  exact unitDone_unitCommitted (h := nextTile h rn i c)
    ((tileBooked_undisturbed (tileStored_undisturbed (undisturbed_refl s))).due quiet due)

/-! ### The bytes -/

/-- No tile writes a byte that its writes do not name. -/
theorem memGet_tileBytes {rd : Nat → Byte} {m : List Host.Cell} {a : Nat} (wf : memWf combDefault m = true)
    (other : ∀ b ∈ flattenWrites rd ws, b.1 ≠ a) :
    memGet combDefault (memSetMany combDefault (homeWrites i c ws) (memSetMany combDefault (directWrites c ws) m)) a = memGet combDefault m a := by
  have elsewhere {rd' : Nat → Byte} {p : EWrite → Bool} (b : Nat × Byte) (hb : b ∈ flattenWrites rd' (ws.filter p)) : b.1 ≠ a := by
    obtain ⟨b', hb', same⟩ := flattenWrites_filter_addrs (rd' := rd) hb
    exact same ▸ other b' hb'
  unfold directWrites
  rw [memGet_memSetMany_other _ _ _ _ (memSetMany_wf _ _ _ wf), memGet_memSetMany_other _ _ _ _ wf elsewhere]
  intro b hb
  simp only [homeWrites, slotPlaces, List.mem_map, List.mem_flatMap, List.mem_mapIdx] at hb
  obtain ⟨_, ⟨⟨l, k⟩, hl, j, hj, rfl⟩, rfl⟩ := hb
  obtain ⟨d, -, rfl⟩ := List.mem_map.mp (List.fst_mem_of_mem_zipIdx hl)
  exact elsewhere _ (List.getElem_mem hj)

/-- A tile without a descriptor in place writes all its bytes at once. -/
theorem tileBytes_of_no_home {m : List Host.Cell} (op : c.op = i.op) (none_ : roleDescs i.op 3 = []) :
    memSetMany combDefault (homeWrites i c ws) (memSetMany combDefault (directWrites c ws) m) = memSetMany combDefault (flattenWrites c.rd ws) m := by
  have direct : ws.filter (fun x => !homeWrite c x) = ws := List.filter_eq_self.mpr fun x _ => by simp [homeWrite, op, none_]
  have homes : homeWrites i c ws = [] := by simp [homeWrites, none_, slotPlaces]
  rw [homes, directWrites, direct]
  rfl

end Written

end Sys2Proof.Machine
end

section
namespace Sys2Proof.Machine

/-! ## Drains (R459) -/

section Torn
variable {s t : State} {who : Option Nat} {h : Held}

theorem regionsTorn_congr {u : State} (runs : t.runs = s.runs) (keeper : t.keeper = s.keeper) (torn : RegionsTorn t u h) : RegionsTorn s u h := by
  intro rn i o hr hi ho
  refine torn rn i o ((getRun_congr runs _).trans hr) hi ?_
  unfold orderOf findOrder at ho ⊢
  rw [keeper]
  exact ho

theorem runOrder_of_orderOf {rn : Run} {o : Order} {r : Nat} (hr : getRun s r = some rn) (ho : orderOf s rn = some o) :
    runOrder s r = o.number ∧ findOrder s o.number = some o := by
  obtain ⟨n, hn, found⟩ := Option.bind_eq_some_iff.mp ho
  have same := number_of_findOrder found
  subst same
  exact ⟨by simp [runOrder, hr, hn], found⟩

/-- Regions that are reported invalid are so in the order of the run. -/
theorem findOrder_invalidate {rn : Run} {o : Order} {r : Nat} {regions : List Nat} (hr : getRun s r = some rn) (ho : orderOf s rn = some o) :
    ∃ o', findOrder (invalidate s r regions) o.number = some o' ∧ ∀ g ∈ regions, g ∈ o'.invalid := by
  obtain ⟨n, found⟩ := runOrder_of_orderOf hr ho
  unfold invalidate
  rw [n, findOrder_setOrder_same (f := fun o => { o with invalid := o.invalid ++ regions.filter (fun g => !o.invalid.contains g) }) (fun _ => rfl) found]
  refine ⟨_, rfl, fun g hg => ?_⟩
  by_cases old : g ∈ o.invalid
  · exact List.mem_append_left _ old
  · exact List.mem_append_right _ (List.mem_filter.mpr ⟨hg, by simpa using old⟩)

theorem tearUnit_regionsTorn : RegionsTorn s (tearUnit who s h) h := by
  intro rn i o hr hi ho
  obtain ⟨domain, inst, phase, e⟩ := tearUnit_eq (who := who) hr
  obtain ⟨o', found, invalid⟩ := findOrder_invalidate (regions := tornRegions rn h) hr ho
  refine ⟨o', ?_, fun j hj g hg => invalid g ?_⟩
  · rw [e, findOrder, runFault_orders]
    exact found
  · unfold tornRegions
    rw [hi]
    exact List.mem_flatMap.mpr ⟨j, hj, hg⟩

theorem tearUnit_faultedAt (hf : Faultable s h.run) : FaultedAt (tearUnit who s h) h.run 0x0292 h.ref := by
  obtain ⟨rn, hr, -⟩ := id hf
  obtain ⟨domain, inst, phase, e⟩ := tearUnit_eq (who := who) hr
  rw [e]
  exact faultedAt_runFault (s := invalidate s h.run (tornRegions rn h)) hf (by decide)

end Torn

/-- The state when a commit slot has been copied to its home again, and its worker is done with it. -/
def drained (s : State) (w : Nat) (bytes : List (Nat × Byte)) : State :=
  let t := afterDrain (writeComb s bytes) w
  if (getWorker s w).admission == .admitted then addCyc t w 3 (ceilDiv bytes.length 1024) else t

section Drain
variable {s : State} {w : Nat} {h : Held} {bytes : List (Nat × Byte)}

theorem drainSlot_eq (found : (getWorker s w).held.find? Held.copyOut = some h) (open_ : (getWorker s w).admission ≠ .fenced) :
    let bytes := h.homes.map (fun p => (p.2, memGet 0 (getWorker s w).cells (commitSlot + p.1)))
    drainSlot s w = if crc32c (bytes.map Prod.snd) == h.crc
      then commitUnit (consumeSeqs (drained s w bytes) h.run h.seqs) h.run h.ref.instr h.ref.unit
      else tearUnit (some w) (drained s w bytes) h := by
  intro bytes
  unfold drainSlot
  dsimp only
  rw [found]
  exact if_neg (by simpa using open_)

theorem afterDrain_workerOnly : WorkerOnly w s (afterDrain s w) := setWorker_workerOnly (workerOnly_refl s)

theorem afterDrain_held (inside : w < s.workers.length) : ∀ x ∈ (getWorker (afterDrain s w) w).held, x.copyOut = false := by
  intro x hx
  unfold afterDrain at hx
  rw [getWorker_setWorker_same s w _ inside] at hx
  simpa using (List.mem_filter.mp hx).2

theorem drained_workerOnly : WorkerOnly w (writeComb s bytes) (drained s w bytes) :=
  .ite (setWorker_workerOnly afterDrain_workerOnly) afterDrain_workerOnly

theorem drained_held (inside : w < s.workers.length) : ∀ x ∈ (getWorker (drained s w bytes) w).held, x.copyOut = false := by
  have done : ∀ x ∈ (getWorker (afterDrain (writeComb s bytes) w) w).held, x.copyOut = false := afterDrain_held inside
  have there : w < (afterDrain (writeComb s bytes) w).workers.length := by
    rw [afterDrain_workerOnly.workerCount]
    exact inside
  unfold drained
  dsimp only
  split
  · unfold addCyc
    rw [getWorker_setWorker_same _ w _ there]
    exact done
  · exact done

/-- What the drain of a commit slot leaves: its bytes in their home, and its unit committed or torn. -/
theorem drainSlot_leaves (inside : w < s.workers.length)
    (found : (getWorker s w).held.find? Held.copyOut = some h) (open_ : (getWorker s w).admission ≠ .fenced) :
    let bytes := h.homes.map (fun p => (p.2, memGet 0 (getWorker s w).cells (commitSlot + p.1)))
    let u := drainSlot s w
    u.comb = memSetMany combDefault bytes s.comb ∧ (∀ x ∈ (getWorker u w).held, x.copyOut = false)
      ∧ (crc32c (bytes.map Prod.snd) = h.crc → ∀ n, Due s h.run n h.ref → UnitCommitted u h.run n h.ref)
      ∧ (crc32c (bytes.map Prod.snd) ≠ h.crc → RegionsTorn s u h ∧ (Faultable s h.run → FaultedAt u h.run 0x0292 h.ref)) := by
  intro bytes u
  have e : u = _ := drainSlot_eq found open_
  have comb : (drained s w bytes).comb = memSetMany combDefault bytes s.comb := drained_workerOnly.field State.comb fun _ => rfl
  have runs : (drained s w bytes).runs = s.runs := drained_workerOnly.field State.runs fun _ => rfl
  have keeper : (drained s w bytes).keeper = s.keeper := drained_workerOnly.field State.keeper fun _ => rfl
  have journal : (drained s w bytes).journal = s.journal := drained_workerOnly.field State.journal fun _ => rfl
  have held : ∀ x ∈ (getWorker (drained s w bytes) w).held, x.copyOut = false := drained_held inside
  rw [e]
  generalize drained s w bytes = t at comb runs keeper journal held
  by_cases good : crc32c (bytes.map Prod.snd) = h.crc
  · rw [if_pos (beq_iff_eq.mpr good)]
    have books : Books t (commitUnit (consumeSeqs t h.run h.seqs) h.run h.ref.instr h.ref.unit) :=
      commitUnit_books (consumeSeqs_books (books_refl t))
    have same : (getWorker (commitUnit (consumeSeqs t h.run h.seqs) h.run h.ref.instr h.ref.unit) w).held = (getWorker t w).held :=
      (books.worker w).field Worker.held fun _ _ _ _ => rfl
    refine ⟨books.comb.trans comb, same ▸ held, fun _ n due => ?_, fun bad => absurd good bad⟩
    obtain ⟨duties, journal'⟩ := consumeSeqs_sameDuties t h.run h.seqs
    exact commitUnit_unitCommitted ((due.mono (sameDuties_of_eq (congrArg Keeper.orders keeper) runs) journal).mono duties journal')
  · rw [if_neg (mt beq_iff_eq.mp good)]
    refine ⟨?_, ?_, fun eq => absurd eq good, fun _ => ⟨regionsTorn_congr runs keeper tearUnit_regionsTorn, fun hf => ?_⟩⟩
    · exact (congrArg Prod.fst tearUnit_fencedParts).trans comb
    · rw [getWorker_congr tearUnit_workers]
      exact held
    · exact tearUnit_faultedAt ((faultable_congr runs).mpr hf)

/-- What the end of a drain that has taken too long leaves: no byte written, and its unit torn. -/
theorem drainTimeout_leaves (inside : w < s.workers.length) : let u := tearUnit (some w) (afterDrain s w) h
    u.comb = s.comb ∧ (∀ x ∈ (getWorker u w).held, x.copyOut = false) ∧ RegionsTorn s u h
      ∧ (Faultable s h.run → FaultedAt u h.run 0x0292 h.ref) := by
  intro u
  have runs : (afterDrain s w).runs = s.runs := rfl
  refine ⟨congrArg Prod.fst (tearUnit_fencedParts (s := afterDrain s w)), ?_, regionsTorn_congr runs rfl tearUnit_regionsTorn,
    fun hf => tearUnit_faultedAt ((faultable_congr runs).mpr hf)⟩
  rw [getWorker_congr (tearUnit_workers (s := afterDrain s w))]
  exact afterDrain_held inside

end Drain

end Sys2Proof.Machine
end

section
namespace Sys2Proof.Machine

/-! ## TILE_ISSUE, COMMIT_SLOT_DRAIN and DRAIN_TIMEOUT -/

section Tile
variable {s : State} {w : Nat} {h : Held} {rn : Run} {i : Issued} {up : Upset} {ring conflict : Nat}

theorem issueTile_runs (held : heldTile s w = some (h, rn, i)) (admitted : (getWorker s w).admission = .admitted)
    (whole : (getFrame s (workerFrame s w)).recovering = false)
    (free : blockedSlot rn i (nth (unitTiles i.op i.tiling h.ref.unit) h.tile) = none) :
    issueTile s w up ring conflict = runTile s w h.run rn i h up ring conflict := by
  have e : issueTile s w up ring conflict = _ := issueTile_ready held admitted whole
  rw [free] at e
  exact e

/-- A lane parity fault, or an uncorrectable cell word, of a tile (R151, R464). -/
theorem runTile_upset_leaves (inside : w < s.workers.length) (frames : s.frames.length = 8) (held : heldTile s w = some (h, rn, i))
    (bad : up = .laneParity ∨ up = .cellUncorrectable) : let u := runTile s w h.run rn i h up ring conflict
    u.comb = s.comb ∧ u.stackMem = s.stackMem ∧ (getWorker u w).epoch = (getWorker s w).epoch + 1 ∧ (getWorker u w).admission ≠ .admitted
      ∧ (resetBefore s 1 w = false → (findRecovery u 1 w).isSome = true) ∧ (resetBefore s 1 w = true → w ∈ u.keeper.oosWorker)
      ∧ (i.op.micro = true ∨ isTiled i.op = true → homeOf rn.image i h.ref.unit < 8 →
          h.ref ∈ (getFrame u (homeOf rn.image i h.ref.unit)).replay) := by
  intro u
  obtain ⟨⟨rest, top⟩, hr, hi, now⟩ := heldTile_some held
  obtain ⟨c, chain, ws, code, classB, e⟩ := runTile_upset (s := s) (w := w) (r := h.run) (rn := rn) (i := i) (h := h) (ring := ring)
    (conflict := conflict) bad
  have only : WorkerOnly w s (tileBegun s w i h c chain ws ring conflict) := tileBegun_workerOnly
  obtain ⟨sample, skip, same⟩ := tileBegun_worker (i := i) (h := h) (c := c) (chain := chain) (ws := ws) (ring := ring) (conflict := conflict) inside
  have eu : u = _ := e
  generalize tileBegun s w i h c chain ws ring conflict = t at only same eu
  have there : h ∈ (getWorker t w).held := by
    rw [same]
    exact top ▸ List.mem_cons_self
  have frames' : t.frames.length = 8 := (congrArg List.length (only.field State.frames fun _ => rfl)).trans frames
  obtain ⟨comb, stackMem, epoch, shut, recovers, leaves, again⟩ := workerFault_leaves (s := t) classB (only.workerCount ▸ inside) there now
    ((only.field (getRun · h.run) fun _ => rfl).trans hr) hi
  rw [← eu] at comb stackMem epoch shut recovers leaves again
  rw [same] at epoch
  rw [only.field (resetBefore · 1 w) fun _ => rfl] at recovers leaves
  exact ⟨comb.trans (only.field State.comb fun _ => rfl), stackMem.trans (only.field State.stackMem fun _ => rfl), epoch, shut, recovers, leaves,
    frames' ▸ again⟩

theorem tileBegun_clean {t : State} (only : WorkerOnly w s t) (clean : s.poison = []) : t.poison = [] :=
  (only.field State.poison fun _ => rfl).trans clean

theorem crcMismatch_begun {t : State} (only : WorkerOnly w s t) (reads : List (Nat × Nat)) : crcMismatch t rn reads = crcMismatch s rn reads :=
  crcMismatch_congr (only.field State.comb fun _ => rfl) reads

theorem runTile_of_mismatch {r : Nat} {q : Nat × Nat} (clean : s.poison = [])
    (bad : crcMismatch s rn (tileReadSlots rn i (nth (unitTiles i.op i.tiling h.ref.unit) h.tile)) = some q) : ∃ t, WorkerOnly w s t
      ∧ runTile s w r rn i h .none ring conflict = lostData (dropHeld t w) r h.ref (slotBase (nth rn.rings q.1) q.2) := by
  have e : runTile s w r rn i h .none ring conflict = _ := runTile_none
  refine ⟨_, tileBegun_workerOnly, e.trans (tileFinished_mismatch (tileBegun_clean tileBegun_workerOnly clean) ?_)⟩
  rw [crcMismatch_begun tileBegun_workerOnly]
  exact bad

theorem runTile_of_fault {r : Nat} {code : BitVec 16} {rest : List (BitVec 16)} (clean : s.poison = [])
    (good : crcMismatch s rn (tileReadSlots rn i (nth (unitTiles i.op i.tiling h.ref.unit) h.tile)) = none)
    (stops : let T := nth (unitTiles i.op i.tiling h.ref.unit) h.tile
      let last := h.tile + 1 == (unitTiles i.op i.tiling h.ref.unit).length
      let work := tileWork (tileCtx s rn i w) i h.ref.unit T (h.tile == 0) last (heldRows (getWorker s w) i)
      tileStops (tileCtx s rn i w T) (tileEvents i h (tileCtx s rn i w T) work.2.1) = code :: rest) : ∃ t, WorkerOnly w s t
      ∧ runTile s w r rn i h .none ring conflict = runFault (dropHeld t w) r code h.ref.instr h.ref.unit := by
  have e : runTile s w r rn i h .none ring conflict = _ := runTile_none
  refine ⟨_, tileBegun_workerOnly, e.trans (tileFinished_faulted (tileBegun_clean tileBegun_workerOnly clean) ?_ stops)⟩
  rw [crcMismatch_begun tileBegun_workerOnly]
  exact good

theorem runTile_of_good {r : Nat} (inside : w < s.workers.length) (clean : s.poison = [])
    (good : crcMismatch s rn (tileReadSlots rn i (nth (unitTiles i.op i.tiling h.ref.unit) h.tile)) = none) :
    let T := nth (unitTiles i.op i.tiling h.ref.unit) h.tile
    let last := h.tile + 1 == (unitTiles i.op i.tiling h.ref.unit).length
    let c := tileCtx s rn i w T
    let work := tileWork (tileCtx s rn i w) i h.ref.unit T (h.tile == 0) last (heldRows (getWorker s w) i)
    let ev := tileEvents i h c work.2.1
    tileStops c ev = [] → ∃ t, WorkerOnly w s t
      ∧ (∃ sample skip, getWorker t w = { getWorker s w with
          cyc := windowCyc (getWorker s w) i (h.tile == 0) (tileWindow s w c (runChain c) work.1) (pivotSlot c) ring conflict
          sample := sample, sfnSkip := skip })
      ∧ runTile s w r rn i h .none ring conflict = tileWritten t w r rn i h c work.1 ev work.2.2 last .none := by
  intro T last c work ev stops
  have e : runTile s w r rn i h .none ring conflict = _ := runTile_none
  refine ⟨_, tileBegun_workerOnly, tileBegun_worker inside, e.trans (tileFinished_written (tileBegun_clean tileBegun_workerOnly clean) ?_ stops)⟩
  rw [crcMismatch_begun tileBegun_workerOnly]
  exact good

/-- A tile whose slot does not hold what its CRC covers: it is done again once, and then the run faults (R36, R352). -/
theorem runTile_mismatch_leaves (inside : w < s.workers.length) (frames : s.frames.length = 8) (held : heldTile s w = some (h, rn, i))
    (clean : s.poison = []) {q : Nat × Nat}
    (bad : crcMismatch s rn (tileReadSlots rn i (nth (unitTiles i.op i.tiling h.ref.unit) h.tile)) = some q)
    (low : slotBase (nth rn.rings q.1) q.2 % 2 ^ 25 < 0x1F00000) : let u := runTile s w h.run rn i h .none ring conflict
    let before := LostBefore s rn (slotBase (nth rn.rings q.1) q.2)
    u.comb = s.comb ∧ (getWorker u w).held = []
      ∧ (before → FaultTold u 0x0292 0 0xFF 4 ∧ (Faultable s h.run → FaultedAt u h.run 0x0292 h.ref))
      ∧ (¬ before → FaultTold u 0x0222 0 0xFF 1 ∧ u.runs = s.runs
          ∧ (i.op.micro = true ∨ isTiled i.op = true → homeOf rn.image i h.ref.unit < 8 →
              h.ref ∈ (getFrame u (homeOf rn.image i h.ref.unit)).replay)) := by
  intro u before
  obtain ⟨-, hr, hi, -⟩ := heldTile_some held
  obtain ⟨t, begun, e⟩ := runTile_of_mismatch (r := h.run) (ring := ring) (conflict := conflict) (w := w) clean bad
  have only : WorkerOnly w s (dropHeld t w) := begun.trans dropHeld_workerOnly
  have runs : (dropHeld t w).runs = s.runs := only.field State.runs fun _ => rfl
  have run : getRun (dropHeld t w) h.run = some rn := (getRun_congr runs _).trans hr
  have lost : LostBefore (dropHeld t w) rn (slotBase (nth rn.rings q.1) q.2) ↔ before := by
    unfold LostBefore
    rw [only.field (orderOf · rn) fun _ => rfl]
    exact Iff.rfl
  have frames' : (dropHeld t w).frames.length = 8 := (congrArg List.length (only.field State.frames fun _ => rfl)).trans frames
  obtain ⟨comb, workers⟩ := lostData_leaves (ref := h.ref) run low
  have eu : u = _ := e
  rw [eu, ← lost, ← faultable_congr runs, ← runs]
  refine ⟨comb.trans (only.field State.comb fun _ => rfl), held_dropHeld (begun.workerCount ▸ inside) workers, lostData_again run low, fun fresh => ?_⟩
  exact frames' ▸ lostData_first run low fresh hi

/-- A tile whose values fault writes nothing, and its run has the fault (R68). -/
theorem runTile_fault_leaves (inside : w < s.workers.length) {t : State} {r : Nat} {code : BitVec 16} (begun : WorkerOnly w s t) :
    let u := runFault (dropHeld t w) r code h.ref.instr h.ref.unit
    u.comb = s.comb ∧ (getWorker u w).held = [] ∧ (Faultable s r → faultClass code ≠ 2 → FaultedAt u r code h.ref) := by
  intro u
  have only : WorkerOnly w s (dropHeld t w) := begun.trans dropHeld_workerOnly
  refine ⟨runFault_comb.trans (only.field State.comb fun _ => rfl), held_dropHeld (begun.workerCount ▸ inside) runFault_workers, fun hf => ?_⟩
  exact faultedAt_runFault ((faultable_congr (only.field State.runs fun _ => rfl)).mpr hf)

/-- The windows of a tile, and the fold at its unit's last, are counted (R176 to R178). -/
theorem windowsCounted_of_cyc {u : State} {first last : Bool} {win : Nat × Nat} {pivots : Nat}
    (e : (getWorker u w).cyc = if last && cyclesCount (getWorker s w) i.op
      then updAt (windowCyc (getWorker s w) i first win pivots ring conflict) 3 (fun n => wrapAdd n (foldWait i))
      else windowCyc (getWorker s w) i first win pivots ring conflict) : WindowsCounted s w i first last win pivots ring conflict u := by
  refine ⟨fun no => ?_, fun yes => ?_⟩
  · rw [e, no, Bool.and_false, if_neg Bool.false_ne_true, windowCyc, if_neg (by simp [no])]
  · rw [e, yes, Bool.and_true, windowCyc, if_pos yes]

/-- What a tile leaves that meets no upset and no poison and whose values do not fault (R133, R178, R458). -/
def TileDone (s : State) (w : Nat) (rn : Run) (i : Issued) (h : Held) (T : Nat) (first last : Bool) (win : Nat × Nat) (pivots ring conflict : Nat)
    (bytes : List (Nat × Byte)) (ev : Ev) (rows : List RowEntry) (u : State) : Prop :=
  (∀ a, (∀ b ∈ bytes, b.1 ≠ a) → readComb u a = readComb s a) ∧ u.stackMem = s.stackMem
    ∧ (roleDescs i.op 3 = [] → u.comb = memSetMany combDefault bytes s.comb)
    ∧ (getWorker u w).numFlush = satAdd (getWorker s w).numFlush ev.flushed
    ∧ (getWorker u w).numSat = satAdd (getWorker s w).numSat ev.saturated
    ∧ (getWorker u w).numNanLost = satAdd (getWorker s w).numNanLost ev.nanLost
    ∧ (getWorker u w).numCancel = satAdd (getWorker s w).numCancel ev.cancel
    ∧ (getWorker u w).sfnZero = satAdd (getWorker s w).sfnZero ev.thrZero
    ∧ (getWorker u w).rowState = (keepRows (getWorker s w) i rows).rowState
    ∧ (isSeedOp i.op = true → rows ≠ [] → (getWorker u w).cells = memLay 0 seedCell (seedBytes rows) (getWorker s w).cells)
    ∧ WindowsCounted s w i first last win pivots ring conflict u
    ∧ (last = false → ∃ h', (getWorker u w).held = [h'] ∧ (getWorker u w).wait = none
        ∧ h' = { h with tile := h.tile + 1, seqs := h.seqs ++ tileReadSlots rn i T })
    ∧ (last = true → (getWorker u w).held = []
        ∧ (QuietLinks s → ∀ n, Owes s h.run rn i n h.ref → UnitCommitted u h.run n h.ref))

section Done
variable {t u : State} {c : TileCtx} {ws : List EWrite} {ev : Ev} {rows : List RowEntry} {first last : Bool} {win : Nat × Nat} {pivots : Nat}
  {sample : Option Sample} {skip : BitVec 32}

theorem tileWritten_commits (whole : Whole s) (only : WorkerOnly w s t) (quiet : QuietLinks s) {n : BitVec 64} (owes : Owes s h.run rn i n h.ref) :
    UnitCommitted (tileWritten t w h.run rn i h c ws ev rows true .none) h.run n h.ref := by
  have quiet' : NoLast t := only.field NoLast (fun _ => rfl) ▸ noLast_of_quietLinks whole quiet
  exact tileWritten_unitCommitted quiet' ((due_of_owes owes).mono
    (sameDuties_of_eq (only.field (fun t => t.keeper.orders) fun _ => rfl) (only.field State.runs fun _ => rfl)) (only.field State.journal fun _ => rfl))

/-- A tile keeps the rows of its unit in the worker's memory, whatever of the worker else has changed. -/
theorem keepRows_rowState (x : Worker) : (keepRows x i rows).rowState = if rows.isEmpty || isSeedOp i.op then x.rowState else rows := by
  unfold keepRows
  cases rows.isEmpty with
  | true => rfl
  | false =>
    cases isSeedOp i.op with
    | true => rfl
    | false => rfl

theorem tileWritten_done (sound : Sound s) (inside : w < s.workers.length) (only : WorkerOnly w s t)
    (same : getWorker t w = { getWorker s w with
      cyc := windowCyc (getWorker s w) i first win pivots ring conflict, sample := sample, sfnSkip := skip })
    (rd : c.rd = readComb s) (op : c.op = i.op) :
    TileDone s w rn i h c.tile first last win pivots ring conflict (flattenWrites (readComb s) ws) ev rows
      (tileWritten t w h.run rn i h c ws ev rows last .none) := by
  have committed (ends : last = true) (quiet : QuietLinks s) (n : BitVec 64) (owes : Owes s h.run rn i n h.ref) :
      UnitCommitted (tileWritten t w h.run rn i h c ws ev rows last .none) h.run n h.ref := by
    subst ends
    exact tileWritten_commits sound.2 only quiet owes
  obtain ⟨comb, stackMem, kept⟩ := tileWritten_leaves (s := t) (w := w) (r := h.run) (rn := rn) (i := i) (h := h) (c := c) (ws := ws) (ev := ev)
    (rows := rows) (last := last) (only.workerCount ▸ inside) rfl
  generalize tileWritten t w h.run rn i h c ws ev rows last .none = u at committed comb stackMem kept ⊢
  have comb₀ : t.comb = s.comb := only.field State.comb fun _ => rfl
  rw [comb₀] at comb
  rw [same] at kept
  have held : (getWorker u w).held = if last then [] else [nextTile h rn i c] := kept.field Worker.held fun _ _ _ _ => rfl
  refine ⟨fun a other => ?_, stackMem.trans (only.field State.stackMem fun _ => rfl), fun noHome => ?_, kept.field Worker.numFlush fun _ _ _ _ => rfl,
    kept.field Worker.numSat fun _ _ _ _ => rfl, kept.field Worker.numNanLost fun _ _ _ _ => rfl, kept.field Worker.numCancel fun _ _ _ _ => rfl,
    kept.field Worker.sfnZero fun _ _ _ _ => rfl, ?_, fun seed some_ => ?_, windowsCounted_of_cyc (kept.field Worker.cyc fun _ _ _ _ => rfl),
    fun more => ?_, fun ends => ⟨?_, committed ends⟩⟩
  · unfold readComb
    rw [comb]
    exact memGet_tileBytes sound.1.1 other
  · rw [← rd]
    exact comb.trans (tileBytes_of_no_home op noHome)
  · refine (kept.field Worker.rowState fun _ _ _ _ => rfl).trans ?_
    unfold storedWorker
    dsimp only
    rw [keepRows_rowState, keepRows_rowState]
  · exact (kept.field Worker.cells fun _ _ _ _ => rfl).trans (keptSeed_cells _ seed some_)
  · rw [if_neg (by simp [more])] at held
    exact ⟨_, held, kept.field Worker.wait fun _ _ _ _ => rfl, rfl⟩
  · rw [if_pos ends] at held
    exact held

end Done

theorem runTile_good_done (sound : Sound s) (inside : w < s.workers.length) (clean : s.poison = [])
    (good : crcMismatch s rn (tileReadSlots rn i (nth (unitTiles i.op i.tiling h.ref.unit) h.tile)) = none)
    (stops : let T := nth (unitTiles i.op i.tiling h.ref.unit) h.tile
      let last := h.tile + 1 == (unitTiles i.op i.tiling h.ref.unit).length
      let work := tileWork (tileCtx s rn i w) i h.ref.unit T (h.tile == 0) last (heldRows (getWorker s w) i)
      tileStops (tileCtx s rn i w T) (tileEvents i h (tileCtx s rn i w T) work.2.1) = []) :
    let T := nth (unitTiles i.op i.tiling h.ref.unit) h.tile
    let last := h.tile + 1 == (unitTiles i.op i.tiling h.ref.unit).length
    let c := tileCtx s rn i w T
    let work := tileWork (tileCtx s rn i w) i h.ref.unit T (h.tile == 0) last (heldRows (getWorker s w) i)
    TileDone s w rn i h T (h.tile == 0) last (tileWindow s w c (runChain c) work.1) (pivotSlot c) ring conflict (flattenWrites (readComb s) work.1)
      (tileEvents i h c work.2.1) work.2.2 (runTile s w h.run rn i h .none ring conflict) := by
  intro T last c work
  obtain ⟨t, only, ⟨sample, skip, same⟩, e⟩ := runTile_of_good (r := h.run) (ring := ring) (conflict := conflict) inside clean good stops
  rw [e]
  exact tileWritten_done (c := c) sound inside only same rfl rfl

end Tile

/-- Settles O54: by what the issue of a tile does when it waits, is upset, does not verify, faults or is written, and by the ends of a
drain. -/
theorem tiles : Obligations.Tiles := by
  unfold Obligations.Tiles
  intro s w sound clock
  have leads {c : Instr} {t : State} (e : exec c s = clocked s t) : exec c s = .next t := e.trans (clocked_of_clocked clock)
  have width : s.workers.length = 68 := sound.2.workers
  have inside : w.val < s.workers.length := Nat.lt_of_lt_of_eq w.isLt width.symm
  refine ⟨fun up ring conflict => ⟨fun idle => ?_, fun h rn i held admitted whole => ⟨fun wt blocked => ?_, fun free =>
    ⟨fun bad => ?_, fun q none_ clean bad low => ?_, fun none_ clean good => ⟨fun code rest stops => ?_, fun stops => ?_⟩⟩⟩⟩,
    fun absent => ⟨?_, ?_⟩, fun h found => ⟨fun fenced => ?_, fun open_ => ?_, ?_⟩⟩
  · exact (leads rfl).trans (congrArg _ (issueTile_idle idle))
  · obtain ⟨only, waiting⟩ := issueTile_waits (up := up) (ring := ring) (conflict := conflict) width w.isLt held admitted whole blocked
    obtain ⟨⟨workers, e, -⟩, others⟩ := only
    refine ⟨_, leads rfl, ?_, others, waiting⟩
    rw [e]
  · exact ⟨_, (leads rfl).trans (congrArg _ (issueTile_runs held admitted whole free)), runTile_upset_leaves inside sound.2.frames held bad⟩
  · subst none_
    exact ⟨_, (leads rfl).trans (congrArg _ (issueTile_runs held admitted whole free)),
      runTile_mismatch_leaves inside sound.2.frames held clean bad low⟩
  · subst none_
    obtain ⟨t, begun, e⟩ := runTile_of_fault (r := h.run) (ring := ring) (conflict := conflict) clean good stops
    exact ⟨_, (leads rfl).trans (congrArg _ ((issueTile_runs held admitted whole free).trans e)), runTile_fault_leaves inside begun⟩
  · subst none_
    exact ⟨_, (leads rfl).trans (congrArg _ (issueTile_runs held admitted whole free)), runTile_good_done sound inside clean good stops⟩
  · refine (leads rfl).trans (congrArg _ ?_)
    unfold drainSlot
    dsimp only
    rw [absent]
  · refine (leads rfl).trans (congrArg _ ?_)
    rw [absent]
  · refine (leads rfl).trans (congrArg _ ?_)
    unfold drainSlot
    dsimp only
    rw [found]
    exact if_pos (by simpa using fenced)
  · obtain ⟨comb, held, commits, torn⟩ := drainSlot_leaves inside found open_
    refine ⟨_, leads rfl, comb, fun a other => ?_, held, fun verified rn i n owes => commits verified n (due_of_owes owes), torn⟩
    unfold readComb
    rw [comb]
    exact memGet_memSetMany_other _ _ _ _ sound.1.1 other
  · refine ⟨_, (leads rfl).trans (congrArg _ ?_), drainTimeout_leaves inside⟩
    rw [found]

end Sys2Proof.Machine
end

section
namespace Sys2Proof.Machine

/-! ## A load whose IMAGE record a CHECKPOINT drops (R296, R339)

The statement's `LinksIdle` speaks of the links that the loaded run holds, while step 6 (`settleRun`) opens the landing rings on
every link that its image names. `Whole` lets another run hold such a link, with the last frame of a CSEND's unit waiting on it:
the commit of that unit writes a record of its own, and the IMAGE record is then the one that a CHECKPOINT follows. -/

/-- The run that is loaded: its image names link 0, and has a number that the 8 bytes of an IMAGE record do not hold. -/
def claimant : Run := { (default : Run) with image := { (default : Image) with imageId := 2 ^ 64, linkMask := 1 } }

/-- The run that holds link 0: it has a landing ring there, and a CSEND of one unit in issue. -/
def occupant : Run :=
  { (default : Run) with
    image := { (default : Image) with rings := [{ (default : RingDecl) with producerKind := 3 }] }
    ready := true, issued := [{ (default : Issued) with units := [0] }] }

/-- The last frame of that unit, which waits on link 0. -/
def lastFrame : TxReq := { type := 1, ctl := 1, land := [], payload := [], last := some (0, default), forward := none }

/-- The load of run 0. -/
def claim : LoadJob := { req := default, run := 0, slot := 0 }

/-- The die after reset with both runs, the frame on link 0, its unit in forager 0, and 4,094 records since the last CHECKPOINT. -/
def contested : State :=
  { State.reset with
    runs := some claimant :: some occupant :: List.replicate 6 none
    links := { Link.reset with state := 3, run := some 1, txUnits := [0, 1, 0, 0], txQueue := [lastFrame] } :: List.replicate 23 Link.reset
    foragers := { moves := [{ (default : Move) with run := 1 }], faulted := false } :: List.replicate 31 { moves := [], faulted := false }
    keeper := { Keeper.reset with loads := [claim] }
    journal := { Journal.reset with sinceCheckpoint := 4094 } }

theorem contested_whole : Whole contested :=
  ⟨rfl, fun b hb => by rw [List.eq_of_mem_replicate hb]; exact List.length_replicate, rfl, rfl, rfl, rfl, rfl, rfl, rfl, Nat.zero_le _⟩

theorem contested_linksIdle : LinksIdle contested 0 := by unfold LinksIdle; decide

/-- When the claimant's rings open, the commit of the occupant's unit is record 4,095; the IMAGE record is record 4,096, and the
CHECKPOINT (kind 9) that follows finds neither needed and leaves itself alone. -/
theorem contested_finished : (finishLoad contested claim claimant).journal.records.map JRecord.kind = [9] := rfl

theorem contested_proceeds : exec (.imageLoadProceed .none) contested = .next (finishLoad contested claim claimant) := rfl

/-- Refutes O42: the run is settled over every link that its image names, and `LinksIdle` says nothing of one that another run
holds. There the frame that waits commits a unit, so that fewer than 4,095 records before the load do not keep a CHECKPOINT from
following the IMAGE record, which goes with it when the image's number is not one that the record can hold. -/
theorem not_imageLoading : ¬ Obligations.ImageLoading := by
  intro h
  obtain ⟨-, loading⟩ := h contested contested_whole
  obtain ⟨-, proceeds, -⟩ := loading rfl
  obtain ⟨-, scrubbed⟩ := proceeds claim [] claimant rfl rfl (Nat.zero_lt_succ _)
  obtain ⟨room, -⟩ := scrubbed (by decide) rfl
  obtain ⟨succeeds, -⟩ := room (Nat.zero_le _) (.inl rfl)
  obtain ⟨u, hu, -, -, -, -, -, ⟨x, hx, image, -⟩, -⟩ := succeeds contested_linksIdle (by decide)
  cases contested_proceeds.symm.trans hu
  have kinds := List.mem_map_of_mem (f := JRecord.kind) hx
  rw [contested_finished, image] at kinds
  exact absurd kinds (by decide)

end Sys2Proof.Machine
end

section
namespace Sys2Proof.Machine

/-! ## Digits of byte strings (R8, R9) -/

theorem leNat_digit : ∀ (bs : Bytes) {i : Nat} (h : i < bs.length), leNat bs / 256 ^ i % 256 = bs[i].toNat
  | b :: bs, 0, _ => by
    have := b.isLt
    simp only [leNat, Nat.pow_zero, Nat.div_one, List.getElem_cons_zero]
    omega
  | b :: bs, i + 1, h => by
    have := b.isLt
    have rest : (b.toNat + 256 * leNat bs) / 256 = leNat bs := by omega
    rw [leNat, Nat.pow_succ', ← Nat.div_div_eq_div_mul, rest, leNat_digit bs (by simpa using h), List.getElem_cons_succ]

theorem field_digit {b : Bytes} {off size i : Nat} (inside : off + size ≤ b.length) (hi : i < size) :
    field b off size / 256 ^ i % 256 = (b[off + i]'(by omega)).toNat := by
  have cut : fieldBytes b off size = (b.drop off).take size := by
    have full : ((b.drop off).take size).length = size := by simp; omega
    simp [fieldBytes, full]
  rw [field, cut, leNat_digit _ (by simp; omega), List.getElem_take, List.getElem_drop]

theorem getElem_natLe : ∀ {n i : Nat} (v : Nat) (h : i < (natLe n v).length), (natLe n v)[i] = BitVec.ofNat 8 (v / 256 ^ i)
  | n + 1, 0, v, _ => by simp [natLe]
  | n + 1, i + 1, v, h => by
    simp only [natLe, List.getElem_cons_succ]
    rw [getElem_natLe (v / 256) (by simpa [natLe] using h), Nat.div_div_eq_div_mul, ← Nat.pow_succ']

theorem leNat_lt : ∀ bs : Bytes, leNat bs < 256 ^ bs.length
  | [] => Nat.one_pos
  | b :: bs => by
    have := b.isLt
    have := leNat_lt bs
    rw [leNat, List.length_cons, Nat.pow_succ]
    omega

theorem field_lt (b : Bytes) (off size : Nat) : field b off size < 256 ^ size := by
  have len : (fieldBytes b off size).length = size := by simp [fieldBytes]
  exact (leNat_lt (fieldBytes b off size)).trans_eq (by rw [len])

/-! ## The telemetry and debug port (R71, R80) -/

section DebugPort
variable {s : State} {addr : Nat}

theorem exec_bankStatus (f : Fin 8) (bank : Fin 256) : exec (.telemetryDebugPortAccess (.bankStatus f bank)) s =
    clocked s { s with readBack :=
      let w := assocD (getFrame s f).bankStatus bank.val (0, 0, 0)
      [BitVec.ofNat 32 w.1, BitVec.ofNat 32 w.2.1, BitVec.ofNat 32 w.2.2] } := rfl

/-- A comb address has 28 bits (R71; the fault of a wider one is the model's choice, notes/assumptions/80.md). -/
theorem exec_readComb_wide (wide : 2 ^ 28 ≤ addr) : exec (.telemetryDebugPortAccess (.readComb addr)) s = .fault (.addressOutside addr) :=
  if_pos wide

theorem exec_writeComb_wide (wide : 2 ^ 28 ≤ addr) (v : BitVec 64) :
    exec (.telemetryDebugPortAccess (.writeComb addr v)) s = .fault (.addressOutside addr) :=
  if_pos wide

theorem exec_readComb (low : addr < 2 ^ 28) : exec (.telemetryDebugPortAccess (.readComb addr)) s = clocked s (
    if !debugPermitted s then { s with readBack := [] }
    else if poisoned s (addr / 8 * 8) then { markPoison s (addr / 8 * 8) with readBack := [] }
    else { s with readBack := wordRegs (combBytes s (addr / 8 * 8) 8) }) :=
  if_neg (Nat.not_le.mpr low)

theorem exec_writeComb (low : addr < 2 ^ 28) (v : BitVec 64) : exec (.telemetryDebugPortAccess (.writeComb addr v)) s = clocked s (
    if debugPermitted s then writeComb s (bytesAt (addr / 8 * 8) (natLe 8 v.toNat)) else s) :=
  if_neg (Nat.not_le.mpr low)

/-- Settles O3: a comb access of the debug port answers when its address fits, and every other command always does. -/
theorem everyCommandAnswers : Obligations.EveryCommandAnswers := by
  intro c s
  cases c with
  | telemetryDebugPortAccess access =>
    cases access with
    | bankStatus f bank => exact .inl ⟨_, exec_bankStatus f bank⟩
    | readComb addr =>
      rcases Nat.lt_or_ge addr (2 ^ 28) with low | wide
      · exact .inl ⟨_, exec_readComb low⟩
      · exact .inr ⟨addr, wide, exec_readComb_wide wide, .inl rfl⟩
    | writeComb addr v =>
      rcases Nat.lt_or_ge addr (2 ^ 28) with low | wide
      · exact .inl ⟨_, exec_writeComb low v⟩
      · exact .inr ⟨addr, wide, exec_writeComb_wide wide v, .inr ⟨v, rfl⟩⟩
  | _ => exact .inl ⟨_, rfl⟩

/-- The two registers of a word deliver its bytes, the low half first. -/
theorem wordRegs_bytes (s : State) (a : Nat) : ∃ lo hi : BitVec 32, wordRegs (combBytes s a 8) = [lo, hi]
    ∧ (∀ i < 4, (readComb s (a + i)).toNat = lo.toNat / 256 ^ i % 256)
    ∧ (∀ i < 4, (readComb s (a + 4 + i)).toNat = hi.toNat / 256 ^ i % 256) := by
  have len : (combBytes s a 8).length = 8 := by simp [combBytes, memBytes]
  have half {off : Nat} (h : off + 4 ≤ 8) : ∀ i < 4,
      (readComb s (a + off + i)).toNat = (BitVec.ofNat 32 (field (combBytes s a 8) off 4)).toNat / 256 ^ i % 256 := by
    intro i hi
    have byte : (combBytes s a 8)[off + i]'(by omega) = readComb s (a + off + i) := by
      simp [combBytes, memBytes, readComb, Nat.add_assoc]
    have fits : field (combBytes s a 8) off 4 < 2 ^ 32 := field_lt _ off 4
    rw [BitVec.toNat_ofNat, Nat.mod_eq_of_lt fits, field_digit (by omega) hi, byte]
  exact ⟨_, _, rfl, half (off := 0) (by omega), half (off := 4) (by omega)⟩

/-- Writing a whole aligned word covers that word and no other (R84). -/
theorem mem_wholeWords_word {w x : Nat} {bs : Bytes} (len : bs.length = 8) : x ∈ wholeWords (bytesAt (w * 8) bs) ↔ x = w := by
  have addrs : (bytesAt (w * 8) bs).map Prod.fst = (List.range 8).map (w * 8 + ·) := by
    apply List.ext_getElem
    · simp [bytesAt, len]
    · intro i _ _
      simp [bytesAt]
  simp only [wholeWords, addrs, List.mem_filter, List.mem_eraseDups, List.mem_map, List.mem_range, List.all_eq_true,
    List.contains_eq_mem, decide_eq_true_eq]
  constructor
  · rintro ⟨⟨a, ⟨i, hi, rfl⟩, rfl⟩, -⟩
    omega
  · rintro rfl
    exact ⟨⟨x * 8, ⟨0, by omega, rfl⟩, by omega⟩, fun i hi => ⟨i, hi, by omega⟩⟩

theorem poisoned_writeComb (s : State) (ws : List (Nat × Byte)) (a : Nat) :
    poisoned (writeComb s ws) a = (poisoned s a && !(wholeWords ws).contains (a / 8)) := by
  cases h : s.poison with
  | nil => simp [poisoned, writeComb, h]
  | cons x xs =>
    rw [Bool.eq_iff_iff]
    simp [poisoned, writeComb, h]

/-- A write through the port replaces the word that holds the address, with good check bits (R80, R107). -/
theorem writeComb_word (s : State) (addr : Nat) (v : BitVec 64) (wf : memWf combDefault s.comb = true) :
    let u := writeComb s (bytesAt (addr / 8 * 8) (natLe 8 v.toNat))
    (∀ i < 8, (readComb u (addr / 8 * 8 + i)).toNat = v.toNat / 256 ^ i % 256)
      ∧ (∀ a, a / 8 ≠ addr / 8 → readComb u a = readComb s a ∧ poisoned u a = poisoned s a) ∧ poisoned u addr = false := by
  have len := natLe_length 8 v.toNat
  refine ⟨fun i hi => ?_, fun a other => ⟨?_, ?_⟩, ?_⟩
  · rw [readComb, writeComb_comb, memGet_bytesAt wf (by omega), getElem_natLe]
    rfl
  · exact memGet_bytesAt_outside wf (by omega)
  · rw [poisoned_writeComb, List.contains_eq_mem, decide_eq_false (by rwa [mem_wholeWords_word len])]
    exact Bool.and_true _
  · rw [poisoned_writeComb, List.contains_eq_mem, decide_eq_true ((mem_wholeWords_word len).mpr rfl)]
    exact Bool.and_false _

/-- Settles O38: the port's three accesses, of the aligned word that holds the address. -/
theorem debugPort : Obligations.DebugPort := by
  intro s hs
  refine ⟨fun f bank => (exec_bankStatus f bank).trans (clocked_of_clocked hs), fun addr low data => ⟨fun barred => ?_, fun may => ?_⟩⟩
  · rw [exec_readComb low, exec_writeComb low, clocked_of_clocked hs, clocked_of_clocked hs, barred]
    exact ⟨rfl, rfl⟩
  · have word : addr - addr % 8 = addr / 8 * 8 := by omega
    have aligned : addr / 8 * 8 / 8 * 8 = addr / 8 * 8 := by omega
    have low' : addr / 8 * 8 < 2 ^ 28 := by omega
    rw [word]
    refine ⟨?_, ?_, fun clean => ?_, fun memories => ?_⟩
    · rw [exec_readComb low, exec_readComb low', aligned]
    · rw [exec_writeComb low, exec_writeComb low', aligned]
    · have clean' : poisoned s (addr / 8 * 8) = false := by
        rw [← clean, poisoned, poisoned, show addr / 8 * 8 / 8 = addr / 8 by omega]
      refine ⟨_, (exec_readComb low).trans (clocked_of_clocked hs), ?_⟩
      rw [may, clean']
      exact ⟨rfl, wordRegs_bytes s (addr / 8 * 8)⟩
    · refine ⟨_, (exec_writeComb low data).trans (clocked_of_clocked hs), ?_⟩
      rw [if_pos may]
      exact ⟨rfl, writeComb_word s addr data memories.1⟩

end DebugPort

end Sys2Proof.Machine
end

section
namespace Sys2Proof.Machine

/-! ## Bank status words (R80) -/

theorem assocD_assocSet {α β : Type} [BEq α] [LawfulBEq α] [DecidableEq α] (l : List (α × β)) (k j : α) (v d : β) :
    assocD (assocSet l k v) j d = if j = k then v else assocD l j d := by
  unfold assocD assocSet
  rw [List.find?_cons]
  by_cases h : j = k
  · simp [h]
  · have others : (l.filter (fun p => !(p.1 == k))).find? (fun p => p.1 == j) = l.find? (fun p => p.1 == j) := by
      rw [List.find?_filter]
      congr 1
      funext p
      by_cases e : p.1 = j <;> simp [e, h]
    have first : (k == j) = false := beq_eq_false_iff_ne.mpr (Ne.symm h)
    simp only [first, others, h, if_false]

/-- The status word of a bank after a change of a bank's. -/
theorem bankStatus_setBank (x : Frame) (bank : Nat) (g : Nat × Nat × Nat → Nat × Nat × Nat) (b : Nat) :
    assocD (setBank x bank g).bankStatus b (0, 0, 0)
      = if b = bank then g (assocD x.bankStatus bank (0, 0, 0)) else assocD x.bankStatus b (0, 0, 0) :=
  assocD_assocSet x.bankStatus bank b _ (0, 0, 0)

/-! ## The words of a line (R72) -/

section Address
variable {f bank line w : Nat}

theorem bankWordAddr_eq (hb : bank < 256) : ∃ x < 256, bank ^^^ line % 256 = x
    ∧ bankWordAddr f bank line w = f * 2 ^ 25 + line * 2 ^ 15 + x * 128 + w * 8 := by
  refine ⟨bank ^^^ line % 256, Nat.xor_lt_two_pow (n := 8) hb (Nat.mod_lt _ (by decide)), rfl, ?_⟩
  rw [bankWordAddr]
  omega

theorem bankWordAddr_frame (hb : bank < 256) (hl : line < 1024) (hw : w < 16) : bankWordAddr f bank line w / 2 ^ 25 = f := by
  obtain ⟨x, hx, -, e⟩ := bankWordAddr_eq (f := f) (line := line) (w := w) hb
  omega

theorem bankOf_bankWordAddr (hb : bank < 256) (hw : w < 16) : bankOf (bankWordAddr f bank line w) = bank := by
  obtain ⟨x, hx, hash, e⟩ := bankWordAddr_eq (f := f) (line := line) (w := w) hb
  have low : bankWordAddr f bank line w / 2 ^ 7 % 256 = x := by omega
  have high : bankWordAddr f bank line w / 2 ^ 15 % 256 = line % 256 := by omega
  rw [bankOf, low, high, ← hash, Nat.xor_assoc, Nat.xor_self, Nat.xor_zero]

/-- A word stands in the frame, bank, line and place that its address names. -/
theorem bankWordAddr_of_place {a : Nat} (hf : a / 2 ^ 25 = f) (hb : bankOf a = bank) (hl : a % 2 ^ 25 / 2 ^ 15 = line)
    (hw : a % 128 = 8 * w) : bankWordAddr f bank line w = a := by
  have high : line % 256 = a / 2 ^ 15 % 256 := by omega
  have low : bank ^^^ line % 256 = a / 2 ^ 7 % 256 := by
    rw [← hb, bankOf, high, Nat.xor_assoc, Nat.xor_self, Nat.xor_zero]
  rw [bankWordAddr, low]
  omega

end Address

/-! ## Errors of comb words (R107) -/

section Poison
variable {s : State} {a : Nat}

theorem mem_poison_markPoison {x : Nat} : x ∈ (markPoison s a).poison ↔ x ∈ s.poison ∨ x = a / 8 := by
  simp only [markPoison, setFrame_poison, List.contains_eq_mem, decide_eq_true_eq]
  split
  · next marked => exact ⟨.inl, fun h => h.elim id fun e => e ▸ marked⟩
  · simp only [List.mem_append, List.mem_filter, List.mem_singleton, decide_eq_true_eq]
    constructor
    · rintro ((⟨there, -⟩ | rfl) | ⟨there, -⟩)
      · exact .inl there
      · exact .inr rfl
      · exact .inl there
    · rintro (there | rfl)
      · rcases Nat.lt_trichotomy x (a / 8) with below | rfl | above
        · exact .inl (.inl ⟨there, below⟩)
        · exact .inl (.inr rfl)
        · exact .inr ⟨there, above⟩
      · exact .inl (.inr rfl)

theorem poison_markPoison_marked (h : poisoned s a = true) : (markPoison s a).poison = s.poison := if_pos h

/-- A frame after an uncorrectable word of its own. -/
def ueNoted (x : Frame) (a : Nat) : Frame :=
  setBank { x with ueCount := satAdd x.ueCount 1, ueValid := true, ueAddr := if x.ueValid then x.ueAddr else BitVec.ofNat 28 (a / 8 * 8) }
    (bankOf a) (fun w => (w.1, w.2.1 + 1, w.2.2))

theorem getFrame_markPoison_same (h : a / 2 ^ 25 < s.frames.length) :
    getFrame (markPoison s a) (a / 2 ^ 25) = ueNoted (getFrame s (a / 2 ^ 25)) a :=
  getFrame_setFrame_same _ _ _ h

theorem getFrame_markPoison_ne {g : Nat} (h : a / 2 ^ 25 ≠ g) : getFrame (markPoison s a) g = getFrame s g :=
  getFrame_setFrame_ne _ _ _ _ h

/-- A frame after a corrected error of its own. -/
def ceNoted (x : Frame) (a : Nat) : Frame :=
  setBank { x with ceCount := satAdd x.ceCount 1 } (bankOf a) (fun w => (w.1 + 1, w.2.1, w.2.2))

theorem getFrame_countCorrected_same (h : a / 2 ^ 25 < s.frames.length) :
    getFrame (countCorrected s a) (a / 2 ^ 25) = ceNoted (getFrame s (a / 2 ^ 25)) a :=
  getFrame_setFrame_same _ _ _ h

theorem getFrame_countCorrected_ne {g : Nat} (h : a / 2 ^ 25 ≠ g) : getFrame (countCorrected s a) g = getFrame s g :=
  getFrame_setFrame_ne _ _ _ _ h

theorem markPoison_frames : markPoison s a = { s with frames := (markPoison s a).frames, poison := (markPoison s a).poison } := rfl

theorem countCorrected_frames : countCorrected s a = { s with frames := (countCorrected s a).frames } := rfl

/-- A frame that holds no Heirloom page has none to write again (R250). -/
theorem mendPage_of_no_pages (h : (getFrame s (a / 2 ^ 25)).heirloom = []) : mendPage s a = s := by
  unfold mendPage
  simp only [h, List.getElem?_nil, ite_self]

theorem mendPage_markPoison_of_no_pages (hf : a / 2 ^ 25 < s.frames.length) (h : (getFrame s (a / 2 ^ 25)).heirloom = []) :
    mendPage (markPoison s a) a = markPoison s a :=
  mendPage_of_no_pages (by rw [getFrame_markPoison_same hf]; exact h)

end Poison

/-! ## NARROW_FORCED_GRANT and PATROL_READ (R78, R109) -/

section Upkeep
variable {s : State} {f : Fin 8} {bank : Fin 256} {line : Fin 1024}

/-- A frame after a forced grant that has waited. -/
def waitNoted (x : Frame) (bank waited : Nat) : Frame :=
  setBank { x with narrowMax := BitVec.ofNat 7 (max x.narrowMax.toNat (min 64 waited)) } bank (fun b => (b.1, b.2.1, max b.2.2 (min 64 waited)))

theorem exec_narrowForcedGrant (hs : standing s = false) (w : BitVec 7) :
    exec (.narrowForcedGrant f bank w) s = .next (setFrame s f (waitNoted · bank w.toNat)) :=
  clocked_of_clocked hs

/-- An error that the patrol finds, the word's page of Heirloom written again. -/
def patrolFound (s : State) (a : Nat) : State := mendPage (markPoison s a) a

/-- A patrol read of a line of which the words `old` are poisoned already, by what an uncorrectable and a corrected word do. -/
def patrolled (found corrected : State → Nat → State) (addr : Nat → Nat) (s : State) (old : List Nat) (x : PatrolFinding) : State :=
  let t := old.foldl (fun t w => found t (addr w)) s
  match x with
  | .clean => t
  | .corrected w => if old.contains w.val then t else corrected t (addr w)
  | .uncorrectable w => if old.contains w.val then t else found t (addr w)

section Patrolled
variable {found corrected : State → Nat → State} {addr : Nat → Nat}

theorem patrolled_nil (x : PatrolFinding) : patrolled found corrected addr s [] x = match x with
    | .clean => s
    | .corrected w => corrected s (addr w)
    | .uncorrectable w => found s (addr w) := by
  cases x <;> rfl

/-- A word that is poisoned already is uncorrectable for every read of its line, whatever else the read finds in it (R109). -/
theorem patrolled_known {w : Fin 16} {x : PatrolFinding} (hx : x = .clean ∨ x = .corrected w ∨ x = .uncorrectable w) :
    patrolled found corrected addr s [w.val] x = found s (addr w) := by
  have there : [w.val].contains w.val = true := by simp
  rcases hx with rfl | rfl | rfl
  · rfl
  · exact if_pos there
  · exact if_pos there

end Patrolled

theorem exec_patrolRead (hs : standing s = false) (x : PatrolFinding) : exec (.patrolRead f bank line x) s =
    .next (patrolled patrolFound countCorrected (bankWordAddr f bank line) s
      ((List.range 16).filter (fun w => poisoned s (bankWordAddr f bank line w))) x) := by
  rw [← clocked_of_clocked hs]
  cases x <;> rfl

theorem filter_unmarked {p : Nat → Bool} (clean : ∀ w < 16, p w = false) : (List.range 16).filter p = [] := by
  rw [List.filter_congr fun w hw => clean w (List.mem_range.mp hw), List.filter_false]

theorem filter_marked {p : Nat → Bool} {w : Fin 16} (marked : ∀ v < 16, p v = decide (v = w.val)) : (List.range 16).filter p = [w.val] := by
  rw [List.filter_congr fun v hv => (marked v (List.mem_range.mp hv)).trans (beq_eq_decide v w.val).symm, List.filter_beq,
    List.count_eq_one_of_mem List.nodup_range (List.mem_range.mpr w.isLt), List.replicate_one]

theorem exec_patrolRead_unmarked (hs : standing s = false) (clean : ∀ w < 16, poisoned s (bankWordAddr f bank line w) = false)
    (x : PatrolFinding) : exec (.patrolRead f bank line x) s = .next (match x with
      | .clean => s
      | .corrected w => countCorrected s (bankWordAddr f bank line w)
      | .uncorrectable w => patrolFound s (bankWordAddr f bank line w)) := by
  rw [exec_patrolRead hs, filter_unmarked clean, patrolled_nil]

theorem exec_patrolRead_marked (hs : standing s = false) {w : Fin 16}
    (marked : ∀ v < 16, poisoned s (bankWordAddr f bank line v) = decide (v = w.val)) {x : PatrolFinding}
    (hx : x = .clean ∨ x = .corrected w ∨ x = .uncorrectable w) :
    exec (.patrolRead f bank line x) s = .next (patrolFound s (bankWordAddr f bank line w)) := by
  rw [exec_patrolRead hs, filter_marked marked, patrolled_known hx]

/-- What a corrected word of a bank changes. -/
theorem countCorrected_noted {a : Nat} (inside : f.val < s.frames.length) (hf : a / 2 ^ 25 = f) (hb : bankOf a = bank) :
    (getFrame (countCorrected s a) f).ceCount = satAdd (getFrame s f).ceCount 1
      ∧ ∀ b, assocD (getFrame (countCorrected s a) f).bankStatus b (0, 0, 0) =
        (let B := assocD (getFrame s f).bankStatus bank.val (0, 0, 0)
        if b = bank.val then (B.1 + 1, B.2.1, B.2.2) else assocD (getFrame s f).bankStatus b (0, 0, 0)) := by
  have after := getFrame_countCorrected_same (hf ▸ inside)
  rw [hf] at after
  rw [after, ceNoted, hb]
  exact ⟨rfl, fun b => bankStatus_setBank ..⟩

/-- What an uncorrectable word of a bank changes in its frame; R107 keeps the first address. -/
theorem markPoison_noted {a : Nat} (inside : f.val < s.frames.length) (hf : a / 2 ^ 25 = f) (hb : bankOf a = bank) :
    let F := getFrame s f
    let u := getFrame (markPoison s a) f
    u.ueCount = satAdd F.ueCount 1 ∧ u.ueValid = true ∧ u.ueAddr = (if F.ueValid then F.ueAddr else BitVec.ofNat 28 (a / 8 * 8))
      ∧ u.ceCount = F.ceCount ∧ ∀ b, assocD u.bankStatus b (0, 0, 0) =
        (let B := assocD F.bankStatus bank.val (0, 0, 0)
        if b = bank.val then (B.1, B.2.1 + 1, B.2.2) else assocD F.bankStatus b (0, 0, 0)) := by
  have after := getFrame_markPoison_same (hf ▸ inside)
  rw [hf] at after
  rw [after, ueNoted, hb]
  exact ⟨rfl, rfl, rfl, rfl, fun b => bankStatus_setBank ..⟩

theorem patrolFound_of_no_pages {a : Nat} (inside : f.val < s.frames.length) (hf : a / 2 ^ 25 = f) (pages : (getFrame s f).heirloom = []) :
    patrolFound s a = markPoison s a :=
  mendPage_markPoison_of_no_pages (hf ▸ inside) (hf ▸ pages)

end Upkeep

/-- Settles O37: a forced grant and each finding of a patrol read, by the frame and the bank that they note it in. -/
theorem combUpkeep : Obligations.CombUpkeep := by
  intro s f bank w hs F B clean
  have inside : f.val < s.frames.length := f.isLt.trans_eq w.frames.symm
  have frame (line : Fin 1024) (v : Fin 16) : bankWordAddr f bank line v / 2 ^ 25 = f.val := bankWordAddr_frame bank.isLt line.isLt v.isLt
  have bankIs (line : Fin 1024) (v : Fin 16) : bankOf (bankWordAddr f bank line v) = bank.val := bankOf_bankWordAddr bank.isLt v.isLt
  refine ⟨fun n => ?grant, fun line h => exec_patrolRead_unmarked hs h .clean, fun line v h => ?corrected,
    fun line v a h pages fits aligned hf hb hl hw => ?uncorrectable, fun line v x pages hx marked => ?again⟩
  case grant =>
    refine ⟨_, exec_narrowForcedGrant hs n, rfl, fun g hg => getFrame_setFrame_ne s f g _ hg.symm, ?_⟩
    have small := F.narrowMax.isLt
    rw [getFrame_setFrame_same s f (waitNoted · bank n.toNat) inside]
    refine ⟨?_, (bankStatus_setBank _ _ _ _).trans (if_pos rfl), rfl, rfl⟩
    exact (BitVec.toNat_ofNat ..).trans (Nat.mod_eq_of_lt (by omega))
  case corrected =>
    obtain ⟨counted, banks⟩ := countCorrected_noted inside (frame line v) (bankIs line v)
    exact ⟨_, exec_patrolRead_unmarked hs h (.corrected v), countCorrected_frames, counted, banks,
      fun g hg => getFrame_countCorrected_ne (by rw [frame]; exact hg.symm)⟩
  case uncorrectable =>
    have here := bankWordAddr_of_place (w := v) hf hb hl hw
    have word : a / 8 * 8 = a := by omega
    obtain ⟨counted, valid, first, -, banks⟩ := markPoison_noted inside hf hb
    rw [word] at first
    have found : patrolFound s (bankWordAddr f bank line v) = markPoison s a := by rw [here, patrolFound_of_no_pages inside hf pages]
    exact ⟨_, (exec_patrolRead_unmarked hs h (.uncorrectable v)).trans (congrArg Host.Outcome.next found), markPoison_frames,
      fun x => mem_poison_markPoison, counted, valid, first, banks, fun g hg => getFrame_markPoison_ne (by rw [hf]; exact hg.symm)⟩
  case again =>
    have old : poisoned s (bankWordAddr f bank line v) = true := by rw [marked v v.isLt]; exact decide_eq_true rfl
    obtain ⟨counted, valid, -, corrected, -⟩ := markPoison_noted inside (frame line v) (bankIs line v)
    have found := patrolFound_of_no_pages inside (frame line v) pages
    exact ⟨_, (exec_patrolRead_marked hs marked hx).trans (congrArg Host.Outcome.next found), markPoison_frames,
      poison_markPoison_marked old, counted, corrected, valid, fun g hg => getFrame_markPoison_ne (by rw [frame]; exact hg.symm)⟩

end Sys2Proof.Machine
end

section
namespace Sys2Proof.Machine

/-! ## Waits that last too long (R96, R97, R369, R403) -/

/-- A fault's record and its mark on a run are all that changed, and no ring of a run. -/
def FaultOnly (s u : State) : Prop :=
  u = { s with runs := u.runs, keeper := u.keeper, telem := u.telem, time := u.time, mailboxes := u.mailboxes }
    ∧ ∀ r, (getRun u r).map Run.rings = (getRun s r).map Run.rings

section FaultOnly
variable {s : State} {r : Nat} {code : BitVec 16} {instr unit domain inst redone phase : Nat}

theorem faultRecord_faultOnly (s : State) (i : FaultInfo) (o : Option (BitVec 64)) : FaultOnly s (faultRecord s i o) := by
  obtain ⟨_, _, _, _, _, e⟩ := faultRecord_reported s i o
  rw [e]
  exact ⟨rfl, fun _ => rfl⟩

theorem FaultOnly.setRun {u : State} (h : FaultOnly s u) {g : Run → Run} (hg : ∀ rn, (g rn).rings = rn.rings) : FaultOnly s (setRun u r g) := by
  obtain ⟨e, rings⟩ := h
  refine ⟨congrArg (Machine.setRun · r g) e, fun q => ?_⟩
  rw [← rings q]
  by_cases same : r = q
  · rw [← same, getRun_setRun_same, Option.map_map]
    exact congrArg (Option.map · (getRun u r)) (funext hg)
  · rw [getRun_setRun_ne _ _ _ _ same]

theorem runFault_faultOnly : FaultOnly s (runFault s r code instr unit domain inst redone phase) := by
  cases h : getRun s r with
  | none =>
    rw [runFault_none h]
    exact ⟨rfl, fun _ => rfl⟩
  | some rn =>
    obtain ⟨i, o, -, -, -, -, e⟩ := runFault_eq (code := code) (instr := instr) (unit := unit) (domain := domain) (inst := inst)
      (redone := redone) (phase := phase) h
    rw [e]
    split
    · exact faultRecord_faultOnly s i o
    · exact (faultRecord_faultOnly s i o).setRun fun _ => rfl

theorem FaultOnly.field {α : Type} {u : State} (h : FaultOnly s u) (f : State → α)
    (hf : ∀ runs keeper telem time boxes, f { s with runs := runs, keeper := keeper, telem := telem, time := time, mailboxes := boxes } = f s) :
    f u = f s := by
  rw [h.1]
  exact hf ..

end FaultOnly

section Rings
variable {s : State} {side : Bool} {row : Waiter → Instr} {code : BitVec 16}

theorem exec_ringTimeout (hs : standing s = false)
    (h : (side = false ∧ row = .starveTimeout ∧ code = 0x0220) ∨ (side = true ∧ row = .blockTimeout ∧ code = 0x0221)) :
    (∀ who, exec (row who) s = .next (ringTimeout s who side code)) ∧ faultClass code ≠ 2 := by
  rcases h with ⟨rfl, rfl, rfl⟩ | ⟨rfl, rfl, rfl⟩
  · exact ⟨fun _ => clocked_of_clocked hs, by decide⟩
  · exact ⟨fun _ => clocked_of_clocked hs, by decide⟩

/-- The timer of a worker is that of the first unit it holds. -/
theorem ringTimeout_worker {w : Fin 68} {wt : Wait} {h : Held} {rest : List Held} (waits : (getWorker s w).wait = some wt)
    (held : (getWorker s w).held = h :: rest) : ringTimeout s (.worker w) side code =
      if wt.producer == side && waitTimed s h.run (some (workerFrame s w)) wt then runFault (dropHeld s w) h.run code h.ref.instr h.ref.unit
      else s := by
  unfold ringTimeout
  dsimp only
  rw [waits, held]

theorem ringTimeout_worker_idle {w : Fin 68} (idle : (getWorker s w).wait = none ∨ (getWorker s w).held = []) :
    ringTimeout s (.worker w) side code = s := by
  unfold ringTimeout
  dsimp only
  rcases idle with none | none
  · rw [none]
  · rw [none]
    cases (getWorker s w).wait <;> rfl

/-- Has a unit of a forager waited as long as its ring allows? -/
def waitLate (s : State) (side : Bool) (m : Move) : Bool :=
  match m.wait with
  | some wt => wt.producer == side && waitTimed s m.run none wt
  | none => false

theorem waitLate_iff {m : Move} :
    waitLate s side m = true ↔ ∃ wt, m.wait = some wt ∧ wt.producer = side ∧ waitTimed s m.run none wt = true := by
  unfold waitLate
  cases m.wait <;> simp

theorem ringTimeout_forager {g : Fin 32} : ringTimeout s (.forager g) side code = match (getForager s g).moves.find? (waitLate s side) with
    | some m => runFault (setForager s g (fun x => { x with moves := x.moves.filter (· != m) })) m.run code m.ref.instr m.ref.unit
    | none => s := rfl

theorem ringTimeout_forager_none {g : Fin 32} (h : ∀ m ∈ (getForager s g).moves, waitLate s side m = false) :
    ringTimeout s (.forager g) side code = s := by
  rw [ringTimeout_forager, List.find?_eq_none.mpr fun m hm => by simp [h m hm]]

theorem ringTimeout_forager_first {g : Fin 32} {pre post : List Move} {m : Move} (moves : (getForager s g).moves = pre ++ m :: post)
    (first : ∀ x ∈ pre, waitLate s side x = false) (late : waitLate s side m = true) : ringTimeout s (.forager g) side code =
      runFault (setForager s g (fun x => { x with moves := x.moves.filter (· != m) })) m.run code m.ref.instr m.ref.unit := by
  have found : (getForager s g).moves.find? (waitLate s side) = some m := by
    rw [moves]
    exact List.find?_eq_some_iff_append.mpr ⟨late, pre, post, rfl, fun x hx => by simp [first x hx]⟩
  rw [ringTimeout_forager, found]

end Rings

section Timeouts
variable {s : State} {code : BitVec 16}

/-- The unit of a worker ends with a fault of its run (R97). -/
theorem workerTimedOut {w : Fin 68} {h : Held} (inside : w.val < s.workers.length) (hc : faultClass code ≠ 2) :
    let u := runFault (dropHeld s w) h.run code h.ref.instr h.ref.unit
    (getWorker u w).held = [] ∧ (getWorker u w).wait = none ∧ (∀ v, v ≠ w.val → getWorker u v = getWorker s v)
      ∧ u = { s with workers := u.workers, runs := u.runs, keeper := u.keeper, telem := u.telem, time := u.time, mailboxes := u.mailboxes }
      ∧ (∀ r, (getRun u r).map Run.rings = (getRun s r).map Run.rings) ∧ (Faultable s h.run → FaultedAt u h.run code h.ref) := by
  have dropped : getWorker (runFault (dropHeld s w) h.run code h.ref.instr h.ref.unit) w = { getWorker s w with held := [], wait := none } :=
    (getWorker_congr runFault_workers w).trans (getWorker_dropHeld inside)
  obtain ⟨only, rings⟩ : FaultOnly (dropHeld s w) (runFault (dropHeld s w) h.run code h.ref.instr h.ref.unit) := runFault_faultOnly
  refine ⟨congrArg Worker.held dropped, congrArg Worker.wait dropped, fun v hv => ?_, ?_, rings, fun faultable => ?_⟩
  · exact (getWorker_congr runFault_workers v).trans (getWorker_setWorker_ne s w v _ hv.symm)
  · rw [runFault_workers]
    exact only
  · exact faultedAt_runFault (s := dropHeld s w) faultable hc

/-- The unit of a forager ends with a fault of its run (R97). -/
theorem moveTimedOut {g : Fin 32} {m : Move} (hc : faultClass code ≠ 2) :
    let u := runFault (setForager s g (fun x => { x with moves := x.moves.filter (· != m) })) m.run code m.ref.instr m.ref.unit
    m ∉ (getForager u g).moves ∧ (∀ x ∈ (getForager s g).moves, x ≠ m → x ∈ (getForager u g).moves)
      ∧ u = { s with foragers := u.foragers, runs := u.runs, keeper := u.keeper, telem := u.telem, time := u.time, mailboxes := u.mailboxes }
      ∧ (∀ r, (getRun u r).map Run.rings = (getRun s r).map Run.rings) ∧ (Faultable s m.run → FaultedAt u m.run code m.ref) := by
  intro u
  have moves : (getForager u g).moves = (getForager s g).moves.filter (· != m) := by
    have same : u.foragers = _ := runFault_foragers
    rw [getForager, same]
    exact moves_setForager s g (f := List.filter (· != m)) rfl
  obtain ⟨only, rings⟩ : FaultOnly (setForager s g (fun x => { x with moves := x.moves.filter (· != m) })) u := runFault_faultOnly
  refine ⟨?_, fun x hx other => ?_, ?_, rings, fun faultable => ?_⟩
  · simp [moves]
  · simp [moves, hx, other]
  · rw [show u.foragers = _ from runFault_foragers]
    exact only
  · exact faultedAt_runFault (s := setForager s g _) faultable hc

end Timeouts

/-! ### Credits of a partner or a peer (R369, R403) -/

section Credits
variable {s : State} {g : Fin 32} {m : Move} {rn : Run} {i : Issued}

theorem creditWaiter_instr {opcode : Nat} (h : creditWaiter s g opcode = some (m, rn, i)) : i.instr = m.ref.instr := by
  obtain ⟨x, -, hx⟩ := List.exists_of_findSome?_eq_some h
  split at hx
  · exact absurd hx nofun
  · split at hx
    · exact absurd hx nofun
    · next run _ =>
      split at hx
      · next j found =>
        split at hx
        · obtain ⟨rfl, rfl, rfl⟩ : x = m ∧ run = rn ∧ j = i := by simpa using hx
          exact eq_of_beq (List.find?_some found :)
        · exact absurd hx nofun
      · exact absurd hx nofun

/-- A unit whose credit does not come ends with a fault of its run. -/
theorem creditTimedOut {code : BitVec 16} (same : i.instr = m.ref.instr) (hc : faultClass code ≠ 2) :
    let u := runFault (dropMove s g m) m.run code i.instr m.ref.unit
    (∀ y ∈ (getForager u g).moves, y.run = m.run → y.ref ≠ m.ref) ∧ u.comb = s.comb ∧ u.partners = s.partners ∧ u.links = s.links
      ∧ (Faultable s m.run → (getRun u m.run).bind Run.fault = some { code := code, instr := m.ref.instr, unit := m.ref.unit }) := by
  intro u
  have only : FaultOnly (dropMove s g m) u := runFault_faultOnly
  refine ⟨(dropMove_moveGone s g m).mono ?_, runFault_comb, only.field State.partners fun _ _ _ _ _ => rfl,
    only.field State.links fun _ _ _ _ _ => rfl, fun faultable => ?_⟩
  · have foragers : u.foragers = _ := runFault_foragers
    rw [getForager, foragers, ← getForager]
    exact List.Subset.refl _
  · rw [show u = runFault (dropMove s g m) m.run code m.ref.instr m.ref.unit by rw [← same]]
    exact faultedAt_runFault (s := dropMove s g m) faultable hc

theorem exec_fsendCreditTimeout (hs : standing s = false) (h : creditWaiter s g 0x73 = some (m, rn, i)) :
    exec (.fsendCreditTimeout g) s = .next (
      if ((getPartner s (i.op.imm0.toNat % 8)).rings.find? (fun x => x.id == bits i.op.imm0.toNat 15 8)).any
          (fun pr => pr.credits.contains pr.nextSeq)
        || m.sent != 0 || (findRecovery s 7 (i.op.imm0.toNat % 8)).isSome then s
      else runFault (dropMove s g m) m.run 0x0414 i.instr m.ref.unit) := by
  rw [← clocked_of_clocked hs]
  refine congrArg (clocked s) ?_
  rw [h]
  dsimp only
  cases (getPartner s (i.op.imm0.toNat % 8)).rings.find? (fun x => x.id == bits i.op.imm0.toNat 15 8) with
  | none => rfl
  | some pr => rfl

theorem exec_fsendCreditTimeout_idle (hs : standing s = false) (h : creditWaiter s g 0x73 = none) : exec (.fsendCreditTimeout g) s = .next s := by
  rw [← clocked_of_clocked hs]
  refine congrArg (clocked s) ?_
  rw [h]

theorem exec_csendCreditTimeout (hs : standing s = false) (h : creditWaiter s g 0x80 = some (m, rn, i)) :
    exec (.csendCreditTimeout g) s = .next (
      if (peerRing (getLink s (linkOf i.op)) (peerRingId i.op)).any (fun pr => pr.credits.contains pr.nextSeq)
        || !linkUp (getLink s (linkOf i.op)) then s
      else runFault (dropMove s g m) m.run 0x0314 i.instr m.ref.unit) := by
  rw [← clocked_of_clocked hs]
  refine congrArg (clocked s) ?_
  rw [h]
  dsimp only
  cases peerRing (getLink s (linkOf i.op)) (peerRingId i.op) with
  | none => rfl
  | some pr => rfl

theorem exec_csendCreditTimeout_idle (hs : standing s = false) (h : creditWaiter s g 0x80 = none) : exec (.csendCreditTimeout g) s = .next s := by
  rw [← clocked_of_clocked hs]
  refine congrArg (clocked s) ?_
  rw [h]

end Credits

/-- Settles O56: the timers of worker and forager by the units that they find late, those of the two sending rows by the credit. -/
theorem waitTimeouts : Obligations.WaitTimeouts := by
  intro s w hs
  refine ⟨fun side row code h => ?rings, fun g => ⟨exec_fsendCreditTimeout_idle hs, exec_csendCreditTimeout_idle hs,
    fun m rn i waits => ?partner, fun m rn i waits => ?peer⟩⟩
  case rings =>
    obtain ⟨ends, hc⟩ := exec_ringTimeout hs h
    refine ⟨fun x => ⟨fun quiet => ?_, fun wt h rest waits held of timed => ?_⟩,
      fun g => ⟨fun quiet => ?_, fun pre m post moves first late => ?_⟩⟩
    · rw [ends]
      cases waits : (getWorker s x).wait with
      | none => rw [ringTimeout_worker_idle (.inl waits)]
      | some wt =>
        cases held : (getWorker s x).held with
        | nil => rw [ringTimeout_worker_idle (.inr held)]
        | cons h rest =>
          rw [ringTimeout_worker waits held, if_neg]
          rcases quiet wt h rest waits held with other | still
          · simp [other]
          · simp [still]
    · have late : (wt.producer == side && waitTimed s h.run (some (workerFrame s x)) wt) = true := by simp [of, timed]
      refine ⟨_, (ends _).trans (congrArg Host.Outcome.next ((ringTimeout_worker waits held).trans (if_pos late))), ?_⟩
      exact workerTimedOut (x.isLt.trans_eq w.workers.symm) hc
    · rw [ends, ringTimeout_forager_none fun m hm => Bool.eq_false_iff.mpr (mt waitLate_iff.mp (quiet m hm))]
    · have earlier := fun x hx => Bool.eq_false_iff.mpr (mt waitLate_iff.mp (first x hx))
      exact ⟨_, (ends _).trans (congrArg Host.Outcome.next (ringTimeout_forager_first moves earlier (waitLate_iff.mpr late))), moveTimedOut hc⟩
  case partner =>
    have row := exec_fsendCreditTimeout hs waits
    refine ⟨fun held => row.trans (congrArg Host.Outcome.next (if_pos ?_)), fun unready unsent up =>
      ⟨_, row.trans (congrArg Host.Outcome.next (if_neg ?_)), creditTimedOut (creditWaiter_instr waits) (by decide)⟩⟩
    · rcases held with ⟨pr, ring, credit⟩ | sent | recovers
      · simp [ring, credit]
      · simp [sent]
      · simp [recovers]
    · simpa [Option.any_eq_true, unsent, up] using unready
  case peer =>
    have row := exec_csendCreditTimeout hs waits
    refine ⟨fun held => row.trans (congrArg Host.Outcome.next (if_pos ?_)), fun unready up =>
      ⟨_, row.trans (congrArg Host.Outcome.next (if_neg ?_)), creditTimedOut (creditWaiter_instr waits) (by decide)⟩⟩
    · rcases held with ⟨pr, ring, credit⟩ | down
      · simp [ring, credit]
      · simp [down]
    · simpa [Option.any_eq_true, up] using unready

end Sys2Proof.Machine
end

section
namespace Sys2Proof.Machine

/-! ## Tiles that land in receive rings (R350 to R352) -/

theorem Whole.partners {s : State} (h : Whole s) : s.partners.length = 8 := by
  obtain ⟨_, _, _, _, _, _, count, _⟩ := h
  exact count

/-! ### Rings of runs -/

section Rings
variable {s t : State} {r g : Nat}

theorem getRing_eq (s : State) (r g : Nat) : getRing s r g = nth (((getRun s r).map Run.rings).getD []) g := by
  unfold getRing
  cases getRun s r <;> rfl

theorem getRing_congr (h : (getRun t r).map Run.rings = (getRun s r).map Run.rings) : getRing t r g = getRing s r g := by
  rw [getRing_eq, h, getRing_eq]

theorem getRing_of_run {rn : Run} (h : getRun s r = some rn) : getRing s r g = nth rn.rings g := by
  unfold getRing
  rw [h]

theorem getRing_setRing_same {rn : Run} (hr : getRun s r = some rn) (hg : g < rn.rings.length) (f : Ring → Ring) :
    getRing (setRing s r g f) r g = f (nth rn.rings g) := by
  have after : getRun (setRing s r g f) r = some { rn with rings := updAt rn.rings g f } := by
    rw [setRing, getRun_setRun_same, hr, Option.map_some]
  rw [getRing_of_run after]
  exact nth_updAt_same rn.rings g f hg

theorem getRun_setRing_some {rn : Run} (hr : getRun s r = some rn) (f : Ring → Ring) :
    ∃ rn', getRun (setRing s r g f) r = some rn' ∧ rn'.rings = updAt rn.rings g f := by
  rw [setRing, getRun_setRun_same, hr]
  exact ⟨_, rfl, rfl⟩

/-- A change of every ring of a run that keeps their tokens. -/
theorem tokens_setRun_map {f : Ring → Ring} (hf : ∀ x, (f x).tokens = x.tokens) (q : Nat) :
    (getRing (setRun s q (fun rn => { rn with rings := rn.rings.map f })) r g).tokens = (getRing s r g).tokens := by
  by_cases same : q = r
  · rw [getRing_eq, same, getRun_setRun_same, getRing_eq]
    cases getRun s r with
    | none => rfl
    | some rn =>
      simp only [Option.map_some, Option.getD_some, nth, List.getElem?_map]
      cases rn.rings[g]? with
      | none => rfl
      | some x => exact hf x
  · exact congrArg Ring.tokens (getRing_congr (by rw [getRun_setRun_ne _ _ _ _ same]))

theorem tokens_setRing {f : Ring → Ring} (hf : ∀ x, (f x).tokens = x.tokens) (q h : Nat) :
    (getRing (setRing s q h f) r g).tokens = (getRing s r g).tokens := by
  by_cases same : q = r
  · rw [getRing_eq, setRing, same, getRun_setRun_same, getRing_eq]
    cases getRun s r with
    | none => rfl
    | some rn =>
      simp only [Option.map_some, Option.getD_some, nth_updAt]
      split
      · exact hf _
      · rfl
  · exact congrArg Ring.tokens (getRing_congr (by rw [setRing, getRun_setRun_ne _ _ _ _ same]))

end Rings

/-! ### What a fault of a port leaves alone (R344) -/

/-- The comb, the token of every slot and the error bits of the ports are the same. -/
structure TilesKept (s u : State) : Prop where
  comb : u.comb = s.comb
  err : ∀ p, (getPartner u p).err = (getPartner s p).err
  tokens : ∀ r g, (getRing u r g).tokens = (getRing s r g).tokens

section TilesKept
variable {s₀ s t : State} {p : Nat}

theorem tilesKept_refl (s : State) : TilesKept s s := ⟨rfl, fun _ => rfl, fun _ _ => rfl⟩

theorem TilesKept.trans (h : TilesKept s₀ s) (h' : TilesKept s t) : TilesKept s₀ t :=
  ⟨h'.comb.trans h.comb, fun p => (h'.err p).trans (h.err p), fun r g => (h'.tokens r g).trans (h.tokens r g)⟩

theorem tilesKept_of_parts (comb : t.comb = s.comb) (partners : t.partners = s.partners) (runs : t.runs = s.runs) : TilesKept s t :=
  ⟨comb, fun p => by rw [getPartner, partners, getPartner], fun r _ => congrArg Ring.tokens (getRing_congr (by rw [getRun_congr runs r]))⟩

theorem FaultOnly.tilesKept (h : FaultOnly s t) : TilesKept s t :=
  ⟨h.field State.comb fun _ _ _ _ _ => rfl, fun p => congrArg PartnerPort.err (h.field (getPartner · p) fun _ _ _ _ _ => rfl),
    fun r _ => congrArg Ring.tokens (getRing_congr (h.2 r))⟩

theorem TilesKept.ite {c : Prop} [Decidable c] (hs : TilesKept s₀ s) (ht : TilesKept s₀ t) : TilesKept s₀ (if c then s else t) := by
  split
  · exact hs
  · exact ht

theorem TilesKept.foldl {α : Type} {f : State → α → State} (hf : ∀ t x, TilesKept t (f t x)) :
    ∀ (l : List α) (s : State), TilesKept s (l.foldl f s)
  | [], s => tilesKept_refl s
  | x :: l, s => (hf s x).trans (TilesKept.foldl hf l (f s x))

theorem setPartner_tilesKept {f : PartnerPort → PartnerPort} (hf : ∀ q, (f q).err = q.err) : TilesKept s (setPartner s p f) := by
  refine ⟨rfl, fun j => ?_, fun _ _ => rfl⟩
  rw [getPartner, setPartner_partners, nth_updAt]
  split
  · exact hf _
  · rfl

theorem tokenSame_setRing {r g : Nat} {f : Ring → Ring} (hf : ∀ x, (f x).tokens = x.tokens) : TilesKept s (setRing s r g f) :=
  ⟨rfl, fun _ => rfl, fun _ _ => tokens_setRing hf r g⟩

/-- A unit that a port's fault interrupts leaves its forager for its home frame. -/
theorem interrupted_tilesKept (t : State) (g : Nat) (m : Move) : TilesKept t (interruptUnit (dropMove t g m) m.run m.ref) :=
  tilesKept_of_parts ((interruptUnit_requeued ..).field State.comb fun _ => rfl) ((interruptUnit_requeued ..).field State.partners fun _ => rfl)
    ((interruptUnit_requeued ..).field State.runs fun _ => rfl)

theorem portDown_tilesKept {state : BitVec 3} : TilesKept s (portDown s p state) := by
  unfold portDown
  dsimp only
  generalize left : List.foldl _ _ (List.range 32) = t
  have lost : TilesKept s t := by
    rw [← left]
    refine (setPartner_tilesKept ?_).trans (TilesKept.foldl (fun t g => TilesKept.foldl (fun t m => interrupted_tilesKept t g m) _ t) _ _)
    exact fun _ => rfl
  split
  · refine lost.trans ⟨rfl, fun _ => rfl, fun r g => tokens_setRun_map (fun x => ?_) _⟩
    split <;> rfl
  · exact lost

theorem beginRecovery_tilesKept {domain inst : Nat} {code : BitVec 16} : TilesKept s (beginRecovery s domain inst code) :=
  tilesKept_of_parts beginRecovery_comb (beginRecovery_field State.partners fun _ => rfl) beginRecovery_runs

theorem portFault_tilesKept {state : BitVec 3} {code : BitVec 16} : TilesKept s (portFault s p state code) := by
  unfold portFault
  dsimp only
  generalize told : beginRecovery _ 7 p code = t
  have begun : TilesKept s t := by
    rw [← told]
    refine TilesKept.trans ?_ beginRecovery_tilesKept
    split
    · exact runFault_faultOnly.tilesKept
    · exact (faultRecord_faultOnly ..).tilesKept
  have contained : TilesKept t (phaseRecord t 7 p 2 code) := by
    obtain ⟨i, -, -, -, -, e⟩ := phaseRecord_eq t 7 p 2 code 0 0xFFFFFFFF 0
    rw [e]
    exact (faultRecord_faultOnly t i none).tilesKept
  exact begun.trans ((TilesKept.ite (tilesKept_refl t) contained).trans portDown_tilesKept)

end TilesKept

/-! ### A dropped packet -/

section Drop
variable {s : State} {p bitNo : Nat}

/-- A packet that is dropped for a violation lands nothing, whatever becomes of the port (R351, R352). -/
theorem tspDrop_tiles (inside : p < s.partners.length) (code : Option (BitVec 16)) : (tspDrop s p bitNo code).comb = s.comb
    ∧ (getPartner (tspDrop s p bitNo code) p).err = (getPartner s p).err ||| BitVec.ofNat 6 (2 ^ bitNo)
    ∧ ∀ r g, (getRing (tspDrop s p bitNo code) r g).tokens = (getRing s r g).tokens := by
  unfold tspDrop
  dsimp only
  generalize noted : setPartner s p _ = t
  have bits : (getPartner t p).err = (getPartner s p).err ||| BitVec.ofNat 6 (2 ^ bitNo) := by
    rw [← noted, getPartner_setPartner_same s p _ inside]
  have same : t.comb = s.comb ∧ ∀ r g, (getRing t r g).tokens = (getRing s r g).tokens := by
    rw [← noted]
    exact ⟨rfl, fun _ _ => rfl⟩
  obtain ⟨comb, tokens⟩ := same
  split
  · split
    · obtain ⟨comb', err, tokens'⟩ : TilesKept t (portFault t p 1 _) := portFault_tilesKept
      exact ⟨comb'.trans comb, (err p).trans bits, fun r g => (tokens' r g).trans (tokens r g)⟩
    · exact ⟨comb, bits, tokens⟩
  · exact ⟨comb, bits, tokens⟩

theorem tspDrop_uncoded : (tspDrop s p bitNo none).runs = s.runs := rfl

end Drop

/-! ### A DATA packet -/

section Land
variable {s : State} {p : Nat} {k : Bytes}

/-- A change of the port's packets and units. -/
structure PortOnly (s t : State) (p : Nat) : Prop where
  only : t = { s with partners := t.partners }
  count : t.partners.length = s.partners.length
  err : (getPartner t p).err = (getPartner s p).err
  run : (getPartner t p).run = (getPartner s p).run

theorem setPartner_portOnly {f : PartnerPort → PartnerPort} (err : ∀ q, (f q).err = q.err) (run : ∀ q, (f q).run = q.run) :
    PortOnly s (setPartner s p f) p := by
  refine ⟨rfl, updAt_length .., ?_, ?_⟩
  · exact (setPartner_tilesKept err).err p
  · rw [getPartner, setPartner_partners, nth_updAt]
    split
    · exact run _
    · rfl

theorem PortOnly.trans {t u : State} (h : PortOnly s t p) (h' : PortOnly t u p) : PortOnly s u p := by
  obtain ⟨only, count, err, run⟩ := h
  obtain ⟨only', count', err', run'⟩ := h'
  refine ⟨?_, count'.trans count, err'.trans err, run'.trans run⟩
  rw [only', only]

theorem tspPumpPort_err_run : ∀ (w : List TspOut) (q : PartnerPort), (tspPumpPort w q).err = q.err ∧ (tspPumpPort w q).run = q.run
  | [], _ => ⟨rfl, rfl⟩
  | k :: rest, q => by
    unfold tspPumpPort
    split
    · exact tspPumpPort_err_run rest (tspEmit q k)
    · exact ⟨rfl, rfl⟩

theorem tspDrain_portOnly : PortOnly s (tspDrain s p k) p := by
  refine setPartner_portOnly (fun q => ?_) (fun q => ?_)
  · split <;> rfl
  · split <;> rfl

theorem tspPump_portOnly : PortOnly s (tspPump s p) p :=
  setPartner_portOnly (fun q => (tspPumpPort_err_run q.waiting q).1) (fun q => (tspPumpPort_err_run q.waiting q).2)

theorem takeUnits_portOnly : PortOnly s (takeUnits s p k) p := by
  have returned : PortOnly s (setPartner s p (fun q => { q with txUnits := q.txUnits + field k 24 2 })) p :=
    setPartner_portOnly (fun _ => rfl) (fun _ => rfl)
  exact returned.trans tspPump_portOnly

theorem PortOnly.runs {t : State} (h : PortOnly s t p) : t.runs = s.runs := by rw [h.only]

theorem PortOnly.comb {t : State} (h : PortOnly s t p) : t.comb = s.comb := by rw [h.only]

theorem PortOnly.receiveRing {t : State} (h : PortOnly s t p) (id : Nat) : receiveRing t p id = receiveRing s p id := by
  unfold Machine.receiveRing
  simp only [h.run, getRun_congr h.runs]

theorem PortOnly.getRing {t : State} (h : PortOnly s t p) (r g : Nat) : getRing t r g = getRing s r g :=
  getRing_congr (by rw [getRun_congr h.runs])

theorem exec_tspData {p : Fin 8} (h : TspTakes s p 1 k) : exec (.tspData p k) s = .next (tspLand (tspDrain s p k) p k) := by
  obtain ⟨hs, up, type, room, form⟩ := h
  have formed : (tspReserved k || tspLengthBad k) = false := form
  refine (clocked_of_clocked hs (t := tspReceive s p 1 k (fun s => tspLand s p k))).trans (congrArg Host.Outcome.next ?_)
  unfold tspReceive
  simp [up, type, Nat.not_lt.mpr room, formed]

/-- How far a tile has landed, and its running CRC (R352). -/
def landedTo (rg : Ring) (q : Nat) : Nat × BitVec 32 :=
  match rg.partials.find? (fun x => x.seq == q) with
  | some x => (x.next, x.crc)
  | none => (0, 0)

/-- The comb with a packet's payload in the slot of its sequence (R350). -/
def payloadLanded (s : State) (rg : Ring) (k : Bytes) : State := writeComb s (bytesAt (slotBase rg (field k 8 5) + field k 16 4) (k.drop 32))

/-- A ring without the progress of a sequence. -/
def withoutPartial (q : Nat) (rg : Ring) : Ring := { rg with partials := rg.partials.filter (fun x => x.seq != q) }

/-- A ring with the progress of a sequence. -/
def withPartial (q next : Nat) (crc : BitVec 32) (rg : Ring) : Ring :=
  { rg with partials := { seq := q, next := next, crc := crc } :: rg.partials.filter (fun x => x.seq != q) }

/-- A ring with the credit of a sequence spent. -/
def creditSpent (q : Nat) (rg : Ring) : Ring := { rg with credits := rg.credits.filter (· != q) }

/-- A ring with the slot of a sequence capped (R94). -/
def slotCapped (q : Nat) (crc : Option (BitVec 32)) (rg : Ring) : Ring :=
  { rg with tokens := updAt rg.tokens (q % rg.decl.slotCount) (fun _ => { capped := true, lap := lapOf rg.decl.slotCount q, crc := crc })
            prodSeq := max rg.prodSeq (q + 1) }

theorem capSlot_eq (s : State) (r g q : Nat) (crc : Option (BitVec 32)) : capSlot s r g q crc = setRing s r g (slotCapped q crc) := rfl

/-- A packet for an open ring, by its credit, its place, its check and the end of its tile (R350 to R352). -/
theorem tspLand_of_ring {r g : Nat} (h : receiveRing s p (field k 1 1) = some (r, g)) : tspLand s p k =
    let rg := getRing s r g
    let q := field k 8 5
    let crc := crcMore (landedTo rg q).2 (k.drop 32)
    let t := takeUnits (payloadLanded s rg k) p k
    if !rg.credits.contains q then tspDrop s p 0 (some 0x0411)
    else if field k 16 4 != (landedTo rg q).1 || field k 16 4 + (k.drop 32).length > rg.decl.slotSize then tspDrop s p 1 (some 0x0411)
    else if !tspCheck k then tspDrop (setRing (payloadLanded s rg k) r g (withoutPartial q)) p 2 (some 0x0412)
    else if !bit (field k 2 2) 0 then
      setRing t r g (withPartial q (field k 16 4 + (k.drop 32).length) crc)
    else if bit (field k 2 2) 1 && crc.toNat != field k 20 4 then tspDrop (setRing t r g (withoutPartial q)) p 3 (some 0x0412)
    else fillSlot (setRing (setRing t r g (withoutPartial q)) r g (creditSpent q)) r g q (some crc) := by
  unfold tspLand landedTo
  rw [h]
  dsimp only
  cases (getRing s r g).partials.find? (fun x => x.seq == field k 8 5) with
  | none => rfl
  | some x => rfl

theorem tspLand_unopened (h : receiveRing s p (field k 1 1) = none) :
    tspLand s p k = tspDrop (if tspCheck k then takeUnits s p k else s) p 4 none := by
  unfold tspLand
  rw [h]

end Land

section Slot
variable {s : State} {r g q : Nat} {rn : Run}

theorem setRing_setRing (f f' : Ring → Ring) : setRing (setRing s r g f) r g f' = setRing s r g (f' ∘ f) := by
  have rings (rn : Run) : updAt (updAt rn.rings g f) g f' = updAt rn.rings g (f' ∘ f) := List.modify_modify_eq ..
  have runs : updAt (setRing s r g f).runs r (Option.map fun rn => { rn with rings := updAt rn.rings g f' })
      = updAt s.runs r (Option.map fun rn => { rn with rings := updAt rn.rings g (f' ∘ f) }) := by
    refine (List.modify_modify_eq ..).trans (congrArg (List.modify s.runs r) (funext fun x => ?_))
    cases x with
    | none => rfl
    | some rn => exact congrArg (fun rings => some { rn with rings := rings }) (rings rn)
  exact congrArg (fun runs => { s with runs := runs }) runs

theorem tokens_withoutPartial : (getRing (setRing s r g (withoutPartial q)) r g).tokens = (getRing s r g).tokens :=
  tokens_setRing (f := withoutPartial q) (fun _ => rfl) r g

/-- A slot that no rebuild passes stays capped (R461). -/
theorem fillSlot_of_not_passed (hr : getRun s r = some rn) (hg : g < rn.rings.length) (through : q ∉ (nth rn.rings g).passes)
    (crc : Option (BitVec 32)) : fillSlot s r g q crc = capSlot s r g q crc := by
  refine if_neg ?_
  rw [capSlot_eq, getRing_setRing_same hr hg]
  simpa [slotCapped] using through

/-- The end of a tile: its progress and its credit are gone, and its slot is capped. -/
theorem fillSlot_ended (hr : getRun s r = some rn) (hg : g < rn.rings.length) (through : q ∉ (nth rn.rings g).passes) (crc : Option (BitVec 32)) :
    fillSlot (setRing (setRing s r g (withoutPartial q)) r g (creditSpent q)) r g q crc
      = setRing s r g (slotCapped q crc ∘ creditSpent q ∘ withoutPartial q) := by
  rw [setRing_setRing]
  obtain ⟨rn', hr', rings⟩ := getRun_setRing_some (g := g) hr (creditSpent q ∘ withoutPartial q)
  have hg' : g < rn'.rings.length := by
    rw [rings]
    exact hg.trans_eq (updAt_length ..).symm
  have through' : q ∉ (nth rn'.rings g).passes := by
    rw [rings, nth_updAt_same _ _ _ hg]
    exact through
  rw [fillSlot_of_not_passed hr' hg' through', capSlot_eq, setRing_setRing]

end Slot

section Tile
variable {s : State} {p : Nat} {k : Bytes} {rg : Ring} {q next : Nat} {crc : BitVec 32}

theorem landedTo_of_part
    (part : (∃ x, rg.partials.find? (fun x => x.seq == q) = some x ∧ next = x.next ∧ crc = crcMore x.crc (k.drop 32))
      ∨ (rg.partials.find? (fun x => x.seq == q) = none ∧ next = 0 ∧ crc = crcMore 0 (k.drop 32))) :
    (landedTo rg q).1 = next ∧ crcMore (landedTo rg q).2 (k.drop 32) = crc := by
  unfold landedTo
  rcases part with ⟨x, there, rfl, rfl⟩ | ⟨fresh, rfl, rfl⟩
  · rw [there]
    exact ⟨rfl, rfl⟩
  · rw [fresh]
    exact ⟨rfl, rfl⟩

/-- Outside the packet's place in its slot no comb byte changes. -/
theorem readComb_outside {t u : State} (wf : memWf combDefault s.comb = true) (ht : t.comb = s.comb) (hu : u.comb = (payloadLanded t rg k).comb)
    {a : Nat} (away : a < slotBase rg (field k 8 5) + field k 16 4 ∨ slotBase rg (field k 8 5) + field k 16 4 + (k.drop 32).length ≤ a) :
    readComb u a = readComb s a := by
  rw [readComb, hu, payloadLanded, writeComb_comb, ht]
  exact memGet_bytesAt_outside wf away

/-- Of a packet that lands, the comb, the port and the ring's run show. -/
def LandingOnly (s u : State) : Prop := u = { s with comb := u.comb, poison := u.poison, partners := u.partners, runs := u.runs }

theorem LandingOnly.trans {t u : State} (h : LandingOnly s t) (h' : LandingOnly t u) : LandingOnly s u := by
  rw [LandingOnly, h', h]

theorem PortOnly.landingOnly {t : State} (h : PortOnly s t p) : LandingOnly s t := by
  rw [LandingOnly, h.only]

theorem setRing_landed_frame (r g : Nat) (f : Ring → Ring) :
    LandingOnly s (setRing (takeUnits (payloadLanded (tspDrain s p k) rg k) p k) r g f) := by
  have drained : LandingOnly s (tspDrain s p k) := tspDrain_portOnly.landingOnly
  have landed (t : State) : LandingOnly t (payloadLanded t rg k) := writeComb_frame t _
  have taken (t : State) : LandingOnly t (takeUnits t p k) := takeUnits_portOnly.landingOnly
  have changed (t : State) : LandingOnly t (setRing t r g f) := rfl
  exact ((drained.trans (landed _)).trans (taken _)).trans (changed _)

end Tile

/-- Settles O29: a DATA packet by the row of `tspLand_of_ring` that it meets. -/
theorem partnerTiles : Obligations.PartnerTiles := by
  intro s p k sound takes
  have drained : PortOnly s (tspDrain s p k) p := tspDrain_portOnly
  have inside : p.val < (tspDrain s p k).partners.length := by
    rw [drained.count, sound.2.partners]
    exact p.isLt
  have row := exec_tspData takes
  refine ⟨fun unopened => ?unopened, fun r g rn rg q off slot next crc opened hr ring hg eq_q eq_off eq_slot part => ?ring⟩
  case unopened =>
    rw [tspLand_unopened ((drained.receiveRing _).trans unopened)] at row
    have units : PortOnly s (if tspCheck k then takeUnits (tspDrain s p k) p k else tspDrain s p k) p := by
      split
      · exact drained.trans takeUnits_portOnly
      · exact drained
    generalize (if tspCheck k then takeUnits (tspDrain s p k) p k else tspDrain s p k) = t at row units
    obtain ⟨comb, err, -⟩ := tspDrop_tiles (s := t) (p := p) (bitNo := 4) (by rw [units.count, sound.2.partners]; exact p.isLt) none
    exact ⟨_, row, comb.trans units.comb, tspDrop_uncoded.trans units.runs, err.trans (by rw [units.err]; rfl)⟩
  case ring =>
    obtain ⟨place, sum⟩ := landedTo_of_part part
    have base : slot = slotBase rg q := eq_slot
    have same : getRing (tspDrain s p k) r g = rg := (drained.getRing r g).trans ((getRing_of_run hr).trans ring)
    rw [tspLand_of_ring ((drained.receiveRing _).trans opened), same, ← eq_q, ← eq_off] at row
    dsimp only at row
    rw [place, sum] at row
    have landed : PortOnly (payloadLanded (tspDrain s p k) rg k) (takeUnits (payloadLanded (tspDrain s p k) rg k) p k) p := takeUnits_portOnly
    have same' : getRing (takeUnits (payloadLanded (tspDrain s p k) rg k) p k) r g = rg := (landed.getRing r g).trans same
    have outside {u : State} (hu : u.comb = (payloadLanded (tspDrain s p k) rg k).comb) :
        ∀ a, a < slot + off ∨ slot + off + (k.drop 32).length ≤ a → readComb u a = readComb s a := fun a away =>
      readComb_outside sound.1.1 drained.comb hu (by rwa [← eq_q, ← eq_off, ← base])
    have hr' : getRun (takeUnits (payloadLanded (tspDrain s p k) rg k) p k) r = some rn :=
      (getRun_congr landed.runs r).trans ((getRun_congr drained.runs r).trans hr)
    refine ⟨fun spent => ?spent, fun credit stray => ?stray, fun credit on fits b bad => ?bad,
      fun credit on fits good => ⟨fun more => ?more, fun last summed through slots => ?last⟩⟩
    case spent =>
      rw [if_pos (by simpa using spent)] at row
      obtain ⟨comb, err, -⟩ := tspDrop_tiles (bitNo := 0) inside (some 0x0411)
      exact ⟨_, row, comb.trans drained.comb, err.trans (by rw [drained.err]; rfl)⟩
    case stray =>
      rw [if_neg (by simpa using credit), if_pos (by simpa using stray)] at row
      obtain ⟨comb, err, tokens⟩ := tspDrop_tiles (bitNo := 1) inside (some 0x0411)
      exact ⟨_, row, comb.trans drained.comb, err.trans (by rw [drained.err]; rfl), (tokens r g).trans (by rw [same])⟩
    case bad =>
      rw [if_neg (by simpa using credit), if_neg (by simpa [on] using fits)] at row
      rcases bad with ⟨wrong, rfl⟩ | ⟨good, last, summed, differs, rfl⟩
      · rw [if_pos (by simp [wrong])] at row
        obtain ⟨comb, err, tokens⟩ := tspDrop_tiles (bitNo := 2) (p := p.val)
          (s := setRing (payloadLanded (tspDrain s p k) rg k) r g (withoutPartial q)) inside (some 0x0412)
        exact ⟨_, row, err.trans (congrArg (· ||| _) drained.err),
          (tokens r g).trans (tokens_withoutPartial.trans (congrArg Ring.tokens same)), outside comb⟩
      · rw [if_neg (by simp [good]), if_neg (by simp [last]), if_pos (by simp [summed, differs])] at row
        obtain ⟨comb, err, tokens⟩ := tspDrop_tiles (bitNo := 3) (p := p.val)
          (s := setRing (takeUnits (payloadLanded (tspDrain s p k) rg k) p k) r g (withoutPartial q)) (landed.count.symm ▸ inside) (some 0x0412)
        exact ⟨_, row, err.trans (congrArg (· ||| _) (landed.err.trans drained.err)),
          (tokens r g).trans (tokens_withoutPartial.trans (congrArg Ring.tokens same')), outside comb⟩
    case more =>
      rw [if_neg (by simpa using credit), if_neg (by simpa [on] using fits), if_neg (by simp [good]), if_pos (by simp [more])] at row
      have after := getRing_setRing_same hr' hg (withPartial q (off + (k.drop 32).length) crc)
      rw [ring] at after
      refine ⟨_, row, ?_, outside landed.comb, ?_, ?_, ?_, setRing_landed_frame r g _⟩
      · refine landed.comb.trans ?_
        rw [payloadLanded, writeComb_comb, drained.comb, ← eq_q, ← eq_off, ← base]
      · rw [after]
        exact ⟨_, List.mem_cons_self, rfl, rfl, rfl⟩
      · rw [after, withPartial]
      · rw [after, withPartial]
    case last =>
      have whole : ¬ (bit (field k 2 2) 1 && crc.toNat != field k 20 4) = true := by
        rcases summed with unsummed | holds
        · simp [unsummed]
        · simp [holds]
      rw [if_neg (by simpa using credit), if_neg (by simpa [on] using fits), if_neg (by simp [good]), if_neg (by simp [last]), if_neg whole,
        fillSlot_ended hr' hg (by rwa [ring])] at row
      have after := getRing_setRing_same hr' hg (slotCapped q (some crc) ∘ creditSpent q ∘ withoutPartial q)
      rw [ring] at after
      refine ⟨_, row, outside landed.comb, ?_, ?_, ?_, setRing_landed_frame r g _⟩
      · rw [after]
        exact nth_updAt_same rg.tokens _ _ slots
      · rw [after]
        simp [slotCapped, creditSpent, withoutPartial]
      · rw [after]
        simp [slotCapped, creditSpent, withoutPartial]

end Sys2Proof.Machine
end

section
namespace Sys2Proof.Machine

/-! ## The rows that issue (R113) -/

section Rows
variable {s : State} {r : Fin 8}

theorem exec_issueRow : ∀ row ∈ issueRows, exec (row.1 r) s = clocked s (issueWhere s r row.2) := by
  refine List.forall_iff_forall_mem.mp ?_
  simp only [issueRows, List.cons_append, List.nil_append, List.Forall]
  repeat' apply And.intro
  all_goals rfl

end Rows

section Issuable
variable {s : State} {r : Nat} {rn : Run} {o : Order} {prog : List PInstr} {k : Nat} {op : PInstr} {p : PInstr → Bool}

theorem issueWhere_none (h : issuable s r = none) : issueWhere s r p = s := by
  unfold issueWhere
  rw [h]

theorem issueWhere_some (h : issuable s r = some (rn, o, prog, k, op)) : issueWhere s r p = if p op then issueOne s r rn o k op else s := by
  unfold issueWhere
  rw [h]

/-- What stands where an instruction may issue. -/
structure Issues (s : State) (r : Nat) (rn : Run) (o : Order) (k : Nat) : Prop where
  run : getRun s r = some rn
  order : rn.order = some o.number
  found : findOrder s o.number = some o
  running : o.state = .running
  faultless : rn.fault = none
  next : o.nextIssue = k

theorem Issues.of_issuable (h : issuable s r = some (rn, o, prog, k, op)) : Issues s r rn o k := by
  unfold issuable at h
  split at h
  · cases h
  · next rn' hr =>
    split at h
    · cases h
    · next o' ho =>
      dsimp only at h
      rw [Option.ite_none_right_eq_some] at h
      obtain ⟨may, same⟩ := h
      obtain ⟨n, hn, hf⟩ := Option.bind_eq_some_iff.mp ho
      obtain rfl := number_of_findOrder hf
      simp only [Option.some.injEq, Prod.mk.injEq] at same
      obtain ⟨rfl, rfl, -, rfl, -⟩ := same
      simp only [Bool.and_eq_true, beq_iff_eq, Option.isNone_iff_eq_none] at may
      obtain ⟨⟨⟨⟨⟨⟨⟨⟨⟨⟨⟨-, running⟩, faultless⟩, -⟩, -⟩, -⟩, -⟩, -⟩, -⟩, -⟩, -⟩, -⟩ := may
      exact ⟨hr, hn, hf, running, faultless, rfl⟩

end Issuable

/-! ## A word that the walkers find uncorrectable (R107, R108, R456) -/

section Walkers
variable {s : State} {r : Nat} {rn : Run} {o : Order} {k : Nat} {op : PInstr} {a : Nat}

theorem layComb_frame (s : State) (a : Nat) (bs : Bytes) :
    layComb s a bs = { s with comb := (layComb s a bs).comb, poison := (layComb s a bs).poison } := rfl

/-- A Heirloom page that is written again shows in the comb alone (R250). -/
theorem mendPage_frame (s : State) (a : Nat) : ∃ comb poison, mendPage s a = { s with comb := comb, poison := poison } := by
  unfold mendPage
  dsimp only
  split
  · exact ⟨_, _, rfl⟩
  · split
    · split
      · exact ⟨_, _, rfl⟩
      · exact ⟨_, _, layComb_frame ..⟩
    · exact ⟨_, _, rfl⟩

theorem getRun_mendPage (s : State) (a r : Nat) : getRun (mendPage s a) r = getRun s r := by
  obtain ⟨_, _, e⟩ := mendPage_frame s a
  rw [e]
  rfl

theorem findOrder_mendPage (s : State) (a : Nat) (n : BitVec 64) : findOrder (mendPage s a) n = findOrder s n := by
  obtain ⟨_, _, e⟩ := mendPage_frame s a
  rw [e]
  rfl

theorem findOrder_congr {t : State} (h : t.keeper.orders = s.keeper.orders) (n : BitVec 64) : findOrder t n = findOrder s n := by
  unfold findOrder
  rw [h]

/-- The first fault of class A or C that a run with an order has (R455, R457). -/
theorem getRun_runFault {code : BitVec 16} {instr unit domain inst redone phase : Nat} (hr : getRun s r = some rn) (free : rn.fault = none)
    (busy : rn.order.isSome = true) (hc : faultClass code ≠ 2) : getRun (runFault s r code instr unit domain inst redone phase) r
      = some { rn with fault := some { code := code, instr := instr, unit := unit } } := by
  obtain ⟨i, w, -, -, -, -, e⟩ := runFault_eq (code := code) (instr := instr) (unit := unit) (domain := domain) (inst := inst)
    (redone := redone) (phase := phase) hr
  have first : ¬ (faultClass code == 2 || rn.fault.isSome || rn.order.isNone) = true := by
    simp [free, hc, Option.isSome_iff_ne_none.mp busy]
  rw [e, if_neg first, getRun_setRun_same, getRun_congr (faultRecord_runs s i w), hr, Option.map_some]

theorem getRun_runFault_ne {q : Nat} {code : BitVec 16} {instr unit domain inst redone phase : Nat} (hq : q ≠ r) :
    getRun (runFault s r code instr unit domain inst redone phase) q = getRun s q := by
  cases hr : getRun s r with
  | none => rw [runFault_none hr]
  | some rn =>
    obtain ⟨i, w, -, -, -, -, e⟩ := runFault_eq (code := code) (instr := instr) (unit := unit) (domain := domain) (inst := inst)
      (redone := redone) (phase := phase) hr
    rw [e]
    split
    · exact getRun_congr (faultRecord_runs s i w) q
    · rw [getRun_setRun_ne _ _ _ _ hq.symm, getRun_congr (faultRecord_runs s i w)]

theorem Issues.runOrder (h : Issues s r rn o k) : runOrder s r = o.number := runOrder_eq h.run h.order

/-- Regions that become invalid change nothing of where an order stands. -/
theorem nextIssue_invalidate {n : BitVec 64} (h : findOrder s n = some o) (regions : List Nat) :
    ∃ o', findOrder (invalidate s r regions) n = some o' ∧ o'.nextIssue = o.nextIssue := by
  have e := findOrder_setOrder (s := s) (n := Machine.runOrder s r) (m := n)
    (f := fun o => { o with invalid := o.invalid ++ regions.filter (fun g => !o.invalid.contains g) }) fun _ => rfl
  rw [h, Option.map_some] at e
  refine ⟨_, e, ?_⟩
  split <;> rfl

/-- What a lost word leaves behind in run and order, where it has been lost before. -/
theorem lostData_known {ref : UnitRef} (h : Issues s r rn o k) (before : a / 8 ∈ o.redoneAt) :
    (∃ o', findOrder (lostData s r ref a) o.number = some o' ∧ o'.nextIssue = o.nextIssue)
      ∧ getRun (lostData s r ref a) r = some { rn with fault := some { code := 0x0292, instr := ref.instr, unit := ref.unit } } := by
  have known : LostBefore s rn a := ⟨o, by rw [orderOf, h.order]; exact h.found, before⟩
  have e : lostData s r ref a = mendPage (runFault (invalidate (runFault s r 0x0222 ref.instr ref.unit) r (regionsAt rn.image a)) r 0x0292
      ref.instr ref.unit (phase := 4)) a := by
    unfold lostData
    rw [h.run]
    exact if_pos (lostBefore_iff.mpr known)
  have runs : (invalidate (runFault s r 0x0222 ref.instr ref.unit) r (regionsAt rn.image a)).runs = s.runs := runFault_runs_of_classB rfl
  have found : findOrder (runFault s r 0x0222 ref.instr ref.unit) o.number = some o := (findOrder_congr runFault_orders _).trans h.found
  rw [e, findOrder_mendPage, getRun_mendPage, findOrder_congr runFault_orders]
  exact ⟨nextIssue_invalidate found _, getRun_runFault ((getRun_congr runs r).trans h.run) h.faultless (by rw [h.order]; rfl) (by decide)⟩

/-- What a lost word leaves behind in run and order, where it has not been lost before. -/
theorem lostData_fresh {ref : UnitRef} (h : Issues s r rn o k) (fresh : a / 8 ∉ o.redoneAt) :
    (∃ o', findOrder (lostData s r ref a) o.number = some o' ∧ o'.nextIssue = o.nextIssue ∧ a / 8 ∈ o'.redoneAt)
      ∧ getRun (lostData s r ref a) r = some rn := by
  have unknown : ¬ LostBefore s rn a := by
    rintro ⟨o', there, before⟩
    rw [orderOf, h.order] at there
    exact fresh (Option.some.inj (h.found.symm.trans there) ▸ before)
  have e : lostData s r ref a = mendPage (interruptUnit (runFault (setOrder s (runOrder s r) (fun o => { o with redoneAt := o.redoneAt ++ [a / 8] }))
      r 0x0222 ref.instr ref.unit (redone := 1)) r ref) a := by
    unfold lostData
    rw [h.run]
    exact if_neg (mt lostBefore_iff.mp unknown)
  have noted := findOrder_setOrder_same (f := fun o => { o with redoneAt := o.redoneAt ++ [a / 8] }) (fun _ => rfl) h.found
  have runs : (runFault (setOrder s (runOrder s r) (fun o => { o with redoneAt := o.redoneAt ++ [a / 8] })) r 0x0222 ref.instr ref.unit
      (redone := 1)).runs = s.runs := runFault_runs_of_classB rfl
  rw [e, findOrder_mendPage, getRun_mendPage, findOrder_congr (congrArg Keeper.orders (interruptUnit_keeper ..)),
    findOrder_congr runFault_orders, getRun_congr (interruptUnit_runs ..), getRun_congr runs, h.runOrder]
  exact ⟨⟨_, noted, rfl, by simp⟩, h.run⟩

/-- The walkers' word is read again once; where that has been tried before, the order loses its data (R108, R456). -/
theorem combFault_walkers (h : Issues s r rn o k) : (∃ o', findOrder (combFault s r { instr := k, unit := 0 } a) o.number = some o'
      ∧ o'.nextIssue = k ∧ (a / 8 ∉ o.redoneAt → a / 8 ∈ o'.redoneAt))
    ∧ ∃ rn', getRun (combFault s r { instr := k, unit := 0 } a) r = some rn' ∧ rn' = { rn with fault := rn'.fault }
      ∧ rn'.fault = if a / 8 ∈ o.redoneAt then some { code := 0x0292, instr := k, unit := 0 } else none := by
  have marked : Issues (markPoison s a) r rn o k := ⟨h.run, h.order, h.found, h.running, h.faultless, h.next⟩
  by_cases before : a / 8 ∈ o.redoneAt
  · obtain ⟨⟨o', found, next⟩, run⟩ := lostData_known (ref := { instr := k, unit := 0 }) marked before
    exact ⟨⟨o', found, next.trans h.next, fun fresh => absurd before fresh⟩, _, run, rfl, (if_pos before).symm⟩
  · obtain ⟨⟨o', found, next, noted⟩, run⟩ := lostData_fresh (ref := { instr := k, unit := 0 }) marked before
    exact ⟨⟨o', found, next.trans h.next, fun _ => noted⟩, _, run, rfl, h.faultless.trans (if_neg before).symm⟩

theorem issueOne_poisoned (h : (issueReads rn.image op).find? (poisoned s) = some a) :
    issueOne s r rn o k op = combFault s r { instr := k, unit := 0 } a := by
  have nonempty : s.poison.isEmpty = false := by
    have bad : poisoned s a = true := List.find?_some h
    cases e : s.poison with
    | nil => simp [poisoned, e] at bad
    | cons x xs => rfl
  unfold issueOne
  rw [if_neg (by simp [nonempty]), h]

/-- An instruction that is neither fence nor check, its words good, issues with its units. -/
theorem issueOne_clean (h : CleanIssue s rn op) (units : op.micro = true ∨ (op.opcode ≠ 0x82 ∧ op.opcode ≠ 0x98)) :
    issueOne s r rn o k op = issueUnits s r rn o k op := by
  have good : (if s.poison.isEmpty then none else (issueReads rn.image op).find? (poisoned s)) = none := by
    split
    · rfl
    · exact List.find?_eq_none.mpr fun a ha => by simp [h a ha]
  unfold issueOne
  rw [good]
  rcases units with micro | ⟨check, fence⟩
  · simp [micro, isCheck]
  · simp [noOperands, isFence, isCheck, check, fence]

end Walkers

/-! ## The checks at issue (R125) -/

section Checks
variable {s : State} {r : Nat} {rn : Run} {o : Order} {k : Nat} {op : PInstr}

/-- The codes of the issue-time checks. -/
def checkCodes : List (BitVec 16) := [0x0230, 0x0231, 0x0232, 0x0233, 0x0270, 0x0280, 0x0313]

theorem issueCodes_subset {im : Image} {v : Resolved} : issueCodes s im op v ⊆ checkCodes := by
  have code {bad : Bool} {c : BitVec 16} (hc : c ∈ checkCodes) : (if bad then [c] else []) ⊆ checkCodes := by
    split
    · exact List.cons_subset.mpr ⟨hc, List.nil_subset _⟩
    · exact List.nil_subset _
  unfold issueCodes
  dsimp only
  split
  · exact code (by decide)
  · split
    · exact List.cons_subset.mpr ⟨by decide, List.nil_subset _⟩
    · split
      · exact List.nil_subset _
      · exact List.append_subset.mpr ⟨List.append_subset.mpr ⟨List.append_subset.mpr ⟨code (by decide), code (by decide)⟩,
          code (by decide)⟩, code (by decide)⟩

theorem issueFailures_subset : issueFailures s rn op ⊆ checkCodes := by
  unfold issueFailures
  refine List.append_subset.mpr ⟨issueCodes_subset, ?_⟩
  split
  · split
    · dsimp only
      split
      · exact List.cons_subset.mpr ⟨by decide, List.nil_subset _⟩
      · exact List.nil_subset _
    · exact List.nil_subset _
  · exact List.nil_subset _

/-- A failed check of issue stops the order (R455). -/
theorem faultClass_issueFailures {c : BitVec 16} (h : c ∈ issueFailures s rn op) : faultClass c ≠ 2 := by
  have classes : checkCodes.all (fun c => faultClass c != 2) = true := by decide
  simpa using List.all_eq_true.mp classes c (issueFailures_subset h)

/-- The lowest of some codes. -/
def lowestCode (c : BitVec 16) (cs : List (BitVec 16)) : BitVec 16 := cs.foldl (fun a b => if b.toNat < a.toNat then b else a) c

theorem lowestCode_least (cs : List (BitVec 16)) (c : BitVec 16) :
    lowestCode c cs ∈ c :: cs ∧ ∀ d ∈ c :: cs, (lowestCode c cs).toNat ≤ d.toNat := by
  induction cs generalizing c with
  | nil => exact ⟨List.mem_cons_self, fun d hd => by rw [List.mem_singleton.mp hd]; exact Nat.le_refl _⟩
  | cons b cs ih =>
    obtain ⟨there, least⟩ := ih (if b.toNat < c.toNat then b else c)
    have step : lowestCode c (b :: cs) = lowestCode (if b.toNat < c.toNat then b else c) cs := rfl
    have low := least _ List.mem_cons_self
    rw [step]
    by_cases lower : b.toNat < c.toNat
    · rw [if_pos lower] at there least low ⊢
      refine ⟨List.mem_cons_of_mem _ there, fun d hd => ?_⟩
      rcases List.mem_cons.mp hd with rfl | later
      · omega
      · exact least d later
    · rw [if_neg lower] at there least low ⊢
      refine ⟨?_, fun d hd => ?_⟩
      · rcases List.mem_cons.mp there with first | later
        · rw [first]
          exact List.mem_cons_self
        · exact List.mem_cons_of_mem _ (List.mem_cons_of_mem _ later)
      · rcases List.mem_cons.mp hd with rfl | later
        · exact low
        · rcases List.mem_cons.mp later with rfl | later
          · omega
          · exact least d (List.mem_cons_of_mem _ later)

/-! ### The instruction that issues -/

/-- The instruction as it issues (R123, R132, R220, R256). -/
def issuedInstr (s : State) (r : Nat) (rn : Run) (o : Order) (k : Nat) (op : PInstr) : Issued :=
  { instr := k, level := instrLevel rn.image o k, op := op, sizes := (resolve s rn.image op).sizes, tiling := issuedTiling s rn op
    gens := (List.range 16).map (fun n => if (effStages op).any (fun st => st.op == 0x60 + n) then genInForce s r n else 0)
    hyper := hyperRecord s op, units := issuedUnits s rn op
    committed := (issuedUnits s rn op).filter (fun u => !(issuedOwed s rn o k op).contains u)
    ringBase := (takeBases s r rn op (ringCount op (issuedTiling s rn op) (issuedUnits s rn op))).2
    stackBase := stackBaseOf s rn.image op, closing := false, chunk := issueChunk s rn.image op }

/-- The run and its order once the instruction stands among the issued, its units still to be handed out. -/
def instrIssued (s : State) (r : Nat) (rn : Run) (o : Order) (i : Issued) : State :=
  setProgress (advanceIssue (setRun (takeBases s r rn i.op (ringCount i.op i.tiling i.units)).1 r
    (fun rn => { rn with issued := rn.issued ++ [i] })) o.number) r i.instr (fun p => { p with units := unitTotal i })

/-- Is a CSEND's chunk size no whole number of storage groups (R399)? -/
def chunkBad (s : State) (op : PInstr) : Bool :=
  !op.micro && op.opcode == 0x80 && (peerRing (getLink s (linkOf op)) (peerRingId op)).any (fun p =>
    chunkElems (nth op.descs 0).fmt p.slotSize == 0 || chunkElems (nth op.descs 0).fmt p.slotSize % groupSize (nth op.descs 0).fmt != 0)

theorem issueFailures_eq :
    issueFailures s rn op = issueCodes s rn.image op (resolve s rn.image op) ++ (if chunkBad s op then [0x0313] else []) := by
  unfold issueFailures chunkBad
  congr 1
  by_cases csend : op.micro = false ∧ op.opcode = 0x80
  · rw [if_pos csend, csend.1, csend.2]
    cases peerRing (getLink s (linkOf op)) (peerRingId op) with
    | none => rfl
    | some p => simp
  · rw [if_neg csend, if_neg]
    simp only [Bool.and_eq_true, Bool.not_eq_true', beq_iff_eq]
    exact fun h => csend h.1

/-- Which of the units are owed when they are placed. -/
theorem issuedOwed_eq : (if !op.micro && op.opcode == 0x80 && issueChunk s rn.image op == 0 && !o.progress.any (fun p => p.instr == k && p.done)
      then issuedUnits s rn op else owedUnits o k (issuedUnits s rn op)) = issuedOwed s rn o k op := by
  unfold issuedOwed
  congr 1
  simp [and_assoc]

theorem issueUnits_failed {c : BitVec 16} {cs : List (BitVec 16)} (h : issueFailures s rn op = c :: cs) :
    issueUnits s r rn o k op = runFault s r (lowestCode c cs) k 0 := by
  rw [issueFailures_eq, chunkBad] at h
  unfold issueUnits
  dsimp only
  cases hp : peerRing (getLink s (linkOf op)) (peerRingId op) with
  | none =>
    rw [hp, Option.any_none] at h
    rw [h]
    rfl
  | some p =>
    rw [hp, Option.any_some] at h
    rw [h]
    rfl

theorem hyperRecord_takeBases {n : Nat} : hyperRecord (takeBases s r rn op n).1 op = hyperRecord s op := rfl

theorem stackBaseOf_takeBases {n : Nat} : stackBaseOf (takeBases s r rn op n).1 rn.image op = stackBaseOf s rn.image op := rfl

/-- Units of an instruction that are handed out: it commits at once, arms its chunks, or has them placed (R126, R137, R368, R402). -/
def handOut (t : State) (r k : Nat) (im : Image) (i : Issued) (owed : List Nat) : State :=
  if owed.isEmpty then commitInstr t r k
  else if !i.op.micro && i.op.opcode == 0x81 then
    match ringOf im (nth i.op.descs 0) with
    | some g => armLanding t r g k (planOf i.op) owed
    | none => t
  else placeUnits t r im { i with units := owed }

/-- An instruction that passes its checks issues, and its units are handed out. -/
theorem issueUnits_passed (h : issueFailures s rn op = []) : issueUnits s r rn o k op =
    handOut (instrIssued s r rn o (issuedInstr s r rn o k op)) r k rn.image (issuedInstr s r rn o k op) (issuedOwed s rn o k op) := by
  rw [issueFailures_eq, chunkBad] at h
  have tiling : tilingOf op (extentsOf op (resolve s rn.image op).sizes (resolve s rn.image op).n3 (resolve s rn.image op).n4)
    = issuedTiling s rn op := rfl
  have units : instrUnits op (issuedTiling s rn op) (issueChunk s rn.image op) = issuedUnits s rn op := rfl
  unfold issueUnits handOut
  dsimp only
  rw [tiling, units, issuedOwed_eq]
  cases hp : peerRing (getLink s (linkOf op)) (peerRingId op)
  case' none => rw [hp, Option.any_none] at h
  case' some => rw [hp, Option.any_some] at h
  all_goals
    rw [h]
    dsimp only
    have own : Issued.mk .. = issuedInstr s r rn o k op := rfl
    have instr : (issuedInstr s r rn o k op).op = op := rfl
    rw [hyperRecord_takeBases, stackBaseOf_takeBases, own, instr]
    cases ringOf rn.image (nth op.descs 0) <;> rfl

end Checks

/-! ### The run and its order once an instruction has issued -/

section Issued
variable {s : State} {r : Nat} {rn : Run} {o : Order} {k : Nat} {op : PInstr}

theorem setProgress_eq {q n : Nat} {x : Run} {m : BitVec 64} (hr : getRun s q = some x) (hn : x.order = some m) (f : Progress → Progress) :
    setProgress s q n f = setOrder s m (fun o => { o with progress := o.progress.map (fun p => if p.instr == n then f p else p) }) := by
  unfold setProgress
  rw [hr]
  dsimp only
  rw [hn]

theorem findOrder_setProgress {q n : Nat} {x : Run} {m : BitVec 64} (hr : getRun s q = some x) (hn : x.order = some m)
    (ho : findOrder s m = some o) (f : Progress → Progress) : findOrder (setProgress s q n f) m
      = some { o with progress := o.progress.map (fun p => if p.instr == n then f p else p) } := by
  rw [setProgress_eq hr hn]
  exact findOrder_setOrder_same (f := fun o => { o with progress := o.progress.map (fun p => if p.instr == n then f p else p) }) (fun _ => rfl) ho

theorem findOrder_advanceIssue {n : BitVec 64} (ho : findOrder s n = some o) :
    findOrder (advanceIssue s n) n = some { o with nextIssue := o.nextIssue + 1 } :=
  findOrder_setOrder_same (f := fun o => { o with nextIssue := o.nextIssue + 1 }) (fun _ => rfl) ho

/-- The bases of an instruction's rings move; what its rings have armed does not. -/
theorem takeBases_eq {n : Nat} : ∃ rings : List Ring → List Ring,
    (takeBases s r rn op n).1 = setRun s r (fun rn => { rn with rings := rings rn.rings })
    ∧ ∀ l : List Ring, (rings l).length = l.length ∧ ∀ g, (nth (rings l) g).armedCount = (nth l g).armedCount := by
  refine ⟨_, rfl, fun l => ⟨List.length_mapIdx, fun g => ?_⟩⟩
  simp only [nth, List.getElem?_mapIdx]
  cases l[g]? with
  | none => rfl
  | some x => rfl

/-- The order has moved on, and the run holds the instruction as issued. -/
theorem instrIssued_eq (h : Issues s r rn o k) (i : Issued) : ∃ rings progress,
    getRun (instrIssued s r rn o i) r = some { rn with issued := rn.issued ++ [i], rings := rings }
    ∧ findOrder (instrIssued s r rn o i) o.number = some { o with nextIssue := k + 1, progress := progress }
    ∧ (rings.length = rn.rings.length ∧ ∀ g, (nth rings g).armedCount = (nth rn.rings g).armedCount)
    ∧ (∀ q, q ≠ r → getRun (instrIssued s r rn o i) q = getRun s q)
    ∧ instrIssued s r rn o i = { s with
        runs := (instrIssued s r rn o i).runs, keeper := { s.keeper with orders := (instrIssued s r rn o i).keeper.orders } } := by
  obtain ⟨rings, bases, same⟩ := takeBases_eq (s := s) (r := r) (rn := rn) (op := i.op) (n := ringCount i.op i.tiling i.units)
  unfold instrIssued
  rw [bases]
  have run : getRun (advanceIssue (setRun (setRun s r (fun rn => { rn with rings := rings rn.rings })) r
      (fun rn => { rn with issued := rn.issued ++ [i] })) o.number) r
      = some { rn with issued := rn.issued ++ [i], rings := rings rn.rings } := by
    rw [advanceIssue, setOrder, getRun_congr (setKeeper_runs ..), getRun_setRun_same, getRun_setRun_same, h.run]
    rfl
  have advanced := findOrder_setProgress (n := i.instr) run h.order (findOrder_advanceIssue h.found) (fun p => { p with units := unitTotal i })
  rw [h.next] at advanced
  refine ⟨rings rn.rings, _, ?_, advanced, same _, fun q hq => ?_, ?_⟩
  · rw [setProgress_eq run h.order]
    exact run
  · rw [setProgress_eq run h.order]
    exact (getRun_setRun_ne _ _ _ _ hq.symm).trans (getRun_setRun_ne _ _ _ _ hq.symm)
  · rw [setProgress_eq run h.order]
    rfl

end Issued

/-! ### An instruction that commits (R113, R126, R460) -/

section Commit
variable {s : State} {r k : Nat} {rn : Run} {n : BitVec 64} {o : Order}

theorem finishOrder_cases (s : State) (r : Nat) : finishOrder s r = s ∨ finishOrder s r = completeOrder s r := by
  unfold finishOrder
  split
  · exact .inl rfl
  · split
    · exact .inl rfl
    · split
      · exact .inr rfl
      · exact .inl rfl

/-- The order of a run stays as it is, but for its state, when the run is looked through for its end. -/
theorem findOrder_finishOrder (hr : getRun s r = some rn) (hn : rn.order = some n) (ho : findOrder s n = some o) (running : ended o = false) :
    ∃ o', findOrder (finishOrder s r) n = some o' ∧ o'.nextIssue = o.nextIssue ∧ o'.progress = o.progress := by
  rcases finishOrder_cases s r with e | e
  · rw [e]
    exact ⟨o, ho, rfl, rfl⟩
  · obtain ⟨notice, t, found⟩ := findOrder_completeOrder hr hn ho running
    rw [e]
    exact ⟨_, found, rfl, rfl⟩

theorem records_finishOrder (few : s.journal.sinceCheckpoint + 1 < 4096) :
    ∃ more, (finishOrder s r).journal.records = s.journal.records ++ more := by
  rcases finishOrder_cases s r with e | e
  · rw [e]
    exact ⟨[], (List.append_nil _).symm⟩
  · obtain ⟨x, records⟩ := records_completeOrder (r := r) few
    rw [e]
    exact ⟨[x], records⟩

/-- The PROGRESS record of a whole instruction (Table 10.18). -/
theorem records_progressRecord (hr : getRun s r = some rn) (hn : rn.order = some n) (few : s.journal.sinceCheckpoint + 1 < 4096) :
    ∃ x, (progressRecord s r k 0 0 []).journal.records = s.journal.records ++ [x] ∧ x.kind = 5 ∧ x.order = n
      ∧ field x.body 0 4 = k % 2 ^ 32 ∧ field x.body 16 8 = 0 := by
  have e : progressRecord s r k 0 0 [] = appendRecord (stamp s).1 (stamp s).2 5 r (runOrder s r) (orderSource (runOrder s r)) _ :=
    journalAt_few (s := (stamp s).1) few
  rw [e]
  refine ⟨_, rfl, rfl, runOrder_eq hr hn, ?_, ?_⟩
  · exact field_append_natLe [] (natLe 4 0 ++ natLe 8 0 ++ natLe 8 0 ++ _) 4 k rfl
  · exact field_append_natLe (natLe 4 k ++ natLe 4 0 ++ natLe 8 0) _ 8 0 rfl

theorem commitInstr_eq (s : State) (r k : Nat) : ∃ tag, commitInstr s r k = finishOrder (healthCounters
    (progressRecord (setProgress s r k (fun p => { p with done := true })) r k 0 0 []) r k tag) r := ⟨_, rfl⟩

/-- The order goes past an instruction that commits. -/
theorem commitInstr_past (hr : getRun s r = some rn) (hn : rn.order = some n) (ho : findOrder s n = some o) (running : ended o = false)
    (few : s.journal.sinceCheckpoint + 2 < 4096) :
    (∃ o', findOrder (commitInstr s r k) n = some o' ∧ o'.nextIssue = o.nextIssue ∧ ∀ g ∈ o'.progress, g.instr = k → g.done = true)
      ∧ ∃ x, (commitInstr s r k).journal.records[s.journal.records.length]? = some x ∧ x.kind = 5 ∧ x.order = n
        ∧ field x.body 0 4 = k % 2 ^ 32 ∧ field x.body 16 8 = 0 := by
  have ho₁ := findOrder_setProgress (n := k) hr hn ho (fun p => { p with done := true })
  have hr₁ : getRun (setProgress s r k (fun p => { p with done := true })) r = some rn := by
    rw [setProgress_eq hr hn]
    exact hr
  have hj : (setProgress s r k (fun p => { p with done := true })).journal = s.journal := setProgress_journal
  obtain ⟨tag, e⟩ := commitInstr_eq s r k
  rw [e]
  generalize setProgress s r k (fun p => { p with done := true }) = t at ho₁ hr₁ hj
  rw [← hj] at few ⊢
  obtain ⟨x, records, kind, order, instr, whole⟩ := records_progressRecord (k := k) hr₁ hn (by omega)
  obtain ⟨duties, since⟩ := progressRecord_few (s := t) (q := r) (k := k) (first := 0) (count := 0) (bits := []) (by omega)
  generalize progressRecord t r k 0 0 [] = v at records duties since
  obtain ⟨duties', hj'⟩ := healthCounters_sameDuties (s := v) (q := r) (k := k) (tag := tag)
  obtain ⟨rn', hr', order', -⟩ := (duties.trans duties').symm.run hr₁
  generalize healthCounters v r k tag = w at duties' hj' hr'
  obtain ⟨o', found, next, progress⟩ := findOrder_finishOrder hr' (order'.trans hn) (((duties.trans duties').findOrder n).trans ho₁) running
  obtain ⟨more, ends⟩ := records_finishOrder (s := w) (r := r) (by rw [hj', since]; omega)
  refine ⟨⟨o', found, next, fun g hg hk => ?_⟩, x, ?_, kind, order, instr, whole⟩
  · rw [progress] at hg
    obtain ⟨p, -, rfl⟩ := List.mem_map.mp hg
    split at hk
    · next c => rw [if_pos c]
    · next c => exact absurd (beq_iff_eq.mpr hk) c
  · rw [ends, hj', records]
    simp

end Commit

/-! ### Units placed (R137, R368) -/

section Place
variable {s : State} {r : Nat} {im : Image} {i : Issued} {f : Nat}

/-- The units of an instruction that are homed in a frame, in order. -/
def homedIn (im : Image) (i : Issued) (f : Nat) : List UnitRef :=
  (i.units.filter (fun u => unitHome im i.op i.sizes i.tiling i.chunk u == f)).map (fun u => { instr := i.instr, unit := u })

/-- A frame with those units at the end of its tally, or of its move queue. -/
def unitsPlaced (im : Image) (i : Issued) (f : Nat) (x : Frame) : Frame :=
  if i.op.micro || isTiled i.op then { x with tally := x.tally ++ homedIn im i f } else { x with moves := x.moves ++ homedIn im i f }

/-- One frame receives its units. -/
def placeIn (im : Image) (i : Issued) (s : State) (f : Nat) : State :=
  if (homedIn im i f).isEmpty then s else setFrame s f (unitsPlaced im i f)

theorem placeUnits_eq : placeUnits s r im i = (runFrames s r).foldl (placeIn im i) s := by
  have mine (f : Nat) : ((i.units.map (fun u => (unitHome im i.op i.sizes i.tiling i.chunk u, ({ instr := i.instr, unit := u } : UnitRef)))).filter
      (fun h => h.1 == f)).map Prod.snd = homedIn im i f := by
    rw [List.filter_map, List.map_map]
    rfl
  unfold placeUnits
  dsimp only
  congr 1
  funext s f
  rw [mine]
  rfl

theorem getFrame_placeIn (inside : f < s.frames.length) (g : Nat) :
    getFrame (placeIn im i s f) g = if g = f then unitsPlaced im i f (getFrame s g) else getFrame s g := by
  unfold placeIn
  split
  · next none =>
    have same : unitsPlaced im i f (getFrame s g) = getFrame s g := by
      rw [unitsPlaced, List.isEmpty_iff.mp none, List.append_nil, List.append_nil]
      exact ite_self _
    rw [same, ite_self]
  · by_cases own : g = f
    · rw [if_pos own, own, getFrame_setFrame_same s f _ inside]
    · rw [if_neg own, getFrame_setFrame_ne s f g _ (Ne.symm own)]

theorem placeIn_frames : ∃ frames, placeIn im i s f = { s with frames := frames } ∧ frames.length = s.frames.length := by
  unfold placeIn
  split
  · exact ⟨_, rfl, rfl⟩
  · exact ⟨_, rfl, updAt_length ..⟩

/-- Frames that receive their units one after another. -/
theorem foldl_placeIn : ∀ (l : List Nat) (s : State), l.Nodup → (∀ f ∈ l, f < s.frames.length) →
    (∃ frames, l.foldl (placeIn im i) s = { s with frames := frames })
      ∧ ∀ g, getFrame (l.foldl (placeIn im i) s) g = if g ∈ l then unitsPlaced im i g (getFrame s g) else getFrame s g
  | [], s, _, _ => ⟨⟨_, rfl⟩, fun g => (if_neg List.not_mem_nil).symm⟩
  | f :: l, s, once, inside => by
    obtain ⟨fresh, once'⟩ := List.nodup_cons.mp once
    obtain ⟨frames, e, count⟩ := placeIn_frames (im := im) (i := i) (s := s) (f := f)
    obtain ⟨⟨frames', e'⟩, each⟩ := foldl_placeIn l (placeIn im i s f) once'
      (fun g hg => by rw [e]; exact (inside g (List.mem_cons_of_mem _ hg)).trans_eq count.symm)
    have first := getFrame_placeIn (im := im) (i := i) (inside f List.mem_cons_self)
    refine ⟨⟨frames', e'.trans (by rw [e])⟩, fun g => (each g).trans ?_⟩
    rw [first g]
    by_cases own : g = f
    · rw [if_neg (own ▸ fresh), if_pos own, if_pos (own ▸ List.mem_cons_self), own]
    · simp only [own, if_false, List.mem_cons, false_or]

/-- Every frame of the run has the units homed in it, and nothing else changes. -/
theorem placeUnits_places (count : s.frames.length = 8) : (∃ frames, placeUnits s r im i = { s with frames := frames })
    ∧ ∀ f < 8, getFrame (placeUnits s r im i) f = if (getFrame s f).run = some r then unitsPlaced im i f (getFrame s f) else getFrame s f := by
  obtain ⟨only, each⟩ := foldl_placeIn (im := im) (i := i) (runFrames s r) s (List.nodup_range.filter _) (fun f hf => by
    rw [count]
    exact List.mem_range.mp (List.mem_filter.mp hf).1)
  rw [placeUnits_eq]
  refine ⟨only, fun f hf => (each f).trans ?_⟩
  have mine : f ∈ runFrames s r ↔ (getFrame s f).run = some r := by simp [runFrames, hf]
  simp only [mine]

end Place

/-! ### Armed sequences (R394, R402) -/

/-- No ring's armed sequences differ. -/
def ArmedKept (s t : State) : Prop :=
  ∀ r, (getRun t r).map (fun rn => rn.rings.map Ring.armed) = (getRun s r).map (fun rn => rn.rings.map Ring.armed)

section Armed
variable {s₀ s t : State} {r : Nat}

theorem armedKept_refl (s : State) : ArmedKept s s := fun _ => rfl

theorem ArmedKept.trans (h : ArmedKept s₀ s) (h' : ArmedKept s t) : ArmedKept s₀ t := fun r => (h' r).trans (h r)

theorem ArmedKept.runs (h : ArmedKept s₀ s) (e : t.runs = s.runs) : ArmedKept s₀ t := fun r => by
  rw [getRun_congr e]
  exact h r

theorem ArmedKept.setRun {f : Run → Run} (h : ArmedKept s₀ s) (hf : ∀ rn, (f rn).rings.map Ring.armed = rn.rings.map Ring.armed) :
    ArmedKept s₀ (setRun s r f) := fun q => by
  rw [← h q]
  by_cases same : r = q
  · rw [← same, getRun_setRun_same, Option.map_map]
    exact congrArg (Option.map · (getRun s r)) (funext hf)
  · rw [getRun_setRun_ne _ _ _ _ same]

theorem ArmedKept.setRing {g : Nat} {f : Ring → Ring} (h : ArmedKept s₀ s) (hf : ∀ x, (f x).armed = x.armed) :
    ArmedKept s₀ (setRing s r g f) := by
  refine h.setRun fun rn => List.ext_getElem? fun j => ?_
  simp only [updAt, List.getElem?_map, List.getElem?_modify]
  cases rn.rings[j]? with
  | none => rfl
  | some x =>
    simp only [Option.map_some]
    split
    · exact congrArg some (hf x)
    · rfl

theorem ArmedKept.foldl {α : Type} {f : State → α → State} {l : List α} (h : ArmedKept s₀ s)
    (hf : ∀ t a, ArmedKept s₀ t → ArmedKept s₀ (f t a)) : ArmedKept s₀ (l.foldl f s) := by
  induction l generalizing s with
  | nil => exact h
  | cons a l ih => exact ih (hf s a h)

theorem ArmedKept.ite {c : Prop} [Decidable c] (hs : ArmedKept s₀ s) (ht : ArmedKept s₀ t) : ArmedKept s₀ (if c then s else t) := by
  split
  · exact hs
  · exact ht

theorem ArmedKept.getRing (h : ArmedKept s t) (r g : Nat) : (Machine.getRing t r g).armed = (Machine.getRing s r g).armed := by
  have whole (u : State) : (Machine.getRing u r g).armed = ((((getRun u r).map (fun rn => rn.rings.map Ring.armed)).getD [])[g]?).getD [] := by
    unfold Machine.getRing
    cases getRun u r with
    | none => rfl
    | some rn =>
      simp only [Option.map_some, Option.getD_some, List.getElem?_map, nth]
      cases rn.rings[g]? <;> rfl
  rw [whole t, h r, ← whole s]

theorem journalAt_armedKept {at_ kind run : Nat} {order : BitVec 64} {src : BitVec 22} {body : Bytes} (h : ArmedKept s₀ s) :
    ArmedKept s₀ (journalAt s at_ kind run order src body) := fun r => by
  rw [(journalAt_journaled (journaled_refl s)).1.getRun r]
  exact h r

theorem setProgress_runs {k : Nat} {f : Progress → Progress} : (setProgress s r k f).runs = s.runs := by
  unfold setProgress
  split
  · split <;> rfl
  · rfl

theorem setRoots_armedKept {f : List RootSlot → List RootSlot} (h : ArmedKept s₀ s) : ArmedKept s₀ (setRoots s r f) :=
  .foldl (h.setRun fun _ => rfl) fun _ _ h => h.runs rfl

theorem clearRunOrder_armedKept (h : ArmedKept s₀ s) : ArmedKept s₀ (clearRunOrder s r) := by
  have dropped : ArmedKept s₀ (dropUnits s r (fun _ => true)) := .foldl h fun _ _ h => h.runs rfl
  refine ArmedKept.setRun (f := fun rn => { rn with order := none, issued := [], trip := none, fault := none, checkWait := none, orderSeeds := [] })
    ?_ fun _ => rfl
  unfold restoreGens
  dsimp only
  split
  · exact dropped
  · exact (ArmedKept.ite dropped (setRoots_armedKept dropped)).setRun fun _ => rfl

theorem completeOrder_armedKept (h : ArmedKept s₀ s) : ArmedKept s₀ (completeOrder s r) := by
  obtain ⟨t, body, e⟩ := completeOrder_eq s r
  rw [e]
  exact clearRunOrder_armedKept ((journalAt_armedKept (s := (stamp s).1) (h.runs rfl)).runs rfl)

theorem healthCounters_armedKept {k tag : Nat} (h : ArmedKept s₀ s) : ArmedKept s₀ (healthCounters s r k tag) := by
  have logged {kind : Nat} {src : BitVec 22} {body : Bytes} : Reported s (logRecord s kind src body) :=
    pushLog_reported (stamp_reported (reported_refl s))
  unfold healthCounters
  dsimp only
  split
  · exact h
  · exact .ite h ((h.runs (logged.field State.runs fun _ _ _ _ _ => rfl)).setRun fun _ => rfl)

theorem commitInstr_armedKept {k : Nat} (h : ArmedKept s₀ s) : ArmedKept s₀ (commitInstr s r k) := by
  obtain ⟨tag, e⟩ := commitInstr_eq s r k
  rw [e]
  have counted : ArmedKept s₀ (healthCounters (progressRecord (setProgress s r k (fun p => { p with done := true })) r k 0 0 []) r k tag) :=
    healthCounters_armedKept (journalAt_armedKept (h.runs setProgress_runs))
  rcases finishOrder_cases (healthCounters (progressRecord (setProgress s r k (fun p => { p with done := true })) r k 0 0 []) r k tag) r with e | e
  · rw [e]
    exact counted
  · rw [e]
    exact completeOrder_armedKept counted

theorem setIssued_armedKept {k : Nat} {f : Issued → Issued} (h : ArmedKept s₀ s) : ArmedKept s₀ (setIssued s r k f) := h.setRun fun _ => rfl

theorem commitUnit_armedKept {k u : Nat} (h : ArmedKept s₀ s) : ArmedKept s₀ (commitUnit s r k u) := by
  unfold commitUnit
  dsimp only
  split
  · exact h
  · split
    · exact h
    · have counted : ArmedKept s₀ (setProgress (setIssued s r k (fun i => { i with committed := i.committed ++ [u] })) r k
          (fun p => { p with live := p.live ++ [u] })) := (setIssued_armedKept h).runs setProgress_runs
      exact .ite h (.ite (ArmedKept.runs (setIssued_armedKept counted) rfl) (.ite (commitInstr_armedKept counted) counted))

theorem sendPlaced_armedKept {last : Option (Nat × UnitRef)} (h : ArmedKept s₀ s) : ArmedKept s₀ (sendPlaced s last) := by
  unfold sendPlaced
  split
  · exact h
  · split
    · exact h
    · exact commitUnit_armedKept (.foldl (h.runs rfl) fun _ _ h => h.setRing fun _ => rfl)

theorem answerForward_armedKept {p : Option Pending} {code : BitVec 16} (h : ArmedKept s₀ s) : ArmedKept s₀ (answerForward s p code) := by
  unfold answerForward
  split
  · exact h.runs rfl
  · exact h

theorem pumpN_armedKept {n fuel : Nat} (h : ArmedKept s₀ s) : ArmedKept s₀ (pumpN n fuel s) := by
  induction fuel generalizing s with
  | zero => exact h
  | succ fuel ih =>
    unfold pumpN
    dsimp only
    split
    · exact h
    · next i _ => exact ih (answerForward_armedKept (sendPlaced_armedKept (h.runs (t := transmit _ n (nth (getLink s n).txQueue i)) rfl)))

theorem grantLanding_armedKept {g : Nat} (h : ArmedKept s₀ s) : ArmedKept s₀ (grantLanding s r g) := by
  unfold grantLanding
  refine .ite h ?_
  dsimp only
  split
  · exact h
  · exact .foldl (h.setRing fun _ => rfl) fun _ _ h => pumpN_armedKept (h.runs rfl)

end Armed

/-! ### What an issue leads to -/

section Outcomes
variable {s : State} {r : Nat} {rn : Run} {o : Order} {k : Nat} {op : PInstr}

/-- An instruction that fails a check faults the run with the lowest of the codes, and nothing issues (R125). -/
theorem issueUnits_refuses (h : Issues s r rn o k) (bad : issueFailures s rn op ≠ []) : let u := issueUnits s r rn o k op
    (∃ c ∈ issueFailures s rn op, (∀ d ∈ issueFailures s rn op, c.toNat ≤ d.toNat)
        ∧ getRun u r = some { rn with fault := some { code := c, instr := k, unit := 0 } })
      ∧ (∀ q, q ≠ r → getRun u q = getRun s q) ∧ u.keeper.orders = s.keeper.orders
      ∧ u = { s with runs := u.runs, keeper := u.keeper, telem := u.telem, time := u.time, mailboxes := u.mailboxes } := by
  obtain ⟨c, cs, fails⟩ := List.exists_cons_of_ne_nil bad
  obtain ⟨there, least⟩ := lowestCode_least cs c
  rw [← fails] at there least
  rw [issueUnits_failed fails]
  exact ⟨⟨_, there, least, getRun_runFault h.run h.faultless (by rw [h.order]; rfl) (faultClass_issueFailures there)⟩,
    fun q hq => getRun_runFault_ne hq, runFault_orders, runFault_faultOnly.1⟩

/-- The units of an instruction stand in the tallies or move queues of the run's frames (R137, R368). -/
theorem issueUnits_places (w : Whole s) (h : Issues s r rn o k) (good : issueFailures s rn op = []) (owes : issuedOwed s rn o k op ≠ [])
    (other : op.micro = true ∨ op.opcode ≠ 0x81) : let u := issueUnits s r rn o k op
    (∃ rn' i, getRun u r = some rn' ∧ rn' = { rn with issued := rn.issued ++ [i], rings := rn'.rings } ∧ i.instr = k ∧ i.op = op
        ∧ i.sizes = (resolve s rn.image op).sizes ∧ i.tiling = issuedTiling s rn op ∧ i.units = issuedUnits s rn op
        ∧ i.level = instrLevel rn.image o k ∧ i.hyper = hyperRecord s op
        ∧ (∀ x, x ∈ i.committed ↔ x ∈ i.units ∧ x ∉ issuedOwed s rn o k op))
      ∧ (∃ o', findOrder u o.number = some o' ∧ o'.nextIssue = k + 1 ∧ o'.state = .running)
      ∧ (∀ f < 8, getFrame u f =
          if (getFrame s f).run = some r then
            (if op.micro = true ∨ isTiled op = true then { getFrame s f with tally := (getFrame s f).tally ++ owedAt s rn o k op f }
             else { getFrame s f with moves := (getFrame s f).moves ++ owedAt s rn o k op f })
          else getFrame s f)
      ∧ (∀ q, q ≠ r → getRun u q = getRun s q)
      ∧ u = { s with runs := u.runs, frames := u.frames, keeper := { s.keeper with orders := u.keeper.orders } } := by
  obtain ⟨rings, progress, run, order, -, others, only⟩ := instrIssued_eq h (issuedInstr s r rn o k op)
  have frames : (instrIssued s r rn o (issuedInstr s r rn o k op)).frames = s.frames := by rw [only]
  obtain ⟨⟨_, placed⟩, each⟩ := placeUnits_places (r := r) (im := rn.image)
    (i := { issuedInstr s r rn o k op with units := issuedOwed s rn o k op }) (by rw [frames]; exact w.frames)
  have out : issueUnits s r rn o k op = placeUnits (instrIssued s r rn o (issuedInstr s r rn o k op)) r rn.image
      { issuedInstr s r rn o k op with units := issuedOwed s rn o k op } := by
    rw [issueUnits_passed good, handOut, if_neg (by simpa using owes), if_neg]
    rcases other with micro | opcode
    · simp [issuedInstr, micro]
    · simp [issuedInstr, opcode]
  rw [out]
  have same (f : Nat) : getFrame (instrIssued s r rn o (issuedInstr s r rn o k op)) f = getFrame s f := by rw [getFrame, frames, getFrame]
  refine ⟨⟨_, issuedInstr s r rn o k op, (congrArg (getRun · r) placed).trans run, rfl, rfl, rfl, rfl, rfl, rfl, rfl, rfl, fun x => ?_⟩,
    ⟨_, (congrArg (findOrder · o.number) placed).trans order, rfl, h.running⟩, fun f hf => ?_,
    fun q hq => (congrArg (getRun · q) placed).trans (others q hq), ?_⟩
  · simp [issuedInstr]
  · rw [each f hf, same]
    unfold unitsPlaced
    simp only [Bool.or_eq_true]
    rfl
  · rw [placed, only]

/-- A CLAND arms a sequence for every chunk that is owed (R402). -/
theorem issueUnits_arms (h : Issues s r rn o k) (good : issueFailures s rn op = []) (owes : issuedOwed s rn o k op ≠ [])
    (plain : op.micro = false) (cland : op.opcode = 0x81) {g : Nat} (ring : ringOf rn.image (nth op.descs 0) = some g) (hg : g < rn.rings.length) :
    let u := issueUnits s r rn o k op
    u.comb = s.comb ∧ u.stackMem = s.stackMem ∧ ∀ x ∈ issuedOwed s rn o k op,
      ({ seq := (nth rn.rings g).armedCount + x, instr := k, chunk := x, plan := planOf op } : Armed) ∈ (getRing u r g).armed := by
  obtain ⟨rings, progress, run, -, ⟨count, counts⟩, -, only⟩ := instrIssued_eq h (issuedInstr s r rn o k op)
  have out : issueUnits s r rn o k op
      = armLanding (instrIssued s r rn o (issuedInstr s r rn o k op)) r g k (planOf op) (issuedOwed s rn o k op) := by
    rw [issueUnits_passed good, handOut, if_neg (by simpa using owes), if_pos (by simp [issuedInstr, plain, cland]),
      show ringOf rn.image (nth (issuedInstr s r rn o k op).op.descs 0) = some g from ring]
    rfl
  rw [out, armLanding]
  generalize instrIssued s r rn o (issuedInstr s r rn o k op) = t at run only
  have books := grantLanding_books (r := r) (g := g) (books_refl (setRing t r g (fun rg => { rg with
    armed := rg.armed ++ (issuedOwed s rn o k op).map (fun u => { seq := rg.armedCount + u, instr := k, chunk := u, plan := planOf op })
    armedCount := rg.armedCount + (issuedOwed s rn o k op).length })))
  have kept := grantLanding_armedKept (r := r) (g := g) (armedKept_refl (setRing t r g (fun rg => { rg with
    armed := rg.armed ++ (issuedOwed s rn o k op).map (fun u => { seq := rg.armedCount + u, instr := k, chunk := u, plan := planOf op })
    armedCount := rg.armedCount + (issuedOwed s rn o k op).length })))
  refine ⟨books.comb.trans (by rw [only]; rfl), books.stackMem.trans (by rw [only]; rfl), fun x hx => ?_⟩
  rw [kept.getRing, getRing_setRing_same run (count ▸ hg)]
  refine List.mem_append_right _ (List.mem_map.mpr ⟨x, hx, ?_⟩)
  rw [← counts g]

/-- An instruction that owes no unit counts as committed at once (R126). -/
theorem issueUnits_commits (h : Issues s r rn o k) (good : issueFailures s rn op = []) (owes : issuedOwed s rn o k op = [])
    (few : s.journal.sinceCheckpoint < 4093) : let u := issueUnits s r rn o k op
    PastInstr u o k s.journal.records.length ∧ u.comb = s.comb ∧ u.stackMem = s.stackMem := by
  obtain ⟨rings, progress, run, order, -, -, only⟩ := instrIssued_eq h (issuedInstr s r rn o k op)
  have out : issueUnits s r rn o k op = commitInstr (instrIssued s r rn o (issuedInstr s r rn o k op)) r k := by
    rw [issueUnits_passed good, handOut, if_pos (by simp [owes])]
  rw [out]
  generalize instrIssued s r rn o (issuedInstr s r rn o k op) = t at run order only
  have journal : t.journal = s.journal := by rw [only]
  obtain ⟨⟨o', found, next, done⟩, record⟩ := commitInstr_past (k := k) run h.order order (by simp [ended, h.running])
    (by rw [journal]; omega)
  have books : Books t (commitInstr t r k) := commitInstr_books (books_refl t)
  refine ⟨⟨⟨o', found, next, done⟩, ?_⟩, books.comb.trans (by rw [only]), books.stackMem.trans (by rw [only])⟩
  rw [← journal]
  exact record

end Outcomes

/-- Settles O51: every row issues what `issuable` names; it is refused by a bad word or a failed check, or its units are handed out. -/
theorem instructionIssue : Obligations.InstructionIssue := by
  intro s r w hs row hrow
  have leads : exec (row.1 r) s = .next (issueWhere s r row.2) := (exec_issueRow row hrow).trans (clocked_of_clocked hs)
  refine ⟨fun none => ?_, fun rn o prog k op may => ?_⟩
  · rw [leads, issueWhere_none none]
  have issues := Issues.of_issuable may
  rw [issueWhere_some may] at leads
  refine ⟨fun other => ?_, fun mine a bad => ?_, fun mine clean units => ?_⟩
  · rw [leads, if_neg (by simp [other])]
  · rw [if_pos mine, issueOne_poisoned bad] at leads
    obtain ⟨order, run⟩ := combFault_walkers (a := a) issues
    exact ⟨_, leads, order, run, List.find?_some bad⟩
  · rw [if_pos mine, issueOne_clean clean units] at leads
    exact ⟨fun bad => ⟨_, leads, issueUnits_refuses issues bad⟩,
      fun good owes other => ⟨_, leads, issueUnits_places w issues good owes other⟩,
      fun good owes plain cland g ring hg => ⟨_, leads, issueUnits_arms issues good owes plain cland ring hg⟩,
      fun good owes few => ⟨_, leads, issueUnits_commits issues good owes few⟩⟩

end Sys2Proof.Machine
end

section
namespace Sys2Proof.Machine

/-! ## A chunk whose grant brings another link's units to their commit (R339, R394, R403)

`FrameTaken` empties the queue of the link that the chunk comes by. `Whole` lets the run's ring name another link as its producer
than the image does; the grant that follows the landing then goes out on that link, and takes along the last frames of two CSENDs
that wait there. Their records make a CHECKPOINT due beside those of the landing, and it forgets the order. -/

/-- A landing ring of link 0 in the image, whose grants the run sends on link 1: of two armed sequences the first is granted. -/
def strayRing : Ring :=
  { (default : Ring) with
    decl := { (default : RingDecl) with producerKind := 3, producerIndex := 1, slotCount := 2 }
    tokens := [default, default], opened := true, credits := [0]
    armed := [{ seq := 0, instr := 0, chunk := 0, plan := 1 }, { seq := 1, instr := 0, chunk := 1, plan := 1 }] }

/-- The run that the chunk lands in: its CLAND has one unit, an empty chunk. -/
def lander : Run :=
  { (default : Run) with
    image := { (default : Image) with rings := [{ (default : RingDecl) with producerKind := 3 }] }
    rings := [strayRing], order := some 0, issued := [{ (default : Issued) with units := [0] }] }

/-- A run with two CSENDs of one unit in issue. -/
def senders : Run :=
  { (default : Run) with issued := [{ (default : Issued) with units := [0] }, { (default : Issued) with instr := 1, units := [0] }] }

/-- The last frame of the unit of an instruction. -/
def lastOf (k : Nat) : TxReq := { type := 1, ctl := 1, land := [], payload := [], last := some (0, { instr := k, unit := 0 }), forward := none }

/-- The unit of an instruction of `senders`, in a forager. -/
def sentUnit (k : Nat) : Move := { (default : Move) with run := 1, ref := { instr := k, unit := 0 } }

/-- The die after reset with both runs, the two frames on link 1, an order that has ended and been acknowledged, and 4,093 records
since the last CHECKPOINT. -/
def strayGrant : State :=
  { State.reset with
    runs := some lander :: some senders :: List.replicate 6 none
    links := { Link.reset with lanes := 15, state := 3, run := some 0, rxGranted := [0, 1, 0, 0] }
      :: { Link.reset with state := 3, txUnits := [0, 2, 0, 0], txQueue := [lastOf 0, lastOf 1] } :: List.replicate 22 Link.reset
    foragers := { moves := [sentUnit 0, sentUnit 1], faulted := false } :: List.replicate 31 { moves := [], faulted := false }
    keeper := { Keeper.reset with orders := [{ (default : Order) with state := .complete, notice := 3 }] }
    journal := { Journal.reset with sinceCheckpoint := 4093 } }

/-- The DATA frame of the empty chunk: type 1, channel 1, the expected number, the last of plan 1. -/
def emptyChunk : Bytes :=
  let body := natLe 4 0x0101 ++ natLe 4 Link.reset.rxSeq ++ natLe 8 0 ++ natLe 4 0x10100 ++ natLe 12 0
  body ++ natLe 4 (crc32c body).toNat

theorem strayGrant_sound : Sound strayGrant :=
  ⟨⟨rfl, rfl, rfl⟩, rfl, fun b hb => by rw [List.eq_of_mem_replicate hb]; exact List.length_replicate, rfl, rfl, rfl, rfl, rfl, rfl, rfl,
    Nat.zero_le _⟩

/-- The frame passes every check of its reception. -/
theorem emptyChunk_taken : FrameTaken strayGrant 0 1 emptyChunk ⟨0, 0⟩ [] := by
  refine ⟨?_, by decide +kernel, by decide +kernel, by decide +kernel, by decide +kernel, rfl, .inl (by decide +kernel), fun _ => ?_⟩
  · unfold Listening
    decide +kernel
  · decide +kernel

/-- The order is known no more when the chunk has landed. -/
def orderForgotten (x : Host.Outcome State Fault Refusal) : Bool :=
  match x with
  | .next u => (findOrder u 0).isNone
  | _ => false

theorem emptyChunk_forgets : orderForgotten (exec (.waggleData 0 emptyChunk ⟨0, 0⟩) strayGrant) = true := by decide +kernel

/-- Refutes O60: the unit of the CLAND commits, but the grant that follows goes out on the link that the run's ring names, where
frames may wait. The units that end with them write records of their own, for which the two that `Owes` leaves room for do not
suffice: a CHECKPOINT follows, and the order to which the unit was owed is forgotten with it. -/
theorem not_linkLanding : ¬ Obligations.LinkLanding := by
  intro h
  obtain ⟨lands, -, -⟩ := h strayGrant 0 emptyChunk ⟨0, 0⟩ [] strayGrant_sound
  obtain ⟨-, landing⟩ := lands emptyChunk_taken
  obtain ⟨-, -, ends, -⟩ := landing 0 lander 0 strayRing 0 { seq := 0, instr := 0, chunk := 0, plan := 1 }
    { (default : Issued) with units := [0] } 0 0 0 0 rfl rfl rfl (by decide +kernel) Nat.one_pos rfl rfl (by decide +kernel) (by decide) rfl rfl (by decide +kernel) rfl
    (.inr ⟨rfl, rfl, by decide +kernel⟩)
  obtain ⟨u, hu, -, -, -, -, -, -, -, commits⟩ := ends (by decide +kernel) (by decide +kernel) (by decide +kernel) (by decide) (by decide)
  obtain ⟨⟨o, known, -⟩, -⟩ := commits 0 ⟨rfl, rfl, rfl, rfl, by decide, by decide⟩
  have forgotten := emptyChunk_forgets
  rw [hu] at forgotten
  have gone : (findOrder u 0).isNone = true := forgotten
  rw [known] at gone
  cases gone

end Sys2Proof.Machine
end

section
namespace Sys2Proof.Machine

/-! ## A CCHECK that takes along frames of other runs (R339, R403, R405)

`Whole` lets two runs execute one order, and frames of other runs wait on a link. The CHECK frame of a CCHECK then takes along the last
frame of a CSEND of the second run, whose commit completes the order, and that of a third run, whose record makes a CHECKPOINT due: it
forgets the order, although every link has delivered its count. -/

/-- The CCHECK of plan 0 on link 0. -/
def checkInstr : PInstr := parseMacro (padTo 256 ([0x82] ++ List.replicate 23 0 ++ [1]))

/-- An image whose one program has one instruction. -/
def checkImage : Image := { (default : Image) with entries := [{ slotOffset := 0, slotCount := 1, paramLength := 0 }] }

/-- The run that issues the CCHECK. -/
def checker : Run := { (default : Run) with image := checkImage, ready := true, order := some 0 }

/-- A second run that executes the same order, with a CSEND of one unit in issue. -/
def checkerTwin : Run := { checker with issued := [{ (default : Issued) with units := [0] }] }

/-- The order of both runs: it executes, and its notice has been acknowledged. -/
def sharedOrder : Order := { (default : Order) with state := .running, notice := 3 }

/-- The die after reset with these runs and one with CSENDs of its own, the CCHECK in the image store, the last frames of two CSENDs on
link 0, which has delivered a count of 1, and 4,093 records since the last CHECKPOINT. -/
def sharedCheck : State :=
  { State.reset with
    runs := some checker :: some checkerTwin :: some senders :: List.replicate 5 none
    stackMem := [(imageAddr State.reset 3 0 0, 0x82), (imageAddr State.reset 3 0 24, 1)]
    links := { Link.reset with state := 3, txUnits := [0, 2, 0, 0], txQueue := [lastOf 0, lastOf 1], checksIn := [(0, 1)] }
      :: List.replicate 23 Link.reset
    foragers := { moves := [sentUnit 0, { sentUnit 1 with run := 2 }], faulted := false }
      :: List.replicate 31 { moves := [], faulted := false }
    keeper := { Keeper.reset with orders := [sharedOrder] }
    journal := { Journal.reset with sinceCheckpoint := 4093 } }

theorem sharedCheck_whole : Whole sharedCheck :=
  ⟨rfl, fun b hb => by rw [List.eq_of_mem_replicate hb]; exact List.length_replicate, rfl, rfl, rfl, rfl, rfl, rfl, rfl, Nat.zero_le _⟩

theorem sharedCheck_issuable : issuable sharedCheck 0 = some (checker, sharedOrder, [checkInstr], 0, checkInstr) := by decide +kernel

theorem sharedCheck_forgets : orderForgotten (exec (.ccheck 0) sharedCheck) = true := by decide +kernel

/-- Refutes O52: every link of the mask has delivered the count, so the order should have gone past the CCHECK; but it is not known any
more, for the records of the frames that leave with the CHECK bring about a CHECKPOINT. -/
theorem not_fencesAndChecks : ¬ Obligations.FencesAndChecks := by
  intro h
  obtain ⟨-, passed⟩ := h sharedCheck 0 checker sharedOrder [checkInstr] 0 checkInstr sharedCheck_whole rfl sharedCheck_issuable rfl rfl
  obtain ⟨-, check⟩ := passed (by decide +kernel)
  obtain ⟨u, hu, -, commits, -⟩ := check (by decide +kernel) rfl
  obtain ⟨o, known, -⟩ := commits (by decide +kernel)
  have forgotten := sharedCheck_forgets
  rw [hu] at forgotten
  have gone : (findOrder u sharedOrder.number).isNone = true := forgotten
  rw [known] at gone
  cases gone

end Sys2Proof.Machine
end

section
namespace Sys2Proof.Machine

/-! ## A record that displaces another (R447) -/

theorem exists_indexWhere {α : Type} {l : List α} {p : α → Bool} (h : ∃ a ∈ l, p a = true) : ∃ i < l.length, indexWhere l p = some i := by
  obtain ⟨a, ha, holds⟩ := h
  obtain ⟨i, inside, rfl⟩ := List.mem_iff_getElem.mp ha
  have found : (indexWhere l p).isSome = true :=
    List.find?_isSome.mpr ⟨i, List.mem_range.mpr inside, by simpa [inside] using holds⟩
  obtain ⟨j, hj⟩ := Option.isSome_iff_exists.mp found
  exact ⟨j, List.mem_range.mp (List.mem_of_find?_eq_some hj), hj⟩

section Full
variable {s : State} {rec : Bytes}

/-- Where the log has room, a record goes to its end. -/
theorem pushLog_room (room : s.telem.buffer.length < 4096) : (pushLog s rec).telem.buffer = s.telem.buffer ++ [rec] := by
  unfold pushLog
  rw [if_pos room]

/-- A full buffer stays as long as it was: a record that must be kept takes the last place, and those behind the displaced one
move up. -/
theorem pushLog_displaces (full : s.telem.buffer.length = 4096) (keep : dropKind rec = false)
    (droppable : ∃ x ∈ s.telem.buffer, dropKind x = true) :
    (pushLog s rec).telem.buffer[4095]? = some rec := by
  obtain ⟨i, inside, found⟩ := exists_indexWhere (l := s.telem.buffer.reverse) (by simpa using droppable)
  rw [List.length_reverse] at inside
  unfold pushLog
  rw [if_neg (by omega), if_neg (by simp [keep]), found]
  exact List.getElem?_eq_some_iff.mpr ⟨by grind, by grind⟩

end Full

section Overflow
variable {s : State} {r : Nat} {rn : Run} {t : Trip} {o : Order} {g : GuardRec}

theorem field_logHeader_kind (t kind : Nat) (src : BitVec 22) (rest : Bytes) : field (logHeader t kind src ++ rest) 10 1 = kind % 256 := by
  have split : logHeader t kind src ++ rest = (stampNs t ++ stampFrac t) ++ (natLe 1 kind ++ (natLe 1 0 ++ natLe 4 src.toNat ++ rest)) := by
    simp [logHeader]
  rw [split, field_append_natLe _ _ _ _ (by simp [stampNs, stampFrac]), Nat.pow_one]

theorem faultBytes_kind (s : State) (t : Nat) (i : FaultInfo) : field (faultBytes s t i) 10 1 = 48 := by
  obtain ⟨rest, e⟩ := faultBytes_eq s t i
  rw [e, field_logHeader_kind]

theorem faultRecord_telem (s : State) (i : FaultInfo) (o : Option (BitVec 64)) :
    (faultRecord s i o).telem = (pushLog (stamp s).1 (faultBytes (stamp s).1 (stamp s).2 i)).telem := by
  cases o with
  | none => rfl
  | some o =>
    unfold faultRecord
    dsimp only
    split <;> rfl

/-- The record of a run fault enters the log. -/
theorem runFault_telem {code : BitVec 16} {instr unit : Nat} (h : getRun s r = some rn) :
    ∃ rec, field rec 10 1 = 48 ∧ (runFault s r code instr unit).telem = (pushLog (stamp s).1 rec).telem := by
  obtain ⟨i, o, -, -, -, -, e⟩ := runFault_eq (code := code) (instr := instr) (unit := unit) (domain := 0) (inst := 0xFF)
    (redone := 0) (phase := 1) h
  refine ⟨faultBytes (stamp s).1 (stamp s).2 i, faultBytes_kind _ _ i, ?_⟩
  rw [e, ← faultRecord_telem s i o]
  split <;> rfl

section TopLevel
variable (hr : getRun s r = some rn) (ht : rn.trip = some t) (ho : orderOf s rn = some o)
  (hg : rn.image.guards.find? (fun g => g.entry == o.entry && g.layerTag == t.layerTag) = some g)
  (held : ∀ w < 68, (getWorker s w).held = []) (replay : ∀ f ∈ runFrames s r, (getFrame s f).replay = []) (top : g.topLevel ≤ t.level)
include hr ht ho hg held replay top

/-- While no worker holds a unit and none waits to be redone, a trip at the top level ends in a record and a fault (R274). -/
theorem advanceGuard_overflows : ∃ rec regions, advanceGuard s r =
    runFault (setRun (invalidate (pushLog s rec) r regions) r (fun rn => { rn with trip := none })) r 0x0271 t.instr t.tile := by
  have noneHeld (p : Held → Bool) : (List.range 68).any (fun w => (getWorker s w).held.any p) = false :=
    List.any_eq_false.mpr fun w hw => by simp [held w (List.mem_range.mp hw)]
  have noneQueued (p : UnitRef → Bool) : (runFrames s r).any (fun f => (getFrame s f).replay.any p) = false :=
    List.any_eq_false.mpr fun f hf => by simp [replay f hf]
  unfold advanceGuard
  simp only [hr, ht, ho, hg, noneHeld, noneQueued, Bool.or_self, Bool.false_eq_true, if_false, Nat.not_lt.mpr top]
  exact ⟨_, _, rfl⟩

/-- A log with room for one record more, and with one that may be dropped, ends in the record of the fault: that of the overflow,
which took the last place, has moved up. -/
theorem advanceGuard_log (room : s.telem.buffer.length = 4095) (droppable : ∃ x ∈ s.telem.buffer, dropKind x = true) :
    ∃ x, (advanceGuard s r).telem.buffer[4095]? = some x ∧ field x 10 1 = 48 := by
  obtain ⟨overflow, regions, e⟩ := advanceGuard_overflows hr ht ho hg held replay top
  have runs : (pushLog s overflow).runs = s.runs := (pushLog_reported (reported_refl s)).field State.runs fun _ _ _ _ _ => rfl
  have stays : getRun (invalidate (pushLog s overflow) r regions) r = some rn := by rw [← hr]; simp [invalidate, setOrder, getRun, runs]
  obtain ⟨rec, kind, faulted⟩ := runFault_telem (code := 0x0271) (instr := t.instr) (unit := t.tile)
    (s := setRun (invalidate (pushLog s overflow) r regions) r (fun rn => { rn with trip := none })) (by rw [getRun_setRun_same, stays]; rfl)
  have logged : (pushLog s overflow).telem.buffer = s.telem.buffer ++ [overflow] := pushLog_room (by omega)
  obtain ⟨x, hx, drops⟩ := droppable
  refine ⟨rec, ?_, kind⟩
  rw [e, faulted]
  refine pushLog_displaces ?_ (by simp [dropKind, kind]) ⟨x, ?_, drops⟩
  · change (pushLog s overflow).telem.buffer.length = 4096
    simp [logged, room]
  · change x ∈ (pushLog s overflow).telem.buffer
    simp [logged, hx]

end TopLevel

end Overflow

/-! ## A guarded overflow in a log that is all but full (R274, R447)

A full log makes room for a record of another kind by the newest one of kinds 16 to 20, wherever that stands, and the records behind
it move up. The overflow's record may take the last free place; the fault's, which follows, then makes room for itself. -/

/-- A guarded layer of one instruction, with no level above 0. -/
def singleLayer : GuardRec := { (default : GuardRec) with count := 1 }

/-- A run whose order has tripped in that layer. -/
def spilling : Run :=
  { (default : Run) with image := { (default : Image) with guards := [singleLayer] }, order := some 0, trip := some default }

/-- A record of kind 16. -/
def plainRecord : Bytes := padTo 64 (logHeader 0 16 0)

/-- The die after reset with that run, and with room for one record in its log. -/
def nearlyFull : State :=
  { State.reset with
    runs := some spilling :: List.replicate 7 none
    keeper := { Keeper.reset with orders := [default] }
    telem := { State.reset.telem with buffer := List.replicate 4095 plainRecord } }

theorem nearlyFull_room : nearlyFull.telem.buffer.length = 4095 := List.length_replicate

theorem nearlyFull_droppable : ∃ x ∈ nearlyFull.telem.buffer, dropKind x = true :=
  ⟨plainRecord, List.mem_replicate.mpr ⟨by decide, rfl⟩, by decide⟩

theorem nearlyFull_whole : Whole nearlyFull :=
  ⟨rfl, fun b hb => by rw [List.eq_of_mem_replicate hb]; exact List.length_replicate, rfl, rfl, rfl, rfl, rfl, rfl, rfl,
    by rw [nearlyFull_room]; decide⟩

theorem nearlyFull_held : ∀ w < 68, (getWorker nearlyFull w).held = [] := by decide +kernel

theorem nearlyFull_frames : runFrames nearlyFull 0 = [] := by decide +kernel

/-- Refutes O53: the record of kind 4 is written, but where the log had room for it only, the record of the fault 0x0271 displaces one
of kind 16 to 20 from before it. The record of kind 4 moves up, and the place where it is looked for holds the fault's, of kind 48. -/
theorem not_unitsAndLayers : ¬ Obligations.UnitsAndLayers := by
  intro h
  obtain ⟨-, -, layers⟩ := h nearlyFull nearlyFull_whole rfl
  obtain ⟨-, trips⟩ := layers 0
  obtain ⟨-, -, overflows⟩ := trips spilling default default singleLayer rfl rfl rfl rfl
  have still := overflows (by
    rintro (⟨w, hw, x, hx, -⟩ | ⟨f, hf, -⟩)
    · simp [nearlyFull_held w hw] at hx
    · simp [nearlyFull_frames] at hf)
  obtain ⟨u, hu, -, -, -, -, told, -⟩ := still (Nat.le_refl _) rfl
  obtain ⟨x, ⟨place, kind⟩, -⟩ := told (by rw [nearlyFull_room]; decide)
  obtain ⟨y, last, faulted⟩ := advanceGuard_log (s := nearlyFull) (r := 0) (rn := spilling) (t := default) (o := default) (g := singleLayer)
    rfl rfl rfl rfl nearlyFull_held (by simp [nearlyFull_frames]) (Nat.le_refl _) nearlyFull_room nearlyFull_droppable
  have reached : .next u = clocked nearlyFull (advanceGuard nearlyFull 0) := hu.symm
  rw [clocked_of_clocked rfl] at reached
  injection reached with reached
  rw [reached, nearlyFull_room, last, Option.some_inj] at place
  rw [← place, faulted] at kind
  exact absurd kind (by decide)

end Sys2Proof.Machine
end

section
namespace Sys2Proof.Machine

/-! ## What the ROM's selection marks in flash (R487, R488) -/

/-- Whatever a memory lists, a byte other than the default that is written to it changes no read of another address. -/
theorem memGet_memSet_of_ne {d v : Byte} {a b : Nat} (hv : v ≠ d) (hb : b ≠ a) (m : List Host.Cell) :
    memGet d (memSet d a v m) b = memGet d m b := by
  have hab : a ≠ b := hb.symm
  induction m with
  | nil => simp [memSet, memGet, hv, hab]
  | cons c t ih =>
    obtain ⟨k, w⟩ := c
    unfold memSet
    split
    · simp [memGet, ih]
    · next below =>
      split
      · next same =>
        subst same
        simp [memGet, hab]
      · next other =>
        have passed : b < a → ¬ k = b ∧ b < k := by omega
        by_cases hlt : b < a
        · simp [memGet, hab, hlt, passed hlt]
        · simp [memGet, hab, hlt]

/-- Only flash differs, and no read of it outside `n` bytes at `a`. -/
def FlashMarked (s t : State) (a n : Nat) : Prop :=
  t = { s with flash := t.flash } ∧ ∀ x k, x + k ≤ a ∨ a + n ≤ x → flashBytes t x k = flashBytes s x k

section Marked
variable {s t u : State} {a n : Nat}

theorem flashMarked_refl : FlashMarked s s a n := ⟨rfl, fun _ _ _ => rfl⟩

theorem FlashMarked.trans (h : FlashMarked s t a n) (h' : FlashMarked t u a n) : FlashMarked s u a n := by
  obtain ⟨frame, reads⟩ := h
  obtain ⟨frame', reads'⟩ := h'
  exact ⟨by rw [frame', frame], fun x k away => (reads' x k away).trans (reads x k away)⟩

theorem FlashMarked.widen {a' n' : Nat} (h : FlashMarked s t a n) (first : a' ≤ a) (last : a + n ≤ a' + n') : FlashMarked s t a' n' := by
  obtain ⟨frame, reads⟩ := h
  exact ⟨frame, fun x k away => reads x k (by omega)⟩

/-- Programming clears bits, so a byte that does not program all ones leaves none there. -/
theorem flashProgram_marked {v : Byte} (hv : v ≠ flashDefault) : FlashMarked s (flashProgram s [(a, v)]) a 1 := by
  have clears : v &&& memGet flashDefault s.flash a ≠ flashDefault := fun ones => by
    have both : v &&& memGet flashDefault s.flash a = BitVec.allOnes 8 := ones
    exact hv (BitVec.and_eq_allOnes_iff.mp both).1
  refine ⟨rfl, fun x k away => List.map_congr_left fun i hi => ?_⟩
  have inside := List.mem_range.mp hi
  have other : x + i ≠ a := by omega
  exact memGet_memSet_of_ne clears other _

end Marked

/-! ## One bank is tried (R488) -/

section Bank
variable {s t : State} {b c off size : Nat}

/-- Bytes of a boot record are read at their place in flash. -/
theorem bootRecord_bytes (inside : off + size ≤ 192) :
    ((bootRecord s b).drop off).take size = flashBytes s (bootRecordAt b + off) size := by
  refine List.ext_getElem ?_ fun i _ _ => ?_
  · simp [bootRecord, flashBytes, memBytes, Nat.le_sub_of_add_le' inside]
  · simp [bootRecord, flashBytes, memBytes, Nat.add_assoc]

theorem field_bootRecord (inside : off + size ≤ 192) :
    field (bootRecord s b) off size = leNat (flashBytes s (bootRecordAt b + off) size) := by
  simp [field, fieldBytes, bootRecord_bytes inside, flashBytes, memBytes]

/-- A trial attempt clears the lowest bit that is set, so never programs all ones. -/
theorem attemptsLeft_ne_erased {a : Nat} (ha : a < 256) : BitVec.ofNat 8 (a &&& (a - 1)) ≠ flashDefault := fun ones => by
  have least : a &&& (a - 1) ≤ a - 1 := Nat.and_le_right
  have value := congrArg BitVec.toNat ones
  rw [BitVec.toNat_ofNat, show flashDefault.toNat = 255 from rfl] at value
  omega

/-- The attempt that a trial bank uses up is marked. -/
def attemptUsed (s : State) (b : Nat) : State :=
  let a := recAttempts (bootRecord s b)
  if recStatus (bootRecord s b) == 0xFF then flashProgram s [(bootRecordAt b + 177, BitVec.ofNat 8 (a &&& (a - 1)))] else s

theorem attemptUsed_marked : FlashMarked s (attemptUsed s b) (bootRecordAt b + 177) 1 := by
  unfold attemptUsed
  dsimp only
  split
  · exact flashProgram_marked (attemptsLeft_ne_erased (field_lt _ 177 1))
  · exact flashMarked_refl

theorem reject_marked : FlashMarked s (setStatus s b 0) (bootRecordAt b + 176) 1 := flashProgram_marked (by decide)

/-- What stands before the marks of one bank's record stays as it is in both records. -/
theorem FlashMarked.record {m n : Nat} (h : FlashMarked s t (bootRecordAt b + m) n) (before : off + size ≤ m) (inside : m + n ≤ 192) :
    flashBytes t (bootRecordAt c + off) size = flashBytes s (bootRecordAt c + off) size := by
  obtain ⟨-, reads⟩ := h
  refine reads _ _ ?_
  unfold bootRecordAt
  split <;> split <;> omega

/-- Marks in a boot record leave the firmware whole or not, against any record. -/
theorem FlashMarked.whole {m n : Nat} (h : FlashMarked s t (bootRecordAt b + m) n) (inside : m + n ≤ 192) (r : Bytes) :
    firmwareWhole t c r = firmwareWhole s c r := by
  obtain ⟨-, reads⟩ := h
  have bank : flashBytes t (bankAt c) (recLength r) = flashBytes s (bankAt c) (recLength r) := by
    refine reads _ _ (.inr ?_)
    unfold bootRecordAt bankAt
    split <;> split <;> omega
  simp only [firmwareWhole, bank]

/-- Marks in a boot record leave each bank's firmware whole or not, against its own record. -/
theorem FlashMarked.ownWhole {m n : Nat} (h : FlashMarked s t (bootRecordAt b + m) n) (before : 80 ≤ m) (inside : m + n ≤ 192) :
    firmwareWhole t c (bootRecord t c) = firmwareWhole s c (bootRecord s c) := by
  have length : recLength (bootRecord t c) = recLength (bootRecord s c) := by
    simp only [recLength, field_bootRecord (off := 24) (size := 4) (by omega), h.record (off := 24) (size := 4) (by omega) inside]
  have digest : ((bootRecord t c).drop 32).take 48 = ((bootRecord s c).drop 32).take 48 := by
    rw [bootRecord_bytes (by omega), bootRecord_bytes (by omega), h.record (by omega) inside]
  rw [h.whole inside]
  simp only [firmwareWhole, length, digest]

/-- A bank with an attempt left is loaded, once the attempt is marked. -/
theorem tryBank_of_attempt (left : recStatus (bootRecord s b) ≠ 0xFF ∨ recAttempts (bootRecord s b) % 8 ≠ 0) :
    tryBank s b = if firmwareWhole s b (bootRecord s b) then (attemptUsed s b, true) else (setStatus (attemptUsed s b) b 0, false) := by
  have allowed : ¬ ((recStatus (bootRecord s b) == 0xFF && recAttempts (bootRecord s b) % 8 == 0) = true) := by
    simpa [imp_iff_not_or] using left
  rw [← attemptUsed_marked.whole (b := b) (by omega) (bootRecord s b)]
  unfold tryBank
  exact if_neg allowed

theorem tryBank_of_used (used : recStatus (bootRecord s b) = 0xFF ∧ recAttempts (bootRecord s b) % 8 = 0) :
    tryBank s b = (setStatus s b 0, false) := by
  obtain ⟨trial, spent⟩ := used
  simp [tryBank, trial, spent]

/-- A bank that is tried is marked in the status and the attempts of its record alone. -/
theorem tryBank_marked : FlashMarked s (tryBank s b).1 (bootRecordAt b + 176) 2 := by
  by_cases used : recStatus (bootRecord s b) = 0xFF ∧ recAttempts (bootRecord s b) % 8 = 0
  · rw [tryBank_of_used used]
    exact reject_marked.widen (by omega) (by omega)
  · have attempt : FlashMarked s (attemptUsed s b) (bootRecordAt b + 176) 2 := attemptUsed_marked.widen (by omega) (by omega)
    rw [tryBank_of_attempt (not_and_or.mp used)]
    split
    · dsimp only
      exact attempt
    · dsimp only
      exact attempt.trans (reject_marked.widen (by omega) (by omega))

/-- A bank whose firmware is not whole is not taken. -/
theorem tryBank_of_torn (torn : firmwareWhole s b (bootRecord s b) = false) : (tryBank s b).2 = false := by
  by_cases used : recStatus (bootRecord s b) = 0xFF ∧ recAttempts (bootRecord s b) % 8 = 0
  · rw [tryBank_of_used used]
  · simp [tryBank_of_attempt (not_and_or.mp used), torn]

end Bank

/-! ## The bank that is selected (R300, R301, R488) -/

section Select
variable {s t : State} {b : Nat} {bs : List Nat}

theorem selectBank_cons : selectBank s (b :: bs) =
    if (tryBank s b).2 then ((tryBank s b).1, some b) else selectBank (tryBank s b).1 bs := by
  rcases h : tryBank s b with ⟨t, _ | _⟩ <;> simp [selectBank, h]

/-- The selection changes flash alone. -/
theorem selectBank_flashOnly : (selectBank s bs).1 = { s with flash := (selectBank s bs).1.flash } := by
  induction bs generalizing s with
  | nil => rfl
  | cons b bs ih =>
    have tried := (tryBank_marked (s := s) (b := b)).1
    rw [selectBank_cons]
    split
    · exact tried
    · exact ih.trans (by rw [tried])

theorem selectBank_comb : (selectBank s bs).1.comb = s.comb := by rw [selectBank_flashOnly]

/-- No bank is selected where none is whole: the marks of those that were tried leave the next as they were. -/
theorem selectBank_of_torn (torn : ∀ b ∈ bs, firmwareWhole s b (bootRecord s b) = false) : (selectBank s bs).2 = none := by
  induction bs generalizing s with
  | nil => rfl
  | cons b bs ih =>
    rw [selectBank_cons, tryBank_of_torn (torn b List.mem_cons_self)]
    exact ih fun c hc => (tryBank_marked.ownWhole (by omega) (by omega)).trans (torn c (List.mem_cons_of_mem b hc))

/-- The first bank that has an attempt left and is whole is selected. -/
theorem selectBank_first (left : recStatus (bootRecord s b) ≠ 0xFF ∨ recAttempts (bootRecord s b) % 8 ≠ 0)
    (whole : firmwareWhole s b (bootRecord s b) = true) : selectBank s (b :: bs) = (attemptUsed s b, some b) := by
  simp [selectBank_cons, tryBank_of_attempt left, whole]

theorem mem_bootOrder : b ∈ bootOrder s ↔ b < 2 ∧ candidate s b = true := by
  have members : b ∈ bootOrder s ↔ b ∈ [0, 1].filter (candidate s) := by
    unfold bootOrder
    dsimp only
    split
    · next both =>
      have all : [0, 1].filter (candidate s) = [0, 1] := List.filter_sublist.eq_of_length (by simp_all)
      simp [all, or_comm]
    · rfl
  simp only [members, List.mem_filter, List.mem_cons, List.not_mem_nil, or_false]
  exact and_congr_left fun _ => by omega

/-- A candidate of the higher sequence, or the only one, comes first. -/
theorem bootOrder_of_first (hb : b < 2) (cand : candidate s b = true)
    (higher : candidate s (1 - b) = true → recSequence (bootRecord s (1 - b)) < recSequence (bootRecord s b)) :
    ∃ rest, bootOrder s = b :: rest := by
  have banks : b = 0 ∨ b = 1 := by omega
  cases other : candidate s (1 - b) with
  | false => rcases banks with rfl | rfl <;> exact ⟨[], by simp_all [bootOrder]⟩
  | true =>
    have below := higher other
    rcases banks with rfl | rfl
    · exact ⟨[1], by simp_all [bootOrder, below.not_gt]⟩
    · exact ⟨[0], by simp_all [bootOrder]⟩

end Select

/-! ## What the application of the site record leaves of the start (R488) -/

/-- The Keeper's state and the firmware that runs: its bank, whether as a fallback or on trial, and its release. -/
def runningFirmware (s : State) : KeeperState × Nat × Bool × Bool × BitVec 32 :=
  (s.keeper.state, s.life.bank, s.life.fallback, s.life.trial, s.life.fwRelease)

/-- The same firmware runs in the same state of the Keeper. -/
def SameFirmware (s t : State) : Prop := runningFirmware t = runningFirmware s

section SameFirmware
variable {s₀ s : State}

theorem sameFirmware_refl (s : State) : SameFirmware s s := rfl

theorem SameFirmware.ite {t : State} {p : Prop} [Decidable p] (hs : SameFirmware s₀ s) (ht : SameFirmware s₀ t) :
    SameFirmware s₀ (if p then s else t) := by
  split
  · exact hs
  · exact ht

theorem SameFirmware.foldl {α : Type} {f : State → α → State} {l : List α} (h : SameFirmware s₀ s)
    (hf : ∀ t a, SameFirmware s₀ t → SameFirmware s₀ (f t a)) : SameFirmware s₀ (l.foldl f s) := by
  induction l generalizing s with
  | nil => exact h
  | cons a l ih => exact ih (hf s a h)

theorem setPower_sameFirmware {f : Power → Power} (h : SameFirmware s₀ s) : SameFirmware s₀ (setPower s f) := h

theorem setTime_sameFirmware {f : TimeUnit → TimeUnit} (h : SameFirmware s₀ s) : SameFirmware s₀ (setTime s f) := h

theorem setMailbox_sameFirmware {n : Nat} {f : Mailbox → Mailbox} (h : SameFirmware s₀ s) : SameFirmware s₀ (setMailbox s n f) := h

theorem setLink_sameFirmware {n : Nat} {f : Link → Link} (h : SameFirmware s₀ s) : SameFirmware s₀ (setLink s n f) := h

theorem setFrame_sameFirmware {n : Nat} {f : Frame → Frame} (h : SameFirmware s₀ s) : SameFirmware s₀ (setFrame s n f) := h

theorem setPartner_sameFirmware {n : Nat} {f : PartnerPort → PartnerPort} (h : SameFirmware s₀ s) : SameFirmware s₀ (setPartner s n f) := h

theorem setMemPort_sameFirmware {n : Nat} {f : MemPort → MemPort} (h : SameFirmware s₀ s) : SameFirmware s₀ (setMemPort s n f) := h

/-- The Keeper may change in all but its state. -/
theorem setKeeper_sameFirmware {f : Keeper → Keeper} (h : SameFirmware s₀ s) (hf : ∀ k, (f k).state = k.state := by exact fun _ => rfl) :
    SameFirmware s₀ (setKeeper s f) := by
  have same : runningFirmware (setKeeper s f) = runningFirmware s := by simp [runningFirmware, hf]
  exact same.trans h

theorem logRecord_reported {kind : Nat} {src : BitVec 22} {body : Bytes} : Reported s (logRecord s kind src body) :=
  pushLog_reported (stamp_reported (reported_refl s))

theorem logRecord_sameFirmware {kind : Nat} {src : BitVec 22} {body : Bytes} (h : SameFirmware s₀ s) :
    SameFirmware s₀ (logRecord s kind src body) :=
  (logRecord_reported.field runningFirmware fun _ _ _ _ _ => rfl).trans h

theorem setAlert_sameFirmware {on : Bool} (h : SameFirmware s₀ s) : SameFirmware s₀ (setAlert s on) :=
  .ite h (logRecord_sameFirmware h)

theorem setAlert_workers {on : Bool} : (setAlert s on).workers = s.workers := by
  unfold setAlert
  split
  · rfl
  · exact logRecord_reported.field State.workers fun _ _ _ _ _ => rfl

theorem writeDelivered_journaled : Journaled s (writeDelivered s) := by
  have delivered := deliverAcks_journaled (journaled_refl s)
  unfold writeDelivered checkpointDue
  split
  · exact journaled_refl s
  · split
    · exact delivered
    · exact checkpoint_journaled delivered

theorem writeDelivered_sameFirmware (h : SameFirmware s₀ s) : SameFirmware s₀ (writeDelivered s) := by
  obtain ⟨⟨_, _, _, frame⟩, -⟩ := writeDelivered_journaled (s := s)
  rw [frame]
  exact h

theorem ackNotice_sameFirmware {o : BitVec 64} (h : SameFirmware s₀ s) : SameFirmware s₀ (ackNotice s o) := by
  unfold ackNotice
  split
  · exact h
  · exact .ite h (.ite h (writeDelivered_sameFirmware h))

theorem clearOut_sameFirmware {n : Nat} (h : SameFirmware s₀ s) : SameFirmware s₀ (clearOut s n) := by
  delta clearOut
  extract_lets b s1 i3c s2
  have h2 : SameFirmware s₀ s2 := .ite h h
  clear_value s2
  refine .ite h ?_
  split
  · exact .ite (ackNotice_sameFirmware h2) h2
  · exact h2

theorem followSource_sameFirmware {x : SourceState} (h : SameFirmware s₀ s) : SameFirmware s₀ (followSource s x) :=
  .ite (logRecord_sameFirmware (logRecord_sameFirmware h)) (logRecord_sameFirmware h)

theorem enterHoldover_sameFirmware (h : SameFirmware s₀ s) : SameFirmware s₀ (enterHoldover s) := .ite h (logRecord_sameFirmware h)

theorem dropInForce_sameFirmware (h : SameFirmware s₀ s) : SameFirmware s₀ (dropInForce s) := by
  unfold dropInForce
  split
  · exact followSource_sameFirmware h
  · exact .ite (enterHoldover_sameFirmware (logRecord_sameFirmware h)) (logRecord_sameFirmware h)

theorem loseSource_sameFirmware {src : TimeSource} (h : SameFirmware s₀ s) : SameFirmware s₀ (loseSource s src) :=
  .ite (dropInForce_sameFirmware h) h

theorem setTimeCfg_sameFirmware {cfg : BitVec 32} (h : SameFirmware s₀ s) : SameFirmware s₀ (setTimeCfg s cfg) := by
  delta setTimeCfg
  extract_lets old s1 s2
  have h2 : SameFirmware s₀ s2 := .ite (loseSource_sameFirmware h) h
  split
  · exact .ite h2 (dropInForce_sameFirmware h2)
  · exact h2

theorem writeCombReg_sameFirmware {f k v : Nat} (h : SameFirmware s₀ s) : SameFirmware s₀ (writeCombReg s f k v) :=
  .ite (.ite (setFrame_sameFirmware h) h) (.ite (setFrame_sameFirmware h) (.ite (setFrame_sameFirmware h) h))

theorem writeLinkReg_sameFirmware {n k v : Nat} (h : SameFirmware s₀ s) : SameFirmware s₀ (writeLinkReg s n k v) :=
  .ite (setLink_sameFirmware h) (.ite (setLink_sameFirmware h) (.ite (setLink_sameFirmware h) (.ite (setLink_sameFirmware h) h)))

theorem writeTimeReg_sameFirmware {off v : Nat} (h : SameFirmware s₀ s) : SameFirmware s₀ (writeTimeReg s off v) :=
  .ite (.ite (setTime_sameFirmware h) h) (.ite (setTimeCfg_sameFirmware h) (.ite (setTime_sameFirmware h)
    (.ite (setTime_sameFirmware h) h)))

theorem writePowerReg_sameFirmware {off v : Nat} (h : SameFirmware s₀ s) : SameFirmware s₀ (writePowerReg s off v) :=
  have power {f : Power → Power} : SameFirmware s₀ (setPower s f) := setPower_sameFirmware h
  .ite power (.ite power (.ite power (.ite (.ite power h) (.ite power (.ite power h)))))

theorem writePage_sameFirmware {off v : Nat} (h : SameFirmware s₀ s) : SameFirmware s₀ (writePage s off v) :=
  have slots := SameFirmware.ite (clearOut_sameFirmware (.ite (setMailbox_sameFirmware h) h)) (.ite (setMailbox_sameFirmware h) h)
  .ite (.ite slots (.ite (setMailbox_sameFirmware h) h))
    (.ite (.ite (setKeeper_sameFirmware h) (.ite (setKeeper_sameFirmware h) h))
    (.ite (setKeeper_sameFirmware h)
    (.ite (writeCombReg_sameFirmware h)
    (.ite (.ite (setPartner_sameFirmware h) h)
    (.ite (.ite (setMemPort_sameFirmware h) h)
    (.ite (writeLinkReg_sameFirmware h)
    (.ite (writeTimeReg_sameFirmware h)
    (.ite (writePowerReg_sameFirmware h)
    (.ite (setMailbox_sameFirmware h) h)))))))))

theorem applySite_sameFirmware {e : Nat × Bytes} (h : SameFirmware s₀ s) : SameFirmware s₀ (applySite s e) := by
  unfold applySite
  refine .ite h ?_
  split
  · exact writePage_sameFirmware h
  · split
    · exact h
    · exact h
  · exact h
  · exact h
  · exact h

end SameFirmware

/-! ## The start of a bank's firmware (R196, R488) -/

section Start
variable {s t : State} {b : Nat}

/-- The firmware of a bank runs in state boot, whatever its site record holds. -/
theorem startFirmware_running (s : State) (b : Nat) (fallback : Bool) : runningFirmware (startFirmware s b fallback) =
    (.boot, b, fallback, recStatus (bootRecord s b) == 0xFF, BitVec.ofNat 32 (recRelease (bootRecord s b))) := by
  delta startFirmware
  extract_lets r s1 s2 s3 s4 s5 s6
  have h3 : SameFirmware s2 s3 := by
    unfold s3
    split
    · exact .foldl (sameFirmware_refl s2) fun _ _ h => applySite_sameFirmware h
    · exact sameFirmware_refl s2
  have h4 : SameFirmware s2 s4 := .ite h3 h3
  have h5 : SameFirmware s2 s5 := .ite h4 h4
  have h6 : SameFirmware s2 s6 := h5
  have last : SameFirmware s2 (if s6.power.alertPinLow then setAlert s6 true else s6) := .ite (setAlert_sameFirmware h6) h6
  exact last

/-- Every row-state memory is under test. -/
theorem startFirmware_testing (s : State) (b : Nat) (fallback : Bool) :
    ∀ w ∈ (startFirmware s b fallback).workers, w.rsState = .testing := by
  delta startFirmware
  extract_lets r s1 s2 s3 s4 s5 s6
  have tested : ∀ w ∈ s6.workers, w.rsState = .testing := fun w hw => by
    obtain ⟨_, _, rfl⟩ := List.mem_map.mp hw
    rfl
  split
  · rw [setAlert_workers]
    exact tested
  · exact tested

theorem firmwareStart_of_kept (h : s.keeper.state ≠ .rom ∨ bit s.pins.straps.toNat 3 = true) : firmwareStart s = s := by
  have kept : (s.keeper.state != .rom || bit s.pins.straps.toNat 3) = true := by simpa using h
  exact if_pos kept

/-- The straps let the ROM hand over. -/
theorem romHandsOver (rom : s.keeper.state = .rom) (strap : bit s.pins.straps.toNat 3 = false) :
    ¬ ((s.keeper.state != .rom || bit s.pins.straps.toNat 3) = true) := by simp [rom, strap]

theorem firmwareStart_of_selected (rom : s.keeper.state = .rom) (strap : bit s.pins.straps.toNat 3 = false)
    (selected : selectBank s (bootOrder s) = (t, some b)) :
    firmwareStart s = startFirmware t b ((bootOrder s).head? != some b) := by
  unfold firmwareStart
  rw [if_neg (romHandsOver rom strap)]
  dsimp only
  rw [selected]

theorem firmwareStart_of_none (rom : s.keeper.state = .rom) (strap : bit s.pins.straps.toNat 3 = false)
    (selected : selectBank s (bootOrder s) = (t, none)) :
    firmwareStart s = setKeeper t (fun k => { k with state := .failed, code := if (bootOrder s).isEmpty then 0x0710 else 0x0711 }) := by
  unfold firmwareStart
  rw [if_neg (romHandsOver rom strap)]
  dsimp only
  rw [selected]

/-- The Keeper boots or has failed, as a bank is selected or none. -/
theorem firmwareStart_bootOrFailed (rom : s.keeper.state = .rom) (strap : bit s.pins.straps.toNat 3 = false) :
    (firmwareStart s).keeper.state = .boot ∨ (firmwareStart s).keeper.state = .failed := by
  rcases selected : selectBank s (bootOrder s) with ⟨t, _ | b⟩
  · rw [firmwareStart_of_none rom strap selected]
    exact .inr rfl
  · rw [firmwareStart_of_selected rom strap selected]
    exact .inl (congrArg Prod.fst (startFirmware_running ..))

theorem firmwareStart_of_noCandidate (rom : s.keeper.state = .rom) (strap : bit s.pins.straps.toNat 3 = false)
    (empty : ∀ b < 2, candidate s b = false) : firmwareStart s = setKeeper s (fun k => { k with state := .failed, code := 0x0710 }) := by
  have nothing : bootOrder s = [] := List.eq_nil_iff_forall_not_mem.mpr fun b hb => by
    obtain ⟨bank, cand⟩ := mem_bootOrder.mp hb
    simp [empty b bank] at cand
  rw [firmwareStart_of_none (t := s) rom strap (by rw [nothing, selectBank]), nothing]
  rfl

theorem firmwareStart_of_torn (rom : s.keeper.state = .rom) (strap : bit s.pins.straps.toNat 3 = false)
    (found : ∃ b < 2, candidate s b = true)
    (torn : ∀ b < 2, candidate s b = true → firmwareWhole s b (bootRecord s b) = false) :
    (firmwareStart s).keeper.state = .failed ∧ (firmwareStart s).keeper.code = 0x0711 ∧ (firmwareStart s).comb = s.comb := by
  obtain ⟨b, bank, cand⟩ := found
  have nonempty : (bootOrder s).isEmpty = false := by
    rw [List.isEmpty_eq_false_iff]
    exact List.ne_nil_of_mem (mem_bootOrder.mpr ⟨bank, cand⟩)
  have nothing : (selectBank s (bootOrder s)).2 = none := selectBank_of_torn fun c hc => by
    obtain ⟨bank, cand⟩ := mem_bootOrder.mp hc
    exact torn c bank cand
  have comb := selectBank_comb (s := s) (bs := bootOrder s)
  rcases selected : selectBank s (bootOrder s) with ⟨t, o⟩
  rw [selected] at nothing comb
  subst nothing
  rw [firmwareStart_of_none rom strap selected, nonempty]
  exact ⟨rfl, rfl, comb⟩

/-- The first candidate starts, from its record as it stands after the attempt is marked. -/
theorem firmwareStart_of_first (rom : s.keeper.state = .rom) (strap : bit s.pins.straps.toNat 3 = false)
    {rest : List Nat} (first : bootOrder s = b :: rest)
    (left : recStatus (bootRecord s b) ≠ 0xFF ∨ recAttempts (bootRecord s b) % 8 ≠ 0)
    (whole : firmwareWhole s b (bootRecord s b) = true) : firmwareStart s = startFirmware (attemptUsed s b) b false := by
  have selected : selectBank s (bootOrder s) = (attemptUsed s b, some b) := by rw [first, selectBank_first left whole]
  rw [firmwareStart_of_selected rom strap selected, first]
  simp

/-- The mark of an attempt leaves a record's status and release. -/
theorem recStatus_attemptUsed : recStatus (bootRecord (attemptUsed s b) b) = recStatus (bootRecord s b) := by
  simp only [recStatus, field_bootRecord (off := 176) (size := 1) (by omega),
    attemptUsed_marked.record (off := 176) (size := 1) (by omega) (by omega)]

theorem recRelease_attemptUsed : recRelease (bootRecord (attemptUsed s b) b) = recRelease (bootRecord s b) := by
  simp only [recRelease, field_bootRecord (off := 8) (size := 4) (by omega),
    attemptUsed_marked.record (off := 8) (size := 4) (by omega) (by omega)]

end Start

/-- Settles O35: the marks that the selection leaves in the boot records touch neither what a later bank is verified by nor what the
start reads of the bank selected, and the site record changes nothing of the firmware that runs. -/
theorem firmwareStart_selectsBank : Obligations.FirmwareStart := by
  intro s clocked
  have gives {P : State → Prop} (h : P (firmwareStart s)) : Gives .firmwareStart s P := ⟨_, clocked_of_clocked clocked, h⟩
  refine ⟨fun kept => ?_, fun rom strap => gives ⟨?_, fun noA noB => ?_, fun found torn => ?_, fun b bank cand higher whole left => ?_⟩⟩
  · exact (clocked_of_clocked clocked).trans (congrArg _ (firmwareStart_of_kept kept))
  · exact firmwareStart_bootOrFailed rom strap
  · exact firmwareStart_of_noCandidate rom strap fun b bank => match b, bank with
      | 0, _ => noA
      | 1, _ => noB
  · exact firmwareStart_of_torn rom strap found torn
  · obtain ⟨rest, first⟩ := bootOrder_of_first bank cand higher
    have running := startFirmware_running (attemptUsed s b) b false
    rw [firmwareStart_of_first rom strap first left whole]
    simp only [runningFirmware, Prod.mk.injEq, recStatus_attemptUsed, recRelease_attemptUsed] at running
    obtain ⟨state, bank, fallback, trial, release⟩ := running
    exact ⟨state, bank, fallback, trial, release, startFirmware_testing _ _ _⟩

end Sys2Proof.Machine
end

section
namespace Sys2Proof.Machine

/-! ## A request that a row acts on (R313 to R315) -/

section Request
variable {s t : State} {n : Fin 16} {ty : BitVec 16} {p : Pending}

theorem Heard.mailbox_lt (h : Heard s n ty t p) : p.mailbox < t.mailboxes.length := by
  obtain ⟨-, taken, -⟩ := h
  obtain ⟨-, own, inside⟩ := takeMessage_request taken
  rwa [own]

/-- The row of a request's own type acts on it. -/
theorem Heard.clocked_onRequest (h : Heard s n ty t p) (act : State → Pending → State) :
    clocked s (onRequest s n (isType ty) act) = .next (act t p) := by
  obtain ⟨runs, taken, own⟩ := h
  rw [clocked_of_clocked runs, onRequest, taken]
  simp [isType, own]

/-- A request whose reply the Keeper sends is rejected with a code and nothing else. -/
theorem Heard.onlyAnswers_reject (h : Heard s n ty t p) (replied : ty ≠ 0x0022) (code : BitVec 16) :
    OnlyAnswers t (reject t p code) p code [] := by
  have inside := h.mailbox_lt
  obtain ⟨-, -, own⟩ := h
  rw [reject, if_neg (by simpa [own] using replied)]
  exact reply_onlyAnswers t p code [] inside

end Request

/-- A reply at the end of a command is the last of its mailbox. -/
theorem reply_answeredLast {s t : State} {p : Pending} (inside : p.mailbox < t.mailboxes.length) (time : t.time = s.time)
    (status : BitVec 16) (body : Bytes) : AnsweredLast s (reply t p status body) p status body := by
  have same : replyOf s p status body = replyOf t p status body := by rw [replyOf, replyOf, time]
  have answered := reply_answered t p status body inside
  unfold AnsweredLast
  rw [same, show getMailbox (reply t p status body) p.mailbox = _ from answered]
  exact ⟨rfl, rfl, outgoing (getMailbox t p.mailbox), List.take_append_drop 64 _⟩

/-! ## A new generation in the archive (R219, R235, R243) -/

/-- The lowest place that no entry takes; 0 where all are taken. -/
def freePlace (es : List ArchiveEntry) : Nat := ((List.range 4096).find? (fun i => !es.any (fun e => e.place == i))).getD 0

theorem exists_free_place {es : List ArchiveEntry} (room : es.length < 4096) : ∃ i ∈ List.range 4096, ∀ e ∈ es, e.place ≠ i := by
  by_contra none_free
  have covered : List.range 4096 ⊆ es.map ArchiveEntry.place := fun i hi => by
    by_contra free
    exact none_free ⟨i, hi, fun e he same => free (List.mem_map.mpr ⟨e, he, same⟩)⟩
  have long := (List.nodup_range.subperm covered).length_le
  rw [List.length_range, List.length_map] at long
  omega

theorem freePlace_lowest {es : List ArchiveEntry} (room : es.length < 4096) :
    freePlace es < 4096 ∧ (∀ e ∈ es, e.place ≠ freePlace es) ∧ ∀ q < freePlace es, ∃ e ∈ es, e.place = q := by
  obtain ⟨i, inside, free⟩ := exists_free_place room
  unfold freePlace
  cases found : (List.range 4096).find? (fun i => !es.any (fun e => e.place == i)) with
  | none => simpa using List.find?_eq_none.mp found i inside (by simpa using free)
  | some k =>
    obtain ⟨fits, low, below⟩ := List.find?_range_eq_some.mp found
    exact ⟨List.mem_range.mp low, by simpa using fits, fun q hq => by simpa using below q hq⟩

/-! ## TABLE_LOAD (R236, R322) -/

theorem tableRefusal_ne_zero {file : Bytes} {c : BitVec 16} (h : tableRefusal file = some c) : c ≠ 0#16 := by
  unfold tableRefusal at h
  repeat' split at h
  all_goals first | (injection h with h; rw [← h]; decide) | exact absurd h (by simp)

/-- A table that has been taken: its generation is archived, and its write waits. -/
def tableTaken (t : State) (p : Pending) : State := setKeeper t (fun k => { k with
  lastGen := k.lastGen + 1
  archive := k.archive ++ [{ gen := k.lastGen + 1, file := p.body.drop 104, copies := archiveStacks t, place := freePlace t.keeper.archive }]
  tableJobs := k.tableJobs ++ [{ req := p, run := field p.body 0 1, slot := field p.body 1 1, gen := k.lastGen + 1, file := p.body.drop 104 }] })

theorem tableTaken_eq (t : State) (p : Pending) : tableTaken t p = setKeeper (archiveTable t (p.body.drop 104)).1 (fun k =>
    { k with tableJobs := k.tableJobs ++ [{
        req := p, run := field p.body 0 1, slot := field p.body 1 1, gen := (archiveTable t (p.body.drop 104)).2, file := p.body.drop 104 }] }) := rfl

/-- TABLE_LOAD takes the table, or rejects it with the first check that fails. -/
theorem exec_tableLoad {s t : State} {n : Fin 16} {p : Pending} (h : Heard s n 0x0030 t p) : exec (.tableLoad n) s
    = .next (if tableLoadRefusal t p = 0 then tableTaken t p else reject t p (tableLoadRefusal t p)) := by
  refine (h.clocked_onRequest _).trans (congrArg _ ?_)
  obtain run | ⟨rn, run⟩ := Option.eq_none_or_eq_some (getRun t (field p.body 0 1))
  · simp [tableLoadRefusal, run]
  by_cases ready : rn.ready = false
  · simp [tableLoadRefusal, run, ready]
  by_cases heirloom : rn.image.numericMode = 1
  · simp [tableLoadRefusal, run, ready, heirloom]
  by_cases signed : imageSigOk t true (field p.body 4 4) (Config.sha384 (p.body.drop 104)) ((p.body.drop 8).take 96) = false
  · simp [tableLoadRefusal, run, ready, heirloom, signed]
  obtain file | ⟨c, file⟩ := Option.eq_none_or_eq_some (tableRefusal (p.body.drop 104))
  · by_cases slot : 15 < field p.body 1 1
    · simp [tableLoadRefusal, run, ready, heirloom, signed, file, slot]
    by_cases lacks : lacksPath rn.image (field p.body 1 1) (p.body.drop 104) (wholeProgram (runImage t rn) rn.image) = true
    · simp [tableLoadRefusal, run, ready, heirloom, signed, file, slot, lacks]
    by_cases full : 4096 ≤ t.keeper.archive.length
    · simp [tableLoadRefusal, run, ready, heirloom, signed, file, slot, lacks, full]
    by_cases up : archiveStacks t = []
    · simp [tableLoadRefusal, run, ready, heirloom, signed, file, slot, lacks, full, up]
    · simp [tableLoadRefusal, run, ready, heirloom, signed, file, slot, lacks, full, up, tableTaken_eq]
  · simpa [tableLoadRefusal, run, ready, heirloom, signed, file] using fun zero => absurd zero (tableRefusal_ne_zero file)

/-- A table is taken only while the archive has an entry free. -/
theorem archive_room {t : State} {p : Pending} (taken : tableLoadRefusal t p = 0#16) : t.keeper.archive.length < 4096 := by
  by_contra full
  simp only [tableLoadRefusal, if_pos (Nat.not_lt.mp full)] at taken
  split at taken
  · exact absurd taken (by decide)
  split at taken
  · exact absurd taken (by decide)
  split at taken
  · exact absurd taken (by decide)
  split at taken
  · exact absurd taken (by decide)
  split at taken
  · next c file => exact tableRefusal_ne_zero file taken
  split at taken
  · exact absurd taken (by decide)
  split at taken
  · exact absurd taken (by decide)
  · exact absurd taken (by decide)

/-! ## Roots of a run's workers (R236) -/

theorem foldl_setWorker {f : Worker → Worker} : ∀ (l : List Nat) (s : State), l.Nodup → (∀ w ∈ l, w < s.workers.length) →
    (∃ workers, l.foldl (fun s w => setWorker s w f) s = { s with workers := workers })
      ∧ ∀ v, getWorker (l.foldl (fun s w => setWorker s w f) s) v = if v ∈ l then f (getWorker s v) else getWorker s v
  | [], s, _, _ => ⟨⟨_, rfl⟩, fun v => (if_neg List.not_mem_nil).symm⟩
  | w :: l, s, once, inside => by
    obtain ⟨fresh, once'⟩ := List.nodup_cons.mp once
    obtain ⟨⟨workers, only⟩, each⟩ := foldl_setWorker (f := f) l (setWorker s w f) once' (fun v hv => by
      simpa using inside v (List.mem_cons_of_mem _ hv))
    refine ⟨⟨workers, only⟩, fun v => (each v).trans ?_⟩
    by_cases own : v = w
    · subst own
      rw [if_neg fresh, if_pos List.mem_cons_self, getWorker_setWorker_same s v f (inside v List.mem_cons_self)]
    · rw [getWorker_setWorker_ne s w v f (Ne.symm own)]
      simp [own]

section Roots
variable {s : State} {r : Nat} {f : List RootSlot → List RootSlot}

theorem mem_runWorkers {w : Nat} : w ∈ runWorkers s r ↔ w < 68 ∧ (getWorker s w).run = some r := by simp [runWorkers]

theorem setRoots_roots (w : Whole s) : (∃ workers runs, setRoots s r f = { s with workers := workers, runs := runs })
    ∧ ∀ v, getWorker (setRoots s r f) v
      = if v ∈ runWorkers s r then { getWorker s v with root := f (getWorker s v).root } else getWorker s v := by
  obtain ⟨⟨workers, only⟩, each⟩ := foldl_setWorker (f := fun x => { x with root := f x.root }) (runWorkers s r)
    (setRun s r (fun rn => { rn with root := f rn.root })) (List.nodup_range.filter _)
    (fun v hv => (mem_runWorkers.mp hv).1.trans_eq w.workers.symm)
  exact ⟨⟨workers, _, only⟩, each⟩

end Roots

/-! ## TABLE_SHADOW_WRITE (R236, R237) -/

/-- A slot whose shadow bank has been written. -/
def shadowPut (b : Bank) (pending : Bool) (x : RootSlot) : RootSlot :=
  if x.activeB then { x with a := b, pending := pending } else { x with b := b, pending := pending }

section ShadowPut
variable (b : Bank) (pending : Bool) (x : RootSlot)

@[simp] theorem shadowBank_shadowPut : shadowBank (shadowPut b pending x) = b := by
  cases side : x.activeB <;> simp [shadowPut, shadowBank, side]

@[simp] theorem activeBank_shadowPut : activeBank (shadowPut b pending x) = activeBank x := by
  cases side : x.activeB <;> simp [shadowPut, activeBank, side]

@[simp] theorem pending_shadowPut : (shadowPut b pending x).pending = pending := by
  cases side : x.activeB <;> simp [shadowPut, side]

end ShadowPut

/-- What a job's write leaves in the shadow banks: its table, or nothing after a second mismatch. -/
def jobBank (j : TableJob) (fails : Bool) : Bank := if fails then { gen := 0, file := [] } else { gen := j.gen, file := j.file }

/-- The roots of the run once a job's shadow banks have been written. -/
def shadowWritten (s : State) (j : TableJob) (fails : Bool) : State :=
  setRoots s j.run (fun root => updAt root j.slot (shadowPut (jobBank j fails) !fails))

/-- The job is done with. -/
def jobDone (s : State) (j : TableJob) (fails : Bool) : State :=
  { setKeeper (shadowWritten s j fails) (fun k => { k with tableJobs := k.tableJobs.erase j }) with draws := (shadowWritten s j fails).draws + 1 }

section Job
variable {s : State} {j : TableJob} {fails : Bool}

theorem jobDone_only (w : Whole s) : ∃ workers runs draws, jobDone s j fails = { s with
    workers := workers, runs := runs, draws := draws, keeper := { s.keeper with tableJobs := s.keeper.tableJobs.erase j } } := by
  obtain ⟨⟨workers, runs, e⟩, -⟩ := setRoots_roots (r := j.run) (f := fun root => updAt root j.slot (shadowPut (jobBank j fails) !fails)) w
  refine ⟨workers, runs, s.draws + 1, ?_⟩
  unfold jobDone shadowWritten
  rw [e]
  rfl

theorem getWorker_jobDone (w : Whole s) (v : Nat) : getWorker (jobDone s j fails) v = if v ∈ runWorkers s j.run
    then { getWorker s v with root := updAt (getWorker s v).root j.slot (shadowPut (jobBank j fails) !fails) } else getWorker s v :=
  (setRoots_roots w).2 v

/-- A worker of the run: the shadow bank is written, and the active bank and the other slots stay (R236). -/
theorem jobDone_shadow (w : Whole s) {v : Nat} (mine : v ∈ runWorkers s j.run) (inside : j.slot < (getWorker s v).root.length) :
    let root := (getWorker (jobDone s j fails) v).root
    shadowBank (nth root j.slot) = jobBank j fails ∧ activeBank (nth root j.slot) = activeBank (nth (getWorker s v).root j.slot)
      ∧ (nth root j.slot).pending = !fails ∧ ∀ m, m ≠ j.slot → nth root m = nth (getWorker s v).root m := by
  rw [getWorker_jobDone w, if_pos mine]
  dsimp only
  rw [nth_updAt_same _ _ _ inside]
  exact ⟨shadowBank_shadowPut .., activeBank_shadowPut .., pending_shadowPut .., fun m other => nth_updAt_ne _ _ _ _ (Ne.symm other)⟩

end Job

theorem exec_tableShadowWrite_none {s : State} (runs : standing s = false) (bound : ∀ j ∈ s.keeper.tableJobs, shadowBound s j.run j.slot = true) :
    exec .tableShadowWrite s = .next s := by
  refine (clocked_of_clocked runs).trans (congrArg _ ?_)
  rw [List.find?_eq_none.mpr fun j hj => by simp [bound j hj]]

theorem exec_tableShadowWrite_first {s : State} {j : TableJob} {before after : List TableJob} (runs : standing s = false)
    (jobs : s.keeper.tableJobs = before ++ j :: after) (bound : ∀ x ∈ before, shadowBound s x.run x.slot = true)
    (free : shadowBound s j.run j.slot = false) : exec .tableShadowWrite s = .next (
      if 2 ≤ Config.bankMismatches s.draws then reply (jobDone s j true) j.req 0x0262 []
      else reply (jobDone s j false) j.req 0 (natLe 4 j.gen.toNat)) := by
  have first : s.keeper.tableJobs.find? (fun j => !shadowBound s j.run j.slot) = some j := by
    rw [jobs, List.find?_append, List.find?_eq_none.mpr fun x hx => by simp [bound x hx]]
    simp [free]
  refine (clocked_of_clocked runs).trans (congrArg _ ?_)
  rw [first]
  rfl

/-- What the end of a job leaves but for its answer: banks written in the workers of the run, and nothing else of them touched (R236). -/
theorem reply_jobDone {s : State} {j : TableJob} {fails : Bool} (w : Whole s) (there : j ∈ s.keeper.tableJobs) (slot : j.slot < 16)
    (status : BitVec 16) (body : Bytes) : let u := reply (jobDone s j fails) j.req status body
    u.comb = s.comb ∧ u.keeper.archive = s.keeper.archive ∧ u.keeper.tableJobs.length + 1 = s.keeper.tableJobs.length
      ∧ (∀ v ∈ runWorkers s j.run, (getWorker s v).root.length = 16 →
          shadowBank (nth (getWorker u v).root j.slot) = jobBank j fails
            ∧ activeBank (nth (getWorker u v).root j.slot) = activeBank (nth (getWorker s v).root j.slot)
            ∧ (nth (getWorker u v).root j.slot).pending = !fails
            ∧ ∀ m, m ≠ j.slot → nth (getWorker u v).root m = nth (getWorker s v).root m)
      ∧ (∀ v, v ∉ runWorkers s j.run → getWorker u v = getWorker s v) := by
  obtain ⟨_, _, _, e⟩ := jobDone_only (j := j) (fails := fails) w
  have comb : (jobDone s j fails).comb = s.comb := by rw [e]
  have archive : (jobDone s j fails).keeper.archive = s.keeper.archive := by rw [e]
  have jobs : (jobDone s j fails).keeper.tableJobs = s.keeper.tableJobs.erase j := by rw [e]
  refine ⟨comb, archive, ?_, fun v mine full => jobDone_shadow w mine (slot.trans_eq full.symm),
    fun v other => (getWorker_jobDone w v).trans (if_neg other)⟩
  change (jobDone s j fails).keeper.tableJobs.length + 1 = _
  rw [jobs, List.length_erase_add_one there]

theorem jobDone_answeredLast {s : State} {j : TableJob} {fails : Bool} (w : Whole s) (inside : j.req.mailbox < 16)
    (status : BitVec 16) (body : Bytes) : AnsweredLast s (reply (jobDone s j fails) j.req status body) j.req status body := by
  obtain ⟨_, _, _, e⟩ := jobDone_only (j := j) (fails := fails) w
  refine reply_answeredLast ?_ (by rw [e]) status body
  rw [e]
  exact inside.trans_eq w.mailboxes.symm

/-! ## TABLE_RETIRE and ARCHIVE_RELEASE (R243, R323) -/

theorem mem_archive_dropGeneration {s : State} {gen : BitVec 32} (e : ArchiveEntry) :
    e ∈ (dropGeneration s gen).keeper.archive ↔ e ∈ s.keeper.archive ∧ e.gen ≠ gen := by
  simp [dropGeneration, setKeeper]

theorem exec_tableRetire {s t : State} {n : Fin 16} {p : Pending} {gen : BitVec 32} (h : Heard s n 0x0031 t p)
    (named : gen = BitVec.ofNat 32 (field p.body 0 4)) : exec (.tableRetire n) s = .next (
      if ∃ e ∈ t.keeper.archive, e.gen = gen then
        if generationHeld t gen = true ∨ (bit (field p.body 4 1) 0 = false ∧ generationNamed t gen = true) then reject t p 0x0532
        else reply (dropGeneration t gen) p 0 []
      else reject t p 0x0531) := by
  refine (h.clocked_onRequest _).trans (congrArg _ ?_)
  subst named
  by_cases known : ∃ e ∈ t.keeper.archive, e.gen = BitVec.ofNat 32 (field p.body 0 4)
  · simp [known]
  · simp [known]

/-- Settles O44: each row is what its checks leave of it, an answer alone, a table that waits, banks written, or a generation dropped. The
code of a slot above 15, that of a second mismatch and of stacks that are down, and the empty bank are the model's choices
(notes/assumptions/7.md, 23.md, 85.md). -/
theorem tablesInService : Obligations.TablesInService := by
  intro s w
  refine ⟨fun n t p h => ⟨_, exec_tableLoad h, fun bad => ?_, fun good => ?_⟩,
    fun runs => ⟨exec_tableShadowWrite_none runs, fun j before after jobs bound free slot inside => ?_⟩,
    fun n t p h => ⟨fun unknown => ?_, fun known used => ?_, fun known free named => ?_⟩,
    fun runs gen => ⟨fun used => ?_, fun free unnamed => ?_⟩⟩
  · rw [if_neg bad]
    exact h.onlyAnswers_reject (by decide) _
  · rw [if_pos good]
    obtain ⟨low, free, below⟩ := freePlace_lowest (archive_room good)
    exact ⟨freePlace t.keeper.archive, low, free, below, rfl⟩
  · have there : j ∈ s.keeper.tableJobs := jobs ▸ List.mem_append_right _ List.mem_cons_self
    by_cases twice : 2 ≤ Config.bankMismatches s.draws
    · refine ⟨_, exec_tableShadowWrite_first runs jobs bound free, ?_⟩
      simp only [twice, decide_true, if_true]
      exact ⟨nofun, fun _ => jobDone_answeredLast w inside _ _, reply_jobDone w there slot _ _⟩
    · refine ⟨_, exec_tableShadowWrite_first runs jobs bound free, ?_⟩
      simp only [twice, decide_false, if_false]
      exact ⟨fun _ => jobDone_answeredLast w inside _ _, nofun, reply_jobDone w there slot _ _⟩
  · refine ⟨_, exec_tableRetire h rfl, ?_⟩
    rw [if_neg fun ⟨e, there, same⟩ => unknown e there same]
    exact h.onlyAnswers_reject (by decide) _
  · refine ⟨_, exec_tableRetire h rfl, ?_⟩
    rw [if_pos known, if_pos used]
    exact h.onlyAnswers_reject (by decide) _
  · refine ⟨_, exec_tableRetire h rfl, dropGeneration t (BitVec.ofNat 32 (field p.body 0 4)), ?_, rfl, mem_archive_dropGeneration⟩
    rw [if_pos known, if_neg fun used => ?_]
    · exact reply_onlyAnswers _ p 0 [] h.mailbox_lt
    · rcases used with held | ⟨gentle, ordered⟩
      · exact absurd held (by simp [free])
      · simp [gentle, ordered] at named
  · refine (clocked_of_clocked runs).trans (congrArg _ (if_pos ?_))
    simpa using used
  · refine ⟨dropGeneration s gen, (clocked_of_clocked runs).trans (congrArg _ (if_neg ?_)), rfl, mem_archive_dropGeneration⟩
    simp [free, unnamed]

end Sys2Proof.Machine
end

section
namespace Sys2Proof.Machine

/-! ## A frame's reset at the end of a replay (R244, R459, R468)

The reset drains the copy-out of the order's last unit first, and the drain commits that unit. Where no ring of the run lies in the frame,
the frame's recovery ends at once, the order completes with it, and the end of the replay puts the generations of before it back into
the banks of every worker of the run, those that the reset has just emptied among them. -/

/-- A run at the end of a replay: generation 1 is in force, generation 2 was before, and one unit of one instruction is left. -/
def replayed : Run :=
  { (default : Run) with
    image := { (default : Image) with entries := [{ slotOffset := 0, slotCount := 1, paramLength := 0 }] }
    ready := true, order := some 0, issued := [{ (default : Issued) with units := [0] }], replayReady := true
    root := { RootSlot.reset with a := { gen := 1, file := [] } } :: List.replicate 15 RootSlot.reset
    savedGens := (2, 0) :: List.replicate 15 (0, 0) }

/-- What is left of the unit in its worker: the copy-out, with no byte to bring home. -/
def lastCopyOut : Held := { (default : Held) with copyOut := true, crc := crc32c [] }

/-- The die after reset with that run in frame 0, its worker 0 at the copy-out, and generation 2 in the archive on stack 0. -/
def replayEnding : State :=
  { State.reset with
    runs := some replayed :: List.replicate 7 none
    frames := { Frame.reset with run := some 0 } :: List.replicate 7 Frame.reset
    workers := updAt State.reset.workers 0 (fun x => { x with run := some 0, admission := .admitted, held := [lastCopyOut], root := replayed.root })
    mems := { MemPort.reset with state := 2 } :: List.replicate 3 MemPort.reset
    keeper := { Keeper.reset with
      orders := [{ (default : Order) with state := .running, nextIssue := 1 }]
      archive := [{ gen := 2, file := [], copies := [0], place := 0 }] } }

theorem replayEnding_whole : Whole replayEnding :=
  ⟨rfl, fun b hb => by rw [List.eq_of_mem_replicate hb]; exact List.length_replicate, rfl, rfl, rfl, rfl, rfl, rfl, rfl, Nat.zero_le _⟩

/-- Does generation 2 stand in bank A of slot 0 of worker 0? -/
def restoredAtWorker0 (x : Host.Outcome State Fault Refusal) : Bool :=
  match x with
  | .next u => (nth (getWorker u 0).root 0).a.gen == 2
  | _ => false

theorem replayEnding_restores : restoredAtWorker0 (exec (.frameDomainReset 0) replayEnding) = true := by decide +kernel

theorem replayEnding_worker : 0 ∈ frameWorkers replayEnding 0 := by decide +kernel

/-- Refutes O58: after the reset of frame 0 the root store of its worker should be as after a reset, but it holds generation 2, which
the end of the replay has put back. -/
theorem not_recoveryRequests : ¬ Obligations.RecoveryRequests := by
  intro h
  obtain ⟨-, -, parts⟩ := h replayEnding replayEnding_whole
  obtain ⟨frames, -⟩ := parts rfl
  obtain ⟨-, resets, -⟩ := frames 0
  obtain ⟨u, hu, -, -, emptied, -⟩ := resets rfl rfl
  obtain ⟨-, -, root⟩ := emptied 0 replayEnding_worker
  have restored := replayEnding_restores
  rw [hu, restoredAtWorker0, root] at restored
  exact absurd restored (by decide)

end Sys2Proof.Machine
end

section
namespace Sys2Proof.Machine

/-! ## A message of one fragment (Table 10.6, R313) -/

/-- What is laid over bytes of its own length takes their place. -/
theorem overlay_middle {pre old new post : Bytes} {off : Nat} (start : pre.length = off) (same : new.length = old.length) :
    overlay (pre ++ (old ++ post)) off new = pre ++ (new ++ post) := by
  subst start
  have fits : new.take (old.length + post.length) = new := List.take_of_length_le (by omega)
  simp [overlay, same, fits, List.drop_append]

/-- A field within a part of a byte string is that of the part. -/
theorem field_middle {pre b post : Bytes} {start off size : Nat} (before : pre.length = start) (inside : off + size ≤ b.length) :
    field (pre ++ (b ++ post)) (start + off) size = field b off size := by
  subst before
  have cut : ((b ++ post).drop off).take size = (b.drop off).take size := by
    rw [List.drop_append_of_le_length (by omega), List.take_append_of_le_length (by rw [List.length_drop]; omega)]
  simp [field, fieldBytes, cut]

/-- The 24 bytes of a message's header before its crc. -/
def messageHead (type : BitVec 16) (tag : BitVec 32) (src : BitVec 22) (status : BitVec 16) (frag : Nat) (last : Bool)
    (time length : Nat) : Bytes :=
  natLe 2 type.toNat ++ (natLe 2 length ++ natLe 4 tag.toNat ++ natLe 4 src.toNat ++ natLe 2 status.toNat
    ++ natLe 2 (frag + b2n last * 2 ^ 15) ++ natLe 8 time)

section Message
variable {type status : BitVec 16} {tag : BitVec 32} {src : BitVec 22} {frag time off size : Nat} {last : Bool} {body : Bytes}

theorem messageHead_length (length : Nat) : (messageHead type tag src status frag last time length).length = 24 := by
  simp [messageHead]

/-- A body that fits stands in its message whole, behind the 32 bytes of the header. -/
theorem messageBytes_eq (short : body.length ≤ 224) : ∃ crc, messageBytes type tag src status frag last time body
    = messageHead type tag src status frag last time body.length
      ++ (natLe 4 crc ++ (natLe 4 0 ++ body ++ List.replicate (224 - body.length) 0)) := by
  have uncoded : padTo 256 (messageHead type tag src status frag last time body.length ++ (natLe 4 0 ++ (natLe 4 0 ++ body)))
      = messageHead type tag src status frag last time body.length
        ++ (natLe 4 0 ++ (natLe 4 0 ++ body ++ List.replicate (224 - body.length) 0)) := by
    rw [padTo, List.take_of_length_le (by simp [messageHead_length]; omega)]
    simp [messageHead_length]
    omega
  have coded (m : Bytes)
      (h : m = padTo 256 (messageHead type tag src status frag last time body.length ++ (natLe 4 0 ++ (natLe 4 0 ++ body)))) :
      messageBytes type tag src status frag last time body = overlay m 24 (natLe 4 (crc32c m).toNat) := by
    simp only [h, messageBytes, messageHead, List.append_assoc]
  exact ⟨_, (coded _ uncoded.symm).trans (overlay_middle (messageHead_length _) (by simp))⟩

theorem field_messageBytes_type (short : body.length ≤ 224) :
    field (messageBytes type tag src status frag last time body) 0 2 = type.toNat := by
  obtain ⟨crc, e⟩ := messageBytes_eq (type := type) (tag := tag) (src := src) (status := status) (frag := frag) (last := last)
    (time := time) short
  rw [e, messageHead, List.append_assoc]
  exact (field_append_natLe [] _ 2 type.toNat rfl).trans (Nat.mod_eq_of_lt type.isLt)

theorem field_messageBytes_body (short : body.length ≤ 224) (inside : off + size ≤ body.length) :
    field (messageBytes type tag src status frag last time body) (32 + off) size = field body off size := by
  obtain ⟨crc, e⟩ := messageBytes_eq (type := type) (tag := tag) (src := src) (status := status) (frag := frag) (last := last)
    (time := time) short
  have parts : messageBytes type tag src status frag last time body = (messageHead type tag src status frag last time body.length
      ++ natLe 4 crc ++ natLe 4 0) ++ (body ++ List.replicate (224 - body.length) 0) := by
    rw [e]
    simp only [List.append_assoc]
  rw [parts]
  exact field_middle (by simp [messageHead_length]) inside

/-- A body that fits in one message makes one. -/
theorem fragments_short (filled : body ≠ []) (short : body.length ≤ 224) :
    fragments type tag src status time body = [messageBytes type tag src status 0 true time body] := by
  cases body with
  | nil => exact absurd rfl filled
  | cons b rest =>
    have whole : chunksOf 224 ((b :: rest).length + 1) (b :: rest) = [b :: rest] := by
      have none_left : chunksOf 224 (b :: rest).length ([] : Bytes) = [] := rfl
      rw [chunksOf, List.take_of_length_le short, List.drop_of_length_le short, none_left]
      exact List.cons_ne_nil b rest
    unfold fragments
    simp only [List.isEmpty_cons, Bool.false_eq_true, if_false, whole]
    rfl

end Message

/-! ## COMPLETION notices (R275, R333, Table 10.15) -/

theorem orderCode_lt (x : OrderState) : orderCode x < 256 := by cases x <;> decide

theorem completionBody_eq (o : Order) : ∃ rest, rest.length = 39 ∧
    completionBody o = natLe 8 o.number.toNat ++ (natLe 1 (orderCode o.state) ++ rest) := by
  unfold completionBody
  simp only [List.append_assoc]
  exact ⟨_, by simp [stampNs, stampFrac], rfl⟩

theorem completionBody_length (o : Order) : (completionBody o).length = 48 := by
  obtain ⟨rest, len, e⟩ := completionBody_eq o
  simp [e, len]

theorem field_completionBody_number (o : Order) : field (completionBody o) 0 8 = o.number.toNat := by
  obtain ⟨rest, -, e⟩ := completionBody_eq o
  rw [e]
  exact (field_append_natLe [] _ 8 _ rfl).trans (Nat.mod_eq_of_lt o.number.isLt)

theorem field_completionBody_state (o : Order) : field (completionBody o) 8 1 = orderCode o.state := by
  obtain ⟨rest, -, e⟩ := completionBody_eq o
  rw [e, field_append_natLe _ _ _ _ (natLe_length 8 _)]
  exact Nat.mod_eq_of_lt (orderCode_lt _)

/-- The message of a COMPLETION notice. -/
def completionMessage (s : State) (src : BitVec 22) (o : Order) : OutMsg where
  bytes := messageBytes 0x4020 0 src 0 0 true (s.time.now / 65536) (completionBody o)
  completion := some o.number

/-- The notice of an order of a source is queued on the source's mailbox, and the order counts as notified. -/
def NoticeQueued (s u : State) (src : BitVec 22) (o : Order) : Prop :=
  (∀ x ∈ u.keeper.orders, x.number = o.number → x.notice = 1 ∧ x.noticeSentAt = s.wall) ∧ u.journal = s.journal ∧ u.runs = s.runs
    ∧ ∃ m, OnlyMailbox { s with keeper := u.keeper } u (replyMailbox s src)
      ∧ outgoing (getMailbox u (replyMailbox s src)) = outgoing (getMailbox s (replyMailbox s src)) ++ [m]
      ∧ m.completion = some o.number ∧ field m.bytes 0 2 = 0x4020 ∧ field m.bytes 32 8 = o.number.toNat
      ∧ field m.bytes 40 1 = orderCode o.state

section Notice
variable {s : State} {src : BitVec 22} {o : Order}

/-- An order that counts as notified now. -/
def notified (s : State) (o : Order) : State := setOrder s o.number (fun o => { o with notice := 1, noticeSentAt := s.wall })

theorem sendCompletion_eq (own : orderSource o.number = src) :
    sendCompletion s o = enqueue (notified s o) (replyMailbox s src) [completionMessage s src o] := by
  subst own
  have one := fragments_short (type := 0x4020) (tag := 0) (src := orderSource o.number) (status := 0) (time := s.time.now / 65536)
    (body := completionBody o) (List.ne_nil_of_length_pos (by simp [completionBody_length])) (by simp [completionBody_length])
  exact congrArg (fun ms => enqueue (notified s o) (replyMailbox s (orderSource o.number)) (ms.map (fun b => ⟨b, some o.number⟩))) one

theorem notice_notified {x : Order} (h : x ∈ (notified s o).keeper.orders) (same : x.number = o.number) :
    x.notice = 1 ∧ x.noticeSentAt = s.wall := by
  obtain ⟨y, -, rfl⟩ := List.mem_map.mp h
  split at same
  · next hit => rw [if_pos hit]; exact ⟨rfl, rfl⟩
  · next miss => exact absurd (beq_iff_eq.mpr same) miss

theorem sendCompletion_queued (w : Whole s) (own : orderSource o.number = src) : NoticeQueued s (sendCompletion s o) src o := by
  have there : replyMailbox s src < (notified s o).mailboxes.length := w.mailboxes ▸ replyMailbox_lt s src
  have short : (completionBody o).length ≤ 224 := by simp [completionBody_length]
  rw [sendCompletion_eq own]
  refine ⟨fun x hx => notice_notified hx, rfl, rfl, completionMessage s src o, enqueue_only .., outgoing_enqueue _ there, rfl,
    field_messageBytes_type short, ?_, ?_⟩
  · exact (field_messageBytes_body (off := 0) short (by simp [completionBody_length])).trans (field_completionBody_number o)
  · exact (field_messageBytes_body (off := 8) short (by simp [completionBody_length])).trans (field_completionBody_state o)

theorem exec_completionNoticeSend_none (runs : standing s = false) (h : firstUnacked s src = none) :
    exec (.completionNoticeSend src) s = .next s := by
  refine (clocked_of_clocked runs).trans (congrArg _ ?_)
  rw [h]

theorem exec_noticeRetransmit_none (runs : standing s = false) (h : firstUnacked s src = none) :
    exec (.noticeRetransmit src) s = .next s := by
  refine (clocked_of_clocked runs).trans (congrArg _ ?_)
  dsimp only
  rw [h]

/-- The notice of the lowest order is sent once that has ended, unless its source is held (R275). -/
theorem exec_completionNoticeSend_some (runs : standing s = false) (h : firstUnacked s src = some o) :
    exec (.completionNoticeSend src) s
      = .next (if ended o = true ∧ o.notice = 0 ∧ sourceHeld s src = false then sendCompletion s o else s) := by
  refine (clocked_of_clocked runs).trans (congrArg _ ?_)
  rw [h]
  simp [and_assoc]

/-- Over UDP the notice in turn goes out again while the session is enabled and none of it waits (R333). -/
theorem exec_noticeRetransmit_some (runs : standing s = false) (h : firstUnacked s src = some o) :
    exec (.noticeRetransmit src) s = .next (
      if o.notice = 1 ∧ 9 ≤ replyMailbox s src ∧ replyMailbox s src ≤ 13 ∧ nth s.keeper.sessEnable (replyMailbox s src - 9) = true
          ∧ ∀ q ∈ outgoing (getMailbox s (replyMailbox s src)), q.completion ≠ some o.number
      then sendCompletion s o else s) := by
  refine (clocked_of_clocked runs).trans (congrArg _ ?_)
  dsimp only
  rw [h]
  simp [and_assoc]

end Notice

end Sys2Proof.Machine
end

section
namespace Sys2Proof.Machine

/-! ## DELIVERED (R339) -/

/-- An order whose acknowledgement is among those delivered. -/
def delivered (acks : List (BitVec 64)) (o : Order) : Order := if o.number ∈ acks then { o with notice := 3 } else o

theorem delivered_number (acks : List (BitVec 64)) (o : Order) : (delivered acks o).number = o.number := by
  unfold delivered
  split <;> rfl

theorem ended_delivered (acks : List (BitVec 64)) (o : Order) : ended (delivered acks o) = ended o := by
  unfold delivered
  split <;> rfl

theorem delivered_nil : delivered [] = id := by
  funext o
  simp [delivered]

theorem delivered_cons (a : BitVec 64) (acks : List (BitVec 64)) (o : Order) :
    delivered acks (if o.number == a then { o with notice := 3 } else o) = delivered (a :: acks) o := by
  unfold delivered
  by_cases first : o.number = a
  · simp [first]
  · simp [first]

/-- One acknowledgement after the other marks all of their orders and touches nothing else. -/
theorem foldl_setNotice (acks : List (BitVec 64)) (s : State) :
    acks.foldl (fun s a => setOrder s a (fun o => { o with notice := 3 })) s
      = setKeeper s (fun k => { k with orders := k.orders.map (delivered acks) }) := by
  induction acks generalizing s with
  | nil => simp [delivered_nil, setKeeper]
  | cons a acks ih =>
    rw [List.foldl_cons, ih]
    simp only [setOrder, setKeeper, List.map_map]
    congr 3
    exact funext (delivered_cons a acks)

/-- The DELIVERED record of the acknowledgements that wait. -/
def deliveredRecord (s : State) : JRecord where
  kind := 8
  run := 0xFF
  lsn := s.journal.nextLsn
  order := 0
  stamp := (stamp s).2
  source := dieSource s
  body := natLe 4 s.journal.pendingAcks.length ++ natLe 4 0 ++ s.journal.pendingAcks.flatMap (fun a => natLe 8 a.toNat)
  copies := journalTargets s
  pos := s.journal.nextPos

theorem field_deliveredRecord (s : State) : field (deliveredRecord s).body 0 4 = s.journal.pendingAcks.length % 2 ^ 32 := by
  rw [deliveredRecord, List.append_assoc]
  exact field_append_natLe [] _ 4 _ rfl

section Deliver
variable {s : State}

theorem deliverAcks_none (h : s.journal.pendingAcks = []) : deliverAcks s = s := by simp [deliverAcks, h]

theorem deliverAcks_some (h : s.journal.pendingAcks ≠ []) : deliverAcks s =
    setKeeper (setJournal (appendRecord (stamp s).1 (stamp s).2 8 0xFF 0 (dieSource s) (deliveredRecord s).body)
      (fun j => { j with pendingAcks := [] })) (fun k => { k with orders := k.orders.map (delivered s.journal.pendingAcks) }) := by
  rw [← foldl_setNotice]
  simp [deliverAcks, h]
  rfl

@[simp] theorem deliverAcks_pendingAcks : (deliverAcks s).journal.pendingAcks = [] := by
  by_cases h : s.journal.pendingAcks = []
  · rw [deliverAcks_none h, h]
  · rw [deliverAcks_some h]
    rfl

theorem deliverAcks_orders : (deliverAcks s).keeper.orders = s.keeper.orders.map (delivered s.journal.pendingAcks) := by
  by_cases h : s.journal.pendingAcks = []
  · rw [deliverAcks_none h, h, delivered_nil, List.map_id]
  · rw [deliverAcks_some h]
    rfl

theorem deliverAcks_records (h : s.journal.pendingAcks ≠ []) :
    (deliverAcks s).journal.records = s.journal.records ++ [deliveredRecord s] := by
  rw [deliverAcks_some h]
  rfl

theorem deliverAcks_sinceCheckpoint (h : s.journal.pendingAcks ≠ []) :
    (deliverAcks s).journal.sinceCheckpoint = s.journal.sinceCheckpoint + 1 := by
  rw [deliverAcks_some h]
  rfl

theorem deliverAcks_wall : (deliverAcks s).wall = s.wall := by
  obtain ⟨⟨_, _, _, e⟩, -⟩ := deliverAcks_journaled (journaled_refl s)
  rw [e]

/-- Every order that a DELIVERED record names is marked. -/
theorem notice_deliverAcks {o : Order} (h : o ∈ (deliverAcks s).keeper.orders) (acked : o.number ∈ s.journal.pendingAcks) : o.notice = 3 := by
  rw [deliverAcks_orders] at h
  obtain ⟨x, -, rfl⟩ := List.mem_map.mp h
  rw [delivered_number] at acked
  rw [delivered, if_pos acked]

theorem mem_deliverAcks_of_unacked {o : Order} (h : o ∈ s.keeper.orders) (unacked : o.number ∉ s.journal.pendingAcks) :
    o ∈ (deliverAcks s).keeper.orders := by
  rw [deliverAcks_orders]
  exact List.mem_map.mpr ⟨o, h, if_neg unacked⟩

end Deliver

/-! ## Records in ascending order (R338) -/

/-- A record of the next lsn keeps the journal ascending. -/
theorem JournalAscending.append {s t : State} {x : JRecord} (h : JournalAscending s) (lsn : x.lsn = s.journal.nextLsn)
    (records : t.journal.records = s.journal.records ++ [x]) (next : t.journal.nextLsn = s.journal.nextLsn + 1) : JournalAscending t := by
  obtain ⟨sorted, below⟩ := h
  rw [JournalAscending, records, next]
  refine ⟨List.pairwise_append.mpr ⟨sorted, List.pairwise_singleton _ _, fun a ha b hb => ?_⟩, fun r hr => ?_⟩
  · rw [List.mem_singleton.mp hb, lsn]
    exact below a ha
  · rcases List.mem_append.mp hr with old | new
    · exact Nat.lt_succ_of_lt (below r old)
    · rw [List.mem_singleton.mp new, lsn]
      exact Nat.lt_succ_self _

theorem JournalAscending.deliverAcks {s : State} (h : JournalAscending s) : JournalAscending (deliverAcks s) := by
  by_cases none_wait : s.journal.pendingAcks = []
  · rwa [deliverAcks_none none_wait]
  · refine h.append (x := deliveredRecord s) rfl (deliverAcks_records none_wait) ?_
    rw [deliverAcks_some none_wait]
    rfl

/-! ## CHECKPOINT (R339) -/

/-- The lsn of the first record that is needed, or the next where none is. -/
def neededHead (s : State) : Nat := match s.journal.records.find? (recordNeeded s) with | some r => r.lsn | none => s.journal.nextLsn

section Needed
variable {s : State}

theorem neededHead_le_next (h : JournalAscending s) : neededHead s ≤ s.journal.nextLsn := by
  unfold neededHead
  split
  · next r found => exact Nat.le_of_lt (h.2 r (List.mem_of_find?_eq_some found))
  · exact Nat.le_refl _

/-- No needed record stands below the head. -/
theorem neededHead_le {r : JRecord} (h : JournalAscending s) (there : r ∈ s.journal.records) (needed : recordNeeded s r = true) :
    neededHead s ≤ r.lsn := by
  unfold neededHead
  split
  · next first found =>
    obtain ⟨-, before, after, cut, unneeded⟩ := List.find?_eq_some_iff_append.mp found
    obtain ⟨sorted, -⟩ := h
    rw [cut] at there sorted
    rcases List.mem_append.mp there with earlier | later
    · exact absurd needed (by simpa using unneeded r earlier)
    · rcases List.mem_cons.mp later with rfl | later
      · exact Nat.le_refl _
      · exact Nat.le_of_lt ((List.pairwise_cons.mp (List.pairwise_append.mp sorted).2.1).1 r later)
  · next none_needed => exact absurd needed (List.find?_eq_none.mp none_needed r there)

end Needed

/-- The CHECKPOINT record of a state in which no acknowledgement waits. -/
def checkpointRecord (s : State) : JRecord where
  kind := 9
  run := 0xFF
  lsn := s.journal.nextLsn
  order := 0
  stamp := (stamp s).2
  source := dieSource s
  body := natLe 8 (neededHead s) ++ natLe 4 s.keeper.sources.length ++ natLe 4 0
    ++ s.keeper.sources.flatMap (fun e => natLe 4 e.source.toNat ++ natLe 4 0 ++ natLe 8 e.last)
  copies := journalTargets s
  pos := s.journal.nextPos

theorem field_checkpointRecord (s : State) : field (checkpointRecord s).body 0 8 = neededHead s % 2 ^ 64 := by
  simp only [checkpointRecord, List.append_assoc]
  exact field_append_natLe [] _ 8 _ rfl

section Checkpoint
variable {s : State}

theorem checkpoint_head : (checkpoint s).journal.head = neededHead (deliverAcks s) := rfl

theorem checkpoint_records : (checkpoint s).journal.records
    = ((deliverAcks s).journal.records ++ [checkpointRecord (deliverAcks s)]).filter (fun r => neededHead (deliverAcks s) ≤ r.lsn) := rfl

theorem checkpoint_sinceCheckpoint : (checkpoint s).journal.sinceCheckpoint = 0 := rfl

theorem checkpoint_pendingAcks : (checkpoint s).journal.pendingAcks = [] := deliverAcks_pendingAcks

theorem checkpoint_checkpointAt : (checkpoint s).journal.checkpointAt = s.wall := deliverAcks_wall

/-- A CHECKPOINT forgets orders and changes none. -/
theorem checkpoint_orders_subset : (checkpoint s).keeper.orders ⊆ (deliverAcks s).keeper.orders := List.filter_subset_self _

theorem mem_checkpoint_of_live {o : Order} (h : o ∈ (deliverAcks s).keeper.orders) (live : ended o = false) :
    o ∈ (checkpoint s).keeper.orders :=
  List.mem_filter.mpr ⟨h, by simp [live]⟩

/-- An order that has not ended stays. -/
theorem exists_checkpoint_order {o : Order} (h : o ∈ s.keeper.orders) (live : ended o = false) :
    ∃ o' ∈ (checkpoint s).keeper.orders, o'.number = o.number := by
  refine ⟨delivered s.journal.pendingAcks o, mem_checkpoint_of_live ?_ ((ended_delivered _ o).trans live), delivered_number _ o⟩
  rw [deliverAcks_orders]
  exact List.mem_map_of_mem h

theorem head_le_of_checkpoint {r : JRecord} (h : r ∈ (checkpoint s).journal.records) : (checkpoint s).journal.head ≤ r.lsn := by
  rw [checkpoint_records] at h
  exact of_decide_eq_true (List.mem_filter.mp h).2

theorem checkpoint_ascending (h : JournalAscending s) : JournalAscending (checkpoint s) := by
  obtain ⟨sorted, below⟩ := h.deliverAcks.append (x := checkpointRecord (deliverAcks s)) rfl
    (t := appendRecord (stamp (deliverAcks s)).1 (stamp (deliverAcks s)).2 9 0xFF 0 (dieSource (deliverAcks s))
      (checkpointRecord (deliverAcks s)).body) rfl rfl
  exact ⟨sorted.filter _, fun r hr => below r (List.mem_filter.mp hr).1⟩

/-- The record of the CHECKPOINT stands last. -/
theorem checkpoint_getLast? (h : JournalAscending s) : (checkpoint s).journal.records.getLast? = some (checkpointRecord (deliverAcks s)) := by
  have kept : neededHead (deliverAcks s) ≤ (checkpointRecord (deliverAcks s)).lsn := neededHead_le_next h.deliverAcks
  rw [checkpoint_records, List.filter_append]
  simp [kept]

/-- What is needed stays (R339). -/
theorem mem_checkpoint_of_needed {r : JRecord} (h : JournalAscending s) (none_wait : s.journal.pendingAcks = [])
    (there : r ∈ s.journal.records) (needed : recordNeeded s r = true) : r ∈ (checkpoint s).journal.records := by
  rw [checkpoint_records, deliverAcks_none none_wait]
  exact List.mem_filter.mpr ⟨List.mem_append_left _ there, by simpa using neededHead_le h there needed⟩

end Checkpoint

end Sys2Proof.Machine
end

section
namespace Sys2Proof.Machine

/-! ## What the journal keeps of the acknowledgements (R333, R339) -/

section Batch
variable {s : State}

theorem writeDelivered_none (h : s.journal.pendingAcks = []) : writeDelivered s = s := by simp [writeDelivered, h]

/-- The batch is one record where no CHECKPOINT is due after it. -/
theorem writeDelivered_few (h : s.journal.pendingAcks ≠ []) (few : s.journal.sinceCheckpoint < 4095) :
    writeDelivered s = deliverAcks s := by
  have fits : (deliverAcks s).journal.sinceCheckpoint < 4096 := by
    rw [deliverAcks_sinceCheckpoint h]
    omega
  simp [writeDelivered, checkpointDue, h, fits]

/-- The 4,096th record brings the CHECKPOINT. -/
theorem writeDelivered_due (h : s.journal.pendingAcks ≠ []) (due : 4095 ≤ s.journal.sinceCheckpoint) :
    writeDelivered s = checkpoint (deliverAcks s) := by
  have full : ¬ (deliverAcks s).journal.sinceCheckpoint < 4096 := by
    rw [deliverAcks_sinceCheckpoint h]
    omega
  simp [writeDelivered, checkpointDue, h, full]

theorem writeDelivered_pendingAcks : (writeDelivered s).journal.pendingAcks = [] := by
  by_cases h : s.journal.pendingAcks = []
  · rw [writeDelivered_none h, h]
  · rcases Nat.lt_or_ge s.journal.sinceCheckpoint 4095 with few | due
    · rw [writeDelivered_few h few, deliverAcks_pendingAcks]
    · rw [writeDelivered_due h due, checkpoint_pendingAcks]

/-- No order that is left after a batch was missed by it. -/
theorem notice_writeDelivered {o : Order} (h : o ∈ (writeDelivered s).keeper.orders) (acked : o.number ∈ s.journal.pendingAcks) :
    o.notice = 3 := by
  have some_wait : s.journal.pendingAcks ≠ [] := List.ne_nil_of_mem acked
  rcases Nat.lt_or_ge s.journal.sinceCheckpoint 4095 with few | due
  · rw [writeDelivered_few some_wait few] at h
    exact notice_deliverAcks h acked
  · rw [writeDelivered_due some_wait due] at h
    have left := checkpoint_orders_subset h
    rw [deliverAcks_none deliverAcks_pendingAcks] at left
    exact notice_deliverAcks left acked

end Batch

/-! ## NOTICE_ACK (R333, R511) -/

/-- An acknowledgement that has been taken: it waits, and the source's entry dates from now (R330). -/
def ackTaken (s : State) (number : BitVec 64) : State :=
  setKeeper (setJournal (setOrder s number (fun o => { o with notice := 2 })) (fun j =>
      { j with firstAckAt := if j.pendingAcks.isEmpty then s.wall else j.firstAckAt, pendingAcks := j.pendingAcks ++ [number] }))
    (fun k => { k with sources := k.sources.map (fun e => if e.source == orderSource number then { e with ackedAt := s.wall } else e) })

section Ack
variable {s : State} {number : BitVec 64} {o : Order}

@[simp] theorem ackTaken_pendingAcks : (ackTaken s number).journal.pendingAcks = s.journal.pendingAcks ++ [number] := rfl

/-- The acknowledgement that fills a batch brings it. -/
theorem ackNotice_full (h : findOrder s number = some o) (sent : o.notice = 1) (waiting : s.journal.pendingAcks.length = 255) :
    ackNotice s number = writeDelivered (ackTaken s number) := by
  have full : ¬ (ackTaken s number).journal.pendingAcks.length < 256 := by simp [waiting]
  have taken : ackNotice s number
      = if (ackTaken s number).journal.pendingAcks.length < 256 then ackTaken s number else writeDelivered (ackTaken s number) := by
    unfold ackNotice
    rw [h]
    exact if_neg (by simp [sent])
  exact taken.trans (if_neg full)

/-- The 256 acknowledgements stand in one record (R339). -/
theorem ackNotice_records (h : findOrder s number = some o) (sent : o.notice = 1) (waiting : s.journal.pendingAcks.length = 255)
    (few : s.journal.sinceCheckpoint < 4095) :
    (ackNotice s number).journal.records = s.journal.records ++ [deliveredRecord (ackTaken s number)] := by
  have some_wait : (ackTaken s number).journal.pendingAcks ≠ [] := by simp
  rw [ackNotice_full h sent waiting, writeDelivered_few some_wait few, deliverAcks_records some_wait]
  rfl

end Ack

/-- Settles O47: a notice by what is in turn for its source, DELIVERED by whether a CHECKPOINT falls due with it, and the CHECKPOINT by
the head that it names. -/
theorem completions : Obligations.Completions := by
  intro s w runs
  dsimp only
  refine ⟨fun src => ⟨fun none_left => ⟨exec_completionNoticeSend_none runs none_left, exec_noticeRetransmit_none runs none_left⟩,
      fun o first => ?_⟩, fun none_wait => ?_, fun some_wait => ?_, fun n t p o heard found sent waiting few => ?_, fun unscanned => ?_,
    fun scanned ascending => ?_⟩
  · obtain ⟨-, own⟩ := mem_of_firstUnacked first
    refine ⟨fun done unsent free => ⟨_, exec_completionNoticeSend_some runs first, ?_⟩, fun other => ?_,
      fun sent udp udp' enabled gone => ⟨_, exec_noticeRetransmit_some runs first, ?_⟩, fun other => ?_⟩
    · rw [if_pos ⟨done, unsent, free⟩]
      exact sendCompletion_queued w own
    · rw [exec_completionNoticeSend_some runs first, if_neg]
      rintro ⟨done, unsent, free⟩
      simp [done, unsent, free] at other
    · rw [if_pos ⟨sent, udp, udp', enabled, gone⟩]
      exact sendCompletion_queued w own
    · rw [exec_noticeRetransmit_some runs first, if_neg]
      rintro ⟨sent, udp, udp', enabled, gone⟩
      rcases other with unsent | low | high | disabled | ⟨q, there, named⟩
      · exact unsent sent
      · omega
      · omega
      · rw [enabled] at disabled; cases disabled
      · exact gone q there named
  · exact (clocked_of_clocked runs).trans (congrArg _ (writeDelivered_none none_wait))
  · obtain ⟨⟨_, _, _, books⟩, -⟩ := writeDelivered_journaled (s := s)
    refine ⟨writeDelivered s, clocked_of_clocked runs, writeDelivered_pendingAcks, by rw [books], by rw [books],
      fun o => notice_writeDelivered, fun few => ?_, fun due ascending => ?_⟩
    · rw [writeDelivered_few some_wait few]
      exact ⟨fun o there unacked => mem_deliverAcks_of_unacked there unacked, deliveredRecord s, deliverAcks_records some_wait, rfl, rfl,
        field_deliveredRecord s⟩
    · rw [writeDelivered_due some_wait due]
      exact ⟨checkpoint_sinceCheckpoint, _, checkpoint_getLast? ascending.deliverAcks, rfl⟩
  · refine ⟨_, heard.clocked_onRequest _, ?_, _, ackNotice_records found sent waiting few, rfl, ?_⟩
    · rw [ackNotice_full found sent waiting]
      exact writeDelivered_pendingAcks
    · rw [field_deliveredRecord]
      simp [waiting]
  · refine (clocked_of_clocked runs).trans (congrArg _ (if_pos ?_))
    simp [unscanned]
  · refine ⟨checkpoint s, (clocked_of_clocked runs).trans (congrArg _ (if_neg (by simp [scanned]))), checkpoint_pendingAcks,
      checkpoint_ascending ascending, checkpoint_sinceCheckpoint, checkpoint_checkpointAt,
      ⟨_, checkpoint_getLast? ascending, rfl, field_checkpointRecord _⟩, fun r => head_le_of_checkpoint,
      fun o there live => exists_checkpoint_order there live,
      fun none_wait r there needed => mem_checkpoint_of_needed ascending none_wait there needed⟩

end Sys2Proof.Machine
end

section
namespace Sys2Proof.Machine

/-! ## A request that comes as one message (Table 10.6, R307, R313 to R315) -/

/-- A value of 4 bytes counted as 0. -/
theorem zeroField_natLe {pre post : Bytes} {off : Nat} (start : pre.length = off) (v : Nat) :
    zeroField (pre ++ (natLe 4 v ++ post)) off 4 = pre ++ (natLe 4 0 ++ post) := by
  subst start
  simp [zeroField, natLe, List.drop_append]

/-- Bytes pass the check of a message that hold, at 24, the CRC-32C which they have while that field counts as 0. -/
theorem msgCrcOk_overlay {m pre post : Bytes} (start : pre.length = 24) (parts : m = pre ++ (natLe 4 0 ++ post)) :
    msgCrcOk (overlay m 24 (natLe 4 (crc32c m).toNat)) = true := by
  have coded : overlay m 24 (natLe 4 (crc32c m).toNat) = pre ++ (natLe 4 (crc32c m).toNat ++ post) :=
    parts ▸ overlay_middle start (by simp)
  have zeroed : zeroField (pre ++ (natLe 4 (crc32c m).toNat ++ post)) 24 4 = m := (zeroField_natLe start _).trans parts.symm
  have read : field (pre ++ (natLe 4 (crc32c m).toNat ++ post)) 24 4 = (crc32c m).toNat :=
    (field_append_natLe pre post 4 _ start).trans (Nat.mod_eq_of_lt (crc32c m).isLt)
  rw [coded, msgCrcOk, zeroed, read, beq_self_eq_true]

theorem msgCrcOk_messageBytes {type status : BitVec 16} {tag : BitVec 32} {src : BitVec 22} {frag time : Nat} {last : Bool} {body : Bytes}
    (short : body.length ≤ 224) : msgCrcOk (messageBytes type tag src status frag last time body) = true := by
  refine msgCrcOk_overlay (pre := messageHead type tag src status frag last time body.length)
    (post := natLe 4 0 ++ body ++ List.replicate (224 - body.length) 0) (messageHead_length _) ?_
  rw [padTo, List.take_of_length_le (by simp; omega)]
  simp [messageHead]
  omega

/-- The request that a message of one fragment makes. -/
def singleRequest (n : Nat) (src : BitVec 22) (m : Bytes) : Pending where
  mailbox := n
  type := BitVec.ofNat 16 (msgType m)
  tag := msgTag m
  source := src
  body := (m.drop 32).take (msgLength m)

section Single
variable {s : State} {n : Nat} {m : Bytes}

/-- The Keeper takes a message of a known type on a mailbox of the die. -/
theorem takeMessage_eq_takeFragment (here : (getMailbox s n).inbound = m) (full : (getMailbox s n).inFull = true)
    (started : s.keeper.state ≠ .rom) (lasting : s.life.change = none) (room : (getMailbox s n).queue.length < 64) (own : n < 14)
    (good : msgCrcOk m = true) (fits : msgLength m ≤ 224) (known : knownRequest (msgType m) = true) :
    takeMessage s n = takeFragment (pullArrived (setMailbox s n (fun b => { b with inFull := false })) n) n m (requestSource s n m) := by
  simp [takeMessage, here, full, started, lasting, Nat.not_le.mpr room, Nat.not_le.mpr own, good, Nat.not_lt.mpr fits, known]

/-- A fragment that is the first and the last of its request. -/
theorem takeFragment_single {src : BitVec 22} (none_begun : (getMailbox s n).assembly = none) (first : msgIndex m = 0) (last : msgLast m = true)
    (fits : msgLength m ≤ 224) : takeFragment s n m src =
      checkRequest (setMailbox s n (fun b => { b with assembly := none })) (singleRequest n src m) (headerReserved m) := by
  have short : ¬ 73728 < min (msgLength m) (m.length - 32) := by omega
  simp [takeFragment, singleRequest, none_begun, first, last, short]

/-- A request that passes every check. -/
theorem checkRequest_passed {p : Pending} {bad : Bool} (long : bodyLengthOk s p.type.toNat p.body = true) (clean : bad = false)
    (free : bodyReserved p.type.toNat p.body = false) (allowed : allowedOn p.type.toNat p.mailbox p.source p.body = true)
    (new : (getMailbox s p.mailbox).lastTag ≠ some p.tag) (served : stateRefusal s p.type.toNat p.mailbox = 0) :
    checkRequest s p bad = .request s p := by
  simp [checkRequest, long, clean, free, allowed, new, served]

end Single

end Sys2Proof.Machine
end

section
namespace Sys2Proof.Machine

/-! ## An unload whose IMAGE record a CHECKPOINT drops (R321, R339)

As with the load of `not_imageLoading`, the statement's `LinksIdle` speaks of the links that the run holds, while the end of the run
(`closeLanding`) sends RING_CLOSE for its open landing rings on every link that its image names. `Whole` lets another run hold such a
link, with the last frame of a CSEND's unit waiting on it: the commit of that unit writes a record of its own, and the IMAGE record
is then the one that a CHECKPOINT follows. -/

/-- IMAGE_UNLOAD of a run without an open order. -/
theorem exec_imageUnload_released {s t : State} {n : Fin 16} {p : Pending} {r : Nat} {rn : Run} (h : Heard s n 0x0012 t p)
    (named : namedRun t p = some (r, rn)) (closed : openOrders t r = []) :
    exec (.imageUnload n) s = .next (reply (imageRecord (releaseRun t r) r 2 rn.slot rn.image.imageId p.source) p 0 []) := by
  refine (h.clocked_onRequest _).trans (congrArg _ ?_)
  simp [named, closed]

theorem reply_journal (s : State) (p : Pending) (status : BitVec 16) (body : Bytes) : (reply s p status body).journal = s.journal := rfl

/-- A run whose image, of number 0, names link 0, with its landing ring there open. -/
def leaver : Run :=
  { (default : Run) with
    image := { (default : Image) with rings := [{ (default : RingDecl) with producerKind := 3 }] }
    ready := true, rings := [{ (default : Ring) with opened := true }] }

/-- IMAGE_UNLOAD of run 0 with image 0, on mailbox 0. -/
def farewell : Pending := { mailbox := 0, type := 0x0012, tag := 0, source := 9, body := List.replicate 16 0 }

/-- Its message. -/
def farewellMessage : Bytes := messageBytes farewell.type farewell.tag 0 0 0 true 0 farewell.body

/-- The die of `contested` with that run in place of the one that is loaded, its Keeper ready, and the message in the inbound slot of
mailbox 0: `occupant` holds link 0, where the last frame of its unit waits, and 4,094 records have been written since the last
CHECKPOINT. -/
def parting : State :=
  setMailbox { contested with runs := some leaver :: some occupant :: List.replicate 6 none, keeper := { Keeper.reset with state := .ready } } 0
    (fun b => { b with inbound := farewellMessage, inFull := true })

/-- The Keeper has read the slot. -/
def partingRead : State := setMailbox parting 0 (fun b => { b with inFull := false })

/-- The Keeper has taken the request. -/
def partingHeard : State := setMailbox partingRead 0 (fun b => { b with assembly := none })

theorem parting_whole : Whole parting := by
  unfold Whole
  decide +kernel

theorem farewellMessage_length : msgLength farewellMessage ≤ 224 := by decide +kernel

theorem farewellMessage_request : singleRequest 0 9 farewellMessage = farewell := by decide +kernel

theorem parting_takeMessage : takeMessage parting 0 = takeFragment partingRead 0 farewellMessage 9 :=
  takeMessage_eq_takeFragment rfl rfl (by decide) rfl (by decide) (by decide) (msgCrcOk_messageBytes (by decide)) farewellMessage_length
    (by decide +kernel)

theorem partingRead_takeFragment :
    takeFragment partingRead 0 farewellMessage 9 = checkRequest partingHeard farewell (headerReserved farewellMessage) :=
  farewellMessage_request ▸ takeFragment_single rfl (by decide +kernel) (by decide +kernel) farewellMessage_length

theorem partingHeard_checkRequest : checkRequest partingHeard farewell (headerReserved farewellMessage) = .request partingHeard farewell :=
  checkRequest_passed rfl (by decide +kernel) rfl rfl nofun rfl

theorem parting_heard : Heard parting 0 0x0012 partingHeard farewell :=
  ⟨rfl, parting_takeMessage.trans (partingRead_takeFragment.trans partingHeard_checkRequest), rfl⟩

theorem partingHeard_namedRun : namedRun partingHeard farewell = some (0, leaver) := by decide +kernel

theorem partingHeard_linksIdle : LinksIdle partingHeard 0 := by
  unfold LinksIdle
  decide +kernel

/-- The commit of the occupant's unit is record 4,095, the IMAGE record 4,096. That of an unload is not needed any more (R339), and the
CHECKPOINT (kind 9) that follows leaves itself alone. -/
theorem partingHeard_released :
    (imageRecord (releaseRun partingHeard 0) 0 2 leaver.slot leaver.image.imageId farewell.source).journal.records.map JRecord.kind = [9] := by decide +kernel

/-- Refutes O43: a run lets go of its ports over every link that its image names, and `LinksIdle` says nothing of one that another run
holds. There the frame that waits commits a unit, so that fewer than 4,095 records before the unload do not keep a CHECKPOINT from
following the IMAGE record, which is not in the journal when the reply is sent. -/
theorem not_unloading : ¬ Obligations.Unloading := by
  intro h
  obtain ⟨-, unloads, -⟩ := h parting 0 partingHeard farewell parting_whole
  obtain ⟨-, released⟩ := unloads 0 leaver parting_heard partingHeard_namedRun
  obtain ⟨u, hu, -, -, ⟨x, hx, image, -⟩, -⟩ := released rfl partingHeard_linksIdle (by decide +kernel)
  cases (exec_imageUnload_released parting_heard partingHeard_namedRun rfl).symm.trans hu
  have kinds := List.mem_map_of_mem (f := JRecord.kind) hx
  rw [reply_journal, partingHeard_released, image] at kinds
  exact absurd kinds (by decide)

end Sys2Proof.Machine
end

section
namespace Sys2Proof.Machine

/-! ## The reset state (Tables 3.4, 12.13, 13.8, 13.9; R13, R16, R18, R300) -/

/-- The die after reset has every part, and its memories hold what an unlisted byte reads as. -/
theorem reset_sound : Sound State.reset := by
  refine ⟨⟨rfl, rfl, rfl⟩, List.length_replicate, fun b hb => ?_, List.length_replicate, List.length_replicate,
    List.length_map _, List.length_replicate, List.length_replicate, List.length_replicate, List.length_replicate, Nat.zero_le _⟩
  rw [List.eq_of_mem_replicate hb]
  exact List.length_replicate

/-- Settles O6: each stated value is read off the part in question. -/
theorem soundAfterReset : Obligations.SoundAfterReset := by
  have boxes : ∀ n < 16, getMailbox State.reset n = Mailbox.reset := by decide +kernel
  have runs : ∀ r, getRun State.reset r = none := fun r => by
    rw [getRun, show State.reset.runs = List.replicate 8 none from rfl, List.getElem?_replicate]
    split <;> rfl
  have frames : ∀ f < 8, (getFrame State.reset f).ungated = true ∧ (getFrame State.reset f).patrolMs = 10 := by decide +kernel
  have workers : ∀ i < 68, (getWorker State.reset i).serves = if i < 64 then some i else none := by decide +kernel
  have links : ∀ n < 24, (getLink State.reset n).cfg = 0x00400400#32 := by decide +kernel
  exact ⟨reset_sound, rfl, rfl, rfl, boxes, runs, frames, workers, rfl, rfl, rfl, links, rfl⟩

end Sys2Proof.Machine
end

section
namespace Sys2Proof.Machine

/-! ## The state in which a request has been taken -/

section Taken
variable {s t : State} {n : Fin 16} {ty : BitVec 16} {p : Pending}

/-- A request that has been taken leaves every part but its mailbox as it was. -/
theorem Heard.only (h : Heard s n ty t p) : OnlyMailbox s t n := by
  obtain ⟨-, taken, -⟩ := h
  exact (takeMessage_request taken).1

theorem Heard.mailbox_eq (h : Heard s n ty t p) : p.mailbox = n := by
  obtain ⟨-, taken, -⟩ := h
  exact (takeMessage_request taken).2.1

/-- What is read of a part other than the mailboxes is read of the state before. -/
theorem Heard.read_eq (h : Heard s n ty t p) {α : Type} (f : State → α) (hf : ∀ boxes, f { s with mailboxes := boxes } = f s) : f t = f s := by
  rw [onlyMailbox_fields h.only]
  exact hf _

/-- A row that answers its request and does nothing else. -/
theorem Heard.gives_reply (h : Heard s n ty t p) {c : Instr} {act : State → Pending → State} {status : BitVec 16} {body : Bytes}
    (row : exec c s = clocked s (onRequest s n (isType ty) act)) (answers : act t p = reply t p status body) :
    Gives c s (fun u => OnlyAnswers t u p status body) :=
  ⟨_, row.trans (h.clocked_onRequest act), answers ▸ reply_onlyAnswers t p status body h.mailbox_lt⟩

/-- A row that rejects its request. -/
theorem Heard.gives_reject (h : Heard s n ty t p) {c : Instr} {act : State → Pending → State} {code : BitVec 16}
    (row : exec c s = clocked s (onRequest s n (isType ty) act)) (replied : ty ≠ 0x0022) (rejects : act t p = reject t p code) :
    Gives c s (fun u => OnlyAnswers t u p code []) :=
  ⟨_, row.trans (h.clocked_onRequest act), rejects ▸ h.onlyAnswers_reject replied code⟩

end Taken

/-! ## The status requests (Tables 10.8 and 14.7, R373, R412, R448, R473) -/

section Status
variable {s t : State} {n : Fin 16} {p : Pending}

/-- The die's own source number in a message: its identifier with source 0 (R304). -/
theorem dieSource_toNat (s : State) : (dieSource s).toNat = 64 * s.life.dieId.toNat := by
  have := s.life.dieId.isLt
  simp [dieSource]
  omega

theorem status_body (h : Heard s n 0x0001 t p) : Gives (.status n) s (fun u => OnlyAnswers t u p 0 (statusBody s)) :=
  h.gives_reply rfl (congrArg _ (h.read_eq statusBody fun _ => rfl))

theorem portStatus_partner (h : Heard s n 0x0100 t p) {i : Nat} (kind : field p.body 0 1 = 0) (port : field p.body 1 1 = i) (low : i < 8) :
    Gives (.portStatus n) s (fun u => OnlyAnswers t u p 0 (natLe 1 0 ++ natLe 1 i ++ natLe 6 0 ++ wordBytes (partnerWords (getPartner s i)))) := by
  refine h.gives_reply rfl ?_
  rw [← h.read_eq (fun s => getPartner s i) fun _ => rfl]
  simp [kind, port, low]

theorem portStatus_mem (h : Heard s n 0x0100 t p) {i : Nat} (kind : field p.body 0 1 = 1) (port : field p.body 1 1 = i) (low : i < 4) :
    Gives (.portStatus n) s (fun u => OnlyAnswers t u p 0 (natLe 1 1 ++ natLe 1 i ++ natLe 6 0 ++ wordBytes (memWords (getMemPort s i)))) := by
  refine h.gives_reply rfl ?_
  rw [← h.read_eq (fun s => getMemPort s i) fun _ => rfl]
  simp [kind, port, low]

theorem portStatus_none (h : Heard s n 0x0100 t p) {i : Nat} (port : field p.body 1 1 = i)
    (bad : 1 < field p.body 0 1 ∨ (field p.body 0 1 = 0 ∧ 8 ≤ i) ∨ (field p.body 0 1 = 1 ∧ 4 ≤ i)) :
    Gives (.portStatus n) s (fun u => OnlyAnswers t u p 0x0420 []) := by
  refine h.gives_reject rfl (by decide) ?_
  have partner : ¬ (field p.body 0 1 = 0 ∧ field p.body 1 1 < 8) := by omega
  have mem : ¬ (field p.body 0 1 = 1 ∧ field p.body 1 1 < 4) := by omega
  simp [partner, mem]

theorem linkStatus_link (h : Heard s n 0x0200 t p) (low : field p.body 0 1 < 24) : Gives (.linkStatus n) s (fun u => OnlyAnswers t u p 0
    (padTo 8 p.body ++ wordBytes (linkWords s (getLink s (field p.body 0 1))))) := by
  refine h.gives_reply rfl ?_
  rw [← h.read_eq (fun s => linkWords s (getLink s (field p.body 0 1))) fun _ => rfl]
  exact if_neg (by omega)

theorem linkStatus_none (h : Heard s n 0x0200 t p) (high : 24 ≤ field p.body 0 1) :
    Gives (.linkStatus n) s (fun u => OnlyAnswers t u p 0x0330 []) :=
  h.gives_reject rfl (by decide) (if_pos (by omega))

end Status

/-- Settles O18: each row answers with what it reads of the state before, from which the state in which its request has been taken
differs in the mailbox only. -/
theorem statusReplies : Obligations.StatusReplies := by
  intro s t n p
  refine ⟨fun h => ?_, fun h => ?_, fun h i port => ⟨fun kind low => portStatus_partner h kind port low,
    fun kind low => portStatus_mem h kind port low, portStatus_none h port⟩, fun h => ⟨linkStatus_link h, linkStatus_none h⟩,
    fun h => ?_, fun h => ?_⟩
  · rw [← dieSource_toNat]
    exact status_body h
  · rw [← h.read_eq faultWords fun _ => rfl, ← h.read_eq State.keeper fun _ => rfl]
    exact h.gives_reply rfl rfl
  · rw [← h.read_eq State.time fun _ => rfl]
    exact h.gives_reply rfl rfl
  · rw [← h.read_eq powerWords fun _ => rfl]
    exact h.gives_reply rfl rfl

end Sys2Proof.Machine
end

section
namespace Sys2Proof.Machine

/-! ## What a row meets at a mailbox (R302, R306, R307, R313 to R315) -/

/-- Whatever the Keeper makes of a message, nothing but the mailbox differs. -/
def Inbound.Only (s : State) (n : Nat) : Inbound → Prop
  | .nothing => True
  | .done t | .part t | .foreign t _ | .request t _ => OnlyMailbox s t n

theorem Inbound.Only.ite {s : State} {n : Nat} {c : Prop} [Decidable c] {a b : Inbound} (ha : a.Only s n) (hb : b.Only s n) :
    (if c then a else b).Only s n := by
  split
  · exact ha
  · exact hb

section Take
variable {s u : State} {n : Nat}

theorem reject_only (s : State) (p : Pending) (code : BitVec 16) : OnlyMailbox s (reject s p code) p.mailbox := by
  unfold reject
  split
  · exact onlyMailbox_refl s _
  · exact reply_only s p code []

theorem checkRequest_only (h : OnlyMailbox s u n) {p : Pending} (own : p.mailbox = n) (bad : Bool) : (checkRequest u p bad).Only s n := by
  subst own
  have rejected (code : BitVec 16) : OnlyMailbox s (reject u p code) p.mailbox := onlyMailbox_trans h (reject_only u p code)
  exact .ite (rejected _) (.ite (rejected _) (.ite (rejected _) (.ite (rejected _)
    (.ite (onlyMailbox_trans h (enqueue_only u _ _)) (.ite (rejected _) h)))))

theorem takeFragment_only (h : OnlyMailbox s u n) (m : Bytes) (src : BitVec 22) : (takeFragment u n m src).Only s n := by
  have cleared {v : State} (hv : OnlyMailbox s v n) : OnlyMailbox s (setMailbox v n (fun b => { b with assembly := none })) n :=
    onlyMailbox_trans hv (setMailbox_only v n _)
  have told {v : State} (hv : OnlyMailbox s v n) (ty : BitVec 16) (tag : BitVec 32) (src : BitVec 22) (code : BitVec 16) :
      OnlyMailbox s (rejectMessage v n ty tag src code) n := onlyMailbox_trans hv (rejectMessage_only v n ty tag src code)
  unfold takeFragment
  dsimp only
  split
  · next v found =>
    revert found
    split
    · split
      · nofun
      · split
        · nofun
        · intro found; cases found; exact told (cleared h) ..
    · split
      · nofun
      · intro found; cases found; exact told h ..
  · next v a found =>
    have hv : OnlyMailbox s v n := by
      revert found
      split
      · split
        · intro found; cases found; exact h
        · split
          · intro found; cases found; exact told (cleared h) ..
          · nofun
      · split
        · intro found; cases found; exact h
        · nofun
    exact .ite (told (cleared hv) ..) (.ite (checkRequest_only (cleared hv) rfl _) (onlyMailbox_trans hv (setMailbox_only v n _)))

theorem takeMessage_only (s : State) (n : Nat) : (takeMessage s n).Only s n := by
  have read : OnlyMailbox s (pullArrived (setMailbox s n (fun b => { b with inFull := false })) n) n :=
    onlyMailbox_trans (setMailbox_only s n _) (pullArrived_only _ n)
  have told (ty : BitVec 16) (tag : BitVec 32) (src : BitVec 22) (code : BitVec 16) :=
    onlyMailbox_trans read (rejectMessage_only _ n ty tag src code)
  exact .ite trivial (.ite (told ..) (.ite read (.ite (told ..) (.ite (told ..) (takeFragment_only read ..)))))

theorem takeMessage_done {t : State} (h : takeMessage s n = .done t) : OnlyMailbox s t n := by
  have := takeMessage_only s n
  rwa [h] at this

/-- With no message, in state rom and while 64 messages wait to leave, the Keeper takes nothing. -/
theorem takeMessage_nothing (h : (getMailbox s n).inFull = false ∨ s.keeper.state = .rom ∨ 64 ≤ (getMailbox s n).queue.length) :
    takeMessage s n = .nothing := by
  rcases h with h | h | h <;> simp [takeMessage, h]

end Take

/-- Every message row but MESSAGE_FRAGMENT and MAILBOX_REMOTE_REPLY acts in the frame of `onRequest`. -/
theorem exec_messageRow {c : Instr} {n : Fin 16} (h : rowMailbox c = some n) (s : State) :
    (∃ mine act, exec c s = clocked s (onRequest s n mine act)) ∨ c = .messageFragment n ∨ c = .mailboxRemoteReply n := by
  cases c
  case messageFragment m => cases h; exact .inr (.inl rfl)
  case mailboxRemoteReply m => cases h; exact .inr (.inr rfl)
  all_goals cases h
  all_goals exact .inl ⟨_, _, rfl⟩

/-- Settles O12: each row gives the state of a message that was dealt with as it is, and does nothing without a message. -/
theorem rejectionHasNoEffect : Obligations.RejectionHasNoEffect := by
  intro c n s row runs
  have idle : takeMessage s n = .nothing → exec c s = .next s := by
    intro none
    obtain ⟨mine, act, e⟩ | rfl | rfl := exec_messageRow row s
    · rw [e, clocked_of_clocked runs, onRequest, none]
    all_goals refine (clocked_of_clocked runs).trans ?_; rw [none]
  refine ⟨fun t done => ⟨?_, takeMessage_done done⟩, fun h => idle (takeMessage_nothing h)⟩
  obtain ⟨mine, act, e⟩ | rfl | rfl := exec_messageRow row s
  · rw [e, clocked_of_clocked runs, onRequest, done]
  all_goals refine (clocked_of_clocked runs).trans ?_; rw [done]

end Sys2Proof.Machine
end

section
namespace Sys2Proof.Machine

/-! ## Fragments (R313, R315) -/

/-- The assembly that a fragment with index 0 begins, before the fragment joins it. -/
def newAssembly (m : Bytes) (src : BitVec 22) : Assembly where
  type := BitVec.ofNat 16 (msgType m)
  tag := msgTag m
  next := 0
  body := []
  reserved := false
  source := src

/-- An assembly with one more fragment. -/
def Assembly.join (a : Assembly) (m : Bytes) : Assembly :=
  { a with next := a.next + 1, body := a.body ++ (m.drop 32).take (msgLength m), reserved := a.reserved || headerReserved m }

/-- Is a fragment the one that an assembly expects? -/
def Assembly.Expects (a : Assembly) (m : Bytes) (src : BitVec 22) : Prop :=
  msgIndex m = a.next ∧ BitVec.ofNat 16 (msgType m) = a.type ∧ msgTag m = a.tag ∧ src = a.source

/-- The mailbox without the request that was being assembled. -/
def dropAssembly (s : State) (n : Nat) : State := setMailbox s n (fun b => { b with assembly := none })

/-- A fragment joins an assembly. -/
def joinFragment (s : State) (n : Nat) (m : Bytes) (src : BitVec 22) (a : Assembly) : Inbound :=
  if 330 < (a.join m).next || 73728 < (a.join m).body.length then
    .done (rejectMessage (dropAssembly s n) n (BitVec.ofNat 16 (msgType m)) (msgTag m) src 0x0503)
  else if msgLast m then
    checkRequest (dropAssembly s n)
      { mailbox := n, type := BitVec.ofNat 16 (msgType m), tag := msgTag m, source := src, body := (a.join m).body } (a.join m).reserved
  else .part (setMailbox s n (fun b => { b with assembly := some (a.join m) }))

/-- The message that tells a rejection. -/
def rejection (s : State) (type : BitVec 16) (tag : BitVec 32) (src : BitVec 22) (code : BitVec 16) : OutMsg where
  bytes := messageBytes (type ||| 0x8000) tag src code 0 true (s.time.now / 65536) []
  completion := none

section Fragment
variable {s : State} {n : Nat} {m : Bytes} {src : BitVec 22} {a : Assembly}

theorem takeFragment_first (idle : (getMailbox s n).assembly = none) (first : msgIndex m = 0) :
    takeFragment s n m src = joinFragment s n m src (newAssembly m src) := by
  simp [takeFragment, joinFragment, idle, first, newAssembly, Assembly.join, dropAssembly]

theorem takeFragment_stray (idle : (getMailbox s n).assembly = none) (later : msgIndex m ≠ 0) :
    takeFragment s n m src = .done (rejectMessage s n (BitVec.ofNat 16 (msgType m)) (msgTag m) src 0x0503) := by
  simp [takeFragment, idle, later]

theorem takeFragment_expected (begun : (getMailbox s n).assembly = some a) (next : a.Expects m src) :
    takeFragment s n m src = joinFragment s n m src a := by
  obtain ⟨index, type, tag, source⟩ := next
  simp [takeFragment, joinFragment, begun, index, type, tag, source, Assembly.join, dropAssembly]

/-- An unexpected fragment discards the assembly; with index 0 it begins a new one. -/
theorem takeFragment_unexpected (begun : (getMailbox s n).assembly = some a) (other : ¬ a.Expects m src) :
    takeFragment s n m src =
      if msgIndex m = 0 then joinFragment (rejectMessage (dropAssembly s n) n a.type a.tag a.source 0x0503) n m src (newAssembly m src)
      else .done (rejectMessage (dropAssembly s n) n a.type a.tag a.source 0x0503) := by
  have miss : (msgIndex m == a.next && BitVec.ofNat 16 (msgType m) == a.type && msgTag m == a.tag && src == a.source) = false := by
    simpa [Assembly.Expects, and_assoc] using other
  unfold takeFragment
  simp only [begun, miss]
  by_cases first : msgIndex m = 0 <;> simp [first, joinFragment, newAssembly, Assembly.join, dropAssembly]

/-- A fragment within the limits that is not the last stays in the assembly. -/
theorem joinFragment_part (more : msgLast m = false) (count : a.next < 330) (size : a.body.length + msgLength m ≤ 73728) :
    joinFragment s n m src a = .part (setMailbox s n (fun b => { b with assembly := some (a.join m) })) := by
  have few : ¬ 330 < (a.join m).next := by simp [Assembly.join]; omega
  have short : ¬ 73728 < (a.join m).body.length := by simp [Assembly.join]; omega
  simp [joinFragment, few, short, more]

/-- NOTICE_ACK is rejected without a word (R511), any other message with one reply. -/
theorem rejectMessage_told (s : State) (n : Nat) (type : BitVec 16) (tag : BitVec 32) (src : BitVec 22) (code : BitVec 16) :
    rejectMessage s n type tag src code = if type = 0x0022 then s else enqueue s n [rejection s type tag src code] := by
  simp only [rejectMessage, beq_iff_eq]
  rfl

theorem outgoing_rejectMessage (inside : n < s.mailboxes.length) (type : BitVec 16) (tag : BitVec 32) (code : BitVec 16) :
    outgoing (getMailbox (rejectMessage s n type tag src code) n)
      = outgoing (getMailbox s n) ++ if type = 0x0022 then [] else [rejection s type tag src code] := by
  rw [rejectMessage_told]
  split
  · simp
  · exact outgoing_enqueue _ inside

/-- What a mailbox has to send is all that a rejection changes. -/
theorem rejectMessage_box (inside : n < s.mailboxes.length) (type : BitVec 16) (tag : BitVec 32) (code : BitVec 16) : ∃ queue unsent,
    getMailbox (rejectMessage s n type tag src code) n = { getMailbox s n with queue := queue, unsent := unsent } := by
  rw [rejectMessage_told]
  split
  · exact ⟨_, _, rfl⟩
  · exact ⟨_, _, getMailbox_setMailbox_same _ _ _ inside⟩

theorem rejectMessage_assembly (inside : n < s.mailboxes.length) (type : BitVec 16) (tag : BitVec 32) (code : BitVec 16) :
    (getMailbox (rejectMessage s n type tag src code) n).assembly = (getMailbox s n).assembly := by
  obtain ⟨_, _, e⟩ := rejectMessage_box (src := src) inside type tag code
  rw [e]

theorem rejectMessage_inFull (inside : n < s.mailboxes.length) (type : BitVec 16) (tag : BitVec 32) (code : BitVec 16) :
    (getMailbox (rejectMessage s n type tag src code) n).inFull = (getMailbox s n).inFull := by
  obtain ⟨_, _, e⟩ := rejectMessage_box (src := src) inside type tag code
  rw [e]

end Fragment

/-- The slot has been read (R306). -/
def slotRead (s : State) (n : Nat) : State := setMailbox s n (fun b => { b with inFull := false })

section Slot
variable {s : State} {n : Fin 16}

theorem Takes.inside (h : Takes s n) : n.val < s.mailboxes.length := by
  obtain ⟨-, full, -⟩ := h
  exact getMailbox_length s n full

/-- On a transport of this die no message waits behind the slot. -/
theorem pullArrived_slotRead (inside : n.val < s.mailboxes.length) (alone : (getMailbox s n).arrived = []) :
    pullArrived (slotRead s n) n = slotRead s n := by
  have alone' : (getMailbox (slotRead s n) n).arrived = [] := by rw [slotRead, getMailbox_setMailbox_same _ _ _ inside]; exact alone
  simp [pullArrived, alone']

theorem Takes.takeMessage_known (h : Takes s n) (own : n.val ≤ 13) {m : Bytes} (here : (getMailbox s n).inbound = m)
    (alone : (getMailbox s n).arrived = []) (good : msgCrcOk m = true) (fits : msgLength m ≤ 224) (known : knownRequest (msgType m) = true) :
    takeMessage s n = takeFragment (slotRead s n) n m (requestSource s n m) := by
  have inside := h.inside
  obtain ⟨-, full, started, lasting, room⟩ := h
  rw [takeMessage_eq_takeFragment here full started lasting room (by omega) good fits known]
  exact congrArg (fun u => takeFragment u n m (requestSource s n m)) (pullArrived_slotRead inside alone)

theorem Takes.takeMessage_torn (h : Takes s n) {m : Bytes} (here : (getMailbox s n).inbound = m)
    (alone : (getMailbox s n).arrived = []) (bad : msgCrcOk m = false ∨ 224 < msgLength m) :
    takeMessage s n = .done (rejectMessage (slotRead s n) n (BitVec.ofNat 16 (msgType m)) (msgTag m) (requestSource s n m) 0x0501) := by
  have pulled := pullArrived_slotRead h.inside alone
  obtain ⟨-, full, started, lasting, room⟩ := h
  have torn : (!msgCrcOk m || decide (224 < msgLength m)) = true := by simpa using bad
  unfold takeMessage
  simp only [here, torn, if_true]
  rw [if_neg (by simp [full, started, lasting, Nat.not_le.mpr room])]
  exact congrArg (fun u => Inbound.done (rejectMessage u n (BitVec.ofNat 16 (msgType m)) (msgTag m) (requestSource s n m) 0x0501)) pulled

theorem Takes.messageFragment_part (h : Takes s n) {t : State} (part : takeMessage s n = .part t) : exec (.messageFragment n) s = .next t := by
  obtain ⟨runs, -⟩ := h
  refine (clocked_of_clocked runs).trans ?_
  rw [part]

theorem Takes.messageFragment_done (h : Takes s n) {t : State} (done : takeMessage s n = .done t) : exec (.messageFragment n) s = .next t := by
  obtain ⟨runs, -⟩ := h
  refine (clocked_of_clocked runs).trans ?_
  rw [done]

end Slot

section Part
variable {s : State} {n : Fin 16} {m : Bytes} {a : Assembly}

/-- A fragment that is not the last stands in the assembly of a mailbox whose slot has been read. -/
theorem Takes.gives_join (h : Takes s n) {src : BitVec 22} (part : takeMessage s n = joinFragment (slotRead s n) n m src a)
    (more : msgLast m = false) (count : a.next < 330) (size : a.body.length + msgLength m ≤ 73728) :
    Gives (.messageFragment n) s (fun t => OnlyMailbox s t n
      ∧ getMailbox t n = { getMailbox s n with inFull := false, assembly := some (a.join m) }) := by
  have inside := h.inside
  rw [joinFragment_part more count size] at part
  refine ⟨_, h.messageFragment_part part, onlyMailbox_trans (setMailbox_only s n _) (setMailbox_only _ n _), ?_⟩
  rw [getMailbox_setMailbox_same _ _ _ (by simpa [slotRead] using inside), slotRead, getMailbox_setMailbox_same _ _ _ inside]

/-- The mailbox of a discarded request (R313): its reply is queued, and the fragment begins a new one or is lost. -/
theorem Takes.gives_discard (h : Takes s n) {src : BitVec 22} (part : takeMessage s n = takeFragment (slotRead s n) n m src)
    (fits : msgLength m ≤ 224) (more : msgLast m = false) (begun : (getMailbox s n).assembly = some a) (other : ¬ a.Expects m src) :
    Gives (.messageFragment n) s (fun t => OnlyMailbox s t n ∧ (getMailbox t n).inFull = false
      ∧ (getMailbox t n).assembly = (if msgIndex m = 0 then some ((newAssembly m src).join m) else none)
      ∧ outgoing (getMailbox t n)
        = outgoing (getMailbox s n) ++ if a.type = 0x0022 then [] else [rejection s a.type a.tag a.source 0x0503]) := by
  have inside := h.inside
  have inside1 : n.val < (slotRead s n).mailboxes.length := by simpa [slotRead] using inside
  have begun1 : (getMailbox (slotRead s n) n).assembly = some a := by rw [slotRead, getMailbox_setMailbox_same _ _ _ inside]; exact begun
  have inside2 : n.val < (dropAssembly (slotRead s n) n).mailboxes.length := by simpa [dropAssembly] using inside1
  have cleared : getMailbox (dropAssembly (slotRead s n) n) n = { getMailbox s n with inFull := false, assembly := none } := by
    rw [dropAssembly, getMailbox_setMailbox_same _ _ _ inside1, slotRead, getMailbox_setMailbox_same _ _ _ inside]
  let u := rejectMessage (dropAssembly (slotRead s n) n) n a.type a.tag a.source 0x0503
  have only : OnlyMailbox s u n :=
    onlyMailbox_trans (onlyMailbox_trans (setMailbox_only s n _) (setMailbox_only _ n _)) (rejectMessage_only _ n _ _ _ _)
  have inside3 : n.val < u.mailboxes.length := by rw [onlyMailbox_length only]; exact inside
  have full : (getMailbox u n).inFull = false := by rw [rejectMessage_inFull inside2, cleared]
  have gone : (getMailbox u n).assembly = none := by rw [rejectMessage_assembly inside2, cleared]
  have out : outgoing (getMailbox u n)
      = outgoing (getMailbox s n) ++ if a.type = 0x0022 then [] else [rejection s a.type a.tag a.source 0x0503] := by
    rw [outgoing_rejectMessage inside2, cleared]
    rfl
  rw [takeFragment_unexpected begun1 other] at part
  split at part
  · next first =>
    rw [joinFragment_part more (Nat.zero_lt_succ _) (by simp [newAssembly]; omega)] at part
    refine ⟨_, h.messageFragment_part part, onlyMailbox_trans only (setMailbox_only _ n _), ?_⟩
    rw [getMailbox_setMailbox_same _ _ _ inside3, if_pos first]
    exact ⟨full, rfl, out⟩
  · next later =>
    rw [if_neg later]
    exact ⟨u, h.messageFragment_done part, only, full, gone, out⟩

/-- A torn message is answered, and the assembly stays (R315). -/
theorem Takes.gives_torn (h : Takes s n) (here : (getMailbox s n).inbound = m) (alone : (getMailbox s n).arrived = [])
    (bad : msgCrcOk m = false ∨ 224 < msgLength m) (replied : BitVec.ofNat 16 (msgType m) ≠ 0x0022) :
    Gives (.messageFragment n) s (fun t => OnlyMailbox s t n ∧ (getMailbox t n).inFull = false
      ∧ (getMailbox t n).assembly = (getMailbox s n).assembly
      ∧ outgoing (getMailbox t n) = outgoing (getMailbox s n)
        ++ [rejection s (BitVec.ofNat 16 (msgType m)) (msgTag m) (requestSource s n m) 0x0501]) := by
  have inside := h.inside
  have inside1 : n.val < (slotRead s n).mailboxes.length := by simpa [slotRead] using inside
  have read : getMailbox (slotRead s n) n = { getMailbox s n with inFull := false } := getMailbox_setMailbox_same _ _ _ inside
  refine ⟨_, h.messageFragment_done (h.takeMessage_torn here alone bad),
    onlyMailbox_trans (setMailbox_only s n _) (rejectMessage_only _ n _ _ _ _), ?_, ?_, ?_⟩
  · rw [rejectMessage_inFull inside1, read]
  · rw [rejectMessage_assembly inside1, read]
  · rw [outgoing_rejectMessage inside1, read, if_neg replied]
    rfl

end Part

/-- Settles O11: a fragment begins an assembly, joins it or discards it, and a torn message is answered. -/
theorem fragmentsJoin : Obligations.FragmentsJoin := by
  intro s n m takes own here alone
  refine ⟨fun good fits known more => ?_, takes.gives_torn here alone⟩
  have part := takes.takeMessage_known own here alone good fits known
  have read : getMailbox (slotRead s n) n = { getMailbox s n with inFull := false } := getMailbox_setMailbox_same _ _ _ takes.inside
  refine ⟨fun idle first => ?_, fun a begun index type tag source count size => ?_, fun a begun other => ?_⟩
  · rw [takeFragment_first (by rw [read]; exact idle) first] at part
    exact takes.gives_join part more (Nat.zero_lt_succ _) (by simp [newAssembly]; omega)
  · rw [takeFragment_expected (by rw [read]; exact begun) ⟨index, type, tag, source⟩] at part
    exact takes.gives_join part more count (by omega)
  · refine takes.gives_discard part fits more begun ?_
    rintro ⟨index, type, tag, source⟩
    exact other.elim (· index) (·.elim (· type) (·.elim (· tag) (· source)))

end Sys2Proof.Machine
end

section
namespace Sys2Proof.Machine

/-! ## NOTICE_ACK (R333, R511) -/

/-- A request that passes has passed every check of R315 in the state that it is taken in. -/
theorem takeFragment_checked {s t : State} {n : Nat} {m : Bytes} {src : BitVec 22} {p : Pending}
    (h : takeFragment s n m src = .request t p) : ∃ bad, checkRequest t p bad = .request t p := by
  have checked {u : State} {q : Pending} {bad : Bool} (hq : checkRequest u q bad = .request t p) : ∃ bad, checkRequest t p bad = .request t p := by
    obtain ⟨rfl, rfl⟩ := checkRequest_request hq
    exact ⟨bad, hq⟩
  have joined {u : State} {a : Assembly} (hq : joinFragment u n m src a = .request t p) : ∃ bad, checkRequest t p bad = .request t p := by
    unfold joinFragment at hq
    split at hq
    · exact nomatch hq
    · split at hq
      · exact checked hq
      · exact nomatch hq
  rcases idle : (getMailbox s n).assembly with _ | a
  · by_cases first : msgIndex m = 0
    · exact joined ((takeFragment_first idle first).symm.trans h)
    · cases (takeFragment_stray idle first).symm.trans h
  · by_cases next : a.Expects m src
    · exact joined ((takeFragment_expected idle next).symm.trans h)
    · rw [takeFragment_unexpected idle next] at h
      split at h
      · exact joined h
      · cases h

/-- A request is met past a check only when the check passes. -/
theorem Inbound.request_of_ite {c : Prop} [Decidable c] {a b : Inbound} {t : State} {p : Pending}
    (h : (if c then a else b) = .request t p) (other : a ≠ .request t p) : b = .request t p := by
  split at h
  · exact absurd h other
  · exact h

theorem takeMessage_checked {s t : State} {n : Nat} {p : Pending} (h : takeMessage s n = .request t p) :
    ∃ bad, checkRequest t p bad = .request t p :=
  have read := Inbound.request_of_ite h nofun
  have whole := Inbound.request_of_ite read nofun
  have home := Inbound.request_of_ite whole nofun
  have sourced := Inbound.request_of_ite home nofun
  takeFragment_checked (Inbound.request_of_ite sourced nofun)

/-- The body of a request has the length of its layout. -/
theorem Heard.bodyLengthOk {s t : State} {n : Fin 16} {ty : BitVec 16} {p : Pending} (h : Heard s n ty t p) :
    bodyLengthOk t ty.toNat p.body = true := by
  obtain ⟨-, taken, rfl⟩ := h
  obtain ⟨bad, passed⟩ := takeMessage_checked taken
  by_contra short
  rw [checkRequest, if_pos (by simpa using short)] at passed
  exact nomatch passed

section Ack
variable {s t : State} {number : BitVec 64}

/-- An acknowledgement of no notice that has been sent and not acknowledged does nothing. -/
theorem ackNotice_none (h : ∀ o, findOrder s number = some o → o.notice ≠ 1) : ackNotice s number = s := by
  unfold ackNotice
  split
  · rfl
  · next o found => exact if_pos (by simpa using h o found)

/-- One that does not fill a batch waits. -/
theorem ackNotice_few {o : Order} (found : findOrder s number = some o) (sent : o.notice = 1)
    (few : s.journal.pendingAcks.length < 255) : ackNotice s number = ackTaken s number := by
  have taken : ackNotice s number
      = if (ackTaken s number).journal.pendingAcks.length < 256 then ackTaken s number else writeDelivered (ackTaken s number) := by
    unfold ackNotice
    rw [found]
    exact if_neg (by simp [sent])
  exact taken.trans (if_pos (by simp; omega))

theorem findOrder_ackTaken (m : BitVec 64) : findOrder (ackTaken s number) m
    = (findOrder s m).map (fun o => if o.number == number then { o with notice := 2 } else o) :=
  findOrder_setOrder (f := fun o => { o with notice := 2 }) fun _ => rfl

theorem findOrder_ackTaken_same {o : Order} (found : findOrder s number = some o) :
    findOrder (ackTaken s number) number = some { o with notice := 2 } :=
  findOrder_setOrder_same (f := fun o => { o with notice := 2 }) (fun _ => rfl) found

theorem findOrder_ackTaken_ne {m : BitVec 64} (other : m ≠ number) : findOrder (ackTaken s number) m = findOrder s m := by
  rw [findOrder_ackTaken]
  rcases found : findOrder s m with _ | o
  · rfl
  · rw [Option.map_some, if_neg (by simpa [number_of_findOrder found] using other)]

end Ack

/-! ### A rejected NOTICE_ACK -/

/-- Whatever a mailbox has to send beyond what it had is no reply to a NOTICE_ACK. -/
def NoNoticeReply (s v : State) (n : Nat) : Prop :=
  ∀ x ∈ outgoing (getMailbox v n), x ∈ outgoing (getMailbox s n) ∨ field x.bytes 0 2 ≠ 0x8022

theorem knownRequest_lt {t : Nat} (h : knownRequest t = true) : t < 2 ^ 15 := by
  simp only [knownRequest, List.contains_eq_mem, List.mem_cons, List.not_mem_nil, or_false, decide_eq_true_eq] at h
  omega

/-- The reply to a request is of the request's type plus 0x8000 (R312). -/
theorem replyType_toNat {ty : BitVec 16} (known : knownRequest ty.toNat = true) : (ty ||| 0x8000).toNat = ty.toNat + 2 ^ 15 := by
  have parts := Nat.two_pow_add_eq_or_of_lt (knownRequest_lt known) 1
  rw [BitVec.toNat_or, Nat.or_comm]
  change 2 ^ 15 * 1 ||| ty.toNat = _
  omega

section Silent
variable {s v : State} {n : Nat}

/-- The rejection of a message that is no NOTICE_ACK, of a known type, is no reply to one; that of a NOTICE_ACK is not sent (R511). -/
theorem NoNoticeReply.rejectMessage (h : NoNoticeReply s v n) (inside : n < v.mailboxes.length) {type : BitVec 16}
    (known : knownRequest type.toNat = true) (tag : BitVec 32) (src : BitVec 22) (code : BitVec 16) :
    NoNoticeReply s (rejectMessage v n type tag src code) n := by
  intro x hx
  rw [outgoing_rejectMessage inside] at hx
  rcases List.mem_append.mp hx with old | new
  · exact h x old
  · split at new
    · exact absurd new List.not_mem_nil
    · next other =>
      rw [List.mem_singleton.mp new, rejection, field_messageBytes_type (by simp), replyType_toNat known]
      exact .inr fun same => other (BitVec.eq_of_toNat_eq (by simp; omega))

theorem NoNoticeReply.setMailbox (h : NoNoticeReply s v n) (inside : n < v.mailboxes.length) {f : Mailbox → Mailbox}
    (same : ∀ b, outgoing (f b) = outgoing b) : NoNoticeReply s (setMailbox v n f) n := by
  unfold NoNoticeReply
  rw [getMailbox_setMailbox_same _ _ _ inside, same]
  exact h

/-- The checks of a NOTICE_ACK send nothing: it has no reply, and no stored one (R314, R511). -/
theorem checkRequest_silent {t : State} {p : Pending} {bad : Bool} (own : p.type = 0x0022) (h : checkRequest v p bad = .done t) : t = v := by
  have quiet (code : BitVec 16) : reject v p code = v := if_pos (by simp [own])
  have stored (x y : Bool) : (BitVec.toNat (0x0022 : BitVec 16) != 0x0022 && x && y) = false := rfl
  unfold checkRequest at h
  simp only [quiet, own, stored, Bool.false_eq_true, if_false] at h
  repeat' split at h
  all_goals cases h
  all_goals rfl

theorem joinFragment_silent (h : NoNoticeReply s v n) (inside : n < v.mailboxes.length) {m : Bytes} {src : BitVec 22} {a : Assembly} {t : State}
    (own : BitVec.ofNat 16 (msgType m) = 0x0022) (done : joinFragment v n m src a = .done t) : NoNoticeReply s t n := by
  have dropped : NoNoticeReply s (dropAssembly v n) n := h.setMailbox inside fun _ => rfl
  unfold joinFragment at done
  split at done
  · rw [own, rejectMessage_told, if_pos rfl] at done
    cases done
    exact dropped
  · split at done
    · rw [checkRequest_silent own done]
      exact dropped
    · cases done

theorem takeFragment_silent (h : NoNoticeReply s v n) (inside : n < v.mailboxes.length) {m : Bytes} {src : BitVec 22} {t : State}
    (own : BitVec.ofNat 16 (msgType m) = 0x0022) (known : ∀ a, (getMailbox v n).assembly = some a → knownRequest a.type.toNat = true)
    (done : takeFragment v n m src = .done t) : NoNoticeReply s t n := by
  rcases begun : (getMailbox v n).assembly with _ | a
  · by_cases first : msgIndex m = 0
    · rw [takeFragment_first begun first] at done
      exact joinFragment_silent h inside own done
    · rw [takeFragment_stray begun first, own, rejectMessage_told, if_pos rfl] at done
      cases done
      exact h
  · by_cases next : a.Expects m src
    · rw [takeFragment_expected begun next] at done
      exact joinFragment_silent h inside own done
    · have inside' : n < (dropAssembly v n).mailboxes.length := by simpa [dropAssembly] using inside
      have told := NoNoticeReply.rejectMessage (h.setMailbox inside (f := fun b => { b with assembly := none }) fun _ => rfl) inside'
        (known a begun) a.tag a.source 0x0503
      rw [takeFragment_unexpected begun next] at done
      split at done
      · exact joinFragment_silent told (by rw [onlyMailbox_length (rejectMessage_only _ _ _ _ _ _)]; exact inside') own done
      · cases done
        exact told

/-- The message that moves up into the slot of mailbox 14 or 15 changes nothing of what is being assembled or sent. -/
theorem pullArrived_box (inside : n < s.mailboxes.length) : ∃ inbound full overrun arrived origin, getMailbox (pullArrived s n) n
    = { getMailbox s n with inbound := inbound, inFull := full, overrun := overrun, arrived := arrived, origin := origin } := by
  unfold pullArrived
  split
  · exact ⟨_, _, _, _, _, rfl⟩
  · split
    · exact ⟨_, _, _, _, _, rfl⟩
    · unfold slotPost slotWrite
      rw [getMailbox_setMailbox_same _ _ _ (by simpa using inside), getMailbox_setMailbox_same _ _ _ (by simpa using inside),
        getMailbox_setMailbox_same _ _ _ inside]
      dsimp only
      split <;> exact ⟨_, _, _, _, _, rfl⟩

/-- A NOTICE_ACK that the Keeper deals with in the checks sends no reply of its type. -/
theorem takeMessage_silent (inside : n < s.mailboxes.length) (own : field (getMailbox s n).inbound 0 2 = 0x0022)
    (known : ∀ a, (getMailbox s n).assembly = some a → knownRequest a.type.toNat = true) {t : State} (done : takeMessage s n = .done t) :
    NoNoticeReply s t n := by
  have inside1 : n < (slotRead s n).mailboxes.length := by simpa [slotRead] using inside
  obtain ⟨_, _, _, _, _, box⟩ := pullArrived_box inside1
  rw [show getMailbox (slotRead s n) n = { getMailbox s n with inFull := false } from getMailbox_setMailbox_same _ _ _ inside] at box
  have read : NoNoticeReply s (pullArrived (slotRead s n) n) n := by
    unfold NoNoticeReply
    rw [box]
    exact fun x hx => .inl hx
  have ty : BitVec.ofNat 16 (msgType (getMailbox s n).inbound) = 0x0022 := by rw [msgType, own]; rfl
  have quiet (u : State) (tag : BitVec 32) (src : BitVec 22) (code : BitVec 16) : rejectMessage u n 0x0022 tag src code = u := if_pos rfl
  unfold takeMessage at done
  simp only [ty, quiet] at done
  split at done
  · cases done
  · split at done
    · cases done
      exact read
    · split at done
      · cases done
      · split at done
        · cases done
          exact read
        · split at done
          · cases done
            exact read
          · refine takeFragment_silent read ?_ ty (fun a begun => known a ?_) done
            · rw [onlyMailbox_length (pullArrived_only _ n)]
              exact inside1
            · rw [box] at begun
              exact begun

end Silent

/-- Settles O48: a NOTICE_ACK that passes is the acknowledgement of its order, and one that does not pass is dealt with by the checks,
which change the mailbox alone and send it nothing. -/
theorem noticeAck : Obligations.NoticeAck := by
  intro s n t w runs
  refine ⟨fun p h => ⟨by simpa [bodyLengthOk] using h.bodyLengthOk, fun none_sent => ?_, fun o found sent few => ?_⟩,
    fun full own done known => ?_⟩
  · exact (h.clocked_onRequest _).trans (congrArg _ (ackNotice_none none_sent))
  · refine ⟨_, (h.clocked_onRequest _).trans (congrArg _ (ackNotice_few found sent few)), rfl, rfl, rfl, rfl,
      findOrder_ackTaken_same found, fun m other => findOrder_ackTaken_ne other⟩
  · have only := takeMessage_done done
    refine ⟨?_, ?_, ?_, ?_, fun m other => onlyMailbox_other only other, takeMessage_silent (getMailbox_length s n full) own known done⟩
    · exact ((rejectionHasNoEffect (.noticeAck n) n s rfl runs).1 t done).1
    all_goals rw [onlyMailbox_fields only]

end Sys2Proof.Machine
end

section
namespace Sys2Proof.Machine

/-! ## A request whose body names an action -/

section Action
variable {s t : State} {n : Fin 16} {ty : BitVec 16} {off a : Nat} {p : Pending}

theorem HeardAction.heard (h : HeardAction s n ty off a t p) : Heard s n ty t p := h.1

/-- The row of the action that a request names acts on it. -/
theorem HeardAction.clocked_onRequest (h : HeardAction s n ty off a t p) (acts : List Nat) (act : State → Pending → State) :
    clocked s (onRequest s n (isAction ty off a acts) act) = .next (act t p) := by
  obtain ⟨⟨runs, taken, own⟩, named⟩ := h
  rw [clocked_of_clocked runs, onRequest, taken]
  simp [isAction, own, named]

theorem HeardAction.gives_reply (h : HeardAction s n ty off a t p) {c : Instr} {acts : List Nat} {act : State → Pending → State}
    {status : BitVec 16} {body : Bytes} (row : exec c s = clocked s (onRequest s n (isAction ty off a acts) act))
    (answers : act t p = reply t p status body) : Gives c s (fun u => OnlyAnswers t u p status body) :=
  ⟨_, row.trans (h.clocked_onRequest acts act), answers ▸ reply_onlyAnswers t p status body h.heard.mailbox_lt⟩

theorem HeardAction.gives_reject (h : HeardAction s n ty off a t p) {c : Instr} {acts : List Nat} {act : State → Pending → State}
    {code : BitVec 16} (row : exec c s = clocked s (onRequest s n (isAction ty off a acts) act)) (replied : ty ≠ 0x0022)
    (rejects : act t p = reject t p code) : Gives c s (fun u => OnlyAnswers t u p code []) :=
  ⟨_, row.trans (h.clocked_onRequest acts act), rejects ▸ h.heard.onlyAnswers_reject replied code⟩

/-- A row that changes some part and then answers. -/
theorem HeardAction.gives_then (h : HeardAction s n ty off a t p) {c : Instr} {acts : List Nat} {act : State → Pending → State} {v : State}
    {status : BitVec 16} {body : Bytes} {P : State → Prop} (row : exec c s = clocked s (onRequest s n (isAction ty off a acts) act))
    (answers : act t p = reply v p status body) (holds : P (reply v p status body)) : Gives c s P :=
  ⟨_, (row.trans (h.clocked_onRequest acts act)).trans (congrArg _ answers), holds⟩

end Action

/-! ## REG_READ (R177, R324, R415) -/

/-- Registers whose read latches nothing. -/
theorem readMany_pure {rd : State → Nat → State × Reg} {v : Nat → Reg} {s : State} {off : Nat} :
    ∀ n, (∀ i < n, rd s (off + 4 * i) = (s, v i)) → readMany rd s off n = (s, (List.range n).map v)
  | 0, _ => rfl
  | n + 1, h => by
    have before := readMany_pure n fun i hi => h i (Nat.lt_succ_of_lt hi)
    rw [readMany] at before ⊢
    rw [List.range_succ, List.foldl_append, before, List.map_append]
    simp [h n (Nat.lt_succ_self n)]

/-- A value's low bytes are those of its low bits. -/
theorem natLe_mod (n v : Nat) : natLe n (v % 256 ^ n) = natLe n v := by
  induction n generalizing v with
  | zero => rfl
  | succ n ih =>
    have low : BitVec.ofNat 8 (v % 256 ^ (n + 1)) = BitVec.ofNat 8 v := BitVec.eq_of_toNat_eq (by
      simp only [BitVec.toNat_ofNat]
      exact Nat.mod_mod_of_dvd _ (Dvd.intro_left (256 ^ n) (Nat.pow_succ ..).symm))
    have high : v % 256 ^ (n + 1) / 256 = v / 256 % 256 ^ n := by rw [Nat.pow_succ', Nat.mod_mul_right_div_self]
    rw [natLe, natLe, low, high, ih]

theorem natLe_ofNat (v : Nat) : natLe 4 (BitVec.ofNat 32 v).toNat = natLe 4 v := by
  rw [BitVec.toNat_ofNat]
  exact natLe_mod 4 v

section Read
variable {s t : State} {n : Fin 16} {p : Pending} {cnt off : Nat}

theorem readPage_plain (clear : off ≠ 0x4000) (quiet : off < 0x4140 ∨ 0x4180 ≤ off) : readPage s off = (s, pageWord s off) := by
  have energy : (0x4140 ≤ off && off < 0x4180 && off % 8 == 0) = false := by
    rcases quiet with h | h <;> simp <;> omega
  rw [readPage, if_neg (by simpa using clear), if_neg (by simp [energy])]

theorem readWorkerReg_plain {w : Nat} (quiet : off < 0x200 ∨ 0x228 ≤ off) : readWorkerReg s w off = (s, workerWord (getWorker s w) off) := by
  have cycles : (0x200 ≤ off && off < 0x228 && off % 8 == 0) = false := by
    rcases quiet with h | h <;> simp <;> omega
  rw [readWorkerReg, if_neg (by simp [cycles])]

theorem countBad_iff : countBad cnt = true ↔ cnt = 0 ∨ 48 < cnt := by simp [countBad]

theorem readWindow_page_bad (target : field p.body 0 1 = 0) (count : field p.body 2 2 = cnt) (offset : field p.body 4 4 = off)
    (bad : cnt = 0 ∨ 48 < cnt ∨ pageRangeBad off cnt = true) : readWindow t p = reject t p 0x0541 := by
  have rejects : countBad cnt = true ∨ pageRangeBad off cnt = true := by rw [countBad_iff]; tauto
  rcases rejects with h | h <;> simp [readWindow, target, count, offset, h]

theorem readWindow_page (target : field p.body 0 1 = 0) (count : field p.body 2 2 = cnt) (offset : field p.body 4 4 = off)
    (some_ : 1 ≤ cnt) (few : cnt ≤ 48) (good : pageRangeBad off cnt = false) :
    readWindow t p = reply (readMany readPage t off cnt).1 p 0 (wordBytes (readMany readPage t off cnt).2) := by
  have counted : countBad cnt = false := by simp [countBad]; omega
  simp [readWindow, target, count, offset, counted, good]

theorem readWindow_worker_bad (target : field p.body 0 1 = 1) (count : field p.body 2 2 = cnt) (offset : field p.body 4 4 = off)
    (bad : cnt = 0 ∨ 48 < cnt ∨ workerRangeBad off cnt = true ∨ windowWorker t (field p.body 1 1) = none) :
    readWindow t p = reject t p 0x0541 := by
  have rejects : countBad cnt = true ∨ workerRangeBad off cnt = true ∨ windowWorker t (field p.body 1 1) = none := by
    rw [countBad_iff]; tauto
  rcases rejects with h | h | h <;> simp [readWindow, target, count, offset, h]

theorem readWindow_worker {w : Nat} (target : field p.body 0 1 = 1) (count : field p.body 2 2 = cnt) (offset : field p.body 4 4 = off)
    (some_ : 1 ≤ cnt) (few : cnt ≤ 48) (good : workerRangeBad off cnt = false) (reached : windowWorker t (field p.body 1 1) = some w) :
    readWindow t p = reply (readMany (fun s o => readWorkerReg s w o) t off cnt).1 p 0
      (wordBytes (readMany (fun s o => readWorkerReg s w o) t off cnt).2) := by
  have counted : countBad cnt = false := by simp [countBad]; omega
  simp [readWindow, target, count, offset, counted, good, reached]

/-- The three registers of hive time deliver one value (R415). -/
theorem readMany_now (s : State) : ∃ lo hi frac, readMany readPage s 0x4000 3 = (latchNow s, [lo, hi, frac])
    ∧ wordBytes [lo, hi, frac] = natLe 4 (s.time.now / 65536) ++ natLe 4 (s.time.now / 65536 / 2 ^ 32) ++ natLe 4 (s.time.now % 65536) := by
  refine ⟨BitVec.ofNat 32 (s.time.now / 65536), BitVec.ofNat 32 (s.time.now / 65536 / 2 ^ 32),
    regOf [((BitVec.ofNat 16 (s.time.now % 65536)).toNat, 0)], rfl, ?_⟩
  have frac : regOf [((BitVec.ofNat 16 (s.time.now % 65536)).toNat, 0)] = BitVec.ofNat 32 (s.time.now % 65536) := by
    simp [regOf, Nat.mod_eq_of_lt (Nat.mod_lt s.time.now (by decide : 0 < 65536))]
  rw [frac]
  simp only [wordBytes, List.flatMap_cons, List.flatMap_nil, natLe_ofNat, List.append_nil, List.append_assoc]

theorem workerWord_cycLo {x : Worker} {k : Nat} (hk : k < 5) : workerWord x (0x200 + 8 * k) = BitVec.ofNat 32 (nth x.cyc k).toNat := by
  interval_cases k <;> rfl

theorem readMany_cycLo {w k : Nat} (hk : k < 5) : readMany (fun s o => readWorkerReg s w o) s (0x200 + 8 * k) 1
    = (latchCycles s w k, [BitVec.ofNat 32 (nth (getWorker s w).cyc k).toNat]) := by
  have place : (0x200 + 8 * k - 0x200) / 8 = k := by omega
  have latches : (0x200 ≤ 0x200 + 8 * k && 0x200 + 8 * k < 0x228 && (0x200 + 8 * k) % 8 == 0) = true := by simp; omega
  have read : readWorkerReg s w (0x200 + 8 * k + 4 * 0) = (latchCycles s w k, BitVec.ofNat 32 (nth (getWorker s w).cyc k).toNat) := by
    rw [Nat.mul_zero, Nat.add_zero, readWorkerReg, workerWord_cycLo hk, if_pos latches, place]
  exact congrArg (fun r : State × Reg => (r.1, [r.2])) read

/-- An update of a part is what it makes of the part as it stands. -/
theorem updAt_congr {α : Type} [Inhabited α] {l : List α} {i : Nat} {f g : α → α} (h : f (nth l i) = g (nth l i)) : updAt l i f = updAt l i g := by
  refine List.ext_getElem? fun j => ?_
  rw [updAt, updAt, List.getElem?_modify, List.getElem?_modify]
  split
  · next e =>
    subst e
    rcases hi : l[i]? with _ | x
    · rfl
    · simpa [nth, hi] using h
  · rfl

theorem setWorker_congr {w : Nat} {f g : Worker → Worker} (h : f (getWorker s w) = g (getWorker s w)) : setWorker s w f = setWorker s w g := by
  rw [setWorker, setWorker, updAt_congr h]

theorem latchCycles_eq (s : State) (w k : Nat) : latchCycles s w k = setWorker s w (fun x => { x with
    cycHi := updAt x.cycHi k (fun _ => BitVec.ofNat 32 ((nth (getWorker s w).cyc k).toNat / 2 ^ 32)) }) :=
  setWorker_congr rfl

theorem wordBytes_cycLo (x : BitVec 64) : wordBytes [BitVec.ofNat 32 x.toNat] = natLe 4 x.toNat := by
  simp only [wordBytes, List.flatMap_cons, List.flatMap_nil, natLe_ofNat, List.append_nil]

end Read

/-- Settles O19: a bad read is rejected; a good one delivers what the registers in question show, and latches what they latch. -/
theorem windowReads : Obligations.WindowReads := by
  intro s t n p cnt off count offset
  refine ⟨fun h => ⟨fun bad => ?_, fun some_ few good plain => ?_, fun three now => ?_⟩,
    fun h => ⟨fun bad => ?_, fun w reached some_ few good plain => ?_, fun w k reached one at_ hk => ?_⟩⟩
  · exact h.gives_reject rfl (by decide) (readWindow_page_bad h.2 count offset bad)
  · have read := readMany_pure (rd := readPage) (s := t) (off := off) cnt fun i hi => readPage_plain (plain i hi).1 (plain i hi).2
    have answers := readWindow_page (t := t) h.2 count offset some_ few good
    rw [read] at answers
    exact h.gives_reply rfl (answers.trans (by simp [wordBytes, List.flatMap_map]))
  · obtain ⟨lo, hi, frac, read, words⟩ := readMany_now t
    have answers := readWindow_page (t := t) h.2 (count.trans three) (offset.trans now) (by decide) (by decide) (by decide)
    rw [read, words] at answers
    refine h.gives_then rfl answers ?_
    rw [← h.heard.read_eq State.time fun _ => rfl]
    refine ⟨reply_answered (latchNow t) p 0 _ h.heard.mailbox_lt, ?_⟩
    rw [onlyMailbox_fields (reply_only (latchNow t) p 0 _), onlyMailbox_fields h.heard.only]
    rfl
  · rw [← h.heard.read_eq (fun s => windowWorker s (field p.body 1 1)) fun _ => rfl] at bad
    exact h.gives_reject rfl (by decide) (readWindow_worker_bad h.2 count offset bad)
  · rw [← h.heard.read_eq (fun s => windowWorker s (field p.body 1 1)) fun _ => rfl] at reached
    have read := readMany_pure (rd := fun s o => readWorkerReg s w o) (s := t) (off := off) cnt fun i hi => readWorkerReg_plain (plain i hi)
    have answers := readWindow_worker h.2 count offset some_ few good reached
    rw [read, h.heard.read_eq (fun s => getWorker s w) fun _ => rfl] at answers
    exact h.gives_reply rfl (answers.trans (by simp [wordBytes, List.flatMap_map]))
  · rw [← h.heard.read_eq (fun s => windowWorker s (field p.body 1 1)) fun _ => rfl] at reached
    have good : workerRangeBad (0x200 + 8 * k) 1 = false := by simp [workerRangeBad]; omega
    have answers := readWindow_worker h.2 (count.trans one) (offset.trans at_) (by decide) (by decide) good reached
    rw [readMany_cycLo hk, wordBytes_cycLo] at answers
    refine h.gives_then rfl answers ?_
    rw [← h.heard.read_eq (fun s => getWorker s w) fun _ => rfl]
    refine ⟨reply_answered (latchCycles t w k) p 0 _ h.heard.mailbox_lt, ?_⟩
    rw [onlyMailbox_fields (reply_only (latchCycles t w k) p 0 _), latchCycles_eq, onlyMailbox_fields h.heard.only]
    rfl

end Sys2Proof.Machine
end

section
namespace Sys2Proof.Machine

/-! ## Register writes touch no pin (R10, R507, R509) -/

/-- The pins stand as they stood. -/
def SamePins (s t : State) : Prop := t.pins = s.pins

section Pins
variable {s₀ s t : State}

theorem SamePins.ite {c : Prop} [Decidable c] (hs : SamePins s₀ s) (ht : SamePins s₀ t) : SamePins s₀ (if c then s else t) := by
  split
  · exact hs
  · exact ht

theorem setMailbox_samePins {n : Nat} {f : Mailbox → Mailbox} (h : SamePins s₀ s) : SamePins s₀ (setMailbox s n f) := h

theorem setFrame_samePins {n : Nat} {f : Frame → Frame} (h : SamePins s₀ s) : SamePins s₀ (setFrame s n f) := h

theorem setPartner_samePins {n : Nat} {f : PartnerPort → PartnerPort} (h : SamePins s₀ s) : SamePins s₀ (setPartner s n f) := h

theorem setMemPort_samePins {n : Nat} {f : MemPort → MemPort} (h : SamePins s₀ s) : SamePins s₀ (setMemPort s n f) := h

theorem setLink_samePins {n : Nat} {f : Link → Link} (h : SamePins s₀ s) : SamePins s₀ (setLink s n f) := h

theorem setKeeper_samePins {f : Keeper → Keeper} (h : SamePins s₀ s) : SamePins s₀ (setKeeper s f) := h

theorem setTime_samePins {f : TimeUnit → TimeUnit} (h : SamePins s₀ s) : SamePins s₀ (setTime s f) := h

theorem setPower_samePins {f : Power → Power} (h : SamePins s₀ s) : SamePins s₀ (setPower s f) := h

theorem SamePins.reported (h : SamePins s₀ s) (r : Reported s t) : SamePins s₀ t := (r.field State.pins fun _ _ _ _ _ => rfl).trans h

theorem logRecord_samePins {kind : Nat} {src : BitVec 22} {body : Bytes} (h : SamePins s₀ s) : SamePins s₀ (logRecord s kind src body) :=
  h.reported logRecord_reported

theorem ackNotice_samePins {o : BitVec 64} (h : SamePins s₀ s) : SamePins s₀ (ackNotice s o) := by
  unfold ackNotice
  split
  · exact h
  · refine .ite h (.ite h ?_)
    obtain ⟨⟨_, _, _, frame⟩, -⟩ := writeDelivered_journaled
    rw [frame]
    exact h

theorem clearOut_samePins {n : Nat} (h : SamePins s₀ s) : SamePins s₀ (clearOut s n) := by
  delta clearOut
  extract_lets b s1 i3c s2
  have h2 : SamePins s₀ s2 := .ite h h
  clear_value s2
  refine .ite h ?_
  split
  · exact .ite (ackNotice_samePins h2) h2
  · exact h2

theorem followSource_samePins {x : SourceState} (h : SamePins s₀ s) : SamePins s₀ (followSource s x) :=
  .ite (logRecord_samePins (logRecord_samePins h)) (logRecord_samePins h)

theorem enterHoldover_samePins (h : SamePins s₀ s) : SamePins s₀ (enterHoldover s) := .ite h (logRecord_samePins h)

theorem dropInForce_samePins (h : SamePins s₀ s) : SamePins s₀ (dropInForce s) := by
  unfold dropInForce
  split
  · exact followSource_samePins h
  · exact .ite (enterHoldover_samePins (logRecord_samePins h)) (logRecord_samePins h)

theorem setTimeCfg_samePins {cfg : BitVec 32} (h : SamePins s₀ s) : SamePins s₀ (setTimeCfg s cfg) := by
  delta setTimeCfg
  extract_lets old s1 s2
  have h2 : SamePins s₀ s2 := .ite (.ite (dropInForce_samePins h) h) h
  split
  · exact .ite h2 (dropInForce_samePins h2)
  · exact h2

theorem writeCombReg_samePins {f k v : Nat} (h : SamePins s₀ s) : SamePins s₀ (writeCombReg s f k v) :=
  .ite (.ite (setFrame_samePins h) h) (.ite (setFrame_samePins h) (.ite (setFrame_samePins h) h))

theorem writeLinkReg_samePins {n k v : Nat} (h : SamePins s₀ s) : SamePins s₀ (writeLinkReg s n k v) :=
  .ite (setLink_samePins h) (.ite (setLink_samePins h) (.ite (setLink_samePins h) (.ite (setLink_samePins h) h)))

theorem writeTimeReg_samePins {off v : Nat} (h : SamePins s₀ s) : SamePins s₀ (writeTimeReg s off v) :=
  .ite (.ite (setTime_samePins h) h) (.ite (setTimeCfg_samePins h) (.ite (setTime_samePins h) (.ite (setTime_samePins h) h)))

theorem writePowerReg_samePins {off v : Nat} (h : SamePins s₀ s) : SamePins s₀ (writePowerReg s off v) :=
  have power {f : Power → Power} : SamePins s₀ (setPower s f) := setPower_samePins h
  .ite power (.ite power (.ite power (.ite (.ite power h) (.ite power (.ite power h)))))

theorem writePage_samePins {off v : Nat} (h : SamePins s₀ s) : SamePins s₀ (writePage s off v) :=
  have slots := SamePins.ite (clearOut_samePins (.ite (setMailbox_samePins h) h)) (.ite (setMailbox_samePins h) h)
  .ite (.ite slots (.ite (setMailbox_samePins h) h))
    (.ite (.ite (setKeeper_samePins h) (.ite (setKeeper_samePins h) h))
    (.ite (setKeeper_samePins h)
    (.ite (writeCombReg_samePins h)
    (.ite (.ite (setPartner_samePins h) h)
    (.ite (.ite (setMemPort_samePins h) h)
    (.ite (writeLinkReg_samePins h)
    (.ite (writeTimeReg_samePins h)
    (.ite (writePowerReg_samePins h)
    (.ite (setMailbox_samePins h) h)))))))))

theorem standing_writePage (s : State) (off v : Nat) : standing (writePage s off v) = standing s := by
  rw [standing, show (writePage s off v).pins = s.pins from writePage_samePins (s₀ := s) rfl, standing]

end Pins

/-! ## REG_WRITE (R10, R29, R324) -/

section Page
variable {t : State} {p : Pending} {cnt off : Nat}

/-- What a page write in reach does is what REGISTER_WRITE does. -/
theorem writePage_eq_pageWritten {v : State} {o u : Nat} (runs : standing v = false) (aligned : o % 4 = 0) (inside : o < 2 ^ 32)
    (value : u < 2 ^ 32) (open_ : sessionReg o = false) : writePage v o u = pageWritten v o u := by
  have oNat : (BitVec.ofNat 32 o).toNat = o := by rw [BitVec.toNat_ofNat, Nat.mod_eq_of_lt inside]
  have uNat : (BitVec.ofNat 32 u).toNat = u := by rw [BitVec.toNat_ofNat, Nat.mod_eq_of_lt value]
  have written := exec_registerWrite_page (v := BitVec.ofNat 32 u) (o := BitVec.ofNat 32 o) runs (by rw [oNat]; exact aligned) (by rw [oNat]; exact open_)
  rw [oNat, uNat] at written
  rw [pageWritten, written]

/-- A register in reach of the window is aligned, and neither in a slot nor of a session. -/
theorem pageRange_register (good : pageRangeBad off cnt = false) {i : Nat} (hi : i < cnt) :
    (off + 4 * i) % 4 = 0 ∧ off + 4 * i < 2 ^ 32 ∧ sessionReg (off + 4 * i) = false := by
  simp only [pageRangeBad, Bool.or_eq_false_iff, bne_eq_false_iff_eq, decide_eq_false_iff_not, Nat.not_lt, List.any_eq_false, List.mem_range,
    Bool.or_eq_true, not_or, Bool.not_eq_true] at good
  obtain ⟨⟨aligned, last⟩, each⟩ := good
  unfold pageEnd at last
  exact ⟨by omega, by omega, (each i hi).2⟩

theorem field_drop (b : Bytes) (skip off size : Nat) : field (b.drop skip) off size = field b (skip + off) size := by
  rw [field, field, fieldBytes, fieldBytes, List.drop_drop]

/-- The values of a REG_WRITE to the page are REGISTER_WRITEs in order. -/
theorem writeMany_pageWritten (runs : standing t = false) (good : pageRangeBad off cnt = false) :
    writeMany writePage t off cnt (p.body.drop 8)
      = (List.range cnt).foldl (fun v i => pageWritten v (off + 4 * i) (field p.body (8 + 4 * i) 4)) t := by
  have steps : ∀ (l : List Nat) (v : State), (∀ i ∈ l, i < cnt) → standing v = false →
      l.foldl (fun s i => writePage s (off + 4 * i) (field (p.body.drop 8) (4 * i) 4)) v
        = l.foldl (fun v i => pageWritten v (off + 4 * i) (field p.body (8 + 4 * i) 4)) v := by
    intro l
    induction l with
    | nil => exact fun _ _ _ => rfl
    | cons i l ih =>
      intro v low runs
      obtain ⟨aligned, inside, open_⟩ := pageRange_register good (low i List.mem_cons_self)
      have first := writePage_eq_pageWritten runs aligned inside (field_lt p.body (8 + 4 * i) 4) open_
      rw [List.foldl_cons, List.foldl_cons, field_drop, first]
      exact ih _ (fun j hj => low j (List.mem_cons_of_mem i hj)) (first ▸ (standing_writePage v _ _).trans runs)
  exact steps _ t (fun i hi => List.mem_range.mp hi) runs

theorem writeWindow_page_bad (alias_ : field p.body 0 1 = 0) (count : field p.body 2 2 = cnt) (offset : field p.body 4 4 = off)
    (bad : cnt = 0 ∨ 48 < cnt ∨ pageRangeBad off cnt = true ∨ ∃ k < cnt, off + 4 * k = 0x4108) : writeWindow t p = reject t p 0x0541 := by
  have rejects : (countBad cnt || pageRangeBad off cnt || (List.range cnt).any (fun k => off + 4 * k == 0x4108)) = true := by
    simp only [Bool.or_eq_true, countBad_iff, List.any_eq_true, List.mem_range, beq_iff_eq]
    tauto
  simp [writeWindow, alias_, count, offset, rejects]

theorem writeWindow_page (alias_ : field p.body 0 1 = 0) (count : field p.body 2 2 = cnt) (offset : field p.body 4 4 = off)
    (some_ : 1 ≤ cnt) (few : cnt ≤ 48) (good : pageRangeBad off cnt = false) (limit : ∀ k < cnt, off + 4 * k ≠ 0x4108) :
    writeWindow t p = reply (writeMany writePage t off cnt (p.body.drop 8)) p 0 [] := by
  have counted : countBad cnt = false := by simp [countBad]; omega
  have free : (List.range cnt).any (fun k => off + 4 * k == 0x4108) = false := by simpa using limit
  simp [writeWindow, alias_, count, offset, counted, good, free]

end Page

section Workers
variable {s t : State} {p : Pending} {cnt off : Nat}

/-- What a write of a register stores in a worker. -/
def workerWrite (off v : Nat) (x : Worker) : Worker :=
  if off == 0x180 then { x with flushA := storedFlush [52, 28, 23, 7, 10] v }
  else if off == 0x184 then { x with flushB := storedFlush [3, 2, 2, 3, 1] v }
  else if off == 0x228 then { x with cycTag := BitVec.ofNat 16 v }
  else if off == 0x248 then
    { x with flagAllNeginf := if bit v 1 then false else x.flagAllNeginf, flagCancel := if bit v 0 then false else x.flagCancel }
  else x

theorem writeWorkerReg_eq (s : State) (w off v : Nat) : writeWorkerReg s w off v = setWorker s w (workerWrite off v) := by
  unfold writeWorkerReg workerWrite
  split
  · rfl
  · split
    · rfl
    · split
      · rfl
      · split
        · rfl
        · exact congrArg (fun workers => { s with workers := workers }) (List.modify_id w s.workers).symm

/-- The same value written again changes nothing. -/
theorem workerWrite_twice (off v : Nat) (x : Worker) : workerWrite off v (workerWrite off v x) = workerWrite off v x := by
  by_cases a : off = 0x180
  · subst a; rfl
  by_cases b : off = 0x184
  · subst b; rfl
  by_cases c : off = 0x228
  · subst c; rfl
  by_cases d : off = 0x248
  · subst d
    unfold workerWrite
    cases bit v 1 <;> cases bit v 0 <;> rfl
  have other (y : Worker) : workerWrite off v y = y := by simp [workerWrite, a, b, c, d]
  rw [other, other]

/-- The values of a REG_WRITE as they fall on one worker. -/
def workerWrites (off n : Nat) (values : Bytes) (x : Worker) : Worker :=
  (List.range n).foldl (fun x i => workerWrite (off + 4 * i) (field values (4 * i) 4) x) x

theorem setWorker_setWorker (s : State) (w : Nat) (f g : Worker → Worker) : setWorker (setWorker s w f) w g = setWorker s w (g ∘ f) :=
  congrArg (fun workers => { s with workers := workers }) (List.modify_modify_eq f g w s.workers)

theorem setWorker_id (s : State) (w : Nat) : setWorker s w id = s :=
  congrArg (fun workers => { s with workers := workers }) (List.modify_id w s.workers)

theorem writeMany_worker (s : State) (w off n : Nat) (values : Bytes) :
    writeMany (fun s o v => writeWorkerReg s w o v) s off n values = setWorker s w (workerWrites off n values) := by
  have steps : ∀ l : List Nat, l.foldl (fun s i => writeWorkerReg s w (off + 4 * i) (field values (4 * i) 4)) s
      = setWorker s w (fun x => l.foldl (fun x i => workerWrite (off + 4 * i) (field values (4 * i) 4) x) x) := by
    intro l
    induction l generalizing s with
    | nil => exact (setWorker_id s w).symm
    | cons i l ih => rw [List.foldl_cons, ih, writeWorkerReg_eq, setWorker_setWorker]; rfl
  exact steps (List.range n)

theorem getWorker_setWorker (s : State) (i j : Nat) (f : Worker → Worker) :
    getWorker (setWorker s i f) j = if i = j ∧ i < s.workers.length then f (getWorker s j) else getWorker s j := nth_updAt s.workers i j f

/-- One value on each of several workers, of which one may be named twice. -/
theorem foldl_setWorker_of_idempotent {f : Worker → Worker} (twice : ∀ x, f (f x) = f x) : ∀ (ws : List Nat) (s : State) (w : Nat),
    getWorker (ws.foldl (fun s w => setWorker s w f) s) w = if w ∈ ws then getWorker (setWorker s w f) w else getWorker s w
  | [], s, w => rfl
  | v :: ws, s, w => by
    rw [List.foldl_cons, foldl_setWorker_of_idempotent twice ws]
    by_cases same : v = w
    · subst same
      rw [if_pos List.mem_cons_self, setWorker_setWorker, show f ∘ f = f from funext twice, ite_self]
    · simp only [List.mem_cons, Ne.symm same, false_or]
      simp only [getWorker_setWorker, same, false_and, if_false, setWorker_workers, updAt_length]

theorem foldl_setWorker_frame {f : Worker → Worker} : ∀ (ws : List Nat) (s : State),
    ws.foldl (fun s w => setWorker s w f) s = { s with workers := (ws.foldl (fun s w => setWorker s w f) s).workers }
      ∧ ∀ w, w ∉ ws → getWorker (ws.foldl (fun s w => setWorker s w f) s) w = getWorker s w
  | [], s => ⟨rfl, fun _ _ => rfl⟩
  | v :: ws, s => by
    obtain ⟨only, others⟩ := foldl_setWorker_frame ws (setWorker s v f)
    refine ⟨?_, fun w away => ?_⟩
    · rw [List.foldl_cons, only]
      rfl
    · rw [List.mem_cons, not_or] at away
      rw [List.foldl_cons, others w away.2, getWorker_setWorker_ne _ v w f (Ne.symm away.1)]

theorem aliasNumbers_all (alias_ : field p.body 0 1 = 4) : aliasNumbers t p = some (everyNumber t) := by
  rw [aliasNumbers, alias_]
  rfl

theorem writeWindow_all (alias_ : field p.body 0 1 = 4) : writeWindow t p = writeWorkers t p (reachAll t (everyNumber t)) := by
  rw [writeWindow, alias_]
  rfl

theorem writeWindow_workers {a : Nat} (ha : a ∈ [1, 2, 3, 4]) (alias_ : field p.body 0 1 = a) :
    writeWindow t p = writeWorkers t p ((aliasNumbers t p).bind (reachAll t)) := by
  simp only [List.mem_cons, List.not_mem_nil, or_false] at ha
  rcases ha with rfl | rfl | rfl | rfl
  · simp [writeWindow, aliasNumbers, alias_]
  · by_cases low : field p.body 1 1 < 8 <;> simp [writeWindow, aliasNumbers, alias_, low]
  · by_cases low : field p.body 1 1 < 8 <;> simp [writeWindow, aliasNumbers, alias_, low]
  · rw [writeWindow_all alias_, aliasNumbers_all alias_, Option.bind_some]

theorem writeWorkers_bad {ws : Option (List Nat)} (count : field p.body 2 2 = cnt) (offset : field p.body 4 4 = off)
    (bad : cnt = 0 ∨ 48 < cnt ∨ workerRangeBad off cnt = true ∨ ws = none) : writeWorkers t p ws = reject t p 0x0541 := by
  have rejects : countBad cnt = true ∨ workerRangeBad off cnt = true ∨ ws = none := by rw [countBad_iff]; tauto
  rcases rejects with h | h | h <;> simp [writeWorkers, count, offset, h]

theorem writeWorkers_some {ws : List Nat} (count : field p.body 2 2 = cnt) (offset : field p.body 4 4 = off) (some_ : 1 ≤ cnt) (few : cnt ≤ 48)
    (good : workerRangeBad off cnt = false) : writeWorkers t p (some ws) =
      if ∃ w ∈ ws, untouchable t w = true then reject t p 0x0540
      else reply (ws.foldl (fun s w => setWorker s w (workerWrites off cnt (p.body.drop 8))) t) p 0 [] := by
  have counted : countBad cnt = false := by simp [countBad]; omega
  have touched : (ws.any (fun w => (getWorker t w).run.isSome || inReadmission (getWorker t w)) = true) = ∃ w ∈ ws, untouchable t w = true := by
    simp [untouchable]
  simp only [writeWorkers, count, offset, counted, good, Bool.or_self, Bool.false_eq_true, if_false, touched, writeMany_worker]

/-- A reply after a change of other parts answers the request as it was taken. -/
theorem reply_answered_after {t v : State} {p : Pending} (boxes : v.mailboxes = t.mailboxes) (now : v.time.now = t.time.now)
    (inside : p.mailbox < t.mailboxes.length) (status : BitVec 16) (body : Bytes) : Answered t (reply v p status body) p status body := by
  have box : getMailbox v p.mailbox = getMailbox t p.mailbox := by rw [getMailbox, boxes, getMailbox]
  have same : replyOf v p status body = replyOf t p status body := by rw [replyOf, now, replyOf]
  have answered := reply_answered v p status body (boxes ▸ inside)
  unfold Answered at answered ⊢
  rwa [box, same] at answered

/-- What a swarm write and its reply leave: each addressed worker is written, and no other. -/
theorem swarm_replied {ws : List Nat} {f : Worker → Worker} (inside : p.mailbox < t.mailboxes.length) :
    let u := reply (ws.foldl (fun s w => setWorker s w f) t) p 0 []
    Answered t u p 0 [] ∧ u = { t with mailboxes := u.mailboxes, workers := u.workers } ∧ (∀ w, w ∉ ws → getWorker u w = getWorker t w)
      ∧ ((∀ x, f (f x) = f x) → ∀ w ∈ ws, getWorker u w = getWorker (setWorker t w f) w) := by
  obtain ⟨only, others⟩ := foldl_setWorker_frame (f := f) ws t
  have written (twice : ∀ x, f (f x) = f x) (w : Nat) := foldl_setWorker_of_idempotent twice ws t w
  generalize ws.foldl (fun s w => setWorker s w f) t = v at only others written
  have replied (w : Nat) : getWorker (reply v p 0 []) w = getWorker v w := rfl
  refine ⟨reply_answered_after (by rw [only]) (by rw [only]) inside 0 [], ?_, fun w away => (replied w).trans (others w away),
    fun twice w there => ?_⟩
  · rw [onlyMailbox_fields (reply_only v p 0 []), only]
  · rw [replied, written twice, if_pos there]

theorem exec_workerWriteRow {a : Nat} (ha : a ∈ [1, 2, 3, 4]) (n : Fin 16) :
    exec (workerWriteRow a n) s = clocked s (onRequest s n (isAction 0x0041 0 a writeAliases) writeWindow) := by
  simp only [List.mem_cons, List.not_mem_nil, or_false] at ha
  rcases ha with rfl | rfl | rfl | rfl <;> rfl

end Workers

/-- Settles O20: a bad write is rejected, one to the page is REGISTER_WRITEs in order, and one to workers writes each addressed worker
unless one of them is not to be touched. -/
theorem windowWrites : Obligations.WindowWrites := by
  intro s t n p cnt off count offset
  refine ⟨fun h => ⟨fun bad => ?_, fun some_ few good limit => ?_⟩, fun a ha h => ?_⟩
  · exact h.gives_reject rfl (by decide) (writeWindow_page_bad h.2 count offset bad)
  · have runs : standing t = false := (h.heard.read_eq standing fun _ => rfl).trans h.heard.1
    refine h.gives_then rfl (writeWindow_page h.2 count offset some_ few good limit) ?_
    rw [writeMany_pageWritten runs good]
  · have row := exec_workerWriteRow (s := s) ha n
    have answers := writeWindow_workers (t := t) ha h.2
    rw [h.heard.read_eq (fun s => (aliasNumbers s p).bind (reachAll s)) fun _ => rfl] at answers
    refine ⟨fun bad => ?_, fun ws some_ few good reached => ?_⟩
    · exact h.gives_reject row (by decide) (answers.trans (writeWorkers_bad count offset bad))
    rw [reached, writeWorkers_some count offset some_ few good] at answers
    have untouched (w : Nat) : untouchable t w = untouchable s w := h.heard.read_eq (fun s => untouchable s w) fun _ => rfl
    simp only [untouched] at answers
    refine ⟨fun held => ?_, fun free => ?_⟩
    · exact h.gives_reject row (by decide) (answers.trans (if_pos held))
    · have none_held : ¬ ∃ w ∈ ws, untouchable s w = true := fun ⟨w, hw, held⟩ => by simp [free w hw] at held
      have workers (w : Nat) : getWorker t w = getWorker s w := h.heard.read_eq (fun s => getWorker s w) fun _ => rfl
      obtain ⟨answered, only, others, written⟩ :=
        swarm_replied (ws := ws) (f := workerWrites off cnt (p.body.drop 8)) h.heard.mailbox_lt
      refine h.gives_then row (answers.trans (if_neg none_held)) ⟨answered, ?_, fun w away => (others w away).trans (workers w),
        fun one w there => ?_⟩
      · rw [only, onlyMailbox_fields h.heard.only]
      · have single : workerWrites off cnt (p.body.drop 8) = workerWrite off (field p.body 8 4) := by
          subst one
          funext x
          exact congrArg (fun v => workerWrite off v x) (field_drop p.body 8 0 4)
        rw [written (single ▸ workerWrite_twice _ _) w there, single, writeWorkerReg_eq]
        simp only [getWorker_setWorker, workers]
        rw [show t.workers = s.workers from h.heard.read_eq State.workers fun _ => rfl]

end Sys2Proof.Machine
end

section
namespace Sys2Proof.Machine

/-! ## Fields of a reply, part by part (R8, R9) -/

theorem field_skip_natLe {n off size : Nat} (v : Nat) (b : Bytes) (h : n ≤ off) : field (natLe n v ++ b) off size = field b (off - n) size := by
  have beyond : List.drop off (natLe n v) = [] := List.drop_of_length_le (by simpa using h)
  simp [field, fieldBytes, List.drop_append, beyond]

theorem field_natLe_head (n v : Nat) (b : Bytes) : field (natLe n v ++ b) 0 n = v % 256 ^ n := field_append_natLe [] b n v rfl

/-- The bits of a value below 2^k survive in its low bytes. -/
theorem natLe_bits_lt {count v : Nat} (h : v < 2 ^ count) : v < 256 ^ ceilDiv count 8 := by
  have bytes : count ≤ 8 * ceilDiv count 8 := by unfold ceilDiv; omega
  calc v < 2 ^ count := h
    _ ≤ 2 ^ (8 * ceilDiv count 8) := Nat.pow_le_pow_right (by decide) bytes
    _ = 256 ^ ceilDiv count 8 := Nat.pow_mul ..

theorem bit_eq_testBit (v i : Nat) : bit v i = v.testBit i := by
  rw [bit, Nat.testBit_eq_decide_div_mod_eq, Nat.shiftRight_eq_div_pow]
  rfl

/-! ## QUERY and PROGRESS_MAP (R336, R472) -/

/-- The bits of a map of units from one on. -/
theorem testBit_unitMap (us : List Nat) (first i : Nat) (above : ∀ u ∈ us, first ≤ u) :
    (us.foldl (fun m u => m ||| 2 ^ (u - first)) 0).testBit i = decide (first + i ∈ us) := by
  have each : ∀ (us : List Nat) (m : Nat), (∀ u ∈ us, first ≤ u) →
      (us.foldl (fun m u => m ||| 2 ^ (u - first)) m).testBit i = (m.testBit i || decide (first + i ∈ us)) := by
    intro us
    induction us with
    | nil => simp
    | cons u us ih =>
      intro m above
      have mine : (2 ^ (u - first)).testBit i = decide (first + i = u) := by
        have low := above u List.mem_cons_self
        rw [Nat.testBit_two_pow]
        exact decide_eq_decide.mpr (by omega)
      rw [List.foldl_cons, ih _ fun v hv => above v (List.mem_cons_of_mem u hv), Nat.testBit_or, mine]
      simp [Bool.or_assoc]
  simpa using each us 0 above

section Query
variable {s t : State} {n : Fin 16} {p : Pending} {o : Order}

theorem mem_knownUnits {g : Progress} {u : Nat} : u ∈ knownUnits g ↔ u ∈ g.live ∨ u ∈ g.durable := by
  simp only [knownUnits, List.mem_append, List.mem_filter, Bool.not_eq_true', List.contains_eq_mem, decide_eq_false_iff_not]
  tauto

theorem queryReply_length (s : State) (o : Order) : (queryReply s o).length = 312 := by
  simp [queryReply, stampNs, stampFrac]

theorem field_queryReply (s : State) (o : Order) : field (queryReply s o) 0 8 = o.number.toNat ∧ field (queryReply s o) 8 1 = orderCode o.state
    ∧ field (queryReply s o) 9 1 = o.run % 256 ∧ field (queryReply s o) 40 8 = o.acceptStamp / 65536 % 2 ^ 64
    ∧ field (queryReply s o) 48 2 = o.acceptStamp % 65536 := by
  have number := Nat.mod_eq_of_lt o.number.isLt
  have code := Nat.mod_eq_of_lt (orderCode_lt o.state)
  simp only [queryReply, stampNs, stampFrac, List.append_assoc]
  refine ⟨(field_natLe_head ..).trans number, ?_, ?_, ?_, ?_⟩
  all_goals repeat rw [field_skip_natLe _ _ (by decide)]
  · exact (field_natLe_head ..).trans code
  · exact field_natLe_head ..
  · exact field_natLe_head ..
  · exact (field_natLe_head ..).trans (Nat.mod_mod ..)

/-- The reply to a PROGRESS_MAP. -/
def progressReply (s : State) (o : Order) (number : BitVec 64) (k first count : Nat) : Bytes :=
  let g := progressOf o k
  natLe 8 number.toNat ++ natLe 4 k ++ natLe 1 (levelAt s o k) ++ natLe 1 (b2n o.fromJournal) ++ natLe 2 0 ++ natLe 8 first
    ++ natLe 4 count ++ natLe 4 0 ++ natLe (ceilDiv count 8) (if g.done || o.state == .complete then 2 ^ count - 1
      else ((knownUnits g).filter (fun u => first ≤ u && u < first + count)).foldl (fun m u => m ||| 2 ^ (u - first)) 0)

/-- The map of a PROGRESS_MAP tells of each unit whether it has committed. -/
theorem testBit_progressMap (o : Order) (k first count : Nat) {i : Nat} (inside : i < count) : let g := progressOf o k
    (if g.done || o.state == OrderState.complete then 2 ^ count - 1
      else ((knownUnits g).filter (fun u => first ≤ u && u < first + count)).foldl (fun m u => m ||| 2 ^ (u - first)) 0).testBit i
      = (g.done || o.state == OrderState.complete || decide (first + i ∈ g.live) || decide (first + i ∈ g.durable)) := by
  dsimp only
  split
  · next all => simp [all, inside]
  · next some_ =>
    rw [testBit_unitMap _ _ _ fun u hu => by simp at hu; omega, Bool.eq_false_of_not_eq_true some_]
    simp [mem_knownUnits, inside]

theorem progressMap_lt (o : Order) (k first count : Nat) : let g := progressOf o k
    (if g.done || o.state == OrderState.complete then 2 ^ count - 1
      else ((knownUnits g).filter (fun u => first ≤ u && u < first + count)).foldl (fun m u => m ||| 2 ^ (u - first)) 0) < 2 ^ count := by
  dsimp only
  split
  · exact Nat.sub_lt (Nat.two_pow_pos count) (by decide)
  · refine Nat.lt_pow_two_of_testBit _ fun i hi => ?_
    rw [testBit_unitMap _ _ _ fun u hu => by simp at hu; omega]
    simp
    omega

theorem field_progressReply (s : State) (o : Order) (number : BitVec 64) {k : Nat} (first : Nat) {count : Nat} (hk : k < 2 ^ 32) :
    field (progressReply s o number k first count) 0 8 = number.toNat ∧ field (progressReply s o number k first count) 8 4 = k
    ∧ field (progressReply s o number k first count) 13 1 = b2n o.fromJournal
    ∧ ∀ i < count, bit (field (progressReply s o number k first count) 32 (ceilDiv count 8)) i
        = ((progressOf o k).done || o.state == OrderState.complete || decide (first + i ∈ (progressOf o k).live) || decide (first + i ∈ (progressOf o k).durable)) := by
  have small : b2n o.fromJournal < 256 := by cases o.fromJournal <;> decide
  unfold progressReply
  simp only [List.append_assoc]
  refine ⟨(field_natLe_head ..).trans (Nat.mod_eq_of_lt number.isLt), ?_, ?_, fun i inside => ?_⟩
  all_goals repeat rw [field_skip_natLe _ _ (by decide)]
  · exact (field_natLe_head ..).trans (Nat.mod_eq_of_lt hk)
  · exact (field_natLe_head ..).trans (Nat.mod_eq_of_lt small)
  · rw [← List.append_nil (natLe (ceilDiv count 8) _), field_natLe_head,
      Nat.mod_eq_of_lt (natLe_bits_lt (progressMap_lt o k first count)), bit_eq_testBit]
    exact testBit_progressMap o k first count inside

end Query

/-! ## PROGRESS_RECORD (R460) -/

/-- An entry with units that a PROGRESS record now holds. -/
def recordUnits (fresh : List Nat) (now : Nat) (p : Progress) : Progress := { p with durable := p.durable ++ fresh, recordedAt := now }

/-- The Comb, the mailboxes and the runs stay, and an order that runs keeps what it knows of every instruction; more of its
units may be durable. -/
def ProgressKept (s t : State) : Prop :=
  t.comb = s.comb ∧ t.mailboxes = s.mailboxes ∧ t.runs = s.runs ∧ ∀ n o, findOrder s n = some o → ended o = false →
    ∃ o', findOrder t n = some o' ∧ ended o' = false ∧ ∀ k, (progressOf o' k).live = (progressOf o k).live
      ∧ (progressOf o' k).done = (progressOf o k).done ∧ (progressOf o k).durable ⊆ (progressOf o' k).durable

/-- A running order whose unit a PROGRESS record holds. -/
def UnitRecorded (n : BitVec 64) (k x : Nat) (s : State) : Prop :=
  ∃ o, findOrder s n = some o ∧ ended o = false ∧ x ∈ (progressOf o k).durable

section ProgressKept
variable {s t u : State}

theorem ProgressKept.refl (s : State) : ProgressKept s s :=
  ⟨rfl, rfl, rfl, fun _ o found running => ⟨o, found, running, fun _ => ⟨rfl, rfl, List.Subset.refl _⟩⟩⟩

theorem ProgressKept.trans (h : ProgressKept s t) (h' : ProgressKept t u) : ProgressKept s u := by
  obtain ⟨comb, boxes, runs, orders⟩ := h
  obtain ⟨comb', boxes', runs', orders'⟩ := h'
  refine ⟨comb'.trans comb, boxes'.trans boxes, runs'.trans runs, fun n o found running => ?_⟩
  obtain ⟨o₁, found₁, running₁, same₁⟩ := orders n o found running
  obtain ⟨o₂, found₂, running₂, same₂⟩ := orders' n o₁ found₁ running₁
  refine ⟨o₂, found₂, running₂, fun k => ?_⟩
  obtain ⟨live, done, durable⟩ := same₁ k
  obtain ⟨live', done', durable'⟩ := same₂ k
  exact ⟨live'.trans live, done'.trans done, fun _ hx => durable' (durable hx)⟩

theorem Journaled.progressKept (h : Journaled s t) : ProgressKept s t := by
  obtain ⟨⟨_, _, _, rfl⟩, live⟩ := h
  refine ⟨rfl, rfl, rfl, fun n o found running => ?_⟩
  obtain ⟨notice, found'⟩ := live n o found running
  exact ⟨_, found', running, fun _ => ⟨rfl, rfl, List.Subset.refl _⟩⟩

theorem ProgressKept.unitRecorded {n : BitVec 64} {k x : Nat} (h : ProgressKept s t) (recorded : UnitRecorded n k x s) : UnitRecorded n k x t := by
  obtain ⟨-, -, -, orders⟩ := h
  obtain ⟨o, found, running, held⟩ := recorded
  obtain ⟨o', found', running', same⟩ := orders n o found running
  obtain ⟨-, -, durable⟩ := same k
  exact ⟨o', found', running', durable held⟩

theorem ProgressKept.foldl {α : Type} {f : State → α → State} (hf : ∀ t a, ProgressKept t (f t a)) (l : List α) (s : State) :
    ProgressKept s (l.foldl f s) := by
  induction l generalizing s with
  | nil => exact .refl s
  | cons a l ih => exact (hf s a).trans (ih _)

/-- What one turn records stays recorded by the turns after it. -/
theorem UnitRecorded.foldl {α : Type} {f : State → α → State} {l : List α} {a : α} {n : BitVec 64} {k x : Nat} (turn : a ∈ l)
    (hf : ∀ t a, ProgressKept t (f t a)) (records : ∀ t, ProgressKept s t → UnitRecorded n k x (f t a)) :
    UnitRecorded n k x (l.foldl f s) := by
  obtain ⟨before, after, rfl⟩ := List.append_of_mem turn
  rw [List.foldl_append, List.foldl_cons]
  exact (ProgressKept.foldl hf after _).unitRecorded (records _ (.foldl hf before s))

/-- The entries of one instruction changed. -/
theorem progressOf_map (o : Order) (k m : Nat) (f : Progress → Progress) (hf : ∀ p, (f p).instr = p.instr) :
    progressOf { o with progress := o.progress.map (fun p => if p.instr == k then f p else p) } m
      = if m = k ∧ (o.progress.find? (fun p => p.instr == m)).isSome then f (progressOf o m) else progressOf o m := by
  have same : ((fun p : Progress => p.instr == m) ∘ fun p => if p.instr == k then f p else p) = fun p => p.instr == m := by
    funext p
    simp only [Function.comp_apply]
    split
    · rw [hf]
    · rfl
  simp only [progressOf, List.find?_map, same]
  cases found : o.progress.find? (fun p => p.instr == m) with
  | none => simp
  | some p =>
    have named : p.instr = m := by simpa using List.find?_some found
    simp [named]

theorem progressOf_recordUnits (o : Order) (k m : Nat) (fresh : List Nat) (now : Nat) :
    let o' := { o with progress := o.progress.map (fun p => if p.instr == k then recordUnits fresh now p else p) }
    (progressOf o' m).live = (progressOf o m).live ∧ (progressOf o' m).done = (progressOf o m).done
      ∧ (progressOf o m).durable ⊆ (progressOf o' m).durable := by
  dsimp only
  rw [progressOf_map o k m (recordUnits fresh now) fun _ => rfl]
  split
  · exact ⟨rfl, rfl, List.subset_append_left ..⟩
  · exact ⟨rfl, rfl, List.Subset.refl _⟩

theorem setProgress_progressKept (s : State) (r k : Nat) (fresh : List Nat) (now : Nat) :
    ProgressKept s (setProgress s r k (recordUnits fresh now)) := by
  unfold setProgress
  split
  · split
    · refine ⟨rfl, rfl, rfl, fun n o found running => ?_⟩
      rw [findOrder_setOrder (by exact fun _ => rfl), found, Option.map_some]
      refine ⟨_, rfl, ?_⟩
      split
      · exact ⟨running, fun m => progressOf_recordUnits o k m fresh now⟩
      · exact ⟨running, fun _ => ⟨rfl, rfl, List.Subset.refl _⟩⟩
    · exact .refl s
  · exact .refl s

/-- The record of the units of one instruction that are live and not yet durable. -/
def recordFresh (o : Order) (r : Nat) (s : State) (i : Issued) : State :=
  let p := progressOf o i.instr
  let fresh := p.live.filter (fun u => !p.durable.contains u)
  if p.done || fresh.isEmpty then s
  else
    let lo := fresh.foldl min (fresh.headD 0)
    let hi := fresh.foldl max 0
    let s := progressRecord s r i.instr lo (hi + 1 - lo) fresh
    setProgress s r i.instr (recordUnits fresh s.wall)

/-- PROGRESS_RECORD on one run. -/
def recordRun (s : State) (r : Nat) : State :=
  match getRun s r with
  | none => s
  | some rn =>
    match orderOf s rn with
    | none => s
    | some o => (rn.issued.filter (fun i => !i.op.micro && [0x72, 0x73, 0x75, 0x80].contains i.op.opcode)).foldl (recordFresh o r) s

theorem execProgressRecord_eq (s : State) : execProgressRecord s = clocked s ((List.range 8).foldl recordRun s) := rfl

theorem progressRecord_progressKept (s : State) (r k first count : Nat) (set : List Nat) :
    ProgressKept s (progressRecord s r k first count set) :=
  (journal_journaled (journaled_refl s)).progressKept

theorem recordFresh_progressKept (o : Order) (r : Nat) (s : State) (i : Issued) : ProgressKept s (recordFresh o r s i) := by
  unfold recordFresh
  dsimp only
  split
  · exact .refl s
  · exact (progressRecord_progressKept ..).trans (setProgress_progressKept ..)

theorem recordRun_progressKept (s : State) (r : Nat) : ProgressKept s (recordRun s r) := by
  unfold recordRun
  split
  · exact .refl s
  · split
    · exact .refl s
    · exact .foldl (recordFresh_progressKept _ r) _ s

theorem mem_live_isSome {o : Order} {k x : Nat} (h : x ∈ (progressOf o k).live) : (o.progress.find? (fun p => p.instr == k)).isSome := by
  unfold progressOf at h
  cases found : o.progress.find? (fun p => p.instr == k) with
  | none => simp [found] at h
  | some _ => rfl

/-- The turn of an instruction makes its live units durable; the order that the turn reads may be older. -/
theorem recordFresh_unitRecorded {o : Order} {r x : Nat} {rn : Run} {i : Issued} {n : BitVec 64} (kept : ProgressKept s t)
    (resident : getRun s r = some rn) (named : rn.order = some n) (found : findOrder s n = some o) (running : ended o = false)
    (unfinished : (progressOf o i.instr).done = false) (live : x ∈ (progressOf o i.instr).live) : UnitRecorded n i.instr x (recordFresh o r t i) := by
  by_cases old : x ∈ (progressOf o i.instr).durable
  · exact (kept.trans (recordFresh_progressKept o r t i)).unitRecorded ⟨o, found, running, old⟩
  have fresh : x ∈ (progressOf o i.instr).live.filter (fun u => !(progressOf o i.instr).durable.contains u) := by simp [live, old]
  have some_ : ((progressOf o i.instr).live.filter (fun u => !(progressOf o i.instr).durable.contains u)).isEmpty = false :=
    List.isEmpty_eq_false_iff.mpr (List.ne_nil_of_mem fresh)
  unfold recordFresh
  simp only [unfinished, some_, Bool.or_self, Bool.false_eq_true, if_false]
  obtain ⟨-, -, runs, orders⟩ := kept.trans (progressRecord_progressKept t r i.instr _ _ _)
  obtain ⟨o', found', running', same⟩ := orders n o found running
  obtain ⟨liveSame, -, -⟩ := same i.instr
  unfold setProgress
  rw [getRun_congr runs, resident]
  simp only [named]
  refine ⟨_, findOrder_setOrder_same (fun _ => rfl) found', running', ?_⟩
  rw [progressOf_map o' i.instr i.instr (recordUnits _ _) fun _ => rfl, if_pos ⟨rfl, mem_live_isSome (liveSame ▸ live)⟩]
  exact List.mem_append_right _ fresh

end ProgressKept

section Answers
variable {s t : State} {n : Fin 16} {p : Pending}

theorem Heard.gives_query_none (h : Heard s n 0x0021 t p) (unknown : findOrder t (BitVec.ofNat 64 (field p.body 0 8)) = none) :
    Gives (.query n) s (fun u => OnlyAnswers t u p 0x0520 (padTo 312 (natLe 8 (BitVec.ofNat 64 (field p.body 0 8)).toNat))) :=
  h.gives_reply rfl (by simp only [unknown])

theorem Heard.gives_query_some (h : Heard s n 0x0021 t p) {o : Order} (known : findOrder t (BitVec.ofNat 64 (field p.body 0 8)) = some o) :
    Gives (.query n) s (fun u => OnlyAnswers t u p 0 (queryReply t o)) :=
  h.gives_reply rfl (by simp only [known])

theorem Heard.gives_progressMap_unknown (h : Heard s n 0x0401 t p) (unknown : findOrder t (BitVec.ofNat 64 (field p.body 0 8)) = none) :
    Gives (.progressMap n) s (fun u => OnlyAnswers t u p 0x0520 []) :=
  h.gives_reject rfl (by decide) (by simp only [unknown])

theorem Heard.gives_progressMap_outside (h : Heard s n 0x0401 t p) {o : Order} (known : findOrder t (BitVec.ofNat 64 (field p.body 0 8)) = some o)
    (outside : let g := progressOf o (field p.body 8 4)
      field p.body 12 4 = 0 ∨ 524288 < field p.body 12 4 ∨ (g.units ≠ 0 ∧ g.units ≤ field p.body 16 8)) :
    Gives (.progressMap n) s (fun u => OnlyAnswers t u p 0x02F0 []) := by
  refine h.gives_reject rfl (by decide) ?_
  simp only [known]
  rw [if_pos (by simpa [or_assoc] using outside)]

theorem Heard.gives_progressMap (h : Heard s n 0x0401 t p) {o : Order} (known : findOrder t (BitVec.ofNat 64 (field p.body 0 8)) = some o)
    (some_ : 1 ≤ field p.body 12 4) (few : field p.body 12 4 ≤ 524288)
    (inside : (progressOf o (field p.body 8 4)).units = 0 ∨ field p.body 16 8 < (progressOf o (field p.body 8 4)).units) :
    Gives (.progressMap n) s (fun u => OnlyAnswers t u p 0 (progressReply t o (BitVec.ofNat 64 (field p.body 0 8)) (field p.body 8 4)
      (field p.body 16 8) (field p.body 12 4))) := by
  refine h.gives_reply rfl ?_
  simp only [known]
  rw [if_neg (by simp; omega)]
  rfl

end Answers

theorem progressRecord_durable {s : State} {r : Nat} {rn : Run} {o : Order} {i : Issued} (inside : r < 8) (resident : getRun s r = some rn)
    (carries : orderOf s rn = some o) (issued : i ∈ rn.issued) (running : ended o = false) (op : i.op.micro = false)
    (writes : i.op.opcode ∈ [0x72, 0x73, 0x75, 0x80]) (unfinished : (progressOf o i.instr).done = false) {x : Nat}
    (live : x ∈ (progressOf o i.instr).live) : UnitRecorded o.number i.instr x ((List.range 8).foldl recordRun s) := by
  obtain ⟨n, named, found⟩ := Option.bind_eq_some_iff.mp carries
  obtain rfl := number_of_findOrder found
  refine .foldl (List.mem_range.mpr inside) recordRun_progressKept fun t kept => ?_
  obtain ⟨-, -, runs, orders⟩ := id kept
  obtain ⟨o', found', running', same⟩ := orders _ o found running
  obtain ⟨liveSame, doneSame, -⟩ := same i.instr
  have resident' : getRun t r = some rn := (getRun_congr runs r).trans resident
  have carries' : orderOf t rn = some o' := by rw [orderOf, named, Option.bind_some, found']
  unfold recordRun
  simp only [resident', carries']
  refine .foldl (List.mem_filter.mpr ⟨issued, by simpa [op] using writes⟩) (recordFresh_progressKept o' r) fun v kept' => ?_
  exact recordFresh_unitRecorded kept' resident' named found' running' (doneSame ▸ unfinished) (liveSame ▸ live)

theorem field_queryUnknown (number : BitVec 64) : let body := padTo 312 (natLe 8 number.toNat)
    field body 0 8 = number.toNat ∧ field body 8 1 = 0 := by
  have padded : padTo 312 (natLe 8 number.toNat) = natLe 8 number.toNat ++ (natLe 1 0 ++ List.replicate 303 0) := by
    rw [padTo, List.take_of_length_le (by simp), natLe_length]
    rfl
  dsimp only
  rw [padded]
  refine ⟨(field_natLe_head ..).trans (Nat.mod_eq_of_lt number.isLt), ?_⟩
  rw [field_skip_natLe _ _ (by decide)]
  exact field_natLe_head ..

/-- Settles O46: the replies to QUERY and PROGRESS_MAP are read field by field, and PROGRESS_RECORD reaches every
unfinished instruction in its turn, while the turns before and after keep what is known of every running order. -/
theorem orderQueries : Obligations.OrderQueries := by
  unfold Obligations.OrderQueries
  intro s whole
  refine ⟨fun n t p heard => ?_, fun n t p heard => ?_, fun runs => ?_⟩
  · dsimp only
    refine ⟨fun unknown => ?_, fun o known runSmall stampSmall => ?_⟩
    · exact (heard.gives_query_none unknown).imp fun u ⟨row, answered⟩ => ⟨row, _, answered, field_queryUnknown _⟩
    · obtain ⟨number, state, run, ns, frac⟩ := field_queryReply t o
      refine (heard.gives_query_some known).imp fun u ⟨row, answered⟩ => ⟨row, _, answered, queryReply_length t o, ?_, state, ?_, ?_⟩
      · rw [number, number_of_findOrder known]
      · rw [run, Nat.mod_eq_of_lt runSmall]
      · rw [ns, frac]
        omega
  · dsimp only
    refine ⟨heard.gives_progressMap_unknown, fun o known => ⟨heard.gives_progressMap_outside known, fun some_ few inside => ?_⟩⟩
    exact (heard.gives_progressMap known some_ few inside).imp fun u ⟨row, answered⟩ =>
      ⟨row, _, answered, field_progressReply t o _ _ (field_lt ..)⟩
  · have kept := ProgressKept.foldl recordRun_progressKept (List.range 8) s
    obtain ⟨comb, boxes, -, -⟩ := kept
    refine ⟨_, clocked_of_clocked runs, comb, boxes, fun r rn o i inside resident carries issued running op writes unfinished x live => ?_⟩
    obtain ⟨o', found, -, durable⟩ := progressRecord_durable inside resident carries issued running op writes unfinished live
    exact ⟨o', found, durable⟩

end Sys2Proof.Machine
end

section
namespace Sys2Proof.Machine

/-! ## The inbound slot (R306) -/

theorem padTo_of_length {n : Nat} {b : Bytes} (h : b.length = n) : padTo n b = b := by
  simp [padTo, ← h]

theorem overlay_length (b : Bytes) (off : Nat) (src : Bytes) (h : off + src.length ≤ b.length) : (overlay b off src).length = b.length := by
  simp only [overlay, List.length_append, List.length_take, List.length_drop]
  omega

/-- A byte of a string with other bytes laid over it. -/
theorem getElem?_overlay (b : Bytes) (off : Nat) (src : Bytes) (h : off + src.length ≤ b.length) (i : Nat) :
    (overlay b off src)[i]? = if off ≤ i ∧ i < off + src.length then src[i - off]? else b[i]? := by
  have start : (b.take off).length = off := by rw [List.length_take]; omega
  have middle : src.take (b.length - off) = src := List.take_of_length_le (by omega)
  rw [overlay, middle]
  by_cases before : i < off
  · rw [if_neg (by omega), List.append_assoc, List.getElem?_append_left (by omega), List.getElem?_take_of_lt before]
  by_cases within : i < off + src.length
  · rw [if_pos ⟨by omega, within⟩, List.append_assoc, List.getElem?_append_right (by omega), start,
      List.getElem?_append_left (by omega)]
  · rw [if_neg (by omega), List.getElem?_append_right (by rw [List.length_append]; omega), List.length_append, start, List.getElem?_drop]
    congr 1
    omega

section Slots
variable {s : State} {n : Nat}

theorem slotWrite_free (inside : n < s.mailboxes.length) (free : (getMailbox s n).inFull = false) (off : Nat) (data : Bytes) :
    getMailbox (slotWrite s n off data) n
      = { getMailbox s n with inbound := padTo 256 (overlay (getMailbox s n).inbound off data) } := by
  rw [slotWrite, getMailbox_setMailbox_same _ _ _ inside, if_neg (by simp [free])]

theorem slotWrite_full (inside : n < s.mailboxes.length) (full : (getMailbox s n).inFull = true) (off : Nat) (data : Bytes) :
    getMailbox (slotWrite s n off data) n = { getMailbox s n with overrun := true } := by
  rw [slotWrite, getMailbox_setMailbox_same _ _ _ inside, if_pos full]

theorem slotPost_free (inside : n < s.mailboxes.length) (free : (getMailbox s n).inFull = false) :
    getMailbox (slotPost s n) n = { getMailbox s n with inFull := true } := by
  rw [slotPost, getMailbox_setMailbox_same _ _ _ inside, if_neg (by simp [free])]

theorem slotPost_full (inside : n < s.mailboxes.length) (full : (getMailbox s n).inFull = true) :
    getMailbox (slotPost s n) n = { getMailbox s n with overrun := true } := by
  rw [slotPost, getMailbox_setMailbox_same _ _ _ inside, if_pos full]

theorem slotWrite_only (s : State) (n off : Nat) (data : Bytes) : OnlyMailbox s (slotWrite s n off data) n := setMailbox_only ..
theorem slotPost_only (s : State) (n : Nat) : OnlyMailbox s (slotPost s n) n := setMailbox_only ..

end Slots

/-! ## The outbound slot (R306, R307, R310, R355) -/

/-- A mailbox whose slot holds this message, the rest behind it. -/
def putSlot (b : Mailbox) (m : OutMsg) (rest : List OutMsg) : Mailbox :=
  { putOut b (rest ++ b.unsent) with outbound := padTo 256 m.bytes, outFull := true, outCompletion := m.completion }

section Outbound
variable {s : State} {n : Nat} {m : OutMsg} {rest : List OutMsg}

theorem fillOut_next (empty : (getMailbox s n).outFull = false) (head : (getMailbox s n).queue = m :: rest) :
    fillOut s n = (let t := setMailbox s n (fun b => putSlot b m rest)
      if n == 0 then (if t.i3c.ibiEnabled then { t with i3c := { t.i3c with ibiRaised := true } } else t)
      else if n ≤ 8 then tspSend t (n - 1) 3 0 0 0 0 0 (padTo 256 m.bytes) else carryOut t n) := by
  unfold fillOut
  simp only [head, empty, Bool.false_eq_true, if_false]
  rfl

/-- A mailbox whose slot is empty again. -/
def emptySlot (b : Mailbox) : Mailbox := { b with outFull := false, outCompletion := none }

/-- Emptying the slot of a session's or a Waggle mailbox acknowledges nothing (R333). -/
theorem clearOut_transport (far : 8 < n) (full : (getMailbox s n).outFull = true) : clearOut s n = setMailbox s n emptySlot := by
  have first : (n == 0) = false := beq_false_of_ne (by omega)
  unfold clearOut
  simp only [full, first, Bool.not_true, Bool.false_eq_true, if_false]
  cases (getMailbox s n).outCompletion with
  | none => rfl
  | some o => exact if_neg (by omega)

theorem carryOut_session (low : 9 ≤ n) (high : n ≤ 13) (full : (getMailbox s n).outFull = true) :
    carryOut s n = if nth s.keeper.sessEnable (n - 9)
      then setMailbox (sendMgmt s (n - 9) (mgmtBytes 1 n 0 (getMailbox s n).outbound)) n emptySlot else s := by
  unfold carryOut
  simp only [full, low, high, Bool.not_true, Bool.false_eq_true, if_false, decide_true, Bool.and_self, if_true]
  rw [clearOut_transport (s := sendMgmt s _ _) (by omega) full]

theorem sendRemote_down (h : ∀ k, linkUp (getLink s k) = false) (dst : Nat) (msg : Bytes) : sendRemote s dst msg = s := by
  simp [sendRemote, h]

theorem carryOut_waggle (low : 14 ≤ n) (full : (getMailbox s n).outFull = true) (down : ∀ k, linkUp (getLink s k) = false) :
    carryOut s n = setMailbox s n emptySlot := by
  have high : ¬ n ≤ 13 := by omega
  unfold carryOut
  simp only [full, low, high, Bool.not_true, Bool.false_eq_true, if_false, decide_false, Bool.and_false, if_true]
  rw [clearOut_transport (by omega) full]
  exact sendRemote_down (s := setMailbox s n emptySlot) down _ _

end Outbound

section Tsp
variable {s : State} {p : Nat} {payload : Bytes}

theorem tspSend_down (down : portUp (getPartner s p) = false) (type ring flags seq offset : Nat) (tileCrc : BitVec 32) (fsend : Option Nat) :
    tspSend s p type ring flags seq offset tileCrc payload fsend = s := by simp [tspSend, down]

theorem tspSend_partners (s : State) (p type ring flags seq offset : Nat) (tileCrc : BitVec 32) (payload : Bytes) (fsend : Option Nat) :
    ∃ ps, tspSend s p type ring flags seq offset tileCrc payload fsend = { s with partners := ps } := by
  unfold tspSend
  split
  · exact ⟨_, rfl⟩
  · exact ⟨_, rfl⟩

theorem tspPumpPort_one (k : TspOut) (q : PartnerPort) : tspPumpPort [k] q
    = if tspMay q k.payload.length then { tspEmit q k with waiting := [] } else { q with waiting := [k] } := rfl

theorem tspSend_alone (inside : p < s.partners.length) (up : portUp (getPartner s p) = true) (first : (getPartner s p).waiting = [])
    (type ring flags seq offset : Nat) (tileCrc : BitVec 32) (fsend : Option Nat) :
    getPartner (tspSend s p type ring flags seq offset tileCrc payload fsend) p
      = tspPumpPort [{ type, ring, flags, seq, offset, tileCrc, payload, fsend }] (getPartner s p) := by
  rw [tspSend, if_neg (by simp [up]), getPartner_setPartner_same _ _ _ inside, first, List.nil_append]

/-- The type, the check and the payload of a packet (Table 11.2). -/
theorem tspBytes_parts (type ring flags seq offset : Nat) (tileCrc : BitVec 32) (bufCredit : Nat) (payload : Bytes) :
    ∃ mid check : Bytes, mid.length = 27 ∧ check.length = 4
      ∧ tspBytes type ring flags seq offset tileCrc bufCredit payload = natLe 1 type ++ (mid ++ (check ++ payload)) := by
  let mid := natLe 1 ring ++ natLe 2 flags ++ natLe 4 payload.length ++ natLe 8 (seq % 2 ^ 40) ++ natLe 4 offset
    ++ natLe 4 tileCrc.toNat ++ natLe 2 bufCredit ++ natLe 2 0
  have laid := overlay_middle (pre := natLe 1 type ++ mid) (old := natLe 4 0) (post := payload) (off := 28)
    (new := natLe 4 (crc32c (natLe 1 type ++ (mid ++ (natLe 4 0 ++ payload)))).toNat) (by simp [mid]) (by simp)
  refine ⟨mid, natLe 4 (crc32c (natLe 1 type ++ (mid ++ (natLe 4 0 ++ payload)))).toNat, by simp [mid], natLe_length .., ?_⟩
  simpa [tspBytes, mid] using laid

theorem tspBytes_type (type ring flags seq offset : Nat) (tileCrc : BitVec 32) (bufCredit : Nat) (payload : Bytes) :
    field (tspBytes type ring flags seq offset tileCrc bufCredit payload) 0 1 = type % 256 := by
  obtain ⟨mid, check, -, -, parts⟩ := tspBytes_parts type ring flags seq offset tileCrc bufCredit payload
  rw [parts]
  exact field_natLe_head 1 type _

theorem tspBytes_payload (type ring flags seq offset : Nat) (tileCrc : BitVec 32) (bufCredit : Nat) (payload : Bytes) :
    (tspBytes type ring flags seq offset tileCrc bufCredit payload).drop 32 = payload := by
  obtain ⟨mid, check, hm, hc, parts⟩ := tspBytes_parts type ring flags seq offset tileCrc bufCredit payload
  rw [parts, ← List.append_assoc, ← List.append_assoc]
  exact List.drop_left' (by simp [hm, hc])

end Tsp

/-! ## The reader's clear (R306, R333) -/

/-- Only the Keeper, the journal and the stamp last given differ. -/
def StampedBooks (s t : State) : Prop :=
  ∃ k j last, t = { s with keeper := k, journal := j, time := { s.time with lastStamp := last } }

section StampedBooks
variable {s₀ s : State}

theorem StampedBooks.refl (s : State) : StampedBooks s s := ⟨_, _, _, rfl⟩

theorem stamp_stampedBooks (h : StampedBooks s₀ s) : StampedBooks s₀ (stamp s).1 := by
  obtain ⟨_, _, _, rfl⟩ := h
  exact ⟨_, _, _, rfl⟩

theorem setJournal_stampedBooks {f : Journal → Journal} (h : StampedBooks s₀ s) : StampedBooks s₀ (setJournal s f) := by
  obtain ⟨_, _, _, rfl⟩ := h
  exact ⟨_, _, _, rfl⟩

theorem setKeeper_stampedBooks {f : Keeper → Keeper} (h : StampedBooks s₀ s) : StampedBooks s₀ (setKeeper s f) := by
  obtain ⟨_, _, _, rfl⟩ := h
  exact ⟨_, _, _, rfl⟩

theorem StampedBooks.foldl {α : Type} {f : State → α → State} {l : List α} (h : StampedBooks s₀ s)
    (hf : ∀ t a, StampedBooks s₀ t → StampedBooks s₀ (f t a)) : StampedBooks s₀ (l.foldl f s) := by
  induction l generalizing s with
  | nil => exact h
  | cons a l ih => exact ih (hf s a h)

theorem deliverAcks_stampedBooks (h : StampedBooks s₀ s) : StampedBooks s₀ (deliverAcks s) := by
  unfold deliverAcks
  dsimp only
  split
  · exact h
  · exact .foldl (setJournal_stampedBooks (setJournal_stampedBooks (stamp_stampedBooks h))) fun _ _ h => setKeeper_stampedBooks h

theorem checkpoint_stampedBooks (h : StampedBooks s₀ s) : StampedBooks s₀ (checkpoint s) := by
  unfold checkpoint
  exact setKeeper_stampedBooks (setJournal_stampedBooks (setJournal_stampedBooks (stamp_stampedBooks (deliverAcks_stampedBooks h))))

theorem writeDelivered_stampedBooks (h : StampedBooks s₀ s) : StampedBooks s₀ (writeDelivered s) := by
  unfold writeDelivered checkpointDue
  split
  · exact h
  · split
    · exact deliverAcks_stampedBooks h
    · exact checkpoint_stampedBooks (deliverAcks_stampedBooks h)

theorem ackNotice_stampedBooks (s : State) (order : BitVec 64) : StampedBooks s (ackNotice s order) := by
  unfold ackNotice
  split
  · exact .refl s
  · split
    · exact .refl s
    · have noted := setKeeper_stampedBooks (f := fun k =>
        { k with sources := k.sources.map (fun e => if e.source == orderSource order then { e with ackedAt := s.wall } else e) })
        (setJournal_stampedBooks (f := fun j =>
          { j with firstAckAt := if j.pendingAcks.isEmpty then s.wall else j.firstAckAt, pendingAcks := j.pendingAcks ++ [order] })
        (setKeeper_stampedBooks (f := fun k =>
          { k with orders := k.orders.map (fun o => if o.number == order then { o with notice := 2 } else o) }) (StampedBooks.refl s)))
      dsimp only
      split
      · exact noted
      · exact writeDelivered_stampedBooks noted

/-- Below 256 acknowledgements no record is stamped. -/
theorem ackNotice_time (few : s.journal.pendingAcks.length < 255) (order : BitVec 64) : (ackNotice s order).time = s.time := by
  unfold ackNotice
  split
  · rfl
  · split
    · rfl
    · have room : (s.journal.pendingAcks ++ [order]).length < 256 := by
        rw [List.length_append, List.length_singleton]
        omega
      dsimp only
      split
      · rfl
      · next full => exact absurd room full

end StampedBooks

section Clear
variable {s : State} {n : Nat}

/-- The state in which the slot is empty and the interrupt of mailbox 0 gone. -/
def slotCleared (s : State) (n : Nat) : State :=
  { setMailbox s n emptySlot with i3c := if n == 0 then { s.i3c with ibiRaised := false } else s.i3c }

theorem clearOut_full (full : (getMailbox s n).outFull = true) : clearOut s n = match (getMailbox s n).outCompletion with
    | some o => if n ≤ 8 then ackNotice (slotCleared s n) o else slotCleared s n
    | none => slotCleared s n := by
  have cleared : (if n == 0 then { setMailbox s n emptySlot with i3c := { (setMailbox s n emptySlot).i3c with ibiRaised := false } }
      else setMailbox s n emptySlot) = slotCleared s n := by
    unfold slotCleared
    split
    · rfl
    · rfl
  unfold clearOut
  simp only [full, Bool.not_true, Bool.false_eq_true, if_false]
  rw [← cleared]
  rfl

theorem clearOut_stampedBooks (full : (getMailbox s n).outFull = true) : StampedBooks (slotCleared s n) (clearOut s n) := by
  rw [clearOut_full full]
  split
  · split
    · exact ackNotice_stampedBooks ..
    · exact .refl _
  · exact .refl _

theorem clearOut_time (full : (getMailbox s n).outFull = true) (few : s.journal.pendingAcks.length < 255) : (clearOut s n).time = s.time := by
  rw [clearOut_full full]
  split
  · split
    · exact ackNotice_time (s := slotCleared s n) few _
    · rfl
  · rfl

theorem clearOut_silent (full : (getMailbox s n).outFull = true) (silent : (getMailbox s n).outCompletion = none ∨ 8 < n) :
    clearOut s n = slotCleared s n := by
  rw [clearOut_full full]
  cases told : (getMailbox s n).outCompletion with
  | none => rfl
  | some o => exact if_neg (by simpa [told] using silent)

end Clear

section Fill
variable {s : State} {n : Nat} {m : OutMsg} {rest : List OutMsg}

theorem fillOut_host (empty : (getMailbox s 0).outFull = false) (head : (getMailbox s 0).queue = m :: rest) :
    fillOut s 0 = { setMailbox s 0 (fun b => putSlot b m rest) with i3c := { s.i3c with ibiRaised := s.i3c.ibiEnabled || s.i3c.ibiRaised } } := by
  rw [fillOut_next empty head]
  dsimp only
  rw [if_pos (beq_self_eq_true 0), setMailbox_i3c]
  split
  · next on =>
    rw [on]
    rfl
  · next off =>
    have kept : s.i3c = { s.i3c with ibiRaised := s.i3c.ibiEnabled || s.i3c.ibiRaised } := by
      rw [Bool.eq_false_of_not_eq_true off, Bool.false_or]
    exact congrArg (fun c => { setMailbox s 0 (fun b => putSlot b m rest) with i3c := c }) kept

theorem fillOut_partner (first : n ≠ 0) (last : n ≤ 8) (empty : (getMailbox s n).outFull = false) (head : (getMailbox s n).queue = m :: rest) :
    fillOut s n = tspSend (setMailbox s n (fun b => putSlot b m rest)) (n - 1) 3 0 0 0 0 0 (padTo 256 m.bytes) := by
  rw [fillOut_next empty head]
  dsimp only
  rw [if_neg (by simpa using first), if_pos last]

theorem fillOut_transport (far : 8 < n) (empty : (getMailbox s n).outFull = false) (head : (getMailbox s n).queue = m :: rest) :
    fillOut s n = carryOut (setMailbox s n (fun b => putSlot b m rest)) n := by
  rw [fillOut_next empty head]
  dsimp only
  rw [if_neg (by simp; omega), if_neg (by omega)]

/-- A MAILBOX packet at a port where nothing waits. -/
theorem tspSend_mailbox {p : Nat} {bytes : Bytes} (inside : p < s.partners.length) (up : portUp (getPartner s p) = true)
    (first : (getPartner s p).waiting = []) (len : bytes.length = 256) :
    let q := getPartner s p
    let q' := getPartner (tspSend s p 3 0 0 0 0 0 bytes) p
    (tspMay q 256 = true → q'.waiting = [] ∧ ∃ x : Bytes, q'.sent = q.sent ++ [x] ∧ field x 0 1 = 3 ∧ x.drop 32 = bytes)
      ∧ (tspMay q 256 = false → q'.sent = q.sent ∧ ∃ k, q'.waiting = [k] ∧ k.type = 3 ∧ k.payload = bytes) := by
  dsimp only
  rw [tspSend_alone inside up first, tspPumpPort_one]
  dsimp only
  rw [len]
  refine ⟨fun may => ?_, fun mayNot => ?_⟩
  · rw [if_pos may]
    exact ⟨rfl, _, rfl, tspBytes_type .., tspBytes_payload ..⟩
  · rw [if_neg (by simp [mayNot])]
    exact ⟨rfl, _, rfl, rfl, rfl⟩

end Fill

section Rows
variable {s : State} {n : Fin 16} {m : OutMsg} {rest : List OutMsg}

theorem Whole.slot_length (whole : Whole s) (n : Fin 16) : (getMailbox s n).inbound.length = 256 := by
  have inside : n.val < s.mailboxes.length := by rw [whole.mailboxes]; exact n.isLt
  obtain ⟨-, slots, -⟩ := whole
  rw [getMailbox, nth, List.getElem?_eq_getElem inside]
  exact slots _ (List.getElem_mem inside)

theorem inboundWrite_free (whole : Whole s) (runs : standing s = false) (free : (getMailbox s n).inFull = false) {off : Nat} {data : Bytes}
    (fits : off + data.length ≤ 256) : Gives (.mbxInboundWrite n off data) s (fun t =>
      OnlyMailbox s t n ∧ getMailbox t n = { getMailbox s n with inbound := (getMailbox t n).inbound }
        ∧ ∀ i < 256, (getMailbox t n).inbound[i]?
            = if off ≤ i ∧ i < off + data.length then data[i - off]? else (getMailbox s n).inbound[i]?) := by
  have inside : n.val < s.mailboxes.length := by rw [whole.mailboxes]; exact n.isLt
  have len := whole.slot_length n
  have fits' : off + data.length ≤ (getMailbox s n).inbound.length := by rwa [len]
  refine ⟨_, clocked_of_clocked runs, slotWrite_only .., ?_, fun i _ => ?_⟩
  · rw [slotWrite_free inside free]
  · rw [slotWrite_free inside free, padTo_of_length ((overlay_length _ _ _ fits').trans len)]
    exact getElem?_overlay _ _ _ fits' i

theorem setMailbox_setMailbox (s : State) (n : Nat) (f g : Mailbox → Mailbox) : setMailbox (setMailbox s n f) n g = setMailbox s n (g ∘ f) := by
  simp only [setMailbox, updAt]
  rw [List.modify_modify_eq]

theorem outbound_host (whole : Whole s) (runs : standing s = false) (empty : (getMailbox s 0).outFull = false)
    (head : (getMailbox s 0).queue = m :: rest) : Gives (.outboundSlotFill 0) s (fun t =>
      getMailbox t 0 = putSlot (getMailbox s 0) m rest ∧ (∀ k, k ≠ 0 → getMailbox t k = getMailbox s k)
        ∧ t = { s with mailboxes := t.mailboxes, i3c := { s.i3c with ibiRaised := s.i3c.ibiEnabled || s.i3c.ibiRaised } }) := by
  have inside : 0 < s.mailboxes.length := by rw [whole.mailboxes]; decide
  refine ⟨_, (clocked_of_clocked runs).trans (congrArg _ (fillOut_host empty head)), ?_, fun k other => ?_, rfl⟩
  · exact getMailbox_setMailbox_same s 0 _ inside
  · exact getMailbox_setMailbox_ne s 0 k _ other.symm

theorem outbound_partner (whole : Whole s) (runs : standing s = false) (first : n.val ≠ 0) (last : n.val ≤ 8)
    (empty : (getMailbox s n).outFull = false) (head : (getMailbox s n).queue = m :: rest) :
    let p := n.val - 1
    Gives (.outboundSlotFill n) s (fun t =>
      getMailbox t n = putSlot (getMailbox s n) m rest ∧ (∀ k, k ≠ n.val → getMailbox t k = getMailbox s k)
        ∧ t = { s with mailboxes := t.mailboxes, partners := t.partners }
        ∧ (portUp (getPartner s p) = false → t.partners = s.partners)
        ∧ (portUp (getPartner s p) = true → (getPartner s p).waiting = [] →
            (tspMay (getPartner s p) 256 = true → (getPartner t p).waiting = []
              ∧ ∃ x : Bytes, (getPartner t p).sent = (getPartner s p).sent ++ [x] ∧ field x 0 1 = 3 ∧ x.drop 32 = padTo 256 m.bytes)
            ∧ (tspMay (getPartner s p) 256 = false → (getPartner t p).sent = (getPartner s p).sent
              ∧ ∃ k, (getPartner t p).waiting = [k] ∧ k.type = 3 ∧ k.payload = padTo 256 m.bytes))) := by
  have inside : n.val < s.mailboxes.length := by rw [whole.mailboxes]; exact n.isLt
  have port : n.val - 1 < s.partners.length := by rw [whole.partners]; omega
  obtain ⟨ps, sent⟩ := tspSend_partners (setMailbox s n (fun b => putSlot b m rest)) (n.val - 1) 3 0 0 0 0 0 (padTo 256 m.bytes) none
  refine ⟨_, (clocked_of_clocked runs).trans (congrArg _ (fillOut_partner first last empty head)), ?_, fun k other => ?_, ?_, fun down => ?_,
    fun up alone => ?_⟩
  · rw [sent]
    exact getMailbox_setMailbox_same s n _ inside
  · rw [sent]
    exact getMailbox_setMailbox_ne s n k _ other.symm
  · rw [sent]
    rfl
  · rw [tspSend_down (s := setMailbox s n _) down, setMailbox_partners]
  · exact tspSend_mailbox (s := setMailbox s n (fun b => putSlot b m rest)) port up alone (by simp [padTo]; omega)

theorem outbound_session_open (whole : Whole s) (runs : standing s = false) (low : 9 ≤ n.val) (high : n.val ≤ 13)
    (enabled : nth s.keeper.sessEnable (n.val - 9) = true) (empty : (getMailbox s n).outFull = false) (head : (getMailbox s n).queue = m :: rest) :
    Gives (.outboundSlotFill n) s (fun t => getMailbox t n = emptySlot (putSlot (getMailbox s n) m rest)
      ∧ t = { s with mailboxes := t.mailboxes, mgmt := t.mgmt }
      ∧ t.mgmt.sent = s.mgmt.sent ++ [natLe 16 (sessionAddr s (n.val - 9)).toNat ++ natBe 2 (nth s.keeper.sessPort (n.val - 9)).toNat
          ++ mgmtBytes 1 n 0 (padTo 256 m.bytes)]) := by
  have inside : n.val < s.mailboxes.length := by rw [whole.mailboxes]; exact n.isLt
  have slot := getMailbox_setMailbox_same s n (fun b => putSlot b m rest) inside
  have carried : fillOut s n = setMailbox (sendMgmt (setMailbox s n (fun b => putSlot b m rest)) (n.val - 9)
      (mgmtBytes 1 n 0 (padTo 256 m.bytes))) n emptySlot := by
    rw [fillOut_transport (by omega) empty head, carryOut_session low high (by rw [slot]; rfl), setMailbox_keeper, if_pos enabled, slot]
    rfl
  refine ⟨_, (clocked_of_clocked runs).trans (congrArg _ carried), ?_, rfl, rfl⟩
  rw [getMailbox_setMailbox_same _ _ _ (by simpa [sendMgmt, updAt] using inside)]
  exact congrArg emptySlot slot

theorem outbound_session_closed (whole : Whole s) (runs : standing s = false) (low : 9 ≤ n.val) (high : n.val ≤ 13)
    (disabled : nth s.keeper.sessEnable (n.val - 9) = false) (empty : (getMailbox s n).outFull = false) (head : (getMailbox s n).queue = m :: rest) :
    Gives (.outboundSlotFill n) s (fun t => OnlyMailbox s t n ∧ getMailbox t n = putSlot (getMailbox s n) m rest) := by
  have inside : n.val < s.mailboxes.length := by rw [whole.mailboxes]; exact n.isLt
  have slot := getMailbox_setMailbox_same s n (fun b => putSlot b m rest) inside
  have carried : fillOut s n = setMailbox s n (fun b => putSlot b m rest) := by
    rw [fillOut_transport (by omega) empty head, carryOut_session low high (by rw [slot]; rfl), setMailbox_keeper, if_neg (by simp [disabled])]
  exact ⟨_, (clocked_of_clocked runs).trans (congrArg _ carried), setMailbox_only .., slot⟩

theorem outbound_waggle (whole : Whole s) (runs : standing s = false) (low : 14 ≤ n.val) (down : ∀ k, linkUp (getLink s k) = false)
    (empty : (getMailbox s n).outFull = false) (head : (getMailbox s n).queue = m :: rest) :
    Gives (.outboundSlotFill n) s (fun t => OnlyMailbox s t n ∧ getMailbox t n = emptySlot (putSlot (getMailbox s n) m rest)) := by
  have inside : n.val < s.mailboxes.length := by rw [whole.mailboxes]; exact n.isLt
  have slot := getMailbox_setMailbox_same s n (fun b => putSlot b m rest) inside
  have carried : fillOut s n = setMailbox s n (emptySlot ∘ fun b => putSlot b m rest) := by
    rw [fillOut_transport (by omega) empty head, carryOut_waggle (s := setMailbox s n _) low (by rw [slot]; rfl) down, setMailbox_setMailbox]
  exact ⟨_, (clocked_of_clocked runs).trans (congrArg _ carried), setMailbox_only .., getMailbox_setMailbox_same s n _ inside⟩

theorem outAck_full (whole : Whole s) (runs : standing s = false) (full : (getMailbox s n).outFull = true) :
    Gives (.mbxOutAck n) s (fun t => getMailbox t n = emptySlot (getMailbox s n) ∧ (∀ k, k ≠ n.val → getMailbox t k = getMailbox s k)
      ∧ (n = 0 → t.i3c = { s.i3c with ibiRaised := false }) ∧ (n ≠ 0 → t.i3c = s.i3c)
      ∧ t = { s with mailboxes := t.mailboxes, i3c := t.i3c, keeper := t.keeper, journal := t.journal
                     time := { s.time with lastStamp := t.time.lastStamp } }
      ∧ (s.journal.pendingAcks.length < 255 → t.time = s.time)
      ∧ ((getMailbox s n).outCompletion = none ∨ 8 < n.val → t.keeper = s.keeper ∧ t.journal = s.journal ∧ t.time = s.time)) := by
  have inside : n.val < s.mailboxes.length := by rw [whole.mailboxes]; exact n.isLt
  obtain ⟨k, j, last, booked⟩ := clearOut_stampedBooks full
  refine ⟨_, clocked_of_clocked runs, ?_, fun k other => ?_, fun first => ?_, fun other => ?_, ?_, clearOut_time full, fun silent => ?_⟩
  · rw [booked]
    exact getMailbox_setMailbox_same s n emptySlot inside
  · rw [booked]
    exact getMailbox_setMailbox_ne s n k emptySlot other.symm
  · subst first
    rw [booked]
    rfl
  · rw [booked]
    exact if_neg fun zero => other (Fin.ext (eq_of_beq zero))
  · rw [booked]
    rfl
  · rw [clearOut_silent full silent]
    exact ⟨rfl, rfl, rfl⟩

end Rows

/-- Settles O10: each slot operation is stated once for each state of the slot; the transports follow mailbox by mailbox. -/
theorem mailboxSlots : Obligations.MailboxSlots := by
  unfold Obligations.MailboxSlots
  refine ⟨fun s n whole runs => ?_, fun s n whole runs => ⟨fun m rest empty head => ?_, outAck_full whole runs⟩⟩
  · have inside : n.val < s.mailboxes.length := by rw [whole.mailboxes]; exact n.isLt
    refine ⟨fun free => ⟨fun off data fits => inboundWrite_free whole runs free fits, ?_⟩, fun full => ⟨fun off data => ?_, ?_⟩⟩
    · exact ⟨_, clocked_of_clocked runs, slotPost_only .., slotPost_free inside free⟩
    · exact ⟨_, clocked_of_clocked runs, slotWrite_only .., slotWrite_full inside full off data⟩
    · exact ⟨_, clocked_of_clocked runs, slotPost_only .., slotPost_full inside full⟩
  · refine ⟨fun last => ?_, fun low high enabled => outbound_session_open whole runs low high enabled empty head,
      fun low high disabled => outbound_session_closed whole runs low high disabled empty head,
      fun low down => outbound_waggle whole runs low down empty head⟩
    by_cases first : n = 0
    · subst first
      obtain ⟨t, filled, slot, others, raised⟩ := outbound_host whole runs empty head
      exact ⟨t, filled, slot, others, fun _ => raised, fun other => absurd rfl other⟩
    · obtain ⟨t, filled, slot, others, rest⟩ := outbound_partner whole runs (fun zero => first (Fin.ext zero)) last empty head
      exact ⟨t, filled, slot, others, fun zero => absurd zero first, fun _ => rest⟩

end Sys2Proof.Machine
end

section
namespace Sys2Proof.Machine

/-! ## Private transfers (R309) -/

theorem readMany_succ (rd : State → Nat → State × Reg) (s : State) (off n : Nat) : readMany rd s off (n + 1)
    = ((rd (readMany rd s off n).1 (off + 4 * n)).1, (readMany rd s off n).2 ++ [(rd (readMany rd s off n).1 (off + 4 * n)).2]) := by
  simp only [readMany, List.range_succ, List.foldl_append, List.foldl_cons, List.foldl_nil]

/-- The registers whose reads latch others: TIM_NOW_LO and the low halves of the energy counters (R177, R415). -/
def Latches (off : Nat) : Prop := off = 0x4000 ∨ (0x4140 ≤ off ∧ off < 0x4180)

/-- Only what a latching read holds differs. -/
def LatchedOnly (s t : State) : Prop := ∃ time power, t = { s with time := time, power := power }

section Read
variable {s t : State}

theorem readPage_latchedOnly (h : LatchedOnly s t) (off : Nat) : LatchedOnly s (readPage t off).1 := by
  obtain ⟨_, _, rfl⟩ := h
  unfold readPage
  dsimp only
  split
  · exact ⟨_, _, rfl⟩
  · split
    · exact ⟨_, _, rfl⟩
    · exact ⟨_, _, rfl⟩

theorem readPage_value (s : State) (off : Nat) : (readPage s off).2 = pageWord s off := by
  unfold readPage
  dsimp only
  split
  · rfl
  · split
    · rfl
    · rfl

theorem readPage_still {off : Nat} (still : ¬ Latches off) : readPage s off = (s, pageWord s off) := by
  obtain ⟨clear, quiet⟩ := not_or.mp still
  exact readPage_plain clear (by omega)

theorem readMany_page (s : State) (off : Nat) : ∀ n, (readMany readPage s off n).2.length = n ∧ LatchedOnly s (readMany readPage s off n).1
    ∧ ((readMany readPage s off n).1 = s ∨ ∃ j < n, Latches (off + 4 * j))
    ∧ ∀ i < n, (readMany readPage s off n).2[i]? = some (pageWord s (off + 4 * i)) ∨ ∃ j < i, Latches (off + 4 * j)
  | 0 => ⟨rfl, ⟨_, _, rfl⟩, .inl rfl, fun _ h => absurd h (Nat.not_lt_zero _)⟩
  | n + 1 => by
    obtain ⟨count, only, same, words⟩ := readMany_page s off n
    rw [readMany_succ]
    refine ⟨by simp [count], readPage_latchedOnly only _, ?_, fun i below => ?_⟩
    · rcases same with same | ⟨j, before, latches⟩
      · by_cases latches : Latches (off + 4 * n)
        · exact .inr ⟨n, Nat.lt_succ_self n, latches⟩
        · rw [same, readPage_still latches]
          exact .inl rfl
      · exact .inr ⟨j, Nat.lt_succ_of_lt before, latches⟩
    · rcases Nat.lt_succ_iff_lt_or_eq.mp below with before | rfl
      · rw [List.getElem?_append_left (by rwa [count])]
        exact words i before
      · rcases same with same | latched
        · rw [List.getElem?_append_right (by rw [count]), count, Nat.sub_self, same, readPage_value]
          exact .inl rfl
        · exact .inr latched

theorem flatMap_natLe_length (ws : List Reg) : (ws.flatMap (fun w => natLe 4 w.toNat)).length = 4 * ws.length := by
  simp [List.length_flatMap, Nat.mul_comm]

/-- Word i of a read's bytes. -/
theorem word_of_flatMap {ws : List Reg} {i : Nat} {w : Reg} (h : ws[i]? = some w) :
    ((ws.flatMap (fun w => natLe 4 w.toNat)).drop (4 * i)).take 4 = natLe 4 w.toNat := by
  obtain ⟨inside, rfl⟩ := List.getElem?_eq_some_iff.mp h
  have before : ((ws.take i).flatMap (fun w => natLe 4 w.toNat)).length = 4 * i := by
    rw [flatMap_natLe_length, List.length_take, Nat.min_eq_left (Nat.le_of_lt inside)]
  have parts : ws = ws.take i ++ ws[i] :: ws.drop (i + 1) := by rw [List.getElem_cons_drop, List.take_append_drop]
  conv_lhs => rw [parts]
  rw [List.flatMap_append, List.drop_left' before, List.flatMap_cons, List.take_left' (natLe_length ..)]

theorem privateRead (runs : standing s = false) (good : s.i3c.refused = false) (k : Nat) : Gives (.i3cPrivateRead k) s (fun t =>
    t.i3c = { s.i3c with offset := s.i3c.offset + 4 * k, readData := t.i3c.readData } ∧ t.i3c.readData.length = 4 * k
      ∧ t = { s with i3c := t.i3c, time := t.time, power := t.power }
      ∧ (∀ i < k, (t.i3c.readData.drop (4 * i)).take 4 = natLe 4 (pageWord s (s.i3c.offset + 4 * i)).toNat
          ∨ ∃ j < i, Latches (s.i3c.offset + 4 * j))) := by
  obtain ⟨count, ⟨time, power, only⟩, -, words⟩ := readMany_page s s.i3c.offset k
  have read : exec (.i3cPrivateRead k) s = .next { (readMany readPage s s.i3c.offset k).1 with
      i3c := { (readMany readPage s s.i3c.offset k).1.i3c with
        offset := s.i3c.offset + 4 * k, readData := (readMany readPage s s.i3c.offset k).2.flatMap (fun w => natLe 4 w.toNat) } } :=
    (clocked_of_clocked runs).trans (congrArg _ (if_neg (by simp [good])))
  refine ⟨_, read, ?_, ?_, ?_, fun i below => ?_⟩
  · rw [only]
  · rw [flatMap_natLe_length, count]
  · rw [only]
  · exact (words i below).imp_left word_of_flatMap

end Read

section Write
variable {s : State} {d : Bytes}

/-- A private write that writes nothing is refused and counted. -/
theorem i3cWrite_refused (bad : d.length < 4 ∨ d.length % 4 ≠ 0 ∨ field d 0 4 % 4 ≠ 0 ∨ (8 ≤ d.length ∧ i3cWritable (field d 0 4) = false)) :
    i3cWrite s d = { setKeeper s (fun k => { k with i3cErr := satAdd k.i3cErr 1 }) with i3c := { s.i3c with refused := true } } := by
  refine if_pos ?_
  simp only [Bool.or_eq_true, decide_eq_true_iff, bne_iff_ne, List.any_eq_true, Bool.not_eq_true', List.mem_range]
  rcases bad with short | odd | misaligned | ⟨long, out⟩
  · exact .inl (.inl (.inl short))
  · exact .inl (.inr odd)
  · exact .inl (.inl (.inr misaligned))
  · exact .inr ⟨0, by omega, out⟩

theorem i3cWrite_offset (len : d.length = 4) (aligned : field d 0 4 % 4 = 0) :
    i3cWrite s d = { s with i3c := { s.i3c with offset := field d 0 4, refused := false } } := by
  simp [i3cWrite, len, aligned]

theorem writePage_netAddr {t : State} (j : Fin 4) (v : Nat) : writePage t (0x1300 + 4 * j.val) v
    = setKeeper t (fun k => { k with netAddr := updAt k.netAddr j (fun _ => BitVec.ofNat 32 v) }) :=
  match j with
  | 0 => rfl
  | 1 => rfl
  | 2 => rfl
  | 3 => rfl

theorem i3cWrite_netAddr (j : Fin 4) (len : d.length = 8) (offset : field d 0 4 = 0x1300 + 4 * j.val) :
    i3cWrite s d = { setKeeper s (fun k => { k with netAddr := updAt k.netAddr j (fun _ => BitVec.ofNat 32 (field d 4 4)) }) with
      i3c := { s.i3c with offset := 0x1300 + 4 * j.val, refused := false } } := by
  have open_ : i3cWritable (0x1300 + 4 * j.val) = true := by
    clear offset
    revert j
    decide
  have aligned : (0x1300 + 4 * j.val) % 4 = 0 := by omega
  simp only [i3cWrite, len, offset, aligned]
  rw [if_neg (by simpa using open_)]
  exact writePage_netAddr j _

end Write

/-- Settles O13: a private write is refused as a whole or made as a whole, and a private read reads every register of the
state before it, up to the first that latches others. -/
theorem i3cTransport : Obligations.I3cTransport := by
  unfold Obligations.I3cTransport
  refine ⟨fun s runs => ?_, fun s runs => ?_⟩
  · have row {t : State} : clocked s t = .next t := clocked_of_clocked runs
    refine ⟨fun a d same => ?_, fun a d other => ?_, fun d free => ?_, fun d held => ?_, row, row, row, ⟨_, row, rfl, ?_⟩, ⟨_, row, rfl, rfl⟩,
      ⟨_, row, rfl, rfl⟩, ⟨_, row, rfl, ?_⟩⟩
    · exact row.trans (congrArg _ (if_pos (by simpa using same)))
    · exact row.trans (congrArg _ (if_neg (by simpa using other)))
    · exact row.trans (congrArg _ (if_pos (by simp [free])))
    · exact row.trans (congrArg _ (if_neg (by simpa using held)))
    · rfl
    · rfl
  · have row {t : State} : clocked s t = .next t := clocked_of_clocked runs
    refine ⟨fun d len aligned => ?_, fun d bad => ?_, fun d j len offset => ?_, fun k refused => ?_, fun k good => privateRead runs good k⟩
    · exact row.trans (congrArg _ (i3cWrite_offset len aligned))
    · exact row.trans (congrArg _ (i3cWrite_refused bad))
    · exact ⟨_, row.trans (congrArg _ (i3cWrite_netAddr j len offset)), rfl, rfl⟩
    · exact row.trans (congrArg _ (if_pos refused))

end Sys2Proof.Machine
end

section
namespace Sys2Proof.Machine

/-! ## The image store (R318, R319) -/

/-- A copy of the image store marked as one that has missed a write. -/
def markStale (s : State) (m : Nat) : State := setMemPort s m (fun p => { p with imageStale := true })

/-- Bytes of a slot written into the copy of one stack. -/
def writeCopy (slot off : Nat) (data : Bytes) (s : State) (m : Nat) : State := writeStack s (bytesAt (imageAddr s m slot off) data)

/-- The same on the bytes of the stacks. -/
def laidCopy (s : State) (slot off : Nat) (data : Bytes) (mem : List Host.Cell) (m : Nat) : List Host.Cell :=
  memSetMany stackDefault (bytesAt (imageAddr s m slot off) data) mem

/-- Only the memory ports differ, and each reports the capacity that it did. -/
def PortsMarked (s t : State) : Prop := (∃ mems, t = { s with mems := mems }) ∧ t.mems.length = s.mems.length ∧ stackC t = stackC s

section Image
variable {s t : State} {slot off : Nat} {data : Bytes}

theorem map_updAt_same {α β : Type} (l : List α) (i : Nat) (f : α → α) (g : α → β) (h : ∀ a, g (f a) = g a) : (updAt l i f).map g = l.map g := by
  refine List.ext_getElem? fun j => ?_
  simp only [updAt, List.getElem?_map, List.getElem?_modify]
  split
  · cases l[j]? with
    | none => rfl
    | some a => exact congrArg some (h a)
  · simp

theorem stackC_setMemPort {m : Nat} {f : MemPort → MemPort} (hf : ∀ p, (f p).stackGiB = p.stackGiB) : stackC (setMemPort s m f) = stackC s := by
  unfold stackC
  rw [setMemPort_mems, map_updAt_same _ m f (fun p => p.stackGiB.toNat) fun p => congrArg _ (hf p)]

theorem markStale_portsMarked (h : PortsMarked s t) (m : Nat) : PortsMarked s (markStale t m) := by
  obtain ⟨⟨_, rfl⟩, len, capacity⟩ := h
  exact ⟨⟨_, rfl⟩, (List.length_modify ..).trans len, (stackC_setMemPort (by exact fun _ => rfl)).trans capacity⟩

theorem foldl_markStale (s : State) (l : List Nat) (inside : ∀ m ∈ l, m < s.mems.length) :
    PortsMarked s (l.foldl markStale s)
      ∧ ∀ m, getMemPort (l.foldl markStale s) m = if m ∈ l then { getMemPort s m with imageStale := true } else getMemPort s m := by
  induction l using List.reverseRecOn with
  | nil => exact ⟨⟨⟨_, rfl⟩, rfl, rfl⟩, fun _ => rfl⟩
  | append_singleton l k ih =>
    obtain ⟨marked, ports⟩ := ih fun m hm => inside m (List.mem_append_left _ hm)
    rw [List.foldl_append, List.foldl_cons, List.foldl_nil]
    refine ⟨markStale_portsMarked marked k, fun m => ?_⟩
    obtain ⟨-, len, -⟩ := marked
    by_cases own : k = m
    · subst own
      rw [markStale, getMemPort_setMemPort_same _ _ _ (len ▸ inside k (by simp)), ports,
        if_pos (List.mem_append_right l (List.mem_singleton_self k))]
      split
      · rfl
      · rfl
    · rw [markStale, getMemPort_setMemPort_ne _ _ _ _ own, ports]
      simp [Ne.symm own]

theorem foldl_writeCopy (s : State) (l : List Nat) :
    l.foldl (writeCopy slot off data) s = { s with stackMem := l.foldl (laidCopy s slot off data) s.stackMem } := by
  induction l using List.reverseRecOn with
  | nil => rfl
  | append_singleton l k ih =>
    rw [List.foldl_append, ih, List.foldl_append]
    rfl

theorem imageAddr_congr (h : stackC t = stackC s) (m : Nat) : imageAddr t m slot off = imageAddr s m slot off := by
  rw [imageAddr, h, imageAddr]

/-- The copies whose stack is up, and those whose stack is down. -/
def copiesUp (s : State) : List Nat := [1, 3].filter (stackUp s)
def copiesDown (s : State) : List Nat := [1, 3].filter (fun m => !(copiesUp s).contains m)

theorem mem_copiesDown {m : Nat} : m ∈ copiesDown s ↔ (m = 1 ∨ m = 3) ∧ stackUp s m = false := by
  simp only [copiesDown, copiesUp, List.mem_filter, List.mem_cons, List.not_mem_nil, or_false, Bool.not_eq_true', List.contains_eq_mem,
    decide_eq_false_iff_not, not_and, Bool.not_eq_true]
  tauto

theorem copiesUp_isEmpty : (copiesUp s).isEmpty = true ↔ stackUp s 1 = false ∧ stackUp s 3 = false := by
  simp [copiesUp]

theorem writeImage_eq (s : State) (slot off : Nat) (data : Bytes) : writeImage s slot off data
    = if 7 < slot ∨ 2 ^ 31 < off + data.length then (s, 0x0550)
      else if slotBusy s slot = true then (s, 0x0551)
      else if stackUp s 1 = false ∧ stackUp s 3 = false then (s, 0x0402)
      else ((copiesUp s).foldl (writeCopy slot off data) ((copiesDown s).foldl markStale s), 0) := by
  have outside : (decide (7 < slot) || decide (2 ^ 31 < off + data.length)) = true ↔ 7 < slot ∨ 2 ^ 31 < off + data.length := by
    rw [Bool.or_eq_true, decide_eq_true_iff, decide_eq_true_iff]
  exact if_congr outside rfl (if_congr Iff.rfl rfl (if_congr copiesUp_isEmpty rfl rfl))

/-- What an image write that is not refused leaves. -/
theorem writtenImage (count : s.mems.length = 4) : let u := (copiesUp s).foldl (writeCopy slot off data) ((copiesDown s).foldl markStale s)
    u = { s with stackMem := (copiesUp s).foldl (laidCopy s slot off data) s.stackMem, mems := u.mems }
      ∧ ∀ m, getMemPort u m = if (m = 1 ∨ m = 3) ∧ stackUp s m = false then { getMemPort s m with imageStale := true } else getMemPort s m := by
  have inside : ∀ m ∈ copiesDown s, m < s.mems.length := fun m hm => by
    have named := (mem_copiesDown.mp hm).1
    omega
  obtain ⟨⟨⟨mems, only⟩, -, capacity⟩, ports⟩ := foldl_markStale s (copiesDown s) inside
  have same : laidCopy ((copiesDown s).foldl markStale s) slot off data = laidCopy s slot off data := by
    funext mem m
    rw [laidCopy, imageAddr_congr capacity, laidCopy]
  dsimp only
  rw [foldl_writeCopy, same]
  refine ⟨?_, fun m => (ports m).trans (by simp only [mem_copiesDown])⟩
  rw [only]

theorem imageWritten_writeImage (count : s.mems.length = 4) (slot off : Nat) (data : Bytes) :
    ImageWritten s (writeImage s slot off data).1 slot off data (writeImage s slot off data).2
      ∧ ∃ stackMem mems, (writeImage s slot off data).1 = { s with stackMem := stackMem, mems := mems } := by
  obtain ⟨only, ports⟩ := writtenImage (slot := slot) (off := off) (data := data) count
  have here : s = { s with stackMem := s.stackMem, mems := s.mems } := rfl
  rw [writeImage_eq]
  unfold ImageWritten
  split
  · exact ⟨⟨rfl, fun _ => ⟨rfl, rfl⟩, fun zero => absurd zero (by rintro ⟨⟩)⟩, _, _, here⟩
  · split
    · exact ⟨⟨rfl, fun _ => ⟨rfl, rfl⟩, fun zero => absurd zero (by rintro ⟨⟩)⟩, _, _, here⟩
    · split
      · exact ⟨⟨rfl, fun _ => ⟨rfl, rfl⟩, fun zero => absurd zero (by rintro ⟨⟩)⟩, _, _, here⟩
      · refine ⟨⟨rfl, fun other => absurd rfl other, fun _ => ⟨?_, ports⟩⟩, _, _, only⟩
        rw [only]
        rfl

/-- Image bytes touch nothing but the slot's bytes in the copies. -/
theorem laidCopies_other {a : Nat} (canonical : memWf stackDefault s.stackMem = true) (l : List Nat)
    (away : ∀ m ∈ l, a < imageAddr s m slot off ∨ imageAddr s m slot off + data.length ≤ a) :
    memGet stackDefault (l.foldl (laidCopy s slot off data) s.stackMem) a = memGet stackDefault s.stackMem a := by
  have both : memWf stackDefault (l.foldl (laidCopy s slot off data) s.stackMem) = true
      ∧ memGet stackDefault (l.foldl (laidCopy s slot off data) s.stackMem) a = memGet stackDefault s.stackMem a := by
    induction l using List.reverseRecOn with
    | nil => exact ⟨canonical, rfl⟩
    | append_singleton l k ih =>
      obtain ⟨wf, same⟩ := ih fun m hm => away m (List.mem_append_left _ hm)
      rw [List.foldl_append, List.foldl_cons, List.foldl_nil]
      refine ⟨memSetMany_wf _ _ _ wf, (memGet_memSetMany_other _ _ _ _ wf fun w hw => ?_).trans same⟩
      have range := bytesAt_lt data (imageAddr s k slot off) w hw
      have outside := away k (by simp)
      omega
  exact both.2

theorem writeImage_other (count : s.mems.length = 4) (canonical : memWf stackDefault s.stackMem = true) {a : Nat}
    (away : ∀ m ∈ [1, 3], stackUp s m = true → a < imageAddr s m slot off ∨ imageAddr s m slot off + data.length ≤ a) :
    readStack (writeImage s slot off data).1 a = readStack s a := by
  obtain ⟨⟨code, refused, written⟩, -⟩ := imageWritten_writeImage count slot off data
  by_cases good : (writeImage s slot off data).2 = 0
  · rw [readStack, (written good).1]
    exact laidCopies_other canonical (copiesUp s) fun m up => by
      obtain ⟨named, running⟩ := List.mem_filter.mp up
      exact away m named running
  · rw [readStack, (refused good).1, readStack]

end Image

/-! ## Datagrams (R310) -/

section Datagram
variable {s : State} {addr : BitVec 128} {port : BitVec 16} {b : Bytes} {kind ses : Nat} {f : Nat → State}

theorem sessionOf_lt (h : sessionOf s addr port = some ses) : ses < 5 := List.mem_range.mp (List.mem_of_find?_eq_some h)

/-- A datagram of a kind that the other row does not take. -/
def OwnKind (b : Bytes) (kind : Nat) : Prop := ¬ (field b 0 1 = 2 ∧ kind = 1) ∧ ¬ ((field b 0 1 = 1 ∨ field b 0 1 = 3) ∧ kind = 2)

/-- What R310 checks of a datagram of a session. -/
def badDatagram (b : Bytes) (kind ses : Nat) : Bool :=
  (crc32c (zeroField b 4 4)).toNat != field b 4 4 || !(field b 0 1 == kind || field b 0 1 == 3) || b.length != 16 + field b 2 2
    || (field b 0 1 == 1 && (field b 1 1 != 9 + ses || field b 2 2 != 256))
    || (field b 0 1 == 2 && !(1 ≤ field b 2 2 && field b 2 2 ≤ 8192))

theorem mgmtReceive_own (own : OwnKind b kind) : mgmtReceive s addr port b kind f = match sessionOf s addr port with
    | none => dropMgmt s
    | some ses => if badDatagram b kind ses then dropMgmt s else if field b 0 1 == 3 then s else f ses :=
  if_neg (by simpa [OwnKind, not_or, imp_false] using own)

theorem mgmtReceive_stranger (own : OwnKind b kind) (h : sessionOf s addr port = none ∨ ∃ ses, sessionOf s addr port = some ses ∧ badDatagram b kind ses = true) :
    mgmtReceive s addr port b kind f = dropMgmt s := by
  rw [mgmtReceive_own own]
  rcases h with none_ | ⟨ses, from_, bad⟩
  · simp only [none_]
  · simp only [from_, bad, if_true]

theorem mgmtReceive_good (own : OwnKind b kind) (from_ : sessionOf s addr port = some ses) (good : badDatagram b kind ses = false) :
    mgmtReceive s addr port b kind f = if field b 0 1 == 3 then s else f ses := by
  rw [mgmtReceive_own own]
  simp only [from_, good, Bool.false_eq_true, if_false]

theorem dropMgmt_of_stranger (own : OwnKind b kind)
    (h : sessionOf s addr port = none ∨ (crc32c (zeroField b 4 4)).toNat ≠ field b 4 4 ∨ (field b 0 1 ≠ kind ∧ field b 0 1 ≠ 3)
      ∨ (field b 0 1 = 1 ∧ ∃ k, sessionOf s addr port = some k ∧ field b 1 1 ≠ 9 + k)) : mgmtReceive s addr port b kind f = dropMgmt s := by
  refine mgmtReceive_stranger own ?_
  cases from_ : sessionOf s addr port with
  | none => exact .inl rfl
  | some ses =>
    refine .inr ⟨ses, rfl, ?_⟩
    rw [from_] at h
    rcases h with none_ | torn | other | ⟨message, k, same, box⟩
    · nomatch none_
    · simp [badDatagram, torn]
    · simp [badDatagram, other]
    · obtain rfl := Option.some.inj same
      simp [badDatagram, message, box]

theorem badDatagram_ack (acks : field b 0 1 = 3) (crc : (crc32c (zeroField b 4 4)).toNat = field b 4 4) (len : b.length = 16 + field b 2 2) :
    badDatagram b kind ses = false := by simp [badDatagram, acks, crc, len]

theorem badDatagram_image (image : field b 0 1 = 2) (crc : (crc32c (zeroField b 4 4)).toNat = field b 4 4) (some_ : 1 ≤ field b 2 2)
    (few : field b 2 2 ≤ 8192) (len : b.length = 16 + field b 2 2) : badDatagram b 2 ses = false := by
  simp [badDatagram, image, crc, len, some_, few]

/-- A message that passes the checks lands in the slot of its session's mailbox. -/
theorem messageFrame_lands (whole : Whole s) (ours : ses < 5) (len : b.length = 272) (free : (getMailbox s (9 + ses)).inFull = false) :
    let t := slotPost (slotWrite s (9 + ses) 0 (b.drop 16)) (9 + ses)
    OnlyMailbox s t (9 + ses) ∧ getMailbox t (9 + ses) = { getMailbox s (9 + ses) with inbound := b.drop 16, inFull := true } := by
  have inside : 9 + ses < s.mailboxes.length := by rw [whole.mailboxes]; omega
  have slot : (getMailbox s (9 + ses)).inbound.length = 256 := whole.slot_length ⟨9 + ses, by omega⟩
  have data : (b.drop 16).length = 256 := by rw [List.length_drop, len]
  have laid : padTo 256 (overlay (getMailbox s (9 + ses)).inbound 0 (b.drop 16)) = b.drop 16 := by
    have all : overlay (getMailbox s (9 + ses)).inbound 0 (b.drop 16) = b.drop 16 := by
      rw [overlay, List.take_zero, List.nil_append, Nat.zero_add, data, List.drop_of_length_le (Nat.le_of_eq slot), List.append_nil]
      exact List.take_of_length_le (by rw [data, slot, Nat.sub_zero])
    rw [all, padTo_of_length data]
  have written := slotWrite_free inside free 0 (b.drop 16)
  rw [laid] at written
  have inside' : 9 + ses < (slotWrite s (9 + ses) 0 (b.drop 16)).mailboxes.length := by
    rw [slotWrite, setMailbox_mailboxes, updAt, List.length_modify]
    exact inside
  refine ⟨onlyMailbox_trans (slotWrite_only ..) (slotPost_only ..), ?_⟩
  rw [slotPost_free inside' (by rw [written]; exact free), written]

end Datagram

section Rows
variable {s t : State} {addr : BitVec 128} {port : BitVec 16} {b : Bytes} {n : Fin 16} {p : Pending} {ses : Nat}

theorem ownKind_message (other : field b 0 1 ≠ 2) : OwnKind b 1 := ⟨fun h => other h.1, fun h => absurd h.2 (by decide)⟩
theorem ownKind_image (image : field b 0 1 = 2) : OwnKind b 2 := ⟨fun h => absurd h.2 (by decide), fun h => by simp [image] at h⟩

theorem exec_mgmtMessageFrame (runs : standing s = false) : exec (.mgmtMessageFrame addr port b) s
    = .next (mgmtReceive s addr port b 1 (fun ses => slotPost (slotWrite s (9 + ses) 0 (b.drop 16)) (9 + ses))) := clocked_of_clocked runs

/-- What image data does once it has passed the checks. -/
def imageData (s : State) (b : Bytes) (ses : Nat) : State :=
  if s.keeper.state == .rom then s
  else sendMgmt (writeImage s (field b 1 1) (field b 8 8) (b.drop 16)).1 ses
    (mgmtBytes 3 (field b 1 1) (field b 8 8) (natLe 2 (writeImage s (field b 1 1) (field b 8 8) (b.drop 16)).2.toNat))

theorem exec_mgmtImageData (runs : standing s = false) : exec (.mgmtImageData addr port b) s = .next (mgmtReceive s addr port b 2 (imageData s b)) :=
  clocked_of_clocked runs

/-- Image data that passes the checks is written and acknowledged. -/
theorem imageData_lands (whole : Whole s) (booted : s.keeper.state ≠ .rom) (ses : Nat) :
    imageData s b ses = { s with stackMem := (imageData s b ses).stackMem, mems := (imageData s b ses).mems, mgmt := (imageData s b ses).mgmt }
      ∧ ∃ code : BitVec 16, (imageData s b ses).mgmt.sent = s.mgmt.sent ++ [natLe 16 (sessionAddr s ses).toNat
            ++ natBe 2 (nth s.keeper.sessPort ses).toNat ++ mgmtBytes 3 (field b 1 1) (field b 8 8) (natLe 2 code.toNat)]
        ∧ ImageWritten s (imageData s b ses) (field b 1 1) (field b 8 8) (b.drop 16) code := by
  obtain ⟨written, stackMem, mems, only⟩ := imageWritten_writeImage whole.mems (field b 1 1) (field b 8 8) (b.drop 16)
  have sent : imageData s b ses = _ := if_neg (by simpa using booted)
  rw [sent]
  refine ⟨?_, (writeImage s (field b 1 1) (field b 8 8) (b.drop 16)).2, ?_, written⟩
  · rw [sendMgmt, only]
  · rw [sendMgmt, only]
    rfl

/-- The answer to an IMAGE_WRITE changes nothing of what it wrote. -/
theorem imageWrite_lands (whole : Whole s) (heard : Heard s n 0x0010 t p) : Gives (.imageWrite n) s (fun u => ∃ code : BitVec 16,
    ImageWritten s u (field p.body 0 1) (field p.body 8 8) (p.body.drop 16) code ∧ Answered t u p code []
      ∧ u = { s with mailboxes := u.mailboxes, stackMem := u.stackMem, mems := u.mems }
      ∧ (MemoriesCanonical s → ∀ a, (∀ m ∈ [1, 3], stackUp s m = true →
            a < imageAddr s m (field p.body 0 1) (field p.body 8 8)
              ∨ imageAddr s m (field p.body 0 1) (field p.body 8 8) + (p.body.drop 16).length ≤ a) → readStack u a = readStack s a)) := by
  have mailbox := heard.mailbox_lt
  have row : exec (.imageWrite n) s = _ := heard.clocked_onRequest (fun s p =>
    reply (writeImage s (field p.body 0 1) (field p.body 8 8) (p.body.drop 16)).1 p (writeImage s (field p.body 0 1) (field p.body 8 8) (p.body.drop 16)).2 [])
  obtain ⟨box, rfl⟩ := heard.only
  have ports : (setMailbox s n (fun _ => box)).mems.length = 4 := whole.mems
  obtain ⟨written, stackMem, mems, only⟩ := imageWritten_writeImage ports (field p.body 0 1) (field p.body 8 8) (p.body.drop 16)
  obtain ⟨box', replied⟩ := reply_only (writeImage (setMailbox s n fun _ => box) (field p.body 0 1) (field p.body 8 8) (p.body.drop 16)).1 p
    (writeImage (setMailbox s n fun _ => box) (field p.body 0 1) (field p.body 8 8) (p.body.drop 16)).2 []
  refine ⟨_, row, _, ?_, reply_answered_after ?_ ?_ mailbox _ _, ?_, fun ⟨_, canonical, _⟩ a away => ?_⟩
  · rw [replied]
    exact written
  · rw [only]
  · rw [only]
  · rw [replied, only]
    rfl
  · rw [replied]
    exact writeImage_other (s := setMailbox s n fun _ => box) ports canonical away

end Rows

/-- Settles O14: a datagram is first dropped or passed, by one rule for both rows; an image write is described once, for
the management Ethernet and for IMAGE_WRITE. -/
theorem managementFrames : Obligations.ManagementFrames := by
  unfold Obligations.ManagementFrames
  intro s whole runs
  have row {t : State} : clocked s t = .next t := clocked_of_clocked runs
  refine ⟨fun addr port b k from_ crc kind box size len free => ?_, fun addr port b => ?_,
    fun addr port b k booted from_ crc image some_ few len => ?_, fun n t p heard => imageWrite_lands whole heard,
    fun addr fromAddr own => row.trans (congrArg _ (if_pos (by simpa using own))),
    fun addr fromAddr other => row.trans (congrArg _ (if_neg (by simpa using other)))⟩
  · have good : badDatagram b 1 k = false := by simp [badDatagram, crc, kind, box, size, len]
    have passed := mgmtReceive_good (s := s) (addr := addr) (port := port) (kind := 1)
      (f := fun ses => slotPost (slotWrite s (9 + ses) 0 (b.drop 16)) (9 + ses)) (ownKind_message (by simp [kind])) from_ good
    exact ⟨_, row.trans (congrArg _ (passed.trans (if_neg (by simp [kind])))), messageFrame_lands whole (sessionOf_lt from_) len free⟩
  · refine ⟨fun other bad => ?_, fun image stranger => ?_, fun acks known len => ?_, fun image known some_ few len rom => ?_⟩
    · rw [exec_mgmtMessageFrame runs, dropMgmt_of_stranger (ownKind_message other) (by tauto)]
      rfl
    · rw [exec_mgmtImageData runs, dropMgmt_of_stranger (ownKind_image image) (by tauto)]
      rfl
    · obtain ⟨from_, crc⟩ := not_or.mp known
      obtain ⟨k, from_⟩ := Option.ne_none_iff_exists'.mp from_
      rw [exec_mgmtMessageFrame runs, mgmtReceive_good (ownKind_message (by simp [acks])) from_ (badDatagram_ack acks (not_not.mp crc) len),
        if_pos (by simp [acks])]
    · obtain ⟨from_, crc⟩ := not_or.mp known
      obtain ⟨k, from_⟩ := Option.ne_none_iff_exists'.mp from_
      rw [exec_mgmtImageData runs, mgmtReceive_good (ownKind_image image) from_ (badDatagram_image image (not_not.mp crc) some_ few len),
        if_neg (by simp [image]), imageData, if_pos (by simp [rom])]
  · have passed := mgmtReceive_good (s := s) (addr := addr) (port := port) (f := imageData s b) (ownKind_image image) from_
      (badDatagram_image image crc some_ few len)
    exact ⟨_, (exec_mgmtImageData runs).trans (congrArg _ (passed.trans (if_neg (by simp [image])))), imageData_lands whole booted k⟩

end Sys2Proof.Machine
end

section
namespace Sys2Proof.Machine

/-! ## One frame at a port where nothing waits (R377 to R379, R411) -/

section Frame
variable {s : State} {n : Nat} {q : TxReq}

theorem indexWhere_singleton {α : Type} (a : α) (p : α → Bool) : indexWhere [a] p = if p a then some 0 else none := by
  unfold indexWhere
  rw [List.length_singleton, List.range_one, List.find?_singleton]
  rfl

/-- A routed message is of VC0. -/
theorem frameVc_message (routed : q.type = 2) : frameVc q.type = 0 := by rw [routed]; rfl

theorem nextFrame_message {full : Bool} {l : Link} (alone : l.txQueue = [q]) (routed : q.type = 2) :
    nextFrame full l = if mayLeave full l q then some 0 else none := by
  have found (vc : Nat) : indexWhere l.txQueue (fun q => frameVc q.type == vc) = if (0 == vc) = true then some 0 else none := by
    rw [alone, indexWhere_singleton, frameVc_message routed]
  have head : nth l.txQueue 0 = q := by rw [alone]; rfl
  unfold nextFrame
  simp only [found]
  cases may : mayLeave full l q with
  | true => cases l.turn1 <;> simp [head, List.findSome?, may]
  | false => cases l.turn1 <;> simp [head, List.findSome?, may]

theorem shareFull_setLink {f : Link → Link} (hf : ∀ l, (f l).replay = l.replay) : shareFull (setLink s n f) = shareFull s := by
  unfold shareFull
  rw [setLink_links, map_updAt_same _ n f (fun l => (l.replay.filter fun f => sharedFrame (nth f.bytes 0).toNat).length) fun l => by rw [hf]]

/-- What may leave depends on a frame's type and length, and not on what waits behind it. -/
theorem mayLeave_queue (full : Bool) (l : Link) (queue : List TxReq) {q' : TxReq} (type : q'.type = q.type)
    (len : q'.payload.length = q.payload.length) : mayLeave full { l with txQueue := queue } q' = mayLeave full l q := by
  unfold mayLeave
  rw [type, len]
  rfl

/-- A frame that leaves: it is on the wire and in the replay buffer. -/
theorem transmit_sent (inside : n < s.links.length) (data : isAckNak q.type = false) :
    (∃ f, transmit s n q = setLink s n f) ∧ (getLink (transmit s n q) n).txQueue = (getLink s n).txQueue
      ∧ (∃ x : Bytes, (getLink (transmit s n q) n).wire = (getLink s n).wire ++ [x])
      ∧ (getLink (transmit s n q) n).replay.length = (getLink s n).replay.length + 1 := by
  unfold transmit
  simp only [data, Bool.false_eq_true, if_false]
  refine ⟨⟨_, rfl⟩, ?_, ?_, ?_⟩
  all_goals rw [getLink_setLink_same _ _ _ inside]
  · exact ⟨_, rfl⟩
  · exact List.length_append

/-- The port whose only waiting message has been taken. -/
def messageTaken (s : State) (n : Nat) : State := setLink s n (fun l => { l with txQueue := l.txQueue.take 0 ++ l.txQueue.drop (0 + 1), turn1 := true })

theorem pump_message (alone : (getLink s n).txQueue = [q]) (routed : q.type = 2) (plain : q.last = none) :
    pump s n = if mayLeave (shareFull s) (getLink s n) q then answerForward (transmit (messageTaken s n) n q) q.forward 0 else s := by
  have head : nth (getLink s n).txQueue 0 = q := by rw [alone]; rfl
  have first := nextFrame_message (full := shareFull s) alone routed
  unfold pump
  rw [alone, List.length_singleton]
  unfold pumpN
  cases may : mayLeave (shareFull s) (getLink s n) q with
  | true =>
    rw [may] at first
    simp only [first, if_true, head, plain, frameVc_message routed]
    rfl
  | false =>
    rw [may] at first
    simp only [first, Bool.false_eq_true, if_false]

end Frame

/-! ## FORWARD (R316) -/

theorem Whole.links {s : State} (whole : Whole s) : s.links.length = 24 := by
  obtain ⟨-, -, -, -, -, -, -, -, count, -⟩ := whole
  exact count

section Forward
variable {s t : State} {n : Fin 16} {p : Pending} {out : Nat}

/-- A frame handed to a port where nothing waits. -/
def handed (s : State) (out : Nat) (q : TxReq) : State := setLink s out (fun l => { l with txQueue := l.txQueue ++ [q] })

theorem handed_link (inside : out < s.links.length) (free : (getLink s out).txQueue = []) (q : TxReq) :
    getLink (handed s out q) out = { getLink s out with txQueue := [q] } := by
  rw [handed, getLink_setLink_same _ _ _ inside, free, List.nil_append]

/-- A routed message of 256 bytes: it leaves, or it waits at the port. -/
theorem pump_handed (inside : out < s.links.length) (free : (getLink s out).txQueue = []) {q q' : TxReq} (routed : q.type = 2)
    (type : q'.type = 2) (len : q.payload.length = q'.payload.length) (plain : q.last = none) :
    pump (handed s out q) out = if mayLeave (shareFull s) (getLink s out) q'
      then answerForward (transmit (messageTaken (handed s out q) out) out q) q.forward 0 else handed s out q := by
  have link := handed_link inside free q
  have share : shareFull (handed s out q) = shareFull s := shareFull_setLink (by exact fun _ => rfl)
  rw [pump_message (by rw [link]) routed plain, share, link, mayLeave_queue (q := q') _ _ _ (routed.trans type.symm) len]

/-- Only one link differs. -/
def OnlyLink (s t : State) (n : Nat) : Prop := ∃ f, t = setLink s n f

theorem OnlyLink.trans {u : State} {k : Nat} (h : OnlyLink s t k) (h' : OnlyLink t u k) : OnlyLink s u k := by
  obtain ⟨f, rfl⟩ := h
  obtain ⟨g, rfl⟩ := h'
  exact ⟨g ∘ f, by simp only [setLink, updAt, List.modify_modify_eq]⟩

/-- A frame that leaves at once. -/
theorem messageSent (inside : out < s.links.length) (free : (getLink s out).txQueue = []) {q : TxReq} (routed : q.type = 2) :
    let v := transmit (messageTaken (handed s out q) out) out q
    OnlyLink s v out ∧ (getLink v out).txQueue = [] ∧ (∃ x : Bytes, (getLink v out).wire = (getLink s out).wire ++ [x])
      ∧ (getLink v out).replay.length = (getLink s out).replay.length + 1 := by
  have here : out < (handed s out q).links.length := by simpa [handed, updAt] using inside
  have here' : out < (messageTaken (handed s out q) out).links.length := by simpa [messageTaken, updAt] using here
  have link : getLink (messageTaken (handed s out q) out) out = { getLink s out with txQueue := [], turn1 := true } := by
    rw [messageTaken, getLink_setLink_same _ _ _ here, handed_link inside free]
    rfl
  obtain ⟨only, queue, wire, replay⟩ := transmit_sent here' (q := q) (by rw [routed]; rfl)
  rw [link] at queue wire replay
  exact ⟨OnlyLink.trans (OnlyLink.trans ⟨_, rfl⟩ ⟨_, rfl⟩) only, queue, wire, replay⟩

/-- The message that FORWARD sends on, with this die as its source and its check anew. -/
def forwarded (s : State) (p : Pending) : Bytes :=
  let inner := overlay (p.body.drop 8) 8 (natLe 4 (s.life.dieId.toNat * 64 + mailboxSource p.mailbox))
  overlay inner 24 (natLe 4 (crc32c (zeroField inner 24 4)).toNat)

theorem forwarded_length (len : p.body.length = 264) : (forwarded s p).length = 256 := by
  have inner : (p.body.drop 8).length = 256 := by rw [List.length_drop, len]
  have first : (overlay (p.body.drop 8) 8 (natLe 4 (s.life.dieId.toNat * 64 + mailboxSource p.mailbox))).length = 256 := by
    rw [overlay_length _ _ _ (by rw [natLe_length, inner]; decide), inner]
  exact (overlay_length _ _ _ (by rw [natLe_length, first]; decide)).trans first

/-- FORWARD on a request. -/
def forwardRequest (s : State) (p : Pending) : State :=
  if innerCode s (p.body.drop 8) != 0 then reject s p (innerCode s (p.body.drop 8))
  else if field p.body 0 2 == s.life.dieId.toNat || 24 ≤ routeOf s (field p.body 0 2) || !linkUp (getLink s (routeOf s (field p.body 0 2)))
  then reject s p 0x0507
  else sendRouted s (routeOf s (field p.body 0 2)) (field p.body 0 2) s.life.dieId.toNat 64 false (forwarded s p) (some p)

theorem exec_forward (n : Fin 16) (s : State) : exec (.forward n) s = clocked s (onRequest s n (isType 0x0003) forwardRequest) := rfl

theorem Heard.forward_refused (h : Heard s n 0x0003 t p) (bad : innerCode t (p.body.drop 8) ≠ 0) :
    Gives (.forward n) s (fun u => OnlyAnswers t u p (innerCode t (p.body.drop 8)) []) :=
  h.gives_reject (exec_forward n s) (by decide) (if_pos (bne_iff_ne.mpr bad))

theorem Heard.forward_unroutable (h : Heard s n 0x0003 t p) (good : innerCode t (p.body.drop 8) = 0)
    (lost : field p.body 0 2 = s.life.dieId.toNat ∨ 24 ≤ routeOf s (field p.body 0 2) ∨ linkUp (getLink s (routeOf s (field p.body 0 2))) = false) :
    Gives (.forward n) s (fun u => OnlyAnswers t u p 0x0507 []) := by
  refine h.gives_reject (exec_forward n s) (by decide) ?_
  obtain ⟨b, rfl⟩ := h.only
  rw [forwardRequest, if_neg (by simp [good]), if_pos]
  simp only [Bool.or_eq_true, beq_iff_eq, decide_eq_true_iff, Bool.not_eq_true']
  exact or_assoc.mpr lost

theorem Heard.forward_sends (h : Heard s n 0x0003 t p) (good : innerCode t (p.body.drop 8) = 0)
    (away : field p.body 0 2 ≠ s.life.dieId.toNat) (route : routeOf s (field p.body 0 2) = out) (inside : out < 24)
    (up : linkUp (getLink s out) = true) :
    exec (.forward n) s = .next (sendRouted t out (field p.body 0 2) s.life.dieId.toNat 64 false (forwarded t p) (some p)) := by
  rw [exec_forward, h.clocked_onRequest]
  obtain ⟨b, rfl⟩ := h.only
  have route' : routeOf (setMailbox s n fun _ => b) (field p.body 0 2) = out := route
  rw [forwardRequest, if_neg (by simp [good]), route', if_neg (by simp [away, up, inside])]
  rfl

/-- A message of 256 bytes for a port where nothing waits, sent for a request. -/
theorem sendRouted_first (inside : out < s.links.length) (free : (getLink s out).txQueue = []) {q' : TxReq} (type : q'.type = 2)
    (size : q'.payload.length = 256) {msg : Bytes} (len : msg.length = 256) (dst src : Nat) :
    (mayLeave (shareFull s) (getLink s out) q' = false → ∃ q, sendRouted s out dst src 64 false msg (some p) = handed s out q)
      ∧ (mayLeave (shareFull s) (getLink s out) q' = true → ∃ v, sendRouted s out dst src 64 false msg (some p) = reply v p 0 []
          ∧ OnlyLink s v out ∧ (getLink v out).txQueue = [] ∧ (∃ x : Bytes, (getLink v out).wire = (getLink s out).wire ++ [x])
          ∧ (getLink v out).replay.length = (getLink s out).replay.length + 1) := by
  let q : TxReq := { type := 2, ctl := frameVc 2 + 4 * b2n (false || bit (getLink s out).cfgInForce.toNat 7)
                     land := natLe 2 dst ++ natLe 2 src ++ natLe 1 64, payload := msg, last := none, forward := some p }
  have pumped : sendRouted s out dst src 64 false msg (some p) = _ := pump_handed inside free (q := q) rfl type (len.trans size.symm) rfl
  rw [pumped]
  refine ⟨fun may => ⟨q, if_neg (by simp [may])⟩, fun may => ⟨_, if_pos may, messageSent inside free rfl⟩⟩

/-- A FORWARD to a port where nothing waits: the frame leaves and the request is answered, or the frame waits. -/
theorem Heard.forward_first (whole : Whole s) (h : Heard s n 0x0003 t p) (good : innerCode t (p.body.drop 8) = 0)
    (away : field p.body 0 2 ≠ s.life.dieId.toNat) (route : routeOf s (field p.body 0 2) = out) (inside : out < 24)
    (up : linkUp (getLink s out) = true) (free : (getLink s out).txQueue = []) {q' : TxReq} (type : q'.type = 2)
    (size : q'.payload.length = 256) : Gives (.forward n) s (fun u => u = { s with mailboxes := u.mailboxes, links := u.links }
      ∧ (∀ k, k ≠ out → getLink u k = getLink s k)
      ∧ (mayLeave (shareFull s) (getLink s out) q' = false → (getLink u out).txQueue.length = 1 ∧ u.mailboxes = t.mailboxes
          ∧ (getLink u out).wire = (getLink s out).wire)
      ∧ (mayLeave (shareFull s) (getLink s out) q' = true → Answered t u p 0 [] ∧ (getLink u out).txQueue = []
          ∧ (∃ x : Bytes, (getLink u out).wire = (getLink s out).wire ++ [x])
          ∧ (getLink u out).replay.length = (getLink s out).replay.length + 1)) := by
  have sends := h.forward_sends good away route inside up
  have mailbox := h.mailbox_lt
  have len : (forwarded t p).length = 256 := forwarded_length (by simpa [Sys2Proof.Machine.bodyLengthOk] using h.bodyLengthOk)
  obtain ⟨b, rfl⟩ := h.only
  have links : out < (setMailbox s n fun _ => b).links.length := by rw [setMailbox_links, whole.links]; exact inside
  obtain ⟨waits, leaves⟩ := sendRouted_first (s := setMailbox s n fun _ => b) (p := p) links free type size len (field p.body 0 2) s.life.dieId.toNat
  cases may : mayLeave (shareFull s) (getLink s out) q' with
  | true =>
    obtain ⟨v, sent, ⟨f, only⟩, left⟩ := leaves may
    obtain ⟨box, replied⟩ := reply_only v p 0 []
    have answered : Answered (setMailbox s n fun _ => b) (reply v p 0 []) p 0 [] :=
      reply_answered_after (by rw [only]; rfl) (by rw [only]; rfl) mailbox 0 []
    refine ⟨_, sends.trans (congrArg _ sent), ?_, fun k other => ?_, fun no => absurd no (by decide), fun _ => ⟨answered, ?_⟩⟩
    · rw [replied, only]
      rfl
    · rw [replied, only]
      exact getLink_setLink_ne _ out k f other.symm
    · rw [replied]
      exact left
  | false =>
    obtain ⟨q, sent⟩ := waits may
    have link := handed_link links free q
    refine ⟨_, sends.trans (congrArg _ sent), rfl, fun k other => getLink_setLink_ne _ out k _ other.symm,
      fun _ => ⟨by rw [link]; rfl, rfl, by rw [link]; rfl⟩, fun no => absurd no (by decide)⟩

/-! ## The replies of other dies (R317) -/

/-- Where a reply of another die goes. -/
def remoteReply (t : State) (m : Bytes) : State :=
  match sourceMailbox (field m 8 4 % 2 ^ 22 % 64) with
  | some b =>
    if field m 8 4 % 2 ^ 22 / 64 == t.life.dieId.toNat then enqueue t b [{ bytes := m, completion := none }]
    else setKeeper t (fun k => { k with fwdDrop := satAdd k.fwdDrop 1 })
  | none => setKeeper t (fun k => { k with fwdDrop := satAdd k.fwdDrop 1 })

theorem exec_remoteReply {m : Bytes} (runs : standing s = false) (taken : takeMessage s n = .foreign t m) :
    exec (.mailboxRemoteReply n) s = .next (remoteReply t m) := by
  refine (clocked_of_clocked runs).trans ?_
  simp only [taken]
  rfl

theorem foreign_life {m : Bytes} (taken : takeMessage s n = .foreign t m) : t.life = s.life := by
  have only := takeMessage_only s n
  rw [taken] at only
  rw [onlyMailbox_fields only]

end Forward

/-- Settles O15: FORWARD at a port where nothing waits is one frame that leaves or waits; a reply of another die goes
to the mailbox that its source names. -/
theorem otherDiesMessages : Obligations.OtherDiesMessages := by
  unfold Obligations.OtherDiesMessages
  refine fun s n whole => ⟨fun t p heard => ⟨heard.forward_refused, heard.forward_unroutable, fun out good away route inside up free => ?_⟩,
    fun t m runs taken => ⟨fun b named ours => ?_, fun lost => ?_⟩⟩
  · exact heard.forward_first whole good away route inside up free rfl List.length_replicate
  · rw [exec_remoteReply runs taken, remoteReply, named]
    exact congrArg _ (if_pos (by rw [foreign_life taken]; exact beq_iff_eq.mpr ours))
  · rw [exec_remoteReply runs taken, remoteReply]
    cases named : sourceMailbox (field m 8 4 % 2 ^ 22 % 64) with
    | none => rfl
    | some b =>
      have other := lost.resolve_left (by rw [named]; exact Option.some_ne_none b)
      exact congrArg _ (if_neg (by rw [foreign_life taken]; simpa using other))

end Sys2Proof.Machine
end

section
namespace Sys2Proof.Machine

/-! ## What the end of a session leaves at the ports (R375, R378, R406) -/

/-- Of a port: its session, its configuration and its state. -/
def portKey (l : Link) : Option Bytes × Reg × BitVec 3 := (l.session, l.cfg, l.state)

/-- The counter of hive time, the number of mailboxes, and of every port its session, configuration and state. -/
def steadyParts (s : State) : Nat × Nat × List (Option Bytes × Reg × BitVec 3) := (s.time.now, s.mailboxes.length, s.links.map portKey)

/-- Those parts are the same. -/
def Steady (s t : State) : Prop := steadyParts t = steadyParts s

section Steady
variable {s₀ s t : State}

theorem steady_refl (s : State) : Steady s s := rfl

theorem Steady.step (h : Steady s₀ s) (ht : Steady s t) : Steady s₀ t := Eq.trans ht h

theorem Steady.ite {c : Prop} [Decidable c] (hs : Steady s₀ s) (ht : Steady s₀ t) : Steady s₀ (if c then s else t) := by
  split
  · exact hs
  · exact ht

theorem Steady.foldl {α : Type} {f : State → α → State} {l : List α} (h : Steady s₀ s) (hf : ∀ t a, Steady s₀ t → Steady s₀ (f t a)) :
    Steady s₀ (l.foldl f s) := by
  induction l generalizing s with
  | nil => exact h
  | cons a l ih => exact ih (hf s a h)

/-- Time and log alone differ, and the counter stays. -/
def TimeLog (s t : State) : Prop := ∃ time telem, t = { s with time := time, telem := telem } ∧ time.now = s.time.now

theorem TimeLog.ite {c : Prop} [Decidable c] (hs : TimeLog s₀ s) (ht : TimeLog s₀ t) : TimeLog s₀ (if c then s else t) := by
  split
  · exact hs
  · exact ht

theorem TimeLog.refl (s : State) : TimeLog s s := ⟨_, _, rfl, rfl⟩

theorem TimeLog.steady (h : TimeLog s t) : Steady s t := by
  obtain ⟨time, telem, rfl, now⟩ := h
  unfold Steady steadyParts
  rw [now]

theorem setTime_timeLog {f : TimeUnit → TimeUnit} (h : TimeLog s₀ s) (hf : ∀ t, (f t).now = t.now) : TimeLog s₀ (setTime s f) := by
  obtain ⟨time, _, rfl, now⟩ := h
  exact ⟨_, _, rfl, (hf time).trans now⟩

theorem logRecord_timeLog {kind : Nat} {src : BitVec 22} {body : Bytes} (h : TimeLog s₀ s) : TimeLog s₀ (logRecord s kind src body) := by
  obtain ⟨time, telem, rfl, now⟩ := h
  unfold logRecord pushLog
  refine .ite ⟨_, _, rfl, now⟩ (.ite ⟨_, _, rfl, now⟩ ?_)
  split
  · exact ⟨_, _, rfl, now⟩
  · exact ⟨_, _, rfl, now⟩

theorem logRecord_steady {kind : Nat} {src : BitVec 22} {body : Bytes} (h : Steady s₀ s) : Steady s₀ (logRecord s kind src body) :=
  h.step (logRecord_timeLog (.refl s)).steady

theorem setLink_steady {n : Nat} {f : Link → Link} (h : Steady s₀ s) (hf : ∀ l, portKey (f l) = portKey l) : Steady s₀ (setLink s n f) := by
  refine h.step ?_
  unfold Steady steadyParts
  rw [setLink_links, map_updAt_same _ n f portKey hf]
  rfl

theorem reply_steady {p : Pending} {status : BitVec 16} {body : Bytes} (h : Steady s₀ s) : Steady s₀ (reply s p status body) := by
  refine h.step ?_
  have only := reply_only s p status body
  unfold Steady steadyParts
  rw [onlyMailbox_length only, onlyMailbox_fields only]

/-! ### The commit of a unit -/

theorem deliverAcks_steady (h : Steady s₀ s) : Steady s₀ (deliverAcks s) := by
  unfold deliverAcks
  exact .ite h (.foldl (s := setJournal _ _) h fun _ _ h => h)

theorem journalAt_steady {t kind run : Nat} {order : BitVec 64} {src : BitVec 22} {body : Bytes} (h : Steady s₀ s) :
    Steady s₀ (journalAt s t kind run order src body) := by
  unfold journalAt checkpointDue
  refine .ite h ?_
  unfold checkpoint
  exact (deliverAcks_steady (s := appendRecord s t kind run order src body) h)

theorem journal_steady {kind run : Nat} {order : BitVec 64} {src : BitVec 22} {body : Bytes} (h : Steady s₀ s) :
    Steady s₀ (journal s kind run order src body) := journalAt_steady (s := (stamp s).1) h

theorem setProgress_steady {r k : Nat} {f : Progress → Progress} (h : Steady s₀ s) : Steady s₀ (setProgress s r k f) := by
  unfold setProgress
  split
  · split
    · exact h
    · exact h
  · exact h

theorem clearRunOrder_steady {r : Nat} (h : Steady s₀ s) : Steady s₀ (clearRunOrder s r) := by
  obtain ⟨⟨_, _, _, e⟩, -⟩ := clearRunOrder_runOnly s r
  rw [e]
  exact h

theorem completeOrder_steady {r : Nat} (h : Steady s₀ s) : Steady s₀ (completeOrder s r) :=
  clearRunOrder_steady (s := setOrder (journalAt (stamp s).1 _ _ _ _ _ _) _ _) (journalAt_steady (s := (stamp s).1) h)

theorem finishOrder_steady {r : Nat} (h : Steady s₀ s) : Steady s₀ (finishOrder s r) := by
  unfold finishOrder
  split
  · exact h
  · split
    · exact h
    · exact .ite (completeOrder_steady h) h

theorem healthCounters_steady {r k tag : Nat} (h : Steady s₀ s) : Steady s₀ (healthCounters s r k tag) := by
  unfold healthCounters
  dsimp only
  split
  · exact h
  · exact .ite h (logRecord_steady h)

theorem commitInstr_steady {r k : Nat} (h : Steady s₀ s) : Steady s₀ (commitInstr s r k) :=
  finishOrder_steady (healthCounters_steady (journal_steady (setProgress_steady h)))

theorem commitUnit_steady {r k u : Nat} (h : Steady s₀ s) : Steady s₀ (commitUnit s r k u) := by
  unfold commitUnit
  dsimp only
  split
  · exact h
  · split
    · exact h
    · have counted : Steady s₀ (setProgress (setIssued s r k (fun i => { i with committed := i.committed ++ [u] })) r k
          (fun p => { p with live := p.live ++ [u] })) := setProgress_steady h
      exact .ite h (.ite counted (.ite (commitInstr_steady counted) counted))

theorem sendPlaced_steady {last : Option (Nat × UnitRef)} (h : Steady s₀ s) : Steady s₀ (sendPlaced s last) := by
  unfold sendPlaced
  split
  · exact h
  · split
    · exact h
    · exact commitUnit_steady (.foldl (s := setForager _ _ _) h fun _ _ h => h)

/-! ### The frames that leave -/

theorem transmit_steady {n : Nat} {q : TxReq} (h : Steady s₀ s) : Steady s₀ (transmit s n q) := by
  refine setLink_steady h fun l => ?_
  dsimp only
  split
  · rfl
  · rfl

theorem answerForward_steady {p : Option Pending} {code : BitVec 16} (h : Steady s₀ s) : Steady s₀ (answerForward s p code) := by
  unfold answerForward
  split
  · exact reply_steady h
  · exact h

theorem pumpN_steady {n fuel : Nat} (h : Steady s₀ s) : Steady s₀ (pumpN n fuel s) := by
  induction fuel generalizing s with
  | zero => exact h
  | succ fuel ih =>
    unfold pumpN
    dsimp only
    split
    · exact h
    · exact ih (answerForward_steady (sendPlaced_steady (transmit_steady (setLink_steady h fun _ => rfl))))

theorem pumpAfter_steady {full : Bool} {n : Nat} (h : Steady s₀ s) : Steady s₀ (pumpAfter full s n) :=
  .ite (.foldl (pumpN_steady h) fun _ _ h => pumpN_steady h) (pumpN_steady h)

/-! ### The parts of the end of a session -/

theorem followSource_timeLog {x : SourceState} (h : TimeLog s₀ s) : TimeLog s₀ (followSource s x) :=
  .ite (logRecord_timeLog (logRecord_timeLog (setTime_timeLog h fun _ => rfl))) (logRecord_timeLog (setTime_timeLog h fun _ => rfl))

theorem enterHoldover_timeLog (h : TimeLog s₀ s) : TimeLog s₀ (enterHoldover s) :=
  .ite h (logRecord_timeLog (setTime_timeLog h fun _ => rfl))

theorem dropInForce_timeLog (h : TimeLog s₀ s) : TimeLog s₀ (dropInForce s) := by
  unfold dropInForce
  dsimp only
  split
  · exact followSource_timeLog h
  · exact .ite (enterHoldover_timeLog (logRecord_timeLog (setTime_timeLog h fun _ => rfl))) (logRecord_timeLog (setTime_timeLog h fun _ => rfl))

theorem loseTimeLink_timeLog {n : Nat} (h : TimeLog s₀ s) : TimeLog s₀ (loseTimeLink s n) := by
  have lost {src : TimeSource} {f : SourceState → SourceState} : TimeLog s₀ (setSource s src f) := by
    obtain ⟨_, _, rfl, now⟩ := h
    exact ⟨_, _, rfl, now⟩
  unfold loseTimeLink
  split
  · exact .ite (.ite (dropInForce_timeLog lost) lost) h
  · exact h

theorem mapLanding_runs (s : State) (n : Nat) (f : Ring → Ring) : ∃ runs, mapLanding s n f = { s with runs := runs } := by
  unfold mapLanding
  split
  · exact ⟨_, rfl⟩
  · exact ⟨_, rfl⟩

/-- The requests of the frames that are given up are answered. -/
theorem dropQueue_eq (s : State) (n : Nat) : ∃ boxes, boxes.length = s.mailboxes.length
    ∧ dropQueue s n = { setLink s n (fun l => { l with txQueue := [] }) with mailboxes := boxes } := by
  have answered (q : List TxReq) : ∀ t : State, ∃ boxes, boxes.length = t.mailboxes.length
      ∧ q.foldl (fun s q => answerForward s q.forward 0x0507) t = { t with mailboxes := boxes } := by
    induction q with
    | nil => exact fun t => ⟨t.mailboxes, rfl, rfl⟩
    | cons q qs ih =>
      intro t
      have one : ∃ boxes, boxes.length = t.mailboxes.length ∧ answerForward t q.forward 0x0507 = { t with mailboxes := boxes } := by
        unfold answerForward
        split
        · exact ⟨_, onlyMailbox_length (reply_only ..), onlyMailbox_fields (reply_only ..)⟩
        · exact ⟨t.mailboxes, rfl, rfl⟩
      obtain ⟨boxes, len, first⟩ := one
      obtain ⟨boxes', len', rest⟩ := ih (answerForward t q.forward 0x0507)
      refine ⟨boxes', len'.trans ?_, ?_⟩
      · rw [first]
        exact len
      · rw [List.foldl_cons, rest, first]
  exact answered (getLink s n).txQueue (setLink s n (fun l => { l with txQueue := [] }))

theorem beginRecovery_steady {domain inst : Nat} {code : BitVec 16} (h : Steady s₀ s) : Steady s₀ (beginRecovery s domain inst code) := .ite h h

theorem Steady.links_length (h : Steady s t) : t.links.length = s.links.length := by
  have same : (t.links.map portKey).length = (s.links.map portKey).length := congrArg (fun x => x.2.2.length) h
  simpa using same

theorem Steady.port (h : Steady s t) (n : Nat) : portKey (getLink t n) = portKey (getLink s n) := by
  have each : (t.links.map portKey)[n]? = (s.links.map portKey)[n]? := congrArg (fun x => x.2.2[n]?) h
  rw [List.getElem?_map, List.getElem?_map] at each
  unfold getLink nth
  cases ht : t.links[n]? with
  | none =>
    cases hs : s.links[n]? with
    | none => rfl
    | some b => simp [ht, hs] at each
  | some a =>
    cases hs : s.links[n]? with
    | none => simp [ht, hs] at each
    | some b => simpa [ht, hs] using each

end Steady

section Lose
variable {s t : State} {n : Nat}

/-- A port where nothing waits sends nothing. -/
theorem pump_idle (idle : (getLink s n).txQueue = []) : pump s n = s := by rw [pump, idle]; rfl

theorem pumpAfter_idle {full : Bool} (own : (getLink s n).txQueue = []) (others : full = false ∨ ∀ k, (getLink s k).txQueue = []) :
    pumpAfter full s n = s := by
  unfold pumpAfter
  rw [pump_idle own]
  dsimp only
  split
  · next used =>
    have idle := others.resolve_left (by simp [used])
    have all (l : List Nat) : l.foldl pump s = s := by
      induction l with
      | nil => rfl
      | cons k l ih => rw [List.foldl_cons, pump_idle (idle k), ih]
    exact all _
  · rfl

/-- A port without its session: keys, replay buffer, units and grants are gone (R378, R406). -/
def sessionLost (now : Nat) (l : Link) : Link :=
  { l with session := none, handshake := none, mode := 0, replay := [], lastNak := none, ackDue := false
           txUnits := List.replicate 4 0, rxGranted := List.replicate 4 0, rxUsed := List.replicate 4 0
           peerRings := l.peerRings.map (fun p => { p with credits := [] })
           lostAt := if l.run.isSome && l.session.isSome && l.lostAt.isNone then some now else l.lostAt
           lastPeer := if l.session.isSome then some l.peerId else l.lastPeer, timeSentAt := none }

/-- The state between the end of a session and what may leave on other ports after it. -/
def sessionEnded (s : State) (n : Nat) : State :=
  let t := mapLanding s n (fun g => { g with credits := [] })
  loseTimeLink (setLink (dropQueue t n) n (sessionLost t.wall)) n

theorem loseSession_eq (s : State) (n : Nat) : loseSession s n
    = if (getLink s n).run.isSome && (getLink s n).session.isSome then beginRecovery (pumpAfter (shareFull s) (sessionEnded s n) n) 8 n 0
      else pumpAfter (shareFull s) (sessionEnded s n) n := rfl

theorem sessionEnded_eq (s : State) (n : Nat) : ∃ boxes runs time telem, boxes.length = s.mailboxes.length ∧ time.now = s.time.now
    ∧ sessionEnded s n = { setLink s n (fun l => sessionLost s.wall { l with txQueue := [] }) with
        mailboxes := boxes, runs := runs, time := time, telem := telem } := by
  obtain ⟨runs, landed⟩ := mapLanding_runs s n (fun g => { g with credits := [] })
  obtain ⟨boxes, len, dropped⟩ := dropQueue_eq { s with runs := runs } n
  obtain ⟨time, telem, lost, now⟩ := loseTimeLink_timeLog (n := n) (TimeLog.refl (setLink (dropQueue { s with runs := runs } n) n (sessionLost s.wall)))
  refine ⟨boxes, runs, time, telem, len, ?_, ?_⟩
  · rw [now, dropped]
    rfl
  · rw [sessionEnded, landed]
    refine lost.trans ?_
    rw [dropped]
    simp only [setLink, updAt, List.modify_modify_eq]
    rfl

theorem sessionEnded_link (inside : n < s.links.length) : getLink (sessionEnded s n) n = sessionLost s.wall { getLink s n with txQueue := [] } := by
  obtain ⟨_, _, _, _, -, -, ended⟩ := sessionEnded_eq s n
  rw [ended]
  exact getLink_setLink_same s n _ inside

theorem sessionEnded_link_ne {k : Nat} (other : k ≠ n) : getLink (sessionEnded s n) k = getLink s k := by
  obtain ⟨_, _, _, _, -, -, ended⟩ := sessionEnded_eq s n
  rw [ended]
  exact getLink_setLink_ne s n k _ other.symm

theorem loseSession_steady (s : State) (n : Nat) : Steady (sessionEnded s n) (loseSession s n) := by
  rw [loseSession_eq]
  have left := pumpAfter_steady (full := shareFull s) (n := n) (steady_refl (sessionEnded s n))
  exact .ite (beginRecovery_steady left) left

/-- The port of a session that has ended. -/
theorem loseSession_port (inside : n < s.links.length) : portKey (getLink (loseSession s n) n) = (none, (getLink s n).cfg, (getLink s n).state)
    ∧ (loseSession s n).time.now = s.time.now ∧ (loseSession s n).mailboxes.length = s.mailboxes.length
    ∧ (loseSession s n).links.length = s.links.length := by
  have after := loseSession_steady s n
  obtain ⟨_, _, _, _, boxes, now, ended⟩ := sessionEnded_eq s n
  refine ⟨?_, ?_, ?_, ?_⟩
  · rw [after.port, sessionEnded_link inside]
    rfl
  · rw [show (loseSession s n).time.now = _ from congrArg Prod.fst after, ended]
    exact now
  · rw [show (loseSession s n).mailboxes.length = _ from congrArg (fun x => x.2.1) after, ended]
    exact boxes
  · rw [after.links_length, ended]
    exact List.length_modify ..

/-- Where no share is used up and no frame waits, the end of a session moves nothing on other ports. -/
theorem loseSession_still (inside : n < s.links.length) (idle : NothingWaits s) : (loseSession s n).comb = s.comb
    ∧ (loseSession s n).stackMem = s.stackMem ∧ (loseSession s n).workers = s.workers := by
  have own : (getLink (sessionEnded s n) n).txQueue = [] := by rw [sessionEnded_link inside]; rfl
  have others : shareFull s = false ∨ ∀ k, (getLink (sessionEnded s n) k).txQueue = [] := idle.imp_right fun empty k => by
    by_cases same : k = n
    · rw [same, own]
    · rw [sessionEnded_link_ne same, empty k]
  obtain ⟨_, _, _, _, -, -, ended⟩ := sessionEnded_eq s n
  rw [loseSession_eq, pumpAfter_idle own others, ended]
  split
  · exact ⟨beginRecovery_comb, beginRecovery_stackMem, beginRecovery_workers⟩
  · exact ⟨rfl, rfl, rfl⟩

/-- A port that the Keeper has retrained. -/
theorem retrainLink_port (inside : n < s.links.length) : (getLink (retrainLink s n) n).state = (if linksOpen s then 1 else 0)
    ∧ (getLink (retrainLink s n) n).session = none ∧ (getLink (retrainLink s n) n).cfg = (getLink s n).cfg
    ∧ (getLink (retrainLink s n) n).lanes = 0
    ∧ (retrainLink s n).time.now = s.time.now ∧ (retrainLink s n).mailboxes.length = s.mailboxes.length
    ∧ (retrainLink s n).links.length = s.links.length := by
  obtain ⟨port, now, boxes, links⟩ := loseSession_port inside
  obtain ⟨session, cfg, -⟩ : _ ∧ _ ∧ _ := by simpa [portKey] using port
  refine ⟨?_, ?_, ?_, ?_, now, boxes, (List.length_modify ..).trans links⟩
  all_goals rw [retrainLink, getLink_setLink_same _ _ _ (links ▸ inside)]
  · exact session
  · exact cfg

end Lose

end Sys2Proof.Machine
end

section
namespace Sys2Proof.Machine

/-! ## GROUP_SET and BIST (R324, R325) -/

section Groups
variable {s t : State} {n : Fin 16} {p : Pending}

theorem Heard.groupSet (h : Heard s n 0x0042 t p) (inside : field p.body 0 1 < 8) : Gives (.groupSet n) s (fun u => Answered t u p 0 []
    ∧ u = { s with mailboxes := u.mailboxes, keeper := { s.keeper with
              groups := updAt s.keeper.groups (field p.body 0 1) (fun _ => BitVec.ofNat 68 (field p.body 8 9)) } }) := by
  have mailbox := h.mailbox_lt
  let v := setKeeper t (fun k => { k with groups := updAt k.groups (field p.body 0 1) (fun _ => BitVec.ofNat 68 (field p.body 8 9)) })
  have row : exec (.groupSet n) s = .next (reply v p 0 []) :=
    (h.clocked_onRequest _).trans (congrArg _ (if_neg (by omega)))
  refine ⟨_, row, reply_answered_after rfl rfl mailbox 0 [], ?_⟩
  obtain ⟨b, rfl⟩ := h.only
  exact onlyMailbox_fields (reply_only v p 0 [])

theorem Heard.groupSet_outside (h : Heard s n 0x0042 t p) (outside : 8 ≤ field p.body 0 1) :
    Gives (.groupSet n) s (fun u => OnlyAnswers t u p 0x0541 []) :=
  h.gives_reject rfl (by decide) (if_pos (by omega))

theorem Heard.bist_unreached (h : Heard s n 0x0050 t p) (none_ : windowWorker s (field p.body 1 1) = none) :
    Gives (.bist n) s (fun u => OnlyAnswers t u p 0x0541 []) := by
  refine h.gives_reject rfl (by decide) ?_
  obtain ⟨b, rfl⟩ := h.only
  simp only [show windowWorker (setMailbox s n fun _ => b) (field p.body 1 1) = none from none_]

theorem Heard.bist_busy (h : Heard s n 0x0050 t p) {w : Nat} (reached : windowWorker s (field p.body 1 1) = some w)
    (busy : (getWorker s w).rsState = .testing ∨ (getWorker s w).bist.isSome = true) : Gives (.bist n) s (fun u => OnlyAnswers t u p 0x0542 []) := by
  refine h.gives_reject rfl (by decide) ?_
  obtain ⟨b, rfl⟩ := h.only
  simp only [show windowWorker (setMailbox s n fun _ => b) (field p.body 1 1) = some w from reached]
  exact if_pos (by simpa using busy)

theorem Heard.bist_asked (h : Heard s n 0x0050 t p) {w : Nat} (reached : windowWorker s (field p.body 1 1) = some w)
    (free : (getWorker s w).rsState ≠ .testing) (unasked : (getWorker s w).bist = none) :
    exec (.bist n) s = .next (setWorker t w (fun x => { x with bist := some p })) := by
  refine (h.clocked_onRequest _).trans (congrArg _ ?_)
  obtain ⟨b, rfl⟩ := h.only
  simp only [show windowWorker (setMailbox s n fun _ => b) (field p.body 1 1) = some w from reached]
  exact if_neg (by simp [free, unasked])

end Groups

/-! ## LINK_ROUTE (R382) -/

section Routes
variable {s t : State} {n : Fin 16} {p : Pending} {first : Nat} {es : Bytes}

/-- The entries written are found at their dies; one that drops is not listed. -/
theorem assocD_bytesAt (first : Nat) (es : Bytes) (d : Nat) : assocD ((bytesAt first es).filter (fun p => p.2 != 0x1E)) d 0x1E
    = if first ≤ d ∧ d < first + es.length then nth es (d - first) else 0x1E := by
  induction es generalizing first with
  | nil => exact (if_neg (by simp)).symm
  | cons e es ih =>
    have rest := ih (first + 1)
    by_cases own : d = first
    · subst own
      rw [if_pos ⟨Nat.le_refl _, by simp⟩, Nat.sub_self, bytesAt_cons, List.filter_cons]
      by_cases drops : e = 0x1E
      · subst drops
        rw [if_neg (by simp), rest, if_neg (by omega)]
        rfl
      · rw [if_pos (bne_iff_ne.mpr drops)]
        simp [assocD, nth]
    · have tail : assocD (if (e != 0x1E) = true then (first, e) :: (bytesAt (first + 1) es).filter (fun p => p.2 != 0x1E)
          else (bytesAt (first + 1) es).filter (fun p => p.2 != 0x1E)) d 0x1E = assocD ((bytesAt (first + 1) es).filter (fun p => p.2 != 0x1E)) d 0x1E := by
        split
        · simp [assocD, Ne.symm own]
        · rfl
      rw [bytesAt_cons, List.filter_cons, tail, rest]
      by_cases inside : first + 1 ≤ d ∧ d < first + 1 + es.length
      · rw [if_pos inside, if_pos (by simp; omega), show d - first = d - (first + 1) + 1 by omega]
        rfl
      · rw [if_neg inside, if_neg (by simp; omega)]

theorem assocD_append {l m : List (Nat × Byte)} {d : Nat} (h : l.find? (fun p => p.1 == d) = none) : assocD (l ++ m) d 0x1E = assocD m d 0x1E := by
  rw [assocD, List.find?_append, h]
  rfl

/-- The entry of a die: the one written, and outside the range the one that stood before. -/
theorem routeOf_writeRoutes (s : State) (first : Nat) (es : Bytes) (d : Nat) : routeOf (writeRoutes s first es) d
    = if first ≤ d ∧ d < first + es.length then (nth es (d - first)).toNat else routeOf s d := by
  unfold routeOf writeRoutes
  dsimp only
  by_cases inside : first ≤ d ∧ d < first + es.length
  · rw [if_pos inside, assocD_append, assocD_bytesAt, if_pos inside]
    refine List.find?_eq_none.mpr fun e he => ?_
    have kept := (List.mem_filter.mp he).2
    simp only [Bool.or_eq_true, decide_eq_true_iff] at kept
    simp only [beq_iff_eq]
    omega
  · rw [if_neg inside]
    congr 1
    have kept : (s.routes.filter (fun p => p.1 < first || first + es.length ≤ p.1)).find? (fun p => p.1 == d) = s.routes.find? (fun p => p.1 == d) := by
      rw [List.find?_filter]
      congr 1
      funext e
      by_cases own : e.1 = d
      · have out : d < first ∨ first + es.length ≤ d := by omega
        simp [own, out]
      · simp [own]
    have none_written : ((bytesAt first es).filter (fun p => p.2 != 0x1E)).find? (fun p => p.1 == d) = none := by
      refine List.find?_eq_none.mpr fun e he => ?_
      have range := bytesAt_lt es first e (List.mem_filter.mp he).1
      simp only [beq_iff_eq]
      omega
    rw [assocD, List.find?_append, kept, none_written, Option.or_none, assocD]

/-- LINK_ROUTE on a request. -/
def routeRequest (s : State) (p : Pending) : State :=
  if (p.body.drop 8).isEmpty || 65536 < field p.body 0 2 + (p.body.drop 8).length || (p.body.drop 8).any routeBad then reject s p 0x0332
  else reply (writeRoutes s (field p.body 0 2) (p.body.drop 8)) p 0 []

theorem exec_linkRoute (n : Fin 16) (s : State) : exec (.linkRoute n) s = clocked s (onRequest s n (isType 0x0201) routeRequest) := rfl

theorem routeBad_iff {e : Byte} : routeBad e = true ↔ 24 ≤ e.toNat ∧ e ≠ 0x1E := by
  simp [routeBad]

theorem Heard.linkRoute_refused (h : Heard s n 0x0201 t p) (bad : p.body.drop 8 = [] ∨ 65536 < field p.body 0 2 + (p.body.drop 8).length
    ∨ ∃ e ∈ p.body.drop 8, 24 ≤ e.toNat ∧ e ≠ 0x1E) : Gives (.linkRoute n) s (fun u => OnlyAnswers t u p 0x0332 []) := by
  refine h.gives_reject (exec_linkRoute n s) (by decide) (if_pos ?_)
  simp only [Bool.or_eq_true, List.isEmpty_iff, decide_eq_true_iff, List.any_eq_true, routeBad_iff]
  exact or_assoc.mpr bad

theorem Heard.linkRoute_written (h : Heard s n 0x0201 t p) (some_ : p.body.drop 8 ≠ []) (few : field p.body 0 2 + (p.body.drop 8).length ≤ 65536)
    (good : ∀ e ∈ p.body.drop 8, e.toNat < 24 ∨ e = 0x1E) : Gives (.linkRoute n) s (fun u => Answered t u p 0 []
      ∧ u = { s with mailboxes := u.mailboxes, routes := u.routes }
      ∧ ∀ d, routeOf u d = if field p.body 0 2 ≤ d ∧ d < field p.body 0 2 + (p.body.drop 8).length then (nth (p.body.drop 8) (d - field p.body 0 2)).toNat
          else routeOf s d) := by
  have mailbox := h.mailbox_lt
  have passes : routeRequest t p = reply (writeRoutes t (field p.body 0 2) (p.body.drop 8)) p 0 [] := by
    refine if_neg ?_
    simp only [Bool.or_eq_true, List.isEmpty_iff, decide_eq_true_iff, List.any_eq_true, routeBad_iff]
    rintro ((none_ | many) | ⟨e, he, high, other⟩)
    · exact some_ none_
    · omega
    · exact (good e he).elim (by omega) other
  refine ⟨_, (h.clocked_onRequest _).trans (congrArg _ passes), reply_answered_after rfl rfl mailbox 0 [], ?_⟩
  obtain ⟨b, rfl⟩ := h.only
  rw [onlyMailbox_fields (reply_only (writeRoutes (setMailbox s n fun _ => b) (field p.body 0 2) (p.body.drop 8)) p 0 [])]
  exact ⟨rfl, routeOf_writeRoutes s _ _⟩

end Routes

/-! ## LINK_CTL (R375, R391, R412) -/

section LinkCtl
variable {s t : State} {n : Fin 16} {p : Pending} {a i : Nat} {act : State → Pending → Nat → State} {c : Instr}

theorem HeardAction.linkCtl (h : HeardAction s n 0x0202 1 a t p) (row : exec c s = clocked s (linkCtl s n a act)) :
    exec c s = .next (if 23 < field p.body 0 1 then reject t p 0x0330 else act t p (field p.body 0 1)) := by
  refine (row.trans (h.clocked_onRequest _ _)).trans (congrArg _ (if_neg ?_))
  obtain ⟨-, named⟩ := h
  simp [named]

theorem HeardAction.linkCtl_outside (h : HeardAction s n 0x0202 1 a t p) (row : exec c s = clocked s (Machine.linkCtl s n a act))
    (outside : 24 ≤ field p.body 0 1) : Gives c s (fun u => OnlyAnswers t u p 0x0330 []) :=
  ⟨_, (h.linkCtl row).trans (congrArg _ (if_pos (by omega))), h.heard.onlyAnswers_reject (by decide) 0x0330⟩

theorem HeardAction.linkCtl_inside (h : HeardAction s n 0x0202 1 a t p) (row : exec c s = clocked s (Machine.linkCtl s n a act))
    (inside : field p.body 0 1 < 24) : exec c s = .next (act t p (field p.body 0 1)) :=
  (h.linkCtl row).trans (congrArg _ (if_neg (by omega)))

/-- A reply at the end, with the counter where it was. -/
theorem reply_answeredLast_of_now (inside : p.mailbox < t.mailboxes.length) (now : t.time.now = s.time.now) (status : BitVec 16) (body : Bytes) :
    AnsweredLast s (reply t p status body) p status body := by
  have same : replyOf t p status body = replyOf s p status body := by rw [replyOf, now, replyOf]
  have last := reply_answeredLast (s := t) inside rfl status body
  unfold AnsweredLast at last ⊢
  rwa [same] at last

theorem getLink_reply (s : State) (p : Pending) (status : BitVec 16) (body : Bytes) (k : Nat) :
    getLink (reply s p status body) k = getLink s k := by rw [onlyMailbox_fields (reply_only s p status body)]; rfl

/-- A link that is retrained and then answered for. -/
theorem retrained_answered {v : State} (links : i < v.links.length) (boxes : p.mailbox < v.mailboxes.length) (now : v.time.now = t.time.now) :
    let u := reply (retrainLink v i) p 0 []
    AnsweredLast t u p 0 [] ∧ (getLink u i).state = (if linksOpen v then 1 else 0) ∧ (getLink u i).session = none
      ∧ (getLink u i).cfg = (getLink v i).cfg ∧ (getLink u i).lanes = 0 := by
  obtain ⟨state, session, cfg, lanes, now', boxes', -⟩ := retrainLink_port links
  dsimp only
  rw [getLink_reply]
  exact ⟨reply_answeredLast_of_now (boxes' ▸ boxes) (now'.trans now) 0 [], state, session, cfg, lanes⟩

/-- What each LINK_CTL does to a link of the die. -/
def retrainRequest (s : State) (p : Pending) (i : Nat) : State :=
  reply (if (getLink s i).state == 5#3 || !bit (getLink s i).cfg.toNat 10 then s else retrainLink s i) p 0 []
def endQuarantineRequest (s : State) (p : Pending) (i : Nat) : State :=
  reply (if (getLink s i).state == 5#3 then retrainLink s i else s) p 0 []
def disableRequest (s : State) (p : Pending) (i : Nat) : State :=
  if (getLink s i).run.isSome then reject s p 0x0331
  else reply (setLink (loseSession s i) i (fun l => { l with cfg := l.cfg &&& ~~~0x400#32, state := 0, lanes := 0, retryAt := none })) p 0 []
def enableRequest (s : State) (p : Pending) (i : Nat) : State :=
  let s := setLink s i (fun l => { l with cfg := l.cfg ||| 0x400#32 })
  reply (if (getLink s i).state == 0#3 then retrainLink s i else s) p 0 []

theorem exec_retrain (n : Fin 16) (s : State) : exec (.linkCtlRetrain n) s = clocked s (linkCtl s n 1 retrainRequest) := rfl
theorem exec_endQuarantine (n : Fin 16) (s : State) : exec (.linkCtlEndQuarantine n) s = clocked s (linkCtl s n 2 endQuarantineRequest) := rfl
theorem exec_disable (n : Fin 16) (s : State) : exec (.linkCtlDisable n) s = clocked s (linkCtl s n 3 disableRequest) := rfl
theorem exec_enable (n : Fin 16) (s : State) : exec (.linkCtlEnable n) s = clocked s (linkCtl s n 4 enableRequest) := rfl

/-- LNK_CFG.enabled, set and cleared. -/
theorem bit_or_enabled (c : Reg) : bit (c ||| 0x400#32).toNat 10 = true := by
  rw [bit_eq_testBit, BitVec.testBit_toNat]
  simp
theorem bit_and_enabled (c : Reg) : bit (c &&& ~~~0x400#32).toNat 10 = false := by
  rw [bit_eq_testBit, BitVec.testBit_toNat]
  simp

theorem Heard.links (whole : Whole s) (h : Heard s n 0x0202 t p) (inside : i < 24) : i < t.links.length := by
  rw [h.read_eq State.links fun _ => rfl, whole.links]
  exact inside

/-- The same link after the Keeper has taken a request. -/
theorem Heard.link (h : Heard s n 0x0202 t p) (i : Nat) : getLink t i = getLink s i := h.read_eq (getLink · i) fun _ => rfl

theorem retrainRequest_off (off : (getLink t i).state = 5#3 ∨ bit (getLink t i).cfg.toNat 10 = false) : retrainRequest t p i = reply t p 0 [] := by
  rw [retrainRequest, if_pos]
  simpa using off

theorem retrainRequest_on (free : (getLink t i).state ≠ 5#3) (enabled : bit (getLink t i).cfg.toNat 10 = true) :
    retrainRequest t p i = reply (retrainLink t i) p 0 [] := by
  rw [retrainRequest, if_neg]
  simp [free, enabled]

theorem retrained_row (whole : Whole s) (h : HeardAction s n 0x0202 1 1 t p) (inside : field p.body 0 1 < 24)
    (free : (getLink s (field p.body 0 1)).state ≠ 5#3) (enabled : bit (getLink s (field p.body 0 1)).cfg.toNat 10 = true) :
    Gives (.linkCtlRetrain n) s (fun u => AnsweredLast t u p 0 [] ∧ (getLink u (field p.body 0 1)).state = (if linksOpen s then 1 else 0)
      ∧ (getLink u (field p.body 0 1)).session = none ∧ (getLink u (field p.body 0 1)).lanes = 0
      ∧ (NothingWaits s → u.comb = s.comb ∧ u.stackMem = s.stackMem ∧ u.workers = s.workers)) := by
  have links := h.heard.links whole inside
  have link := h.heard.link (field p.body 0 1)
  have acts := retrainRequest_on (t := t) (p := p) (i := field p.body 0 1) (by rwa [link]) (by rwa [link])
  obtain ⟨last, state, session, -, lanes⟩ := retrained_answered links h.heard.mailbox_lt rfl (t := t)
  have open_ : linksOpen t = linksOpen s := h.heard.read_eq linksOpen fun _ => rfl
  refine ⟨_, (h.linkCtl_inside (exec_retrain n s) inside).trans (congrArg _ acts), last, open_ ▸ state, session, lanes, fun idle => ?_⟩
  rw [onlyMailbox_fields (reply_only (retrainLink t (field p.body 0 1)) p 0 [])]
  obtain ⟨b, rfl⟩ := h.heard.only
  exact loseSession_still (s := setMailbox s n fun _ => b) links idle

theorem endQuarantine_row (whole : Whole s) (h : HeardAction s n 0x0202 1 2 t p) (inside : field p.body 0 1 < 24)
    (held : (getLink s (field p.body 0 1)).state = 5#3) :
    Gives (.linkCtlEndQuarantine n) s (fun u => AnsweredLast t u p 0 [] ∧ (getLink u (field p.body 0 1)).state = (if linksOpen s then 1 else 0)
      ∧ (getLink u (field p.body 0 1)).session = none) := by
  have links := h.heard.links whole inside
  have link := h.heard.link (field p.body 0 1)
  have acts : endQuarantineRequest t p (field p.body 0 1) = reply (retrainLink t (field p.body 0 1)) p 0 [] := by
    rw [endQuarantineRequest, if_pos (by rw [link, held]; rfl)]
  obtain ⟨last, state, session, -, -⟩ := retrained_answered links h.heard.mailbox_lt rfl (t := t)
  have open_ : linksOpen t = linksOpen s := h.heard.read_eq linksOpen fun _ => rfl
  exact ⟨_, (h.linkCtl_inside (exec_endQuarantine n s) inside).trans (congrArg _ acts), last, open_ ▸ state, session⟩

theorem disabled_row (whole : Whole s) (h : HeardAction s n 0x0202 1 3 t p) (inside : field p.body 0 1 < 24)
    (free : (getLink s (field p.body 0 1)).run = none) :
    Gives (.linkCtlDisable n) s (fun u => AnsweredLast t u p 0 [] ∧ (getLink u (field p.body 0 1)).state = 0
      ∧ bit (getLink u (field p.body 0 1)).cfg.toNat 10 = false ∧ (getLink u (field p.body 0 1)).session = none
      ∧ (getLink u (field p.body 0 1)).retryAt = none) := by
  have links := h.heard.links whole inside
  have acts : disableRequest t p (field p.body 0 1) = reply (setLink (loseSession t (field p.body 0 1)) (field p.body 0 1)
      (fun l => { l with cfg := l.cfg &&& ~~~0x400#32, state := 0, lanes := 0, retryAt := none })) p 0 [] :=
    if_neg (by rw [h.heard.link, free]; simp)
  obtain ⟨port, now, boxes, count⟩ := loseSession_port links
  have session : (getLink (loseSession t (field p.body 0 1)) (field p.body 0 1)).session = none := congrArg Prod.fst port
  refine ⟨_, (h.linkCtl_inside (exec_disable n s) inside).trans (congrArg _ acts),
    reply_answeredLast_of_now (t := setLink _ _ _) (by rw [setLink_mailboxes, boxes]; exact h.heard.mailbox_lt) now 0 [], ?_⟩
  rw [getLink_reply, getLink_setLink_same _ _ _ (count ▸ links)]
  exact ⟨rfl, bit_and_enabled _, session, rfl⟩

theorem enabled_row (whole : Whole s) (h : HeardAction s n 0x0202 1 4 t p) (inside : field p.body 0 1 < 24) :
    Gives (.linkCtlEnable n) s (fun u => AnsweredLast t u p 0 [] ∧ bit (getLink u (field p.body 0 1)).cfg.toNat 10 = true
      ∧ ((getLink s (field p.body 0 1)).state = 0#3 → (getLink u (field p.body 0 1)).state = (if linksOpen s then 1 else 0))
      ∧ ((getLink s (field p.body 0 1)).state ≠ 0#3 → (getLink u (field p.body 0 1)).state = (getLink s (field p.body 0 1)).state)) := by
  have links := h.heard.links whole inside
  have link := h.heard.link (field p.body 0 1)
  have open_ : linksOpen t = linksOpen s := h.heard.read_eq linksOpen fun _ => rfl
  let v := setLink t (field p.body 0 1) (fun l => { l with cfg := l.cfg ||| 0x400#32 })
  have here : getLink v (field p.body 0 1) = { getLink s (field p.body 0 1) with cfg := (getLink s (field p.body 0 1)).cfg ||| 0x400#32 } := by
    rw [← link]
    exact getLink_setLink_same _ _ _ links
  have acts : enableRequest t p (field p.body 0 1) = reply (if (getLink v (field p.body 0 1)).state == 0#3 then retrainLink v (field p.body 0 1) else v) p 0 [] := rfl
  have row := (h.linkCtl_inside (exec_enable n s) inside).trans (congrArg _ acts)
  by_cases off : (getLink s (field p.body 0 1)).state = 0#3
  · rw [if_pos (by rw [here, off]; rfl)] at row
    obtain ⟨last, state, -, cfg, -⟩ := retrained_answered (v := v) (t := t) (p := p) (by simpa [v, updAt] using links) h.heard.mailbox_lt rfl
    refine ⟨_, row, last, ?_, fun _ => open_ ▸ state, fun on => absurd off on⟩
    rw [cfg, here]
    exact bit_or_enabled _
  · rw [if_neg (by rw [here]; simpa using off)] at row
    refine ⟨_, row, reply_answeredLast_of_now (t := v) h.heard.mailbox_lt rfl 0 [], ?_, fun on => absurd on off, fun _ => ?_⟩
    · rw [getLink_reply, here]
      exact bit_or_enabled _
    · rw [getLink_reply, here]

end LinkCtl

/-- Settles O21: the rows of GROUP_SET, BIST and LINK_ROUTE are read off; for LINK_CTL, what may leave on other ports when a
session ends changes no port's session, configuration or state. -/
theorem groupsTestsLinks : Obligations.GroupsTestsLinks := by
  unfold Obligations.GroupsTestsLinks
  refine ⟨fun s t n p => ⟨fun heard => ⟨heard.groupSet, heard.groupSet_outside⟩, fun heard => ⟨heard.bist_unreached, fun w reached =>
    ⟨heard.bist_busy reached, fun free unasked => ⟨_, heard.bist_asked reached free unasked, rfl⟩⟩⟩⟩, fun s t n p whole => ⟨?_, ?_⟩⟩
  · rintro heard _ _ rfl rfl
    exact ⟨heard.linkRoute_refused, heard.linkRoute_written⟩
  · rintro _ rfl
    refine ⟨fun outside => ⟨fun h => h.linkCtl_outside (exec_retrain n s) outside, fun h => h.linkCtl_outside (exec_endQuarantine n s) outside,
      fun h => h.linkCtl_outside (exec_disable n s) outside, fun h => h.linkCtl_outside (exec_enable n s) outside⟩, fun inside =>
      ⟨fun h => ⟨fun off => ?_, retrained_row whole h inside⟩, fun h => ⟨fun free => ?_, endQuarantine_row whole h inside⟩,
        fun h => ⟨fun held => ?_, disabled_row whole h inside⟩, fun h => enabled_row whole h inside⟩⟩
    · rw [← h.heard.link] at off
      exact ⟨_, (h.linkCtl_inside (exec_retrain n s) inside).trans (congrArg _ (retrainRequest_off off)), reply_onlyAnswers t p 0 [] h.heard.mailbox_lt⟩
    · rw [← h.heard.link] at free
      have acts : endQuarantineRequest t p (field p.body 0 1) = reply t p 0 [] := by rw [endQuarantineRequest, if_neg (by simpa using free)]
      exact ⟨_, (h.linkCtl_inside (exec_endQuarantine n s) inside).trans (congrArg _ acts), reply_onlyAnswers t p 0 [] h.heard.mailbox_lt⟩
    · rw [← h.heard.link] at held
      exact ⟨_, (h.linkCtl_inside (exec_disable n s) inside).trans (congrArg _ (if_pos held)), h.heard.onlyAnswers_reject (by decide) 0x0331⟩

end Sys2Proof.Machine
end

section
namespace Sys2Proof.Machine

/-! ## SUBMIT (R326 to R328) -/

/-- The run that holds a ready image. -/
def readyFor (t : State) (p : Pending) (r : Nat) : Bool :=
  match getRun t r with | some rn => rn.ready && rn.image.imageId == field p.body 0 8 | none => false

/-- A SUBMIT of the next sequence of its source (R328). -/
def submitNext (s : State) (p : Pending) : State :=
  match (List.range 8).find? (readyFor s p) with
  | none => reject s p 0x0510
  | some r =>
    match getRun s r with
    | none => reject s p 0x0510
    | some rn =>
      let o := orderFrom (submitNumber p) p.body r (stamp s).2
      let code := submitCode s rn o (lastSequence s p.source).isSome
      if code != 0 then reject s p code
      else setKeeper (stamp s).1 (fun k => { k with accept := k.accept ++ [{ req := p, order := o }] })

section Submit
variable {s t : State} {n : Fin 16} {p : Pending}

/-- The choice of R328, by the last sequence of the source. -/
theorem submitOrder_eq (t : State) (p : Pending) : submitOrder t p =
    if (match lastSequence t p.source with | some l => 1 ≤ submitSeq p && submitSeq p ≤ l | none => false) then
      match t.keeper.accept.find? (fun j => j.order.number == submitNumber p) with
      | some j => setKeeper t (fun k => { k with accept := k.accept ++ [{ req := p, order := j.order }] })
      | none => replyDuplicate t p (submitNumber p)
    else if !(match lastSequence t p.source with | some l => submitSeq p == l + 1 | none => 1 ≤ submitSeq p) then reject t p 0x0515
    else submitNext t p := rfl

theorem submitOrder_used (used : seqUsed t p) : submitOrder t p = match t.keeper.accept.find? (fun j => j.order.number == submitNumber p) with
    | some j => setKeeper t (fun k => { k with accept := k.accept ++ [{ req := p, order := j.order }] })
    | none => replyDuplicate t p (submitNumber p) := by
  obtain ⟨l, last, low, high⟩ := used
  rw [submitOrder_eq, last]
  exact if_pos (by simp [low, high])

theorem submitOrder_stray (used : ¬ seqUsed t p) (next : ¬ seqNextOne t p) : submitOrder t p = reject t p 0x0515 := by
  rw [submitOrder_eq]
  cases last : lastSequence t p.source with
  | none =>
    have low : ¬ 1 ≤ submitSeq p := fun low => next (.inl ⟨last, low⟩)
    simp [low]
  | some l =>
    have out : ¬ (1 ≤ submitSeq p ∧ submitSeq p ≤ l) := fun h => used ⟨l, last, h⟩
    have other : submitSeq p ≠ l + 1 := fun h => next (.inr ⟨l, last, h⟩)
    dsimp only
    rw [if_neg (by simpa using out), if_pos (by simpa using other)]

theorem submitOrder_next (next : seqNextOne t p) : submitOrder t p = submitNext t p := by
  rw [submitOrder_eq]
  rcases next with ⟨last, low⟩ | ⟨l, last, same⟩
  · rw [last]
    simp [low]
  · rw [last]
    simp [same]

theorem readyFor_iff {r : Nat} : readyFor t p r = true ↔ ∃ rn, getRun t r = some rn ∧ rn.ready = true ∧ rn.image.imageId = field p.body 0 8 := by
  unfold readyFor
  cases getRun t r with
  | none => simp
  | some rn => simp

theorem Whole.runs (whole : Whole s) : s.runs.length = 8 := by
  obtain ⟨-, -, count, -⟩ := whole
  exact count

theorem getRun_inside {r : Nat} {rn : Run} (h : getRun t r = some rn) : r < t.runs.length := by
  by_contra beyond
  rw [getRun, List.getElem?_eq_none (by omega)] at h
  nomatch h

/-- The first ready run of the image is the one that takes the order. -/
theorem find?_readyFor (runs : t.runs.length = 8) {r : Nat} {rn : Run} (h : submitRun t p r rn) : (List.range 8).find? (readyFor t p) = some r := by
  obtain ⟨resident, named, first⟩ := h
  have inside : r < 8 := runs ▸ getRun_inside resident
  refine List.find?_range_eq_some.mpr ⟨readyFor_iff.mpr named, List.mem_range.mpr inside, fun r' below => ?_⟩
  exact Bool.not_eq_true' _ ▸ Bool.eq_false_of_not_eq_true fun ready => first r' below (readyFor_iff.mp ready)

theorem find?_readyFor_none (h : ∀ r rn, ¬ submitRun t p r rn) : (List.range 8).find? (readyFor t p) = none := by
  cases found : (List.range 8).find? (readyFor t p) with
  | none => rfl
  | some r =>
    obtain ⟨holds, -, first⟩ := List.find?_range_eq_some.mp found
    obtain ⟨rn, resident, ready, image⟩ := readyFor_iff.mp holds
    refine absurd ⟨resident, ⟨rn, resident, ready, image⟩, fun r' below named => ?_⟩ (h r rn)
    have not := first r' below
    rw [readyFor_iff.mpr named] at not
    exact absurd not (by decide)

theorem stamp_ge (t : State) : t.time.lastStamp ≤ (stamp t).2 := by
  unfold stamp
  dsimp only
  split
  · omega
  · omega

/-- A SUBMIT of the next sequence for a resident image: a check fails, or its ACCEPT record begins. -/
theorem submitNext_run (runs : t.runs.length = 8) {r : Nat} {rn : Run} (h : submitRun t p r rn) :
    let o := orderFrom (submitNumber p) p.body r (stamp t).2
    let code := submitCode t rn o (lastSequence t p.source).isSome
    submitNext t p = if code != 0 then reject t p code
      else setKeeper (stamp t).1 (fun k => { k with accept := k.accept ++ [{ req := p, order := o }] }) := by
  obtain ⟨resident, -, -⟩ := id h
  simp only [submitNext, find?_readyFor runs h, resident]

theorem replyDuplicate_found {number : BitVec 64} {o : Order} (found : findOrder t number = some o) :
    replyDuplicate t p number = reply t p 0 (submitReply number o.acceptStamp 1 (orderCode o.state)) := by simp only [replyDuplicate, found]

theorem exec_submit (n : Fin 16) (s : State) : exec (.submit n) s = clocked s (onRequest s n (isType 0x0020) submitOrder) := rfl

theorem Heard.submit_duplicate (h : Heard s n 0x0020 t p) (used : seqUsed t p) (written : ∀ j ∈ t.keeper.accept, j.order.number ≠ submitNumber p)
    {o : Order} (found : findOrder t (submitNumber p) = some o) : Gives (.submit n) s (fun u =>
      OnlyAnswers t u p 0 (submitReply (submitNumber p) o.acceptStamp 1 (orderCode o.state))) := by
  have none_ : t.keeper.accept.find? (fun j => j.order.number == submitNumber p) = none :=
    List.find?_eq_none.mpr fun j hj => by simpa using written j hj
  refine h.gives_reply (exec_submit n s) ?_
  rw [submitOrder_used used, none_]
  exact replyDuplicate_found found

theorem Heard.submit_writing (h : Heard s n 0x0020 t p) (used : seqUsed t p) {j : AcceptJob}
    (writing : t.keeper.accept.find? (fun j => j.order.number == submitNumber p) = some j) :
    exec (.submit n) s = .next (setKeeper t (fun k => { k with accept := k.accept ++ [{ req := p, order := j.order }] })) := by
  rw [exec_submit, h.clocked_onRequest, submitOrder_used used, writing]

theorem Heard.submit_stray (h : Heard s n 0x0020 t p) (used : ¬ seqUsed t p) (next : ¬ seqNextOne t p) :
    Gives (.submit n) s (fun u => OnlyAnswers t u p 0x0515 []) :=
  h.gives_reject (exec_submit n s) (by decide) (submitOrder_stray used next)

theorem Heard.submit_absent (h : Heard s n 0x0020 t p) (next : seqNextOne t p) (absent : ∀ r rn, ¬ submitRun t p r rn) :
    Gives (.submit n) s (fun u => OnlyAnswers t u p 0x0510 []) := by
  refine h.gives_reject (exec_submit n s) (by decide) ?_
  rw [submitOrder_next next, submitNext, find?_readyFor_none absent]

theorem Heard.submit_checked (whole : Whole s) (h : Heard s n 0x0020 t p) {r : Nat} {rn : Run} (next : seqNextOne t p) (run : submitRun t p r rn) :
    let o := orderFrom (submitNumber p) p.body r (stamp t).2
    let code := submitCode t rn o (lastSequence t p.source).isSome
    (code ≠ 0 → Gives (.submit n) s (fun u => OnlyAnswers t u p code []))
      ∧ (code = 0 → Gives (.submit n) s (fun u => u.keeper = { t.keeper with accept := t.keeper.accept ++ [{ req := p, order := o }] }
          ∧ u = { t with keeper := u.keeper, time := u.time } ∧ u.time = { t.time with lastStamp := o.acceptStamp }
          ∧ t.time.lastStamp ≤ o.acceptStamp)) := by
  have count : t.runs.length = 8 := by rw [h.read_eq State.runs fun _ => rfl, whole.runs]
  have acts := (submitOrder_next next).trans (submitNext_run count run)
  refine ⟨fun fails => ?_, fun passes => ?_⟩
  · exact h.gives_reject (exec_submit n s) (by decide) (acts.trans (if_pos (bne_iff_ne.mpr fails)))
  · have row := (h.clocked_onRequest submitOrder).trans (congrArg _ (acts.trans (if_neg (by simp [passes]))))
    exact ⟨_, row, rfl, rfl, rfl, stamp_ge t⟩

end Submit

/-! ## The ACCEPT record and the source table (R329, R330) -/

section Accept
variable {s : State} {j : AcceptJob} {rest : List AcceptJob}

/-- The oldest ACCEPT record no longer waits. -/
def acceptTaken (s : State) (rest : List AcceptJob) : State := setKeeper s (fun k => { k with accept := rest })

/-- The order joins the orders of the die, and its source's entry holds its sequence. -/
def orderJoined (s : State) (j : AcceptJob) (rest : List AcceptJob) : State :=
  setKeeper (acceptTaken s rest) (fun k => { k with
    orders := k.orders ++ [j.order]
    sources := k.sources.filter (fun e => e.source != j.req.source) ++ [{ source := j.req.source, last := orderSeq j.order.number, ackedAt := s.wall }] })

/-- With its ACCEPT record. -/
def orderRecorded (s : State) (j : AcceptJob) (rest : List AcceptJob) : State :=
  journalAt (orderJoined s j rest) j.order.acceptStamp 1 j.order.run j.order.number j.req.source j.req.body

theorem exec_acceptRecordWritten (runs : standing s = false) (waits : s.keeper.accept = j :: rest) : exec .acceptRecordWritten s = .next (
    if !acceptWritable s then s
    else if (findOrder s j.order.number).isSome then replyDuplicate (acceptTaken s rest) j.req j.order.number
    else reply (orderRecorded s j rest) j.req 0 (submitReply j.order.number j.order.acceptStamp 0 1)) := by
  refine (clocked_of_clocked runs).trans (congrArg _ ?_)
  dsimp only
  rw [waits]
  rfl

theorem acceptDuplicate (whole : Whole s) (runs : standing s = false) (waits : s.keeper.accept = j :: rest) (inside : j.req.mailbox < 16)
    (writable : acceptWritable s = true) {o : Order} (found : findOrder s j.order.number = some o) :
    Gives .acceptRecordWritten s (fun u => u.keeper.accept = rest ∧ u.keeper.orders = s.keeper.orders ∧ u.journal = s.journal
      ∧ Answered s u j.req 0 (submitReply o.number o.acceptStamp 1 (orderCode o.state))) := by
  have acts : replyDuplicate (acceptTaken s rest) j.req j.order.number = reply (acceptTaken s rest) j.req 0 (submitReply o.number o.acceptStamp 1 (orderCode o.state)) := by
    rw [number_of_findOrder found]
    exact replyDuplicate_found (t := acceptTaken s rest) found
  refine ⟨_, (exec_acceptRecordWritten runs waits).trans (congrArg _ ((if_neg (by simp [writable])).trans ((if_pos (by simp [found])).trans acts))), ?_⟩
  have answered := reply_answered_after (t := s) (v := acceptTaken s rest) rfl rfl (by rwa [whole.mailboxes]) 0
    (submitReply o.number o.acceptStamp 1 (orderCode o.state))
  rw [onlyMailbox_fields (reply_only (acceptTaken s rest) j.req 0 _)] at answered ⊢
  exact ⟨rfl, rfl, rfl, answered⟩

/-- The order joins with its record; what a CHECKPOINT forgets is told apart. -/
theorem acceptJoins (whole : Whole s) (runs : standing s = false) (waits : s.keeper.accept = j :: rest) (inside : j.req.mailbox < 16)
    (writable : acceptWritable s = true) (new : findOrder s j.order.number = none) :
    Gives .acceptRecordWritten s (fun u => u.keeper.accept = rest
      ∧ (∃ e ∈ u.keeper.sources, e.source = j.req.source ∧ e.last = orderSeq j.order.number)
      ∧ (∀ e, e.source ≠ j.req.source → (e ∈ u.keeper.sources ↔ e ∈ s.keeper.sources))
      ∧ Answered s u j.req 0 (submitReply j.order.number j.order.acceptStamp 0 1)
      ∧ (s.journal.sinceCheckpoint < 4095 → u.keeper.orders = s.keeper.orders ++ [j.order]
        ∧ ∃ x, u.journal.records = s.journal.records ++ [x] ∧ x.kind = 1 ∧ x.lsn = s.journal.nextLsn ∧ x.order = j.order.number
          ∧ x.body = j.req.body ∧ x.stamp = j.order.acceptStamp ∧ x.copies = journalTargets s)) := by
  have row := (exec_acceptRecordWritten runs waits).trans (congrArg _ ((if_neg (by simp [writable])).trans (if_neg (by simp [new]))))
  have journaled : Journaled (orderJoined s j rest) (orderRecorded s j rest) := journalAt_journaled (journaled_refl _)
  have steady : Steady (orderJoined s j rest) (orderRecorded s j rest) := journalAt_steady (steady_refl _)
  obtain ⟨⟨time, journal, orders, recorded⟩, -⟩ := journaled
  have now : (orderRecorded s j rest).time.now = s.time.now := congrArg Prod.fst steady
  have answered : Answered s (reply (orderRecorded s j rest) j.req 0 (submitReply j.order.number j.order.acceptStamp 0 1)) j.req 0 _ :=
    reply_answered_after (by rw [recorded]; rfl) now (by rwa [whole.mailboxes]) 0 _
  have only := onlyMailbox_fields (reply_only (orderRecorded s j rest) j.req 0 (submitReply j.order.number j.order.acceptStamp 0 1))
  have keeper : (reply (orderRecorded s j rest) j.req 0 (submitReply j.order.number j.order.acceptStamp 0 1)).keeper = (orderRecorded s j rest).keeper := by rw [only]
  have journalSame : (reply (orderRecorded s j rest) j.req 0 (submitReply j.order.number j.order.acceptStamp 0 1)).journal = (orderRecorded s j rest).journal := by rw [only]
  have sources : (orderRecorded s j rest).keeper.sources = s.keeper.sources.filter (fun e => e.source != j.req.source)
      ++ [{ source := j.req.source, last := orderSeq j.order.number, ackedAt := s.wall }] := by rw [recorded]; rfl
  refine ⟨_, row, ?_, ?_, fun e other => ?_, answered, fun few => ?_⟩
  · rw [keeper, recorded]
    rfl
  · rw [keeper, sources]
    exact ⟨_, List.mem_append_right _ (List.mem_singleton_self _), rfl, rfl⟩
  · rw [keeper, sources, List.mem_append, List.mem_filter, List.mem_singleton]
    refine ⟨fun there => ?_, fun there => .inl ⟨there, bne_iff_ne.mpr other⟩⟩
    rcases there with ⟨old, -⟩ | rfl
    · exact old
    · exact absurd rfl other
  · rw [keeper, journalSame, orderRecorded, journalAt_few (s := orderJoined s j rest) (Nat.succ_lt_succ few)]
    exact ⟨rfl, _, rfl, rfl, rfl, rfl, rfl, rfl, rfl⟩

/-- The entry of a source goes (R330). -/
theorem expiry_held {src : BitVec 22} (runs : standing s = false) (held : ∃ o ∈ s.keeper.orders, orderSource o.number = src ∧ o.notice < 2) :
    exec (.sourceTableExpiry src) s = .next s := by
  obtain ⟨o, ho, own, waits⟩ := held
  refine (clocked_of_clocked runs).trans (congrArg _ (if_pos ?_))
  rw [Bool.or_eq_true, List.any_eq_true]
  exact .inl ⟨o, ho, by simp [own, waits]⟩

theorem expiry_free {src : BitVec 22} (runs : standing s = false) (acked : ∀ o ∈ s.keeper.orders, orderSource o.number = src → 2 ≤ o.notice)
    (written : ∀ j ∈ s.keeper.accept, j.req.source ≠ src) : Gives (.sourceTableExpiry src) s (fun u =>
      u = { s with keeper := { s.keeper with sources := u.keeper.sources } } ∧ ∀ e, e ∈ u.keeper.sources ↔ e ∈ s.keeper.sources ∧ e.source ≠ src) := by
  refine ⟨_, (clocked_of_clocked runs).trans (congrArg _ (if_neg ?_)), rfl, fun e => ?_⟩
  · rw [Bool.or_eq_true, List.any_eq_true, List.any_eq_true]
    rintro (⟨o, ho, waits⟩ | ⟨j, hj, own⟩)
    · rw [Bool.and_eq_true, beq_iff_eq, decide_eq_true_iff] at waits
      have done := acked o ho waits.1
      omega
    · exact written j hj (eq_of_beq own)
  · exact List.mem_filter.trans (and_congr Iff.rfl bne_iff_ne)

end Accept

/-- Settles O45: a SUBMIT is decided by its source's last sequence, then by the first ready run of its image; the written
ACCEPT record is followed through the journal, which keeps the sources and the counter. -/
theorem acceptance : Obligations.Acceptance := by
  unfold Obligations.Acceptance
  refine fun s whole => ⟨fun n t p heard => ⟨fun used written o found => heard.submit_duplicate used written found,
    fun used j writing => heard.submit_writing used writing, heard.submit_stray, heard.submit_absent,
    fun r rn next run => heard.submit_checked whole next run⟩, fun runs => ⟨fun none_ => ?_, fun j rest waits inside => ⟨fun held => ?_,
      fun o writable found => acceptDuplicate whole runs waits inside writable found,
      fun writable new => acceptJoins whole runs waits inside writable new⟩,
    fun src => ⟨expiry_held runs, expiry_free runs⟩⟩⟩
  · refine (clocked_of_clocked runs).trans (congrArg _ ?_)
    dsimp only
    rw [none_]
  · exact (exec_acceptRecordWritten runs waits).trans (congrArg _ (if_pos (by simp [held])))

end Sys2Proof.Machine
end

section
namespace Sys2Proof.Machine

/-! ## An order that has ended and still stands in its run (R339, R455) -/

/-- An order that is complete and whose acknowledgement a DELIVERED record holds. -/
def closedOrder : Order := { (default : Order) with number := 5, state := .complete, notice := 3 }

/-- A run with a fault of class A that still names that order. -/
def lingering : Run := { (default : Run) with order := some 5, fault := some { code := 0x0210, instr := 0, unit := 0 } }

/-- A die on which that run is quiet and the next record is number 4,096. -/
def overdue : State :=
  { State.reset with
    runs := some lingering :: List.replicate 7 none
    keeper := { Keeper.reset with state := .ready, orders := [closedOrder] }
    journal := { Journal.reset with sinceCheckpoint := 4095 } }

theorem overdue_whole : Whole overdue :=
  ⟨rfl, fun b hb => by rw [List.eq_of_mem_replicate hb]; exact List.length_replicate, rfl, rfl, rfl, rfl, rfl, rfl, rfl, Nat.zero_le _⟩

theorem overdue_quiet : quietRun overdue 0 = true := by decide

theorem overdue_abandons : exec (.runFaultAbandon 0) overdue = .next (abandonOrder (dropWaiting overdue 0) 5 0x0210) :=
  (clocked_of_clocked rfl).trans (congrArg _ (if_pos (by rw [Bool.and_eq_true]; exact ⟨rfl, overdue_quiet⟩)))

/-- The ABANDON record calls for a CHECKPOINT, which forgets the order. -/
theorem overdue_forgotten : findOrder (abandonOrder (dropWaiting overdue 0) 5 0x0210) 5 = none := rfl

/-- Refutes O49: its first clause lets the run name an order that has ended and been delivered. When the ABANDON record is number
4,096, the CHECKPOINT that follows it forgets that order (R339), and no order of the number is left to be abandoned. -/
theorem not_stops : ¬ Obligations.Stops := by
  intro h
  obtain ⟨faults, -⟩ := h overdue overdue_whole
  obtain ⟨stops, -⟩ := faults rfl 0
  obtain ⟨abandons, -⟩ := stops lingering _ closedOrder rfl rfl rfl rfl rfl
  obtain ⟨u, hu, ⟨o, found, -⟩, -⟩ := abandons rfl overdue_quiet
  cases overdue_abandons.symm.trans hu
  rw [show closedOrder.number = 5 from rfl, overdue_forgotten] at found
  nomatch found

end Sys2Proof.Machine
end


section
namespace Sys2Proof.Machine

/-! ## A range of a memory copied over another (R319) -/

section Copy
variable {d : Byte} {mem : List Host.Cell} {A B N : Nat}

theorem le_of_memWfFrom {lo : Nat} (h : memWfFrom d lo mem = true) : ∀ c ∈ mem, lo ≤ c.1 := by
  induction mem generalizing lo with
  | nil => exact fun c hc => absurd hc List.not_mem_nil
  | cons x t ih =>
    simp only [memWfFrom, Bool.and_eq_true, decide_eq_true_eq] at h
    intro c hc
    rcases List.mem_cons.mp hc with rfl | later
    · exact h.1.1
    · have := ih h.2 c later
      omega

/-- What reads at an address that a filter on addresses keeps, and at one that it does not. -/
theorem memGet_filter (p : Nat → Bool) (a : Nat) {lo : Nat} (h : memWfFrom d lo mem = true) :
    memGet d (mem.filter (fun c => p c.1)) a = if p a then memGet d mem a else d := by
  induction mem generalizing lo with
  | nil => exact (ite_self d).symm
  | cons c t ih =>
    obtain ⟨k, v⟩ := c
    simp only [memWfFrom, Bool.and_eq_true, decide_eq_true_eq] at h
    have below : a < k + 1 → memGet d t a = d := memGet_below d a t (k + 1) h.2
    rw [List.filter_cons]
    by_cases own : k = a
    · subst own
      cases kept : p k with
      | true => simp [memGet]
      | false => simp [ih h.2, kept]
    · by_cases low : a < k
      · cases kept : p k with
        | true => simp [memGet, own, low]
        | false => simp [ih h.2, memGet, own, low, below (by omega)]
      · cases kept : p k with
        | true => simp [memGet, own, low, ih h.2]
        | false => simp [ih h.2, memGet, own, low]

/-- Canonical cells written where nothing stands read as they do by themselves. -/
theorem memGet_memSetMany_cells {ws : List Host.Cell} {lo b : Nat} (cells : memWfFrom d lo ws = true) (wf : memWf d mem = true)
    (empty : memGet d mem b = d) : memGet d (memSetMany d ws mem) b = memGet d ws b := by
  induction ws generalizing mem lo with
  | nil => exact empty
  | cons c t ih =>
    obtain ⟨k, v⟩ := c
    simp only [memWfFrom, Bool.and_eq_true, decide_eq_true_eq] at cells
    have written := memGet_memSet d k b v mem wf
    rw [memSetMany, List.foldl_cons, ← memSetMany]
    by_cases own : k = b
    · subst own
      have later : ∀ w ∈ t, w.1 ≠ k := fun w hw => ne_of_gt (le_of_memWfFrom cells.2 w hw)
      rw [memGet_memSetMany_other d t _ k (memSet_wf d k v mem wf) later, written, if_pos rfl]
      simp [memGet]
    · rw [ih cells.2 (memSet_wf d k v mem wf) (by rw [written, if_neg own, empty])]
      simp only [memGet, beq_iff_eq, own, if_false]
      split
      · next low => exact memGet_below d b t (k + 1) cells.2 (by omega)
      · rfl

/-- Cells moved from one address to another. -/
def moved (A B : Nat) (cells : List Host.Cell) : List Host.Cell := cells.map (fun c => (c.1 - A + B, c.2))

theorem moved_wfFrom {lo : Nat} (h : memWfFrom d lo mem = true) (above : A ≤ lo) : memWfFrom d (lo - A + B) (moved A B mem) = true := by
  induction mem generalizing lo with
  | nil => rfl
  | cons c t ih =>
    obtain ⟨k, v⟩ := c
    simp only [memWfFrom, Bool.and_eq_true, decide_eq_true_eq] at h
    have next : k + 1 - A + B = k - A + B + 1 := by omega
    have rest := ih h.2 (by omega)
    rw [next] at rest
    simp only [moved, List.map_cons, memWfFrom, Bool.and_eq_true, decide_eq_true_eq]
    exact ⟨⟨by omega, h.1.2⟩, rest⟩

theorem memGet_moved {x : Nat} (above : ∀ c ∈ mem, A ≤ c.1) : memGet d (moved A B mem) (B + x) = memGet d mem (A + x) := by
  induction mem with
  | nil => rfl
  | cons c t ih =>
    obtain ⟨k, v⟩ := c
    have hk : A ≤ k := above (k, v) List.mem_cons_self
    have same : (k - A + B = B + x) = (k = A + x) := propext (by omega)
    have below : (B + x < k - A + B) = (A + x < k) := propext (by omega)
    have rest := ih fun c hc => above c (List.mem_cons_of_mem _ hc)
    simp only [moved, List.map_cons, memGet, beq_iff_eq, same, below] at rest ⊢
    rw [rest]

/-- The cells of a memory from an address on, and below another. -/
def cellsIn (mem : List Host.Cell) (A N : Nat) : List Host.Cell := mem.filter (fun c => A ≤ c.1 && c.1 < A + N)

/-- A memory with `N` bytes at `B` replaced by those at `A`. -/
def copiedOver (d : Byte) (mem : List Host.Cell) (A B N : Nat) : List Host.Cell :=
  memSetMany d (moved A B (cellsIn mem A N)) (memClear mem B N)

theorem mem_cellsIn {c : Host.Cell} (h : c ∈ cellsIn mem A N) : A ≤ c.1 ∧ c.1 < A + N := by
  simpa using (List.mem_filter.mp h).2

theorem cellsIn_wfFrom (wf : memWf d mem = true) : memWfFrom d A (cellsIn mem A N) = true := by
  have above : memWfFrom d A ((mem.filter (fun c => A ≤ c.1)).filter (fun c => c.1 < A + N)) = true :=
    memFilter_wfFrom d _ _ A (memAbove_wfFrom d A mem 0 wf)
  rw [List.filter_filter] at above
  simpa only [cellsIn, Bool.and_comm] using above

theorem memGet_copiedOver_target {x : Nat} (wf : memWf d mem = true) (inside : x < N) :
    memGet d (copiedOver d mem A B N) (B + x) = memGet d mem (A + x) := by
  have cells := cellsIn_wfFrom (A := A) (N := N) wf
  have cleared : memGet d (memClear mem B N) (B + x) = d := by
    rw [memClear, memGet_filter (fun k => k < B || B + N ≤ k) (B + x) wf, if_neg (by simpa using inside)]
  rw [copiedOver, memGet_memSetMany_cells (moved_wfFrom cells le_rfl) (memClear_wf d mem B N wf) cleared,
    memGet_moved fun c hc => (mem_cellsIn hc).1, cellsIn, memGet_filter (fun k => A ≤ k && k < A + N) (A + x) wf,
    if_pos (by simpa using inside)]

theorem memGet_copiedOver_outside {y : Nat} (wf : memWf d mem = true) (outside : y < B ∨ B + N ≤ y) :
    memGet d (copiedOver d mem A B N) y = memGet d mem y := by
  have unwritten : ∀ w ∈ moved A B (cellsIn mem A N), w.1 ≠ y := by
    intro w hw
    obtain ⟨c, hc, rfl⟩ := List.mem_map.mp hw
    have := mem_cellsIn hc
    dsimp only
    omega
  rw [copiedOver, memGet_memSetMany_other d _ _ y (memClear_wf d mem B N wf) unwritten, memClear,
    memGet_filter (fun k => k < B || B + N ≤ k) y wf, if_pos (by simpa using outside)]

end Copy

/-! ## What a stack that is up again has missed (R243, R319) -/

section Mirror
variable {s t u : State} {m : Nat}

theorem stackUp_setMemPort_ne {k : Nat} {f : MemPort → MemPort} (other : k ≠ m) : stackUp (setMemPort s m f) k = stackUp s k := by
  rw [stackUp, getMemPort_setMemPort_ne _ _ _ _ other.symm, stackUp]

/-- One copy of the image store written over the other. -/
theorem copyStore_eq (t : State) (src dst : Nat) : copyStore t src dst = setMemPort
    { t with stackMem := copiedOver stackDefault t.stackMem (src * 2 ^ 37 + userEnd t src) (dst * 2 ^ 37 + userEnd t src) (2 ^ 34) }
    dst (fun p => { p with imageStale := false }) := by
  unfold copiedOver moved cellsIn
  rfl

/-- Both copies of the image store read alike. -/
def StoresAgree (u : State) : Prop :=
  ∀ slot < 8, ∀ off < 2 ^ 31, readStack u (imageAddr u 1 slot off) = readStack u (imageAddr u 3 slot off)

theorem storesAgree_copyStore {src dst : Nat} (wf : memWf stackDefault t.stackMem = true) (pair : src = 1 ∧ dst = 3 ∨ src = 3 ∧ dst = 1) :
    StoresAgree (copyStore t src dst) := by
  intro slot hslot off hoff
  have capacity : stackC (copyStore t src dst) = stackC t := stackC_setMemPort (by exact fun _ => rfl)
  have inside : slot * 2 ^ 31 + off < 2 ^ 34 := by omega
  have target := memGet_copiedOver_target (d := stackDefault) (mem := t.stackMem) (A := src * 2 ^ 37 + userEnd t src)
    (B := dst * 2 ^ 37 + userEnd t src) (N := 2 ^ 34) wf inside
  have source := memGet_copiedOver_outside (d := stackDefault) (mem := t.stackMem) (A := src * 2 ^ 37 + userEnd t src)
    (B := dst * 2 ^ 37 + userEnd t src) (N := 2 ^ 34) (y := src * 2 ^ 37 + userEnd t src + (slot * 2 ^ 31 + off)) wf (by omega)
  have alike : readStack (copyStore t src dst) (imageAddr t src slot off) = readStack (copyStore t src dst) (imageAddr t dst slot off) := by
    rw [copyStore_eq, readStack, readStack, setMemPort_stackMem, imageAddr, imageAddr, Nat.add_assoc _ (slot * 2 ^ 31),
      Nat.add_assoc _ (slot * 2 ^ 31)]
    exact source.trans target.symm
  rw [imageAddr_congr capacity, imageAddr_congr capacity]
  obtain ⟨rfl, rfl⟩ | ⟨rfl, rfl⟩ := pair
  · exact alike
  · exact alike.symm

end Mirror

end Sys2Proof.Machine
end


section
namespace Sys2Proof.Machine

section Mirrored
variable {s t u v : State} {m : Nat}

/-- What a stack that is up again is given of the archive and of the image store, `s` being the state before. -/
def Mirrored (s u : State) (m : Nat) : Prop :=
  (m % 2 = 0 → u.stackMem = s.stackMem ∧ ∀ e ∈ s.keeper.archive, (∃ c ∈ e.copies, c ≠ m ∧ stackUp s c = true) →
      ∃ y ∈ u.keeper.archive, y.gen = e.gen ∧ y.file = e.file ∧ m ∈ y.copies)
  ∧ (m % 2 = 1 → stackUp s (4 - m) = false ∨ (getMemPort s m).imageStale = (getMemPort s (4 - m)).imageStale → u.stackMem = s.stackMem)
  ∧ (m % 2 = 1 → stackUp s (4 - m) = true → (getMemPort s m).imageStale ≠ (getMemPort s (4 - m)).imageStale → MemoriesCanonical s →
      (getMemPort u 1).imageStale = false ∧ (getMemPort u 3).imageStale = false ∧ StoresAgree u)

/-- `Mirrored` speaks of the stacks, of their ports and of the archive alone. -/
theorem Mirrored.congr (h : Mirrored s v m) (stack : u.stackMem = v.stackMem) (ports : u.mems = v.mems)
    (archive : u.keeper.archive = v.keeper.archive) : Mirrored s u m := by
  have port (k : Nat) : getMemPort u k = getMemPort v k := by rw [getMemPort, ports, getMemPort]
  have capacity : stackC u = stackC v := by rw [stackC, ports, stackC]
  obtain ⟨even, same, copied⟩ := h
  refine ⟨fun parity => ?_, fun parity missing => stack.trans (same parity missing), fun parity up stale wf => ?_⟩
  · rw [stack, archive]
    exact even parity
  · obtain ⟨one, three, agree⟩ := copied parity up stale wf
    refine ⟨by rw [port, one], by rw [port, three], fun slot hslot off hoff => ?_⟩
    rw [imageAddr_congr capacity, imageAddr_congr capacity, readStack, readStack, stack]
    exact agree slot hslot off hoff

/-- The stacks, what their ports tell of the image store, and the archive alone differ. -/
def StoresOnly (t v : State) : Prop :=
  (∃ stackMem mems archive, v = { t with stackMem := stackMem, mems := mems, keeper := { t.keeper with archive := archive } })
    ∧ ∀ k, getMemPort v k = { getMemPort t k with imageStale := (getMemPort v k).imageStale }

theorem storesOnly_refl (t : State) : StoresOnly t t := ⟨⟨_, _, _, rfl⟩, fun _ => rfl⟩

theorem copyStore_ports {src dst : Nat} (inside : dst < t.mems.length) : getMemPort (copyStore t src dst) dst
      = { getMemPort t dst with imageStale := false }
    ∧ ∀ k, k ≠ dst → getMemPort (copyStore t src dst) k = getMemPort t k := by
  rw [copyStore_eq]
  exact ⟨getMemPort_setMemPort_same _ dst _ inside, fun k other => getMemPort_setMemPort_ne _ _ _ _ other.symm⟩

theorem copyStore_storesOnly {src dst : Nat} (inside : dst < t.mems.length) : StoresOnly t (copyStore t src dst) := by
  obtain ⟨own, others⟩ := copyStore_ports (src := src) inside
  refine ⟨⟨_, _, _, copyStore_eq t src dst⟩, fun k => ?_⟩
  by_cases target : k = dst
  · rw [target, own]
  · rw [others k target]

theorem mirrorStack_even (even : m % 2 = 0) : mirrorStack t m = setKeeper t (fun k => { k with archive := k.archive.map (fun e =>
    if !e.copies.contains m && e.copies.any (stackUp t) then { e with copies := e.copies ++ [m] } else e) }) :=
  if_pos (beq_iff_eq.mpr even)

/-- The copy of M1 or M3: nothing while the other stack is down or no copy has missed more, else the stale one is written over. -/
theorem mirrorStack_odd (odd : m % 2 = 1) : mirrorStack t m
    = if stackUp t (4 - m) = false ∨ (getMemPort t m).imageStale = (getMemPort t (4 - m)).imageStale then t
      else if (getMemPort t m).imageStale = true then copyStore t (4 - m) m else copyStore t m (4 - m) := by
  have uneven : ¬ (m % 2 == 0) = true := by simp [odd]
  refine (if_neg uneven).trans (if_congr ?_ rfl rfl)
  simp

theorem mirrorStack_storesOnly (inside : m < 4) (ports : t.mems.length = 4) : StoresOnly t (mirrorStack t m) := by
  rcases Nat.mod_two_eq_zero_or_one m with even | odd
  · rw [mirrorStack_even even]
    exact ⟨⟨_, _, _, rfl⟩, fun _ => rfl⟩
  · rw [mirrorStack_odd odd]
    split
    · exact storesOnly_refl t
    · split
      · exact copyStore_storesOnly (by omega)
      · exact copyStore_storesOnly (by omega)

/-- The entries of the archive that another stack holds come to the stack (R243). -/
theorem archive_mirrorStack (even : m % 2 = 0) {e : ArchiveEntry} (held : e ∈ t.keeper.archive)
    (elsewhere : ∃ c ∈ e.copies, stackUp t c = true) :
    ∃ y ∈ (mirrorStack t m).keeper.archive, y.gen = e.gen ∧ y.file = e.file ∧ m ∈ y.copies := by
  rw [mirrorStack_even even]
  refine ⟨_, List.mem_map_of_mem held, ?_⟩
  have any : e.copies.any (stackUp t) = true := List.any_eq_true.mpr elsewhere
  rw [any]
  by_cases here : m ∈ e.copies
  · simp [here]
  · simp [here]

theorem mirrored_mirrorStack {f : MemPort → MemPort} (inside : m < 4) (ports : s.mems.length = 4)
    (keeps : ∀ p, (f p).imageStale = p.imageStale) : Mirrored s (mirrorStack (setMemPort s m f) m) m := by
  have own : (getMemPort (setMemPort s m f) m).imageStale = (getMemPort s m).imageStale := by
    rw [getMemPort_setMemPort_same s m f (by omega), keeps]
  have length : (setMemPort s m f).mems.length = 4 := by simpa using ports
  refine ⟨fun even => ?_, fun odd missing => ?_, fun odd up stale wf => ?_⟩
  · refine ⟨by rw [mirrorStack_even even]; rfl, fun e held ⟨c, hc, other, up⟩ => archive_mirrorStack even held ⟨c, hc, ?_⟩⟩
    rw [stackUp_setMemPort_ne other, up]
  · have other : 4 - m ≠ m := by omega
    rw [mirrorStack_odd odd, stackUp_setMemPort_ne other, own, getMemPort_setMemPort_ne _ _ _ _ other.symm, if_pos missing, setMemPort_stackMem]
  · have other : 4 - m ≠ m := by omega
    have copy : ¬ (stackUp s (4 - m) = false ∨ (getMemPort s m).imageStale = (getMemPort s (4 - m)).imageStale) := by simp [up, stale]
    rw [mirrorStack_odd odd, stackUp_setMemPort_ne other, own, getMemPort_setMemPort_ne _ _ _ _ other.symm, if_neg copy]
    have pair : m = 1 ∧ 4 - m = 3 ∨ m = 3 ∧ 4 - m = 1 := by omega
    have wf' : memWf stackDefault (setMemPort s m f).stackMem = true := wf.2.1
    have fresh {x y : Nat} (xy : x = 1 ∧ y = 3 ∨ x = 3 ∧ y = 1) (source : (getMemPort (setMemPort s m f) x).imageStale = false) :
        (getMemPort (copyStore (setMemPort s m f) x y) 1).imageStale = false
          ∧ (getMemPort (copyStore (setMemPort s m f) x y) 3).imageStale = false ∧ StoresAgree (copyStore (setMemPort s m f) x y) := by
      obtain ⟨written, left⟩ := copyStore_ports (t := setMemPort s m f) (src := x) (dst := y) (by omega)
      have here : (getMemPort (copyStore (setMemPort s m f) x y) y).imageStale = false := by rw [written]
      have there : (getMemPort (copyStore (setMemPort s m f) x y) x).imageStale = false := by rw [left x (by omega), source]
      have agree := storesAgree_copyStore wf' xy
      obtain ⟨rfl, rfl⟩ | ⟨rfl, rfl⟩ := xy
      · exact ⟨there, here, agree⟩
      · exact ⟨here, there, agree⟩
    split
    · next mine =>
      refine fresh (by omega) ?_
      rw [getMemPort_setMemPort_ne _ _ _ _ other.symm]
      simpa [mine] using stale.symm
    · next mine => exact fresh pair (by rw [own]; simpa using mine)

end Mirrored

/-! ## A stack that is up again, for the journal (R337, R341) -/

section Back
variable {s t u v : State} {m : Nat}

/-- The journal, and of the Keeper its state, its code and its orders, alone differ. -/
def HoldOnly (t u : State) : Prop :=
  ∃ j state code orders, u = { t with journal := j, keeper := { t.keeper with state := state, code := code, orders := orders } }

theorem HoldOnly.field {α : Type} (h : HoldOnly t u) (f : State → α)
    (hf : ∀ j state code orders, f { t with journal := j, keeper := { t.keeper with state := state, code := code, orders := orders } } = f t) :
    f u = f t := by
  obtain ⟨_, _, _, _, rfl⟩ := h
  exact hf ..

theorem holdOnly_refl (t : State) : HoldOnly t t := ⟨_, _, _, _, rfl⟩

theorem HoldOnly.trans (h : HoldOnly t u) (h' : HoldOnly u v) : HoldOnly t v := by
  obtain ⟨_, _, _, _, rfl⟩ := h
  obtain ⟨_, _, _, _, rfl⟩ := h'
  exact ⟨_, _, _, _, rfl⟩

theorem markLost_holdOnly (t : State) : HoldOnly t (markLost t) := ⟨_, _, _, _, rfl⟩

theorem leaveHold_holdOnly (t : State) : HoldOnly t (leaveHold t) := ⟨_, _, _, _, rfl⟩

theorem enterHold_holdOnly (t : State) : HoldOnly t (enterHold t) := by
  unfold enterHold
  dsimp only [setKeeper, setJournal]
  split
  · exact ⟨_, _, _, _, rfl⟩
  · exact ⟨_, _, _, _, rfl⟩

theorem setJournal_holdOnly (t : State) (f : Journal → Journal) : HoldOnly t (setJournal t f) := ⟨_, _, _, _, rfl⟩

theorem leaveIfWhole_holdOnly (t : State) : HoldOnly t (leaveIfWhole t) := by
  unfold leaveIfWhole
  dsimp only
  split
  · exact (setJournal_holdOnly t _).trans (leaveHold_holdOnly _)
  · exact holdOnly_refl t

theorem leaveIfWhole_records (t : State) : (leaveIfWhole t).journal.records = t.journal.records := by
  unfold leaveIfWhole
  dsimp only
  split
  · rfl
  · rfl

/-- The records that the journal gives to a stack of the active pair. -/
def givenRecords (t : State) (m : Nat) : List JRecord :=
  t.journal.records.map (fun r => if r.copies.any (fun c => c != m && stackUp t c) && !r.copies.contains m then { r with copies := r.copies ++ [m] } else r)

theorem journalStackBack_holdOnly (t : State) (m : Nat) : HoldOnly t (journalStackBack t m) := by
  unfold journalStackBack
  dsimp only
  split
  · exact holdOnly_refl t
  · split
    · exact (setJournal_holdOnly t _).trans ((markLost_holdOnly _).trans (leaveIfWhole_holdOnly _))
    · exact setJournal_holdOnly t _

theorem journalStackBack_records (mine : m ∈ pairStacks t.journal.activePair) (scanned : t.journal.scanned = true) :
    (journalStackBack t m).journal.records = givenRecords t m := by
  have here : ¬ (!(pairStacks t.journal.activePair).contains m || !t.journal.scanned) = true := by simp [mine, scanned]
  unfold journalStackBack
  dsimp only
  rw [if_neg here]
  split
  · exact leaveIfWhole_records _
  · rfl

theorem mem_givenRecords {x : JRecord} (held : x ∈ t.journal.records) (elsewhere : ∃ c ∈ x.copies, c ≠ m ∧ stackUp t c = true) :
    ∃ y ∈ givenRecords t m, y.lsn = x.lsn ∧ m ∈ y.copies := by
  refine ⟨_, List.mem_map_of_mem held, ?_⟩
  have any : x.copies.any (fun c => c != m && stackUp t c) = true := by simpa using elsewhere
  rw [any]
  by_cases here : m ∈ x.copies
  · simp [here]
  · simp [here]

end Back

end Sys2Proof.Machine
end


section
namespace Sys2Proof.Machine

/-! ## A stack returns (R357, R494) -/

section Returns
variable {s t u : State} {m : Nat} {f : MemPort → MemPort}

/-- The stack belongs to the journal's pair, and the journal has been scanned. -/
def JournalStack (s : State) (m : Nat) : Prop := m ∈ pairStacks s.journal.activePair ∧ s.journal.scanned = true

/-- A stack comes up with `f` on its port, is given what it has missed, and its recovery ends. -/
def returned (s : State) (m : Nat) (f : MemPort → MemPort) : State := endRecovery (stackBack (setMemPort s m f) m) 6 m

theorem returned_field {α : Type} (g : State → α) (hg : ∀ t i, g (faultRecord t i none) = g t)
    (hr : ∀ (t : State) (h : List Recovery → List Recovery), g (setKeeper t (fun k => { k with recoveries := h k.recoveries })) = g t)
    (hj : ∀ t j state code orders, g { t with journal := j, keeper := { t.keeper with state := state, code := code, orders := orders } } = g t) :
    g (returned s m f) = g (mirrorStack (setMemPort s m f) m) :=
  (endRecovery_field g hg hr).trans ((journalStackBack_holdOnly _ m).field g (hj _))

theorem returned_mems : (returned s m f).mems = (mirrorStack (setMemPort s m f) m).mems :=
  returned_field State.mems (fun t i => faultRecord_mems t i none) (fun _ _ => rfl) (fun _ _ _ _ _ => rfl)

theorem faultRecord_archive (t : State) (i : FaultInfo) (o : Option (BitVec 64)) : (faultRecord t i o).keeper.archive = t.keeper.archive :=
  (faultRecord_reported t i o).field (fun t => t.keeper.archive) fun _ _ _ _ _ => rfl

theorem getMemPort_returned (inside : m < 4) (ports : s.mems.length = 4) :
    getMemPort (returned s m f) m = { f (getMemPort s m) with imageStale := (getMemPort (returned s m f) m).imageStale } := by
  have port : getMemPort (returned s m f) m = getMemPort (mirrorStack (setMemPort s m f) m) m := by
    rw [getMemPort, returned_mems, getMemPort]
  obtain ⟨-, only⟩ := mirrorStack_storesOnly (t := setMemPort s m f) inside (by simpa using ports)
  rw [port]
  refine (only m).trans ?_
  rw [getMemPort_setMemPort_same s m f (by omega)]

theorem findRecovery_returned : findRecovery (returned s m f) 6 m = none := findRecovery_endRecovery

theorem returned_comb_runs (inside : m < 4) (ports : s.mems.length = 4) :
    (returned s m f).comb = s.comb ∧ (returned s m f).runs = s.runs := by
  obtain ⟨⟨_, _, _, only⟩, -⟩ := mirrorStack_storesOnly (t := setMemPort s m f) inside (by simpa using ports)
  have comb := returned_field (s := s) (m := m) (f := f) State.comb (fun t i => faultRecord_comb t i none) (fun _ _ => rfl) (fun _ _ _ _ _ => rfl)
  have runs := returned_field (s := s) (m := m) (f := f) State.runs (fun t i => faultRecord_runs t i none) (fun _ _ => rfl) (fun _ _ _ _ _ => rfl)
  rw [comb, runs, only]
  exact ⟨rfl, rfl⟩

theorem mirrored_returned (inside : m < 4) (ports : s.mems.length = 4) (keeps : ∀ p, (f p).imageStale = p.imageStale) :
    Mirrored s (returned s m f) m :=
  (mirrored_mirrorStack inside ports keeps).congr
    (returned_field State.stackMem (fun t i => faultRecord_stackMem t i none) (fun _ _ => rfl) (fun _ _ _ _ _ => rfl))
    returned_mems
    (returned_field (fun t => t.keeper.archive) (fun t i => faultRecord_archive t i none) (fun _ _ => rfl) (fun _ _ _ _ _ => rfl))

/-- Every record of the journal that another stack holds comes to a stack of the journal's pair (R341). -/
theorem mem_returned_records (inside : m < 4) (ports : s.mems.length = 4) (mine : JournalStack s m) {x : JRecord}
    (held : x ∈ s.journal.records) (elsewhere : ∃ c ∈ x.copies, c ≠ m ∧ stackUp s c = true) :
    ∃ y ∈ (returned s m f).journal.records, y.lsn = x.lsn ∧ m ∈ y.copies := by
  obtain ⟨⟨_, _, _, only⟩, ports'⟩ := mirrorStack_storesOnly (t := setMemPort s m f) inside (by simpa using ports)
  have journal : (mirrorStack (setMemPort s m f) m).journal = s.journal := by rw [only]; rfl
  have state (k : Nat) : stackUp (mirrorStack (setMemPort s m f) m) k = stackUp (setMemPort s m f) k := by rw [stackUp, ports' k, stackUp]
  have records : (returned s m f).journal.records = givenRecords (mirrorStack (setMemPort s m f) m) m :=
    (endRecovery_field (fun t => t.journal.records) (fun t i => congrArg _ (faultRecord_journal t i none)) (fun _ _ => rfl)).trans
      (journalStackBack_records (journal ▸ mine.1) (journal ▸ mine.2))
  rw [records]
  obtain ⟨c, hc, other, up⟩ := elsewhere
  exact mem_givenRecords (journal ▸ held) ⟨c, hc, other, by rw [state, stackUp_setMemPort_ne other, up]⟩

end Returns

/-! ## STACK_TRAINING_DONE and LANE_REPAIR_COMPLETE (R357, R494) -/

section Arms
variable {s : State} {m : Fin 4} {trained : Bool} {capacity spares : BitVec 8} {height : BitVec 5}

/-- The port of a stack that has trained. -/
def trainedPort (capacity spares : BitVec 8) (height : BitVec 5) (p : MemPort) : MemPort :=
  { p with state := 2, capacity := capacity, height := height, stackGiB := capacity, spareLeft := spares, repaired := 0, marked := [] }

/-- The port of a stack whose marked lanes have been assigned, as far as redundant ones are left. -/
def repairedPort (p : MemPort) : MemPort :=
  { p with state := 2, repaired := satAdd p.repaired (min p.marked.length p.spareLeft.toNat)
           spareLeft := BitVec.ofNat 8 (p.spareLeft.toNat - min p.marked.length p.spareLeft.toNat)
           marked := p.marked.drop (min p.marked.length p.spareLeft.toNat) }

theorem exec_stackTrainingDone_idle (clock : standing s = false)
    (h : ((getMemPort s m).state ≠ 0 ∧ (getMemPort s m).state ≠ 1) ∨ portsOpen s = false) :
    exec (.stackTrainingDone m trained capacity height spares) s = .next s := by
  have idle : (!((getMemPort s m).state == 0#3 || (getMemPort s m).state == 1#3) || !portsOpen s) = true := by
    rcases h with ⟨zero, one⟩ | closed
    · simp only [Bool.or_eq_true, Bool.not_eq_true', Bool.or_eq_false_iff, beq_eq_false_iff_ne]
      exact Or.inl ⟨zero, one⟩
    · simp [closed]
  exact (clocked_of_clocked clock).trans (congrArg _ (if_pos idle))

theorem exec_stackTrainingDone_trains (clock : standing s = false) (training : (getMemPort s m).state = 0 ∨ (getMemPort s m).state = 1)
    (open_ : portsOpen s = true) : exec (.stackTrainingDone m trained capacity height spares) s
      = .next (if trained && stackShapeOk capacity.toNat height.toNat then returned s m (trainedPort capacity spares height) else stackFailed s m) := by
  have busy : ¬ (!((getMemPort s m).state == 0#3 || (getMemPort s m).state == 1#3) || !portsOpen s) = true := by
    have state : ((getMemPort s m).state == 0#3 || (getMemPort s m).state == 1#3) = true := by
      rw [Bool.or_eq_true, beq_iff_eq, beq_iff_eq]
      exact training
    simp [state, open_]
  exact (clocked_of_clocked clock).trans (congrArg _ (if_neg busy))

theorem exec_laneRepairComplete (clock : standing s = false) : exec (.laneRepairComplete m) s
    = .next (if (getMemPort s m).state ≠ 3 then s else returned s m repairedPort) := by
  refine (clocked_of_clocked clock).trans (congrArg _ (if_congr ?_ rfl rfl))
  exact bne_iff_ne

theorem stackShapeOk_iff {c h : Nat} : stackShapeOk c h = true ↔ 32 ≤ c ∧ c ≤ 128 ∧ c % 16 = 0 ∧ (h = 12 ∨ h = 16) := by
  simp [stackShapeOk, and_assoc]

end Arms
end Sys2Proof.Machine
end


section
namespace Sys2Proof.Machine

/-! ## STACK_FAILURE (R362, R469) -/

section Failure
variable {s₀ s t u v : State} {m : Nat}

/-- A hold that no stack of the journal's pair can end. -/
def GivenUp (s : State) (m : Nat) : Prop :=
  s.journal.hold = true ∧ m ∈ pairStacks s.journal.activePair ∧ ∀ c ∈ pairStacks s.journal.activePair, c ≠ m → (getMemPort s c).state = 4

/-- Another stack of the journal's pair is up. -/
def OtherUp (s : State) (m : Nat) : Prop := ∃ c ∈ pairStacks s.journal.activePair, c ≠ m ∧ stackUp s c = true

/-! ### The stop of what the stack served -/

/-- The port of a failed stack. -/
def failedPort (p : MemPort) : MemPort := { p with state := 4, outstanding := 0, powerDown := false }

/-- A unit on the failed stack is dropped, and its run is faulted. -/
def hitMove (m : Nat) (s : State) (x : Nat × Move × Issued) : State :=
  runFault (dropMove s x.1 x.2.1) x.2.1.run 0x0403 x.2.2.instr x.2.1.ref.unit 6 m

/-- The units on the stack are dropped. -/
def emptied (s : State) (m : Nat) : State :=
  (movesOn s m).foldl (hitMove m) (beginRecovery (setMemPort s m failedPort) 6 m 0x0403)

/-- The record of a failure that hits no run. -/
def told (t : State) (m : Nat) (unclaimed : Bool) : State :=
  if unclaimed then
    faultRecord t { code := 0x0403, domain := 6, inst := m, phase := 1, run := 0xFF, order := 0, instr := 0xFFFFFFFF
                    redone := 0, unit := 0, duration := 0 } none
  else t

/-- The failure before the journal hears of it. -/
def struck (s : State) (m : Nat) : State := phaseRecord (told (emptied s m) m (movesOn s m).isEmpty) 6 m 2 0x0403

/-- What no fault record shows is as the dropped units leave it. -/
theorem struck_field {α : Type} (g : State → α) (hg : ∀ t i, g (faultRecord t i none) = g t) : g (struck s m) = g (emptied s m) := by
  refine (phaseRecord_field g fun i => hg _ i).trans ?_
  unfold told
  split
  · exact hg ..
  · rfl

/-- What the journal makes of the failure. -/
def heardOf (s : State) (m : Nat) : State :=
  if s.journal.hold && (pairStacks s.journal.activePair).contains m
      && !(pairStacks s.journal.activePair).any (fun x => x != m && (getMemPort s x).state != 4#3)
  then giveUpLost (struck s m) else journalStackGone (struck s m) m true

theorem stackFailed_eq (s : State) (m : Nat) : stackFailed s m = if (getMemPort s m).state == 4#3 then s
    else if (heardOf s m).journal.copying || (heardOf s m).journal.hold then heardOf s m else endRecovery (heardOf s m) 6 m := rfl

theorem heardOf_givenUp (h : GivenUp s m) : heardOf s m = giveUpLost (struck s m) := by
  obtain ⟨hold, mine, gone⟩ := h
  refine if_pos ?_
  simp only [hold, List.contains_eq_mem, mine, decide_true, Bool.true_and, Bool.and_true, Bool.not_eq_true', List.any_eq_false]
  intro c hc
  by_cases own : c = m
  · simp [own]
  · simp [gone c hc own]

theorem heardOf_held (h : ¬ GivenUp s m) : heardOf s m = journalStackGone (struck s m) m true := by
  refine if_neg fun lost => h ?_
  simp only [Bool.and_eq_true, List.contains_eq_mem, decide_eq_true_eq, Bool.not_eq_true', List.any_eq_false, bne_iff_ne, Bool.and_eq_true,
    not_and, ne_eq, not_not] at lost
  obtain ⟨⟨hold, mine⟩, gone⟩ := lost
  exact ⟨hold, mine, gone⟩

/-- What neither a fault record nor the list of recoveries shows is as the journal's step leaves it. -/
theorem stackFailed_field {α : Type} (g : State → α) (hg : ∀ t i, g (faultRecord t i none) = g t)
    (hr : ∀ (t : State) (h : List Recovery → List Recovery), g (setKeeper t (fun k => { k with recoveries := h k.recoveries })) = g t)
    (whole : (getMemPort s m).state ≠ 4) : g (stackFailed s m) = g (heardOf s m) := by
  have unfailed : ¬ ((getMemPort s m).state == 4#3) = true := fun failed => whole (eq_of_beq failed)
  rw [stackFailed_eq, if_neg unfailed]
  split
  · rfl
  · exact endRecovery_field g hg hr

/-! ### Memories, ports and units -/

theorem faultRecord_books {i : FaultInfo} {o : Option (BitVec 64)} (h : Books s₀ s) : Books s₀ (faultRecord s i o) :=
  h.parts ((faultRecord_reported s i o).field booked fun _ _ _ _ _ => rfl)

theorem runFault_books {r : Nat} {code : BitVec 16} {instr unit domain inst redone phase : Nat} (h : Books s₀ s) :
    Books s₀ (runFault s r code instr unit domain inst redone phase) :=
  h.parts (runFault_field booked (fun i o => (faultRecord_reported s i o).field booked fun _ _ _ _ _ => rfl) fun _ _ => rfl)

theorem hitMove_books {x : Nat × Move × Issued} (h : Books s₀ s) : Books s₀ (hitMove m s x) := runFault_books (leaveForager_books h)

theorem struck_books (s : State) (m : Nat) : Books (setMemPort s m failedPort) (struck s m) := by
  have begun : Books (setMemPort s m failedPort) (beginRecovery (setMemPort s m failedPort) 6 m 0x0403) :=
    (books_refl _).parts (beginRecovery_field booked fun _ => rfl)
  have hit : Books (setMemPort s m failedPort) (emptied s m) := .foldl begun fun _ _ h => hitMove_books h
  exact hit.parts (struck_field booked fun t i => (faultRecord_reported t i none).field booked fun _ _ _ _ _ => rfl)

theorem abandonOrder_books {n : BitVec 64} {code : BitVec 16} (h : Books s₀ s) : Books s₀ (abandonOrder s n code) := by
  unfold abandonOrder
  dsimp only
  split
  · exact h
  · have written {t kind run : Nat} {src : BitVec 22} {body : Bytes} {f : Order → Order} :
        Books s₀ (setOrder (journalAt (stamp s).1 t kind run n src body) n f) :=
      setOrder_books (journalAt_books (s := (stamp s).1) (h.parts rfl))
    split
    · exact .ite (clearRunOrder_books written) written
    · exact written

theorem HoldOnly.books (h : HoldOnly t u) : Books t u := (books_refl t).parts (h.field booked fun _ _ _ _ => rfl)

theorem journalStackGone_holdOnly (t : State) (m : Nat) (copy : Bool) : HoldOnly t (journalStackGone t m copy) := by
  unfold journalStackGone
  dsimp only
  split
  · exact holdOnly_refl t
  · split
    · split
      · exact setJournal_holdOnly t _
      · exact holdOnly_refl t
    · split
      · exact holdOnly_refl t
      · exact enterHold_holdOnly t

/-- The accepted orders whose ACCEPT record is lost. -/
def lostOrders (t : State) : List Order := t.keeper.orders.filter (fun o => o.state == .accepted && o.acceptLost)

/-- They are abandoned (R469). -/
def lostAbandoned (t : State) : State := (lostOrders t).foldl (fun t o => abandonOrder t o.number 0x0294) t

/-- The journal goes on in the other pair. -/
def movedOn (t : State) : State :=
  setJournal t (fun j =>
    { j with records := (j.records.filter (fun r => r.copies.any (stackUp t))).map (fun r =>
               { r with copies := r.copies ++ (pairStacks (1 - j.activePair)).filter (fun m => stackUp t m && !r.copies.contains m) })
             activePair := 1 - j.activePair, copying := false })

theorem giveUpLost_eq (t : State) : giveUpLost t = leaveIfWhole (movedOn (lostAbandoned t)) := rfl

theorem giveUpLost_books (t : State) : Books t (giveUpLost t) := by
  have gone : Books t (lostAbandoned t) := .foldl (books_refl t) fun _ _ h => abandonOrder_books h
  have moved : Books t (movedOn (lostAbandoned t)) := gone.parts rfl
  rw [giveUpLost_eq]
  exact moved.parts ((leaveIfWhole_holdOnly _).field booked fun _ _ _ _ => rfl)

theorem heardOf_books (s : State) (m : Nat) : Books (struck s m) (heardOf s m) := by
  unfold heardOf
  exact .ite (giveUpLost_books _) (journalStackGone_holdOnly _ m true).books

/-- Memories and units are as the failure leaves them, and the ports too. -/
theorem stackFailed_books (whole : (getMemPort s m).state ≠ 4) : Books (struck s m) (stackFailed s m) :=
  (heardOf_books s m).parts
    (stackFailed_field booked (fun t i => (faultRecord_reported t i none).field booked fun _ _ _ _ _ => rfl) (fun _ _ => rfl) whole)

/-! ### The units on the stack -/

theorem moveGone_foldl {l : List (Nat × Move × Issued)} {x : Nat × Move × Issued} (hx : x ∈ l) : MoveGone (l.foldl (hitMove m) s) x.1 x.2.1 := by
  induction l generalizing s with
  | nil => exact absurd hx List.not_mem_nil
  | cons y l ih =>
    rcases List.mem_cons.mp hx with rfl | later
    · have own : MoveGone (hitMove m s x) x.1 x.2.1 :=
        (dropMove_moveGone s x.1 x.2.1).mono ((runFault_books (books_refl _)).moves x.1)
      have rest : Books (hitMove m s x) (l.foldl (hitMove m) (hitMove m s x)) := .foldl (books_refl _) fun _ _ h => hitMove_books h
      exact own.mono (rest.moves x.1)
    · exact ih later

/-- A run has the fault of a failed stack. -/
def StackFaulted (s : State) (r : Nat) : Prop := ∃ e, (getRun s r).bind Run.fault = some e ∧ e.code = 0x0403

theorem StackFaulted.congr {r : Nat} (h : StackFaulted s r) (runs : getRun t r = getRun s r) : StackFaulted t r := by
  unfold StackFaulted
  rw [runs]
  exact h

/-- A run that has the fault, or that the next fault stops. -/
def Hurt (s : State) (r : Nat) : Prop := Faultable s r ∨ StackFaulted s r

theorem Hurt.congr {r : Nat} (h : Hurt s r) (runs : getRun t r = getRun s r) : Hurt t r := by
  unfold Hurt Faultable StackFaulted
  rw [runs]
  exact h

variable {x : Nat × Move × Issued} {r : Nat}

theorem getRun_hitMove_ne (other : r ≠ x.2.1.run) : getRun (hitMove m s x) r = getRun s r := getRun_runFault_ne other

/-- The unit's own run has the fault of the stack. -/
theorem Hurt.hitMove (h : Hurt s x.2.1.run) : StackFaulted (hitMove m s x) x.2.1.run := by
  rcases h with ⟨rn, hr, free, busy⟩ | ⟨e, he, code⟩
  · have faulted := getRun_runFault (s := dropMove s x.1 x.2.1) (r := x.2.1.run) (code := 0x0403) (instr := x.2.2.instr) (unit := x.2.1.ref.unit)
      (domain := 6) (inst := m) (redone := 0) (phase := 1) hr free busy (by decide)
    refine ⟨{ code := 0x0403, instr := x.2.2.instr, unit := x.2.1.ref.unit }, ?_, rfl⟩
    rw [Machine.hitMove, faulted]
    rfl
  · obtain ⟨rn, hr, fault⟩ := Option.bind_eq_some_iff.mp he
    obtain ⟨i, o, -, -, -, -, eq⟩ := runFault_eq (s := dropMove s x.1 x.2.1) (code := 0x0403) (instr := x.2.2.instr) (unit := x.2.1.ref.unit)
      (domain := 6) (inst := m) (redone := 0) (phase := 1) hr
    rw [if_pos (by simp [fault])] at eq
    refine ⟨e, ?_, code⟩
    rw [Machine.hitMove, eq, getRun_congr (faultRecord_runs _ i o)]
    exact he

theorem StackFaulted.hitMove (h : StackFaulted s r) : StackFaulted (hitMove m s x) r := by
  by_cases own : r = x.2.1.run
  · subst own
    exact Hurt.hitMove (Or.inr h)
  · exact h.congr (getRun_hitMove_ne own)

theorem Hurt.after_hitMove (h : Hurt s r) : Hurt (Machine.hitMove m s x) r := by
  by_cases own : r = x.2.1.run
  · subst own
    exact Or.inr h.hitMove
  · exact h.congr (getRun_hitMove_ne own)

theorem StackFaulted.foldl {l : List (Nat × Move × Issued)} (h : StackFaulted s r) : StackFaulted (l.foldl (Machine.hitMove m) s) r := by
  induction l generalizing s with
  | nil => exact h
  | cons y l ih => exact ih h.hitMove

theorem Hurt.foldl {l : List (Nat × Move × Issued)} (hx : x ∈ l) (h : Hurt s x.2.1.run) :
    StackFaulted (l.foldl (Machine.hitMove m) s) x.2.1.run := by
  induction l generalizing s with
  | nil => exact absurd hx List.not_mem_nil
  | cons y l ih =>
    rcases List.mem_cons.mp hx with rfl | later
    · exact h.hitMove.foldl
    · exact ih later h.after_hitMove

theorem struck_runs (s : State) (m : Nat) : (struck s m).runs = (emptied s m).runs :=
  struck_field State.runs fun t i => faultRecord_runs t i none

theorem struck_moveGone (hx : x ∈ movesOn s m) : MoveGone (struck s m) x.1 x.2.1 := by
  have hit : MoveGone (emptied s m) x.1 x.2.1 := moveGone_foldl hx
  have same : (struck s m).foragers = (emptied s m).foragers := struck_field State.foragers fun t i => faultRecord_foragers t i none
  refine hit.mono ?_
  rw [getForager, same, getForager]
  exact List.Subset.refl _

theorem struck_stackFaulted (hx : x ∈ movesOn s m) (h : Faultable s x.2.1.run) : StackFaulted (struck s m) x.2.1.run := by
  have before : Hurt (beginRecovery (setMemPort s m failedPort) 6 m 0x0403) x.2.1.run :=
    Hurt.congr (s := s) (Or.inl h) (getRun_congr (beginRecovery_runs (s := setMemPort s m failedPort)) _)
  exact (before.foldl hx).congr (getRun_congr (struck_runs s m) _)

/-! ### The journal -/

/-- What the journal's step reads, but for the ports. -/
def ledger (s : State) : Journal × List Order × KeeperState × BitVec 16 := (s.journal, s.keeper.orders, s.keeper.state, s.keeper.code)

theorem faultRecord_ledger (s : State) (i : FaultInfo) (o : Option (BitVec 64)) : ledger (faultRecord s i o) = ledger s :=
  (faultRecord_reported s i o).field ledger fun _ _ _ _ _ => rfl

theorem foldl_hitMove_ledger (s : State) (l : List (Nat × Move × Issued)) : ledger (l.foldl (hitMove m) s) = ledger s := by
  induction l generalizing s with
  | nil => rfl
  | cons x l ih => exact (ih _).trans (runFault_field ledger (faultRecord_ledger _) fun _ _ => rfl)

theorem struck_ledger (s : State) (m : Nat) : ledger (struck s m) = ledger s :=
  (struck_field ledger fun t i => faultRecord_ledger t i none).trans
    ((foldl_hitMove_ledger _ _).trans (beginRecovery_field ledger fun _ => rfl))

theorem struck_journal (s : State) (m : Nat) : (struck s m).journal = s.journal := congrArg Prod.fst (struck_ledger s m)

theorem struck_stackUp {k : Nat} (other : k ≠ m) : stackUp (struck s m) k = stackUp s k := by
  rw [stackUp, getMemPort, (struck_books s m).mems]
  exact stackUp_setMemPort_ne other

theorem struck_stackUp_self (inside : m < s.mems.length) : stackUp (struck s m) m = false := by
  rw [stackUp, getMemPort, (struck_books s m).mems, ← getMemPort, getMemPort_setMemPort_same s m _ inside]
  rfl

/-- Of the journal's pair some stack is up still, just when it is another. -/
theorem any_struck (inside : m < s.mems.length) :
    (pairStacks (struck s m).journal.activePair).any (stackUp (struck s m)) = true ↔ OtherUp s m := by
  rw [struck_journal, List.any_eq_true]
  constructor
  · rintro ⟨c, hc, up⟩
    have other : c ≠ m := fun own => by simp [own, struck_stackUp_self inside] at up
    exact ⟨c, hc, other, by rw [← struck_stackUp other, up]⟩
  · rintro ⟨c, hc, other, up⟩
    exact ⟨c, hc, by rw [struck_stackUp other, up]⟩

theorem journalStackGone_other (h : ¬ JournalStack t m) (copy : Bool) : journalStackGone t m copy = t := by
  refine if_pos ?_
  unfold JournalStack at h
  simp only [Bool.or_eq_true, Bool.not_eq_true', List.contains_eq_mem, decide_eq_false_iff_not]
  by_cases mine : m ∈ pairStacks t.journal.activePair
  · exact Or.inr (Bool.eq_false_of_not_eq_true fun scanned => h ⟨mine, scanned⟩)
  · exact Or.inl mine

theorem journalStackGone_mine (h : JournalStack t m) (copy : Bool) : journalStackGone t m copy
    = if (pairStacks t.journal.activePair).any (stackUp t) = true then
        (if copy then setJournal t (fun j => { j with copying := true }) else t)
      else if t.journal.hold = true then t else enterHold t := by
  obtain ⟨mine, scanned⟩ := h
  exact if_neg (by simp [mine, scanned])

theorem enterHold_journal (t : State) : (enterHold t).journal = { t.journal with hold := true, copying := false } := rfl

theorem enterHold_keeper (h : t.keeper.state = .ready ∨ t.keeper.state = .recover) :
    (enterHold t).keeper.state = .hold ∧ (enterHold t).keeper.code = 0x0517 := by
  have serving : (t.keeper.state == .ready || t.keeper.state == .recover) = true := by simpa using h
  unfold enterHold markLost setKeeper setJournal
  dsimp only
  rw [if_pos serving]
  exact ⟨rfl, rfl⟩

end Failure
end Sys2Proof.Machine
end


section
namespace Sys2Proof.Machine

/-! ## A hold that is given up (R469) -/

section GivenUp
variable {s t : State} {m : Nat} {n k : BitVec 64} {code : BitVec 16}

/-- The order is abandoned with the code of a lost ACCEPT record. -/
def LostEnded (o : Order) : Prop := o.state = .abandoned ∧ o.code = 0x0294

/-- An order that is abandoned at a time. -/
def abandonedAs (code : BitVec 16) (stamp : Nat) (o : Order) : Order :=
  { o with state := .abandoned, code := code, endStamp := stamp, awaiting := false }

/-- The end of an order in the books, before its run lets go of it. -/
def abandonBooked (t : State) (o : Order) (n : BitVec 64) (code : BitVec 16) : State :=
  setOrder (journalAt (stamp t).1 (stamp t).2 7 o.run n (orderSource n) (natLe 2 code.toNat ++ natLe 6 0 ++ stampNs (stamp t).2 ++ stampFrac (stamp t).2 ++ natLe 6 0))
    n (abandonedAs code (stamp t).2)

/-- A field that no run, frame or worker shows. -/
theorem abandonOrder_field {α : Type} (g : State → α) (hg : ∀ (u : State) frames workers runs,
    g { u with frames := frames, workers := workers, runs := runs } = g u) {o : Order} (found : findOrder t n = some o) :
    g (abandonOrder t n code) = g (abandonBooked t o n code) := by
  unfold abandonOrder
  rw [found]
  dsimp only
  split
  · split
    · obtain ⟨⟨_, _, _, e⟩, -⟩ := clearRunOrder_runOnly (abandonBooked t o n code) o.run
      exact (congrArg g e).trans (hg ..)
    · rfl
  · rfl

theorem abandonOrder_unknown (unknown : findOrder t n = none) : abandonOrder t n code = t := by
  unfold abandonOrder
  rw [unknown]

theorem foldl_setOrder_journal {f : Order → Order} (acks : List (BitVec 64)) (t : State) :
    (acks.foldl (fun s a => setOrder s a f) t).journal = t.journal := by
  induction acks generalizing t with
  | nil => rfl
  | cons a acks ih => exact ih _

theorem deliverAcks_activePair (t : State) : (deliverAcks t).journal.activePair = t.journal.activePair := by
  unfold deliverAcks
  dsimp only
  split
  · rfl
  · rw [foldl_setOrder_journal]
    rfl

theorem journalAt_activePair {at_ kind run : Nat} {src : BitVec 22} {body : Bytes} :
    (journalAt t at_ kind run n src body).journal.activePair = t.journal.activePair := by
  unfold journalAt checkpointDue
  split
  · rfl
  · exact deliverAcks_activePair (appendRecord t at_ kind run n src body)

theorem abandonOrder_activePair : (abandonOrder t n code).journal.activePair = t.journal.activePair := by
  cases found : findOrder t n with
  | none => rw [abandonOrder_unknown found]
  | some o => exact (abandonOrder_field (fun u => u.journal.activePair) (fun _ _ _ _ => rfl) found).trans journalAt_activePair

theorem foldl_abandonOrder_activePair (l : List Order) (t : State) :
    (l.foldl (fun t o => abandonOrder t o.number code) t).journal.activePair = t.journal.activePair := by
  induction l generalizing t with
  | nil => rfl
  | cons o l ih => exact (ih _).trans abandonOrder_activePair

/-- While no CHECKPOINT is due, the end of an order is one record more, and no order is forgotten. -/
theorem abandonBooked_few {x : Order} (few : t.journal.sinceCheckpoint + 1 < 4096) :
    findOrder (abandonBooked t x k code) n = (findOrder t n).map (fun o => if o.number == k then abandonedAs code (stamp t).2 o else o)
      ∧ (abandonBooked t x k code).journal.sinceCheckpoint = t.journal.sinceCheckpoint + 1 := by
  rw [abandonBooked, journalAt_few (s := (stamp t).1) few, findOrder_setOrder (f := abandonedAs code (stamp t).2) fun _ => rfl]
  exact ⟨rfl, rfl⟩

theorem findOrder_abandonOrder {o : Order} (few : t.journal.sinceCheckpoint + 1 < 4096) (there : findOrder t n = some o) :
    ∃ o', findOrder (abandonOrder t k code) n = some o' ∧ (n = k → o'.state = .abandoned ∧ o'.code = code) ∧ (n ≠ k → o' = o)
      ∧ (abandonOrder t k code).journal.sinceCheckpoint ≤ t.journal.sinceCheckpoint + 1 := by
  cases found : findOrder t k with
  | none =>
    rw [abandonOrder_unknown found]
    refine ⟨o, there, fun same => ?_, fun _ => rfl, Nat.le_succ _⟩
    rw [same, found] at there
    exact nomatch there
  | some x =>
    obtain ⟨orders, count⟩ := abandonBooked_few (n := n) (k := k) (code := code) (x := x) few
    rw [there, Option.map_some, number_of_findOrder there] at orders
    refine ⟨_, (abandonOrder_field (fun u => findOrder u n) (fun _ _ _ _ => rfl) found).trans orders, fun same => ?_, fun other => ?_, ?_⟩
    · rw [if_pos (beq_iff_eq.mpr same)]
      exact ⟨rfl, rfl⟩
    · exact if_neg fun same => other (eq_of_beq same)
    · exact ((abandonOrder_field (fun u => u.journal.sinceCheckpoint) (fun _ _ _ _ => rfl) found).trans count).le

theorem findOrder_foldl_abandonOrder {l : List Order} {o : Order} (few : t.journal.sinceCheckpoint + l.length < 4096)
    (there : findOrder t n = some o) : ∃ o', findOrder (l.foldl (fun t x => abandonOrder t x.number 0x0294) t) n = some o'
      ∧ (LostEnded o ∨ (∃ x ∈ l, x.number = n) → LostEnded o') := by
  induction l generalizing t o with
  | nil => exact ⟨o, there, fun h => h.resolve_right fun ⟨_, hx, _⟩ => nomatch hx⟩
  | cons x l ih =>
    rw [List.length_cons] at few
    obtain ⟨o₁, found, own, other, count⟩ := findOrder_abandonOrder (k := x.number) (code := 0x0294) (by omega) there
    obtain ⟨o', last, hit⟩ := ih (by omega) found
    refine ⟨o', last, fun h => hit ?_⟩
    by_cases same : n = x.number
    · exact Or.inl (own same)
    · rcases h with already | ⟨y, hy, number⟩
      · exact Or.inl (other same ▸ already)
      · refine Or.inr ⟨y, (List.mem_cons.mp hy).resolve_left fun e => same ?_, number⟩
        rw [← e, number]

theorem leaveIfWhole_activePair (t : State) : (leaveIfWhole t).journal.activePair = t.journal.activePair := by
  unfold leaveIfWhole
  dsimp only
  split
  · rfl
  · rfl

theorem leaveIfWhole_copying (idle : t.journal.copying = false) : (leaveIfWhole t).journal.copying = false := by
  unfold leaveIfWhole
  dsimp only
  split
  · rfl
  · exact idle

/-- The end of a hold changes of an order no more than that its start is free again. -/
theorem findOrder_leaveIfWhole {o : Order} (there : findOrder t n = some o) :
    ∃ lost, findOrder (leaveIfWhole t) n = some { o with acceptLost := lost } := by
  unfold leaveIfWhole
  dsimp only
  split
  · refine ⟨false, ?_⟩
    have same : (fun o : Order => o.number == n) ∘ (fun o : Order => { o with acceptLost := false }) = fun o => o.number == n := rfl
    unfold findOrder at there ⊢
    unfold leaveHold setKeeper setJournal
    rw [List.find?_map, same]
    exact congrArg (Option.map _) there
  · exact ⟨_, there⟩

theorem giveUpLost_journal (t : State) :
    (giveUpLost t).journal.activePair = 1 - t.journal.activePair ∧ (giveUpLost t).journal.copying = false := by
  have pair : (movedOn (lostAbandoned t)).journal.activePair = 1 - t.journal.activePair :=
    congrArg (1 - ·) (foldl_abandonOrder_activePair (lostOrders t) t)
  rw [giveUpLost_eq]
  exact ⟨(leaveIfWhole_activePair _).trans pair, leaveIfWhole_copying rfl⟩

theorem giveUpLost_order {o : Order} (few : t.journal.sinceCheckpoint + t.keeper.orders.length < 4096) (there : findOrder t n = some o)
    (waits : o.state = .accepted) (lost : o.acceptLost = true) : ∃ o', findOrder (giveUpLost t) n = some o' ∧ LostEnded o' := by
  have bound : (lostOrders t).length ≤ t.keeper.orders.length := List.length_filter_le ..
  have named : o ∈ lostOrders t := List.mem_filter.mpr ⟨List.mem_of_find?_eq_some there, by simp [waits, lost]⟩
  obtain ⟨o₁, found, hit⟩ := findOrder_foldl_abandonOrder (l := lostOrders t) (by omega) there
  have moved : findOrder (movedOn (lostAbandoned t)) n = some o₁ := found
  obtain ⟨x, last⟩ := findOrder_leaveIfWhole moved
  exact ⟨_, last, hit (Or.inr ⟨o, named, number_of_findOrder there⟩)⟩

end GivenUp

end Sys2Proof.Machine
end


section
namespace Sys2Proof.Machine

/-! ## What STACK_FAILURE leaves (R362, R337, R469) -/

section Failed
variable {s : State} {m : Nat}

/-- The failed stack, and what stood on it. -/
theorem stackFailed_port (inside : m < s.mems.length) (whole : (getMemPort s m).state ≠ 4) :
    (getMemPort (stackFailed s m) m).state = 4 ∧ (getMemPort (stackFailed s m) m).outstanding = 0
      ∧ (stackFailed s m).comb = s.comb ∧ (stackFailed s m).stackMem = s.stackMem := by
  have books := stackFailed_books whole
  have before := struck_books s m
  have port : getMemPort (stackFailed s m) m = failedPort (getMemPort s m) := by
    rw [getMemPort, books.mems, before.mems, ← getMemPort, getMemPort_setMemPort_same s m _ inside]
  rw [port]
  exact ⟨rfl, rfl, books.comb.trans before.comb, books.stackMem.trans before.stackMem⟩

theorem stackFailed_moveGone (whole : (getMemPort s m).state ≠ 4) {x : Nat × Move × Issued} (hx : x ∈ movesOn s m) :
    MoveGone (stackFailed s m) x.1 x.2.1 := (struck_moveGone hx).mono ((stackFailed_books whole).moves x.1)

theorem stackFailed_journal (whole : (getMemPort s m).state ≠ 4) : (stackFailed s m).journal = (heardOf s m).journal :=
  stackFailed_field State.journal (fun t i => faultRecord_journal t i none) (fun _ _ => rfl) whole

theorem stackFailed_ledger (whole : (getMemPort s m).state ≠ 4) : ledger (stackFailed s m) = ledger (heardOf s m) :=
  stackFailed_field ledger (fun t i => faultRecord_ledger t i none) (fun _ _ => rfl) whole

theorem stackFailed_stackFaulted (whole : (getMemPort s m).state ≠ 4) (h : ¬ GivenUp s m) {x : Nat × Move × Issued} (hx : x ∈ movesOn s m)
    (faultable : Faultable s x.2.1.run) : StackFaulted (stackFailed s m) x.2.1.run := by
  have heard : (heardOf s m).runs = (struck s m).runs := by
    rw [heardOf_held h]
    exact (journalStackGone_holdOnly _ m true).field State.runs fun _ _ _ _ => rfl
  have runs : (stackFailed s m).runs = (struck s m).runs :=
    (stackFailed_field State.runs (fun t i => faultRecord_runs t i none) (fun _ _ => rfl) whole).trans heard
  exact (struck_stackFaulted hx faultable).congr (getRun_congr runs _)

/-- A stack that the journal does not stand in leaves the journal alone. -/
theorem stackFailed_journal_other (whole : (getMemPort s m).state ≠ 4) (h : ¬ JournalStack s m) (held : ¬ GivenUp s m) :
    (stackFailed s m).journal = s.journal := by
  have other : ¬ JournalStack (struck s m) m := by rwa [JournalStack, struck_journal]
  rw [stackFailed_journal whole, heardOf_held held, journalStackGone_other other, struck_journal]

/-- With another stack of the pair the copy begins (R337). -/
theorem stackFailed_copying (inside : m < s.mems.length) (whole : (getMemPort s m).state ≠ 4) (h : JournalStack s m) (held : ¬ GivenUp s m)
    (other : OtherUp s m) : (stackFailed s m).journal.copying = true := by
  have mine : JournalStack (struck s m) m := by rwa [JournalStack, struck_journal]
  rw [stackFailed_journal whole, heardOf_held held, journalStackGone_mine mine, if_pos ((any_struck inside).mpr other), if_pos rfl]
  rfl

/-- Without one the die is in hold (R341). -/
theorem stackFailed_hold (inside : m < s.mems.length) (whole : (getMemPort s m).state ≠ 4) (h : JournalStack s m) (held : ¬ GivenUp s m)
    (alone : ¬ OtherUp s m) : (stackFailed s m).journal.hold = true
      ∧ (s.journal.hold = false → s.keeper.state = .ready ∨ s.keeper.state = .recover →
          (stackFailed s m).keeper.state = .hold ∧ (stackFailed s m).keeper.code = 0x0517) := by
  have mine : JournalStack (struck s m) m := by rwa [JournalStack, struck_journal]
  have same := stackFailed_ledger whole
  rw [heardOf_held held, journalStackGone_mine mine, if_neg (mt (any_struck inside).mp alone), struck_journal] at same
  have before := struck_ledger s m
  simp only [ledger, Prod.mk.injEq] at same before
  obtain ⟨journal, -, state, code⟩ := same
  obtain ⟨-, -, state', -⟩ := before
  rw [journal, state, code]
  split
  · next hold =>
    refine ⟨by rw [struck_journal, hold], fun free => ?_⟩
    rw [hold] at free
    exact nomatch free
  · refine ⟨rfl, fun _ serving => enterHold_keeper ?_⟩
    rw [state']
    exact serving

/-- A hold that no stack of the pair can end is given up: the journal goes on in the other pair, and what is lost is told (R469). -/
theorem stackFailed_givenUp (whole : (getMemPort s m).state ≠ 4) (h : GivenUp s m) :
    (stackFailed s m).journal.activePair = 1 - s.journal.activePair ∧ (stackFailed s m).journal.copying = false
      ∧ (s.journal.sinceCheckpoint + s.keeper.orders.length < 4096 → ∀ n o, findOrder s n = some o → o.state = .accepted → o.acceptLost = true →
          ∃ o', findOrder (stackFailed s m) n = some o' ∧ o'.state = .abandoned ∧ o'.code = 0x0294) := by
  have same := stackFailed_ledger whole
  rw [heardOf_givenUp h] at same
  have before := struck_ledger s m
  simp only [ledger, Prod.mk.injEq] at same before
  obtain ⟨journal, orders, -, -⟩ := same
  obtain ⟨journal', orders', -, -⟩ := before
  obtain ⟨pair, idle⟩ := giveUpLost_journal (struck s m)
  rw [journal, pair, idle, journal']
  refine ⟨rfl, rfl, fun few n o there waits lost => ?_⟩
  rw [findOrder_congr orders]
  exact giveUpLost_order (by rwa [journal', orders']) ((findOrder_congr orders' n).trans there) waits lost

end Failed

/-! ## JOURNAL_COPY_COMPLETE (R337, R469) -/

section Copied
variable {s t : State}

/-- The journal when the other pair holds the live records. -/
def copiedJournal (s : State) : Journal :=
  { s.journal with
    records := s.journal.records.map (fun r =>
      { r with copies := r.copies ++ (pairStacks (1 - s.journal.activePair)).filter (fun m => !r.copies.contains m) })
    activePair := 1 - s.journal.activePair, copying := false }

/-- The other pair becomes active, and a hold ends. -/
def copyTaken (s : State) : State :=
  if s.journal.hold = true then leaveHold (setJournal s (fun _ => copiedJournal s)) else setJournal s (fun _ => copiedJournal s)

/-- The copy to the other pair is whole. -/
def CopyWhole (s : State) : Prop := s.journal.copying = true ∧ (∃ c ∈ pairStacks s.journal.activePair, stackUp s c = true)
  ∧ ∀ c ∈ pairStacks (1 - s.journal.activePair), stackUp s c = true

theorem exec_journalCopyComplete_idle (clock : standing s = false) (h : ¬ CopyWhole s) : exec .journalCopyComplete s = .next s := by
  refine (clocked_of_clocked clock).trans (congrArg _ (if_pos ?_))
  by_contra ready
  refine h ?_
  simpa [CopyWhole, and_assoc] using ready

theorem exec_journalCopyComplete (clock : standing s = false) (h : CopyWhole s) : ∃ failed : List Nat,
    exec .journalCopyComplete s = .next (failed.foldl (fun t m => endRecovery t 6 m) (copyTaken s)) := by
  refine ⟨_, (clocked_of_clocked clock).trans (congrArg _ ((if_neg ?_).trans rfl))⟩
  obtain ⟨copying, old, new⟩ := h
  simpa [copying] using ⟨old, new⟩

theorem foldl_endRecovery_field {α : Type} (g : State → α) (hg : ∀ t i, g (faultRecord t i none) = g t)
    (hr : ∀ (t : State) (h : List Recovery → List Recovery), g (setKeeper t (fun k => { k with recoveries := h k.recoveries })) = g t)
    (failed : List Nat) (t : State) : g (failed.foldl (fun t m => endRecovery t 6 m) t) = g t := by
  induction failed generalizing t with
  | nil => rfl
  | cons m failed ih => exact (ih _).trans (endRecovery_field g hg hr)

theorem copyTaken_journal (s : State) : (copyTaken s).journal = { copiedJournal s with hold := false } := by
  unfold copyTaken
  split
  · rfl
  · next free =>
    have hold : (copiedJournal s).hold = false := Bool.eq_false_of_not_eq_true free
    rw [← hold]
    rfl

theorem copyTaken_keeper (hold : s.journal.hold = true) (held : s.keeper.state = .hold) :
    (copyTaken s).keeper.state = (if s.time.joined then .ready else .recover) ∧ (copyTaken s).keeper.code = 0 := by
  have here : (s.keeper.state == KeeperState.hold) = true := beq_iff_eq.mpr held
  rw [copyTaken, if_pos hold]
  exact ⟨if_pos here, if_pos here⟩

theorem copyTaken_rest (s : State) : (copyTaken s).comb = s.comb ∧ (copyTaken s).stackMem = s.stackMem ∧ (copyTaken s).runs = s.runs := by
  unfold copyTaken
  split
  · exact ⟨rfl, rfl, rfl⟩
  · exact ⟨rfl, rfl, rfl⟩

/-- Every record keeps its number, and stands in both failed of the pair that is now active. -/
theorem copiedJournal_records (s : State) : (copiedJournal s).records.map JRecord.lsn = s.journal.records.map JRecord.lsn
    ∧ ∀ x ∈ (copiedJournal s).records, ∀ c ∈ pairStacks (1 - s.journal.activePair), c ∈ x.copies := by
  refine ⟨List.map_map, fun x hx c hc => ?_⟩
  obtain ⟨r, -, rfl⟩ := List.mem_map.mp hx
  by_cases here : c ∈ r.copies
  · exact List.mem_append_left _ here
  · exact List.mem_append_right _ (List.mem_filter.mpr ⟨hc, by simpa using here⟩)

theorem gives_journalCopyComplete (clock : standing s = false) (h : CopyWhole s) : Gives .journalCopyComplete s (fun u =>
    u.journal.activePair = 1 - s.journal.activePair ∧ u.journal.copying = false
      ∧ u.journal.hold = false ∧ u.journal.records.map JRecord.lsn = s.journal.records.map JRecord.lsn
      ∧ (∀ x ∈ u.journal.records, ∀ c ∈ pairStacks (1 - s.journal.activePair), c ∈ x.copies)
      ∧ (s.journal.hold = true → s.keeper.state = .hold → u.keeper.state = (if s.time.joined then .ready else .recover) ∧ u.keeper.code = 0)
      ∧ u.comb = s.comb ∧ u.stackMem = s.stackMem ∧ u.runs = s.runs) := by
  obtain ⟨failed, row⟩ := exec_journalCopyComplete clock h
  obtain ⟨numbers, copies⟩ := copiedJournal_records s
  obtain ⟨comb, stack, runs⟩ := copyTaken_rest s
  have same := foldl_endRecovery_field ledger (fun t i => faultRecord_ledger t i none) (fun _ _ => rfl) failed (copyTaken s)
  simp only [ledger, Prod.mk.injEq] at same
  obtain ⟨journal, -, state, code⟩ := same
  refine ⟨_, row, ?_⟩
  dsimp only
  rw [journal, state, code, copyTaken_journal]
  exact ⟨rfl, rfl, rfl, numbers, copies, copyTaken_keeper,
    (foldl_endRecovery_field State.comb (fun t i => faultRecord_comb t i none) (fun _ _ => rfl) failed _).trans comb,
    (foldl_endRecovery_field State.stackMem (fun t i => faultRecord_stackMem t i none) (fun _ _ => rfl) failed _).trans stack,
    (foldl_endRecovery_field State.runs (fun t i => faultRecord_runs t i none) (fun _ _ => rfl) failed _).trans runs⟩

end Copied

end Sys2Proof.Machine
end


section
namespace Sys2Proof.Machine

/-! ## The rows of a stack (R356, R357, R362, R494) -/

section Rows
variable {s : State} {m : Fin 4}

theorem Whole.port_inside (whole : Whole s) (m : Fin 4) : (m : Nat) < s.mems.length := m.isLt.trans_eq whole.mems.symm

theorem gives_stackRefresh (whole : Whole s) (m : Fin 4) : Gives (.stackRefresh m) s (fun u =>
    u = { s with mems := u.mems, draws := u.draws }
      ∧ getMemPort u m = { getMemPort s m with refreshes := (getMemPort s m).refreshes + 1, temp := (getMemPort u m).temp }
      ∧ ∀ k, k ≠ m.val → getMemPort u k = getMemPort s k) := by
  have own := getMemPort_setMemPort_same s m
    (fun p => { p with refreshes := p.refreshes + 1, temp := Config.stackTemp s.draws }) (whole.port_inside m)
  refine ⟨_, rfl, rfl, ?_, fun k other => getMemPort_setMemPort_ne s m k _ other.symm⟩
  exact own.trans (congrArg (fun t => { getMemPort s m with refreshes := (getMemPort s m).refreshes + 1, temp := t })
    (congrArg MemPort.temp own).symm)

theorem exec_stackRfmRequest (clock : standing s = false) : exec (.stackRfmRequest m) s
    = .next (if stackUp s m = true then setMemPort s m (fun p => { p with rfm := satAdd p.rfm 1 }) else s) := clocked_of_clocked clock

theorem exec_stackPowerDown (clock : standing s = false) : exec (.stackPowerDown m) s
    = .next (if stackUp s m = true ∧ (getMemPort s m).outstanding = 0 then setMemPort s m (fun p => { p with powerDown := true }) else s) :=
  (clocked_of_clocked clock).trans (congrArg _ (if_congr (by simp) rfl rfl))

theorem exec_laneRepairTimeout (clock : standing s = false) : exec (.laneRepairTimeout m) s
    = .next (if (getMemPort s m).state = 3 then journalStackGone s m true else s) :=
  (clocked_of_clocked clock).trans (congrArg _ (if_congr beq_iff_eq rfl rfl))

/-- Of the journal's pair some stack is up, one under repair not being one. -/
theorem any_pair_repair (repair : (getMemPort s m).state = 3) :
    (pairStacks s.journal.activePair).any (stackUp s) = true ↔ OtherUp s m := by
  rw [List.any_eq_true]
  constructor
  · rintro ⟨c, hc, up⟩
    have other : c ≠ m := fun own => by
      rw [own, stackUp, repair] at up
      exact absurd up (by decide)
    exact ⟨c, hc, other, up⟩
  · rintro ⟨c, hc, -, up⟩
    exact ⟨c, hc, up⟩

theorem laneRepairTimeout_rows (clock : standing s = false) (repair : (getMemPort s m).state = 3) :
    (¬ JournalStack s m → exec (.laneRepairTimeout m) s = .next s)
      ∧ (JournalStack s m → OtherUp s m → exec (.laneRepairTimeout m) s = .next { s with journal := { s.journal with copying := true } })
      ∧ (JournalStack s m → ¬ OtherUp s m → s.journal.hold = true → exec (.laneRepairTimeout m) s = .next s)
      ∧ (JournalStack s m → ¬ OtherUp s m → s.journal.hold = false → Gives (.laneRepairTimeout m) s (fun u =>
          u.journal = { s.journal with hold := true, copying := false }
          ∧ (s.keeper.state = .ready ∨ s.keeper.state = .recover → u.keeper.state = .hold ∧ u.keeper.code = 0x0517)
          ∧ u = { s with journal := u.journal, keeper := u.keeper })) := by
  have row := exec_laneRepairTimeout (m := m) clock
  rw [if_pos repair] at row
  refine ⟨fun h => ?_, fun h other => ?_, fun h alone hold => ?_, fun h alone free => ⟨enterHold s, ?_, enterHold_journal s, enterHold_keeper, ?_⟩⟩
  · rw [row, journalStackGone_other h]
  · rw [row, journalStackGone_mine h, if_pos ((any_pair_repair repair).mpr other), if_pos rfl]
    rfl
  · rw [row, journalStackGone_mine h, if_neg (mt (any_pair_repair repair).mp alone), if_pos hold]
  · rw [row, journalStackGone_mine h, if_neg (mt (any_pair_repair repair).mp alone), if_neg (by simp [free])]
  · obtain ⟨_, _, _, _, e⟩ := enterHold_holdOnly s
    rw [e]

/-- A stack that trains (R357). -/
theorem gives_stackTrainingDone {capacity spares : BitVec 8} {height : BitVec 5} (whole : Whole s) (clock : standing s = false)
    (training : (getMemPort s m).state = 0 ∨ (getMemPort s m).state = 1) (open_ : portsOpen s = true)
    (shape : stackShapeOk capacity.toNat height.toNat = true) :
    Gives (.stackTrainingDone m true capacity height spares) s (fun u =>
      getMemPort u m = { getMemPort s m with
        state := 2, capacity := capacity, height := height, stackGiB := capacity, spareLeft := spares, repaired := 0, marked := []
        imageStale := (getMemPort u m).imageStale }
      ∧ findRecovery u 6 m = none ∧ u.comb = s.comb ∧ Mirrored s u m ∧ u.runs = s.runs
      ∧ (JournalStack s m → ∀ x ∈ s.journal.records, (∃ c ∈ x.copies, c ≠ m.val ∧ stackUp s c = true) →
          ∃ y ∈ u.journal.records, y.lsn = x.lsn ∧ m.val ∈ y.copies)) := by
  obtain ⟨comb, runs⟩ := returned_comb_runs (f := trainedPort capacity spares height) m.isLt whole.mems
  refine ⟨_, (exec_stackTrainingDone_trains clock training open_).trans (congrArg _ (if_pos (by simp [shape]))), ?_, findRecovery_returned,
    comb, mirrored_returned m.isLt whole.mems fun _ => rfl, runs, fun mine x held elsewhere => mem_returned_records m.isLt whole.mems mine held elsewhere⟩
  exact getMemPort_returned m.isLt whole.mems

/-- One that does not is failed (R357). -/
theorem gives_stackTrainingDone_failed {trained : Bool} {capacity spares : BitVec 8} {height : BitVec 5} (whole : Whole s)
    (clock : standing s = false) (training : (getMemPort s m).state = 0 ∨ (getMemPort s m).state = 1) (open_ : portsOpen s = true)
    (bad : ¬ (trained = true ∧ stackShapeOk capacity.toNat height.toNat = true)) :
    Gives (.stackTrainingDone m trained capacity height spares) s (fun u =>
      (getMemPort u m).state = 4 ∧ u.comb = s.comb ∧ u.stackMem = s.stackMem) := by
  have alive : (getMemPort s m).state ≠ 4 := by
    rcases training with zero | one
    · rw [zero]; decide
    · rw [one]; decide
  obtain ⟨state, -, comb, stack⟩ := stackFailed_port (whole.port_inside m) alive
  exact ⟨_, (exec_stackTrainingDone_trains clock training open_).trans (congrArg _ (if_neg (by simpa using bad))), state, comb, stack⟩

/-- A repaired stack (R494). -/
theorem gives_laneRepairComplete (whole : Whole s) (clock : standing s = false) (repair : (getMemPort s m).state = 3) :
    let q := getMemPort s m
    let n := min q.marked.length q.spareLeft.toNat
    Gives (.laneRepairComplete m) s (fun u => (getMemPort u m).state = 2 ∧ (getMemPort u m).spareLeft.toNat = q.spareLeft.toNat - n
      ∧ (getMemPort u m).marked = q.marked.drop n ∧ (getMemPort u m).repaired = satAdd q.repaired n
      ∧ findRecovery u 6 m = none ∧ Mirrored s u m) := by
  intro q n
  have port := getMemPort_returned (f := repairedPort) m.isLt whole.mems
  have left : q.spareLeft.toNat - n < 256 := (Nat.sub_le _ _).trans_lt q.spareLeft.isLt
  refine ⟨_, (exec_laneRepairComplete clock).trans (congrArg _ (if_neg (by simp [repair]))), ?_, ?_, ?_, ?_, findRecovery_returned,
    mirrored_returned m.isLt whole.mems fun _ => rfl⟩
  · rw [port]
    rfl
  · rw [port]
    exact (BitVec.toNat_ofNat ..).trans (Nat.mod_eq_of_lt left)
  · rw [port]
    rfl
  · rw [port]
    rfl

/-- The stack's failure, in the order of the obligation. -/
theorem gives_stackFailure (whole : Whole s) (clock : standing s = false) (alive : (getMemPort s m).state ≠ 4) :
    Gives (.stackFailure m) s (fun u =>
      (getMemPort u m).state = 4 ∧ (getMemPort u m).outstanding = 0 ∧ u.comb = s.comb ∧ u.stackMem = s.stackMem
      ∧ (∀ x ∈ movesOn s m, (∀ y ∈ (getForager u x.1).moves, y.run = x.2.1.run → y.ref ≠ x.2.1.ref)
          ∧ (¬ GivenUp s m → Faultable s x.2.1.run → ∃ e, (getRun u x.2.1.run).bind Run.fault = some e ∧ e.code = 0x0403))
      ∧ (¬ JournalStack s m → ¬ GivenUp s m → u.journal = s.journal)
      ∧ (JournalStack s m → ¬ GivenUp s m → OtherUp s m → u.journal.copying = true)
      ∧ (JournalStack s m → ¬ GivenUp s m → ¬ OtherUp s m → u.journal.hold = true
          ∧ (s.journal.hold = false → s.keeper.state = .ready ∨ s.keeper.state = .recover → u.keeper.state = .hold ∧ u.keeper.code = 0x0517))
      ∧ (GivenUp s m → u.journal.activePair = 1 - s.journal.activePair ∧ u.journal.copying = false
          ∧ (s.journal.sinceCheckpoint + s.keeper.orders.length < 4096 → ∀ n o, findOrder s n = some o → o.state = .accepted → o.acceptLost = true →
              ∃ o', findOrder u n = some o' ∧ o'.state = .abandoned ∧ o'.code = 0x0294))) := by
  have inside := whole.port_inside m
  obtain ⟨state, idle, comb, stack⟩ := stackFailed_port inside alive
  exact ⟨_, clocked_of_clocked clock, state, idle, comb, stack,
    fun x hx => ⟨stackFailed_moveGone alive hx, fun held faultable => stackFailed_stackFaulted alive held hx faultable⟩,
    stackFailed_journal_other alive, stackFailed_copying inside alive, stackFailed_hold inside alive, stackFailed_givenUp alive⟩

theorem exec_stackFailure_failed (clock : standing s = false) (failed : (getMemPort s m).state = 4) : exec (.stackFailure m) s = .next s :=
  (clocked_of_clocked clock).trans (congrArg _ (if_pos (beq_iff_eq.mpr failed)))

end Rows

/-- Settles O59: what a returning stack is given, the failure of a stack, and the journal's answers, each by the lemma of its
row. (The name is not `stacks`, which is a token of Mathlib.) -/
theorem memoryStacks : Obligations.Stacks := by
  unfold Obligations.Stacks
  intro s whole
  refine ⟨gives_stackRefresh whole, rfl, fun clock => ⟨fun m => ?_, exec_journalCopyComplete_idle clock, gives_journalCopyComplete clock⟩⟩
  refine ⟨fun trained capacity height spares => ⟨exec_stackTrainingDone_idle clock, fun training open_ => ⟨?_, fun bad => ?_⟩⟩,
    fun up => ?_, fun down => ⟨?_, ?_⟩, fun up idle => ?_, fun busy => ?_, exec_stackFailure_failed clock, gives_stackFailure whole clock,
    fun other => ⟨?_, ?_⟩, gives_laneRepairComplete whole clock, laneRepairTimeout_rows clock⟩
  · rintro rfl low high step heights
    exact gives_stackTrainingDone whole clock training open_ (stackShapeOk_iff.mpr ⟨low, high, step, heights⟩)
  · refine gives_stackTrainingDone_failed whole clock training open_ fun ⟨done, shape⟩ => ?_
    obtain ⟨low, high, step, heights⟩ := stackShapeOk_iff.mp shape
    rcases bad with undone | bad
    · exact nomatch done.symm.trans undone
    · omega
  · rw [exec_stackRfmRequest clock, if_pos up]
  · rw [exec_stackRfmRequest clock, if_neg (by simp [down])]
  · rw [exec_stackPowerDown clock, if_neg (by simp [down])]
  · rw [exec_stackPowerDown clock, if_pos ⟨up, idle⟩]
  · rw [exec_stackPowerDown clock, if_neg fun ⟨_, idle⟩ => busy.ne' idle]
  · rw [exec_laneRepairComplete clock, if_pos other]
  · rw [exec_laneRepairTimeout clock, if_neg other]

end Sys2Proof.Machine
end
